-- ==== Sys2Proof/Word.lean ====
section
/-! DEFINITION. The word types of the TMH-384 model: bytes, 32-bit register words, register addresses. -/

namespace Sys2Proof

/-- One byte of a bale, a frame, a memory image (R5: least significant byte first). -/
abbrev Byte := BitVec 8

/-- One 32-bit register word (R9). -/
abbrev Word := BitVec 32

/-- A 20-bit register byte address: page number × 0x1000 plus offset (R9). -/
abbrev Addr := BitVec 20

end Sys2Proof
end

