-- ==== Sys2Proof/Syntax.lean ====
section
/-! DEFINITION. The commands of the hub: one constructor per row of spec/opcode_table.json, with the operands the row's rule
lets vary. A command is an event at the hub's pins, in its analogue world, at its registers or in time. -/

namespace Sys2Proof

/-- The two uplink paths (chapter 13). -/
inductive Trunk where
  | a | b
  deriving DecidableEq, Repr

/-- The four register masters, numbered 0–3 in this order (R15, R352). -/
inductive Master where
  | dlA | dlB | mgmt | i2c
  deriving DecidableEq, Repr

/-- What asserts the POR (R424). -/
inductive PorCause where
  | vdd | vddio | resetN
  deriving DecidableEq, Repr

/-- The supply rails of R422. -/
inductive Rail where
  | vdd | vdda | vddlA | vddlB | vddio | vddp
  deriving DecidableEq, Repr

/-- Nominal level of a rail in mV (R422). -/
def Rail.nominal : Rail → Nat
  | .vdd => 900
  | .vdda => 1200
  | .vddlA => 1000
  | .vddlB => 1000
  | .vddio => 1800
  | .vddp => 3300

/-- The two network time bases that software steers (R293). -/
inductive NetBase where
  | tb1 | tb3
  deriving DecidableEq, Repr

/-- The two bales an engine has in progress (R170): raw in Q0 + s, features in Q6 + s. -/
inductive BaleKind where
  | raw | feat
  deriving DecidableEq, Repr

/-- What clears DL_LOCK (R240). -/
inductive LockLoss where
  | commas | codeErrors | bitLock | signal
  deriving DecidableEq, Repr

/-- One received downlink symbol: K character or data, its byte, and whether it is invalid for the running disparity (R237). -/
structure Sym where
  k   : Bool
  b   : Byte
  bad : Bool := false
  deriving DecidableEq, Repr

/-- One received downlink frame: its symbols (8 of them, R260) and the position of its first K28.5 bit within its landing slot in
phase steps (R262, R263). -/
structure DlFrame where
  syms  : List Sym
  phase : Nat
  deriving DecidableEq, Repr

/-- What one channel's tap of the phase spine measured in one slot, in raw spine units from the slot edge: both sampling instants
(R70). -/
structure SpineTap where
  ch : Nat
  m0 : Int
  m1 : Int
  deriving DecidableEq, Repr

/-- What the calibration loop estimates of one converter's parked slice at the first oasis slot: gain error in parts per million,
offset error in thousandths of an LSB referred to the converter input (R53). -/
structure SliceEst where
  ch   : Nat
  gain : Int
  ofs  : Int
  deriving DecidableEq, Repr

/-- What the hub's own measuring circuits saw in the slot that ends: spine taps (R70), raw units counted per sample period (R71),
the standby clock edge against CK_CORE in phase steps (R84), bit errors of each downlink's monitor sampler against its data sampler
(R250). -/
structure SlotObs where
  taps  : List SpineTap := []
  scale : Nat := 0x8000
  skew  : Option Int := none
  eyeA  : Nat := 0
  eyeB  : Nat := 0
  deriving DecidableEq, Repr

/-- The commands, one constructor per row of the opcode table. An operand with a default is one the row's summary leaves out in the
common case: a rail that falls to 0 V or rises to its nominal level, RESET_N high, a TRIG_IN edge at the start of its slot, an
input level that lasts, the address 0x60 of ADR 0, the first word access, TRST_N low. -/
inductive Instr where
  -- power, reset and start-up (chapters 22, 17, 18, 01)
  | porAssert (cause : PorCause)
  | porRelease (adr : Fin 16) (resetN : Bool := true)
  | userStoreLoad (flashId : BitVec 24)
  | corePllFirstLock
  | railLoss (r : Rail) (mv : Nat := 0)
  | railReturn (r : Rail) (mv : Nat := r.nominal)
  | xtalLoss
  | xtalReturn
  -- orbit, slot map and oasis (chapter 02)
  | slotAdvance (obs : SlotObs)
  | cutoff
  | orbitBoundary (obs : SlotObs)
  | idleGroupApply
  | smapCopyEnd (k : Fin 4)
  | orbitMark
  | resync
  | orbCtlResync (m : Master)
  | oasisBegin
  | oasisStart (slices : List SliceEst)
  | rotationEnd (diffs : List (Nat × Nat))
  | pedestalTracking
  | pulserDiagnostics (cols rows : List Nat)
  | diagVerdicts
  -- sampling and channel processing (chapters 03, 05)
  | sampleConversion (c : Fin 384) (j : Fin 2) (level : Int) (peak : Nat) (onEdge cmBad : Bool)
  | converterReady (c : Fin 384)
  | filterOutput (c : Fin 384)
  | peakFinal (c : Fin 384)
  -- flint path (chapter 06)
  | flintLeadingEdge (c : Fin 384) (uv : Int) (ps : Nat) (tot : Nat := 0) (rest : Int := 0)
  | flintOutputFall (o : Fin 7) (ps : Nat)
  | stuckMask (c : Fin 384)
  | stuckRelease (c : Fin 384)
  | holdoffLatchClear (i : Fin 6)
  -- downlink (chapter 12)
  | downlinkFrame (t : Trunk) (f : DlFrame)
  | accept
  | update
  | arm
  | testPulse
  | nop
  | cmdUnknown
  | probeEcho (frac : Nat)
  | controlPacket (t : Trunk)
  | controlResponse (t : Trunk)
  | dlCtlWrite (m : Master) (t : Trunk) (v : Word)
  | timeTransferMessage
  -- acquisition (chapter 07)
  | selfTrigger
  | trigInEdge (ps : Nat := 0) (late : Bool := false)
  | softTrig (m : Master)
  | armCmdArm (m : Master)
  | disarm (m : Master)
  | primingEnd
  | holdoffEnd
  | trigOutFall
  | liftStart (i : Fin 6)
  | liftEnd (i : Fin 6)
  -- compression (chapter 08)
  | verifyError (i : Fin 6) (code : Byte)
  | baleClose (i : Fin 6) (kind : BaleKind)
  | cmpFlush (m : Master) (i : Fin 6) (taken : Nat)
  | tpStart (m : Master) (i : Fin 6) (cmpEn : Bool)
  | tpJobDone (i : Fin 6)
  | tpInWrite (m : Master) (i : Fin 6) (w : Word)
  | tpOutRead (m : Master) (i : Fin 6)
  -- Serai (chapter 09)
  | seraiDataWord (q : Fin 32) (w : Word)
  | seraiHdrWord (q : Fin 32) (i : Fin 4) (w : Word)
  | seraiEndWord (q : Fin 32) (w : Word) (v : Fin 4)
  | seraiCancel (q : Fin 32)
  | heldWriteComplete (q : Fin 32)
  | retentionEnd (q : Fin 32)
  | replayEnd
  | queueDisabled (q : Fin 32)
  | qhSel (m : Master) (q : Fin 32)
  | qhWr (m : Master) (w : Word)
  | qhWrLast (m : Master) (w : Word)
  | qhWrHdr (m : Master) (i : Fin 4) (w : Word)
  | qhCancel (m : Master) (wb : Fin 4)
  | qhRd (m : Master)
  | launchRelease (q : Fin 32)
  | launchLate (q : Fin 32)
  -- uplink framing (chapter 10)
  | caravanFrameSend
  | towerFrameSend
  | manifestWrite
  | creditAdvance
  -- lanes (chapter 11)
  | trunkSupplyUp (t : Trunk)
  | trunkSupplyLoss (t : Trunk)
  | receiverDetectPulse (t : Trunk) (terminated : BitVec 6)
  | trainingFrame (t : Trunk) (f : DlFrame)
  | trainTimeout (t : Trunk)
  | fwdClockLoss (t : Trunk)
  | fwdClockReturn (t : Trunk)
  | fwdCountWindow (t : Trunk) (n : BitVec 12)
  | dlSignalChange (t : Trunk) (mv : Nat)
  | dlLockAcquire (t : Trunk)
  | dlLockLoss (t : Trunk) (why : LockLoss)
  | retrain (m : Master) (t : Trunk)
  -- core PLL and supervisor (chapters 04, 13)
  | pllPhaseLock
  | pllHoldTimeout
  | coreResume
  | uncompAck (m : Master)
  | evidenceChange (t : Trunk)
  | heartbeatToggle (t : Trunk)
  | heartbeatTimeout (t : Trunk)
  | supervisorDecision
  | prefWaitExpiry
  | moveStart
  | takeoverCheckEnd (fails : BitVec 6)
  | pcycleOffEnd (t : Trunk)
  | repairTimeout (t : Trunk)
  | autoRepair (t : Trunk)
  | scrubPass
  | svStatWrite (m : Master) (v : Word)
  -- time bases (chapter 14)
  | incrCommit (m : Master) (n : NetBase) (v : Word)
  | holdover (n : NetBase)
  | tbLatch (m : Master)
  | tsePop (m : Master)
  -- management port, I2C, SPI, JTAG (chapter 15)
  | mgFrameReceive (frame : List Byte) (m64 : Fin 64)
  | registerRequest
  | mgFrameSend (m64 : Fin 64) (starved : Option Nat)
  | mgLinkChange (sync an : Bool)
  | i2cWriteTransaction (bytes : List Byte) (addr : BitVec 7 := 0x60)
  | i2cReadTransaction (n : Nat) (addr : BitVec 7 := 0x60)
  | i2cStretchLimit (k : Nat := 0)
  | spiRead (m : Master) (lenM1 : Byte)
  | spiProgram (m : Master) (lenM1 : Byte)
  | spiSectorErase (m : Master)
  | spiReadId (m : Master) (flashId : BitVec 24)
  | spiReadStatus (m : Master) (sr : Byte)
  | spiOpDone
  | spiFail
  | extest
  | idcode
  | samplePreload (bits : BitVec 15)
  | highz
  | bypass
  -- register fabric (chapters 16, 25)
  | registerWrite (m : Master) (a : Addr) (v : Word)
  | postedWriteEffect (page : Byte)
  | guardComplementWrite (m : Master) (a : Addr) (v : Word)
  | captureLowRead (m : Master) (a : Addr)
  | captureHighRead (m : Master) (a : Addr)
  | updStrobe (m : Master) (groups : BitVec 16)
  | tallyClear (m : Master) (page : Byte) (mask : BitVec 16)
  | causeClear (m : Master) (page : Byte)
  | noticeWrite
  | drainEnd (page : Byte)
  -- calibration store (chapter 18)
  | csUserViewWrite (m : Master) (i : Fin 64) (w : Word)
  | saveDone (ok : Bool)
  | trimApplyEffect
  -- monitor converter (chapter 19)
  | monStart (m : Master)
  | monStop (m : Master)
  | monCfgWrite (m : Master) (v : Word)
  | monitorResult (level : Int)
  -- light pulser (chapter 20)
  | pulserFiring
  | rowSwitchOpen
  | blankingEnd
  | siteVerdict (k : Fin 16) (inRegulation : Bool)
  -- heritage (chapter 21)
  | heritageFormatStart
  -- test checkers and TRST_N
  | prbsSync (t : Trunk) (loopback : Bool) (errs : Nat)
  | prbsSyncLoss (t : Trunk) (loopback : Bool) (errs : Nat)
  | testLogicReset (low : Bool := true)
  deriving DecidableEq, Repr

end Sys2Proof
end

