-- ==== Sys2Proof/Decode.lean ====
section
/-! DEFINITION. The table's bits: spec/opcode_table.json gives no row any bits, so no word spells a command. -/

namespace Sys2Proof

/-- The command that a word spells by the table's bits. Every row of the table has an empty field list, so there is none. -/
def decodeTableWord (nbits w : Nat) : Option Instr :=
  match nbits, w with
  | _, _ => none

end Sys2Proof
end

