-- ==== Sys2Proof/Config.lean ====
section
/-! DEFINITION. What an implementation fixes and the manual leaves open: uninterpreted values only. -/

namespace Sys2Proof

/-- The n-th value the manual leaves open: a sample code taken with the common mode outside 0.50–0.70 V (R44), the flint levels at the
loss of VDDA and a monitor result with VDDP lost (R432), a byte that a failed save or a timed-out flash operation leaves (R375, R326),
and the rest of log entry 4. The step reads it at the free-value counter of the state and advances the counter. It has no body:
nothing is known of it. -/
opaque Config.freeValue : Nat → BitVec 17

/-- How many output bytes the test port's decoder had produced when an engine's bale ended its job (R177), by core cycle and seam: the
spec gives no rate. It has no body. -/
opaque Config.tpProduced : Nat → BitVec 17

end Sys2Proof
end

