-- ==== Sys2Proof/Machine/State.lean ====
section
/-! DEFINITION. The state of the hub as plain data. Every structure's field defaults are its values under the power-on reset
(R359, R424; DESIGN CHOICE, log entry 3, for the values the spec does not give), so that `State.reset` is the structure of defaults. -/

namespace Sys2Proof.Machine

/-- A sparse memory: key and value pairs, keys strictly rising, no entry equal to what an unlisted key reads as. -/
abbrev Ram (α : Type) := List (Nat × α)

/-- A triplicated register word (R288): its three copies. -/
structure Tri where
  a : Word
  b : Word
  c : Word
  deriving DecidableEq, Repr, Inhabited

/-- Power, reset, clocks and time (chapters 22, 01). -/
structure Power where
  por         : Bool := true     -- the POR holds (R424)
  vdd         : Bool := true     -- POR detectors on VDD and VDDIO (R440), level of RESET_N (R424)
  vddioPor    : Bool := true
  resetN      : Bool := true
  released    : Bool := false    -- it has released once (R424)
  vdda        : Bool := true     -- rails in range (R432)
  vddio       : Bool := true
  vddp        : Bool := true
  vddlA       : Bool := false    -- trunk supplies (R433); LN_STAT.VDDL_OK resets to 0
  vddlB       : Bool := false
  xtal        : Bool := false    -- XTAL_MG runs (R17)
  xtalLost    : Bool := true     -- BOOT_STAT.XTAL_LOST (R360)
  coreRun     : Bool := false    -- CK_CORE runs (R428)
  coreEver    : Bool := false    -- CK_CORE has run since the POR (R429)
  coreStopped : Bool := false    -- SV_STAT.CORE_STOPPED (R283)
  stage       : Nat := 1         -- BOOT_STAT.STAGE (R361)
  sup         : Nat := 0         -- CK_SUP cycles since the supervisor started: TBASE2 / 50 ns (R295)
  cc          : Nat := 0         -- core cycles run
  elapsed     : Nat := 2048      -- slots elapsed (R131), counted from 2,048 so that earlier slots have numbers too
  cyc         : Nat := 0         -- core cycle in the slot
  slotLen     : Nat := 8         -- core cycles of this slot (R3; 8 + Δ in the long slot of R69)
  freeCtr     : Nat := 0         -- counter of the free values: the MODEL's own (log entry 4)
  adr         : Nat := 0         -- ADR[3:0] as sampled (R321)
  deriving DecidableEq, Repr, Inhabited

/-- The JTAG test access port (R327). -/
structure Jtag where
  ir       : Nat := 1            -- instruction register; IDCODE in Test-Logic-Reset, as IEEE 1149.1 has it
  tlr      : Bool := true        -- Test-Logic-Reset
  tdo      : Word := 0           -- the data register IDCODE shifts out
  boundary : BitVec 15 := 0      -- boundary register: one cell for each covered pin (R327; order of R463, log entry 63)
  taken    : Bool := false       -- EXTEST or HIGHZ has taken over the covered pins
  trst     : Bool := false       -- TRST_N is low and holds the port in Test-Logic-Reset
  deriving DecidableEq, Repr, Inhabited

/-- An open guard pair of one master on one page (R345). -/
structure Guard where
  page : Nat
  off  : Nat
  v    : Word
  deriving DecidableEq, Repr, Inhabited

/-- What the fabric keeps for one master (R336, R345) and the last word it read. -/
structure MasterSt where
  shadow : BitVec 64 := 0
  fresh  : Bool := false
  stale  : Bool := false
  pair   : Nat := 0              -- address of the captured low word
  guards : List Guard := []
  rdata  : Word := 0
  cause  : Nat := 0              -- cause code of this master's last access, 0 when it was not refused
  deriving DecidableEq, Repr, Inhabited

/-- The differing copies of a triplicated word that is not a register, buffer or token word: the control state machines (R288). They
differ from the voted code until the word is written again or scrubbed. -/
structure Upset where
  page : Nat                     -- page whose clock domain the word is in
  word : Nat                     -- which control word of the page
  m0   : Nat                     -- bits in which copies 0, 1 and 2 differ from the voted code
  m1   : Nat := 0
  m2   : Nat := 0
  was  : Nat                     -- voted code when the upset fell
  deriving DecidableEq, Repr, Inhabited

/-- A notice of R470. -/
structure Notice where
  kind    : Nat
  page    : Nat
  item    : Nat
  value   : Nat
  detail  : Nat
  supp    : Nat := 0
  lost    : Nat := 0
  slot    : Nat := 0
  orbit   : Nat := 0
  stopped : Bool := false
  cc      : Nat := 0             -- core cycle of the event, for the order of R472
  deriving DecidableEq, Repr, Inhabited

/-- A posted write that waits for its slow domain (R342). -/
structure Posted where
  m : Master
  a : Nat
  v : Word
  deriving DecidableEq, Repr

/-- The header state of one page (R332, R333, R342, R350, R351). -/
structure PageSt where
  refused  : Bool := false
  cause    : Nat := 0
  tally    : Ram Nat := []
  gen      : Nat := 0
  active   : Bool := true
  draining : Bool := false
  deferred : Bool := false       -- EN = 1 applied while draining (R351)
  startAt  : Nat := 0            -- elapsed slot of the block's last (re)start
  drainAt  : Nat := 0            -- elapsed slot in which it last began to drain, and core cycle of it
  drainCyc : Nat := 0
  bumpAt   : Nat := 0            -- cycle of the page's domain in which tallies last rose, and which: item, core cycle (R348)
  bumped   : List (Nat × Nat) := []
  posted   : Option Posted := none
  ntcAt    : Option Nat := none  -- slot of the page's last posted notice
  ntcSupp  : Nat := 0            -- edges not posted since
  held     : Option Notice := none -- CK_SUP page's notice held while CK_CORE is stopped
  heldSupp : Nat := 0
  deriving DecidableEq, Repr

/-- The register fabric (chapter 16) with the notice store. -/
structure Fabric where
  regs      : Ram Tri := []      -- words in force, by byte address; unlisted: the reset word
  buf       : Ram Tri := []      -- buffered RB and GD words that are pending
  frozen    : Option (Ram Tri) := none -- the buffered words as they stood at the cutoff (R33)
  frozenPg  : List Nat := []     -- pages with UPD_PENDING at 1 at the cutoff (R35)
  late      : List Nat := []     -- words written after the cutoff
  hist      : List (Nat × Nat × Ram Tri) := [] -- recent applications: slot, core cycle of the slot, words in force before (R36)
  pages     : Ram PageSt := []   -- unlisted: the header state at reset
  masters   : List MasterSt := [{}, {}, {}, {}]
  marked    : BitVec 16 := 0     -- UPD_STAT (R352)
  next      : BitVec 16 := 0
  applied   : BitVec 16 := 0     -- UPD_LAST
  refused   : BitVec 16 := 0
  idleAt    : List (Nat × BitVec 16) := [] -- groups marked in IDLE and the core cycle from which they are applied (R340)
  waiting   : BitVec 16 := 0     -- groups held back by a slot map copy (R27)
  store     : List Notice := []  -- notice store of 32 (R350)
  lost      : Nat := 0
  upsets    : List Upset := []   -- differing copies of control state machine words (R288)
  passes    : Nat := 0           -- SV_SCRUB.PASSES
  deriving DecidableEq, Repr

/-- States of the orbit counter (R19), with the codes of ORB_STAT.STATE. -/
inductive OrbState where
  | idle | locked | seek
  deriving DecidableEq, Repr, Inhabited

/-- What the hub keeps of one recent slot: its tag (R130) and what R36 lets the slot decide for its samples. -/
structure Tag where
  slot  : Nat := 0
  orbit : Nat := 0
  idle  : Bool := true
  orb0  : Bool := false          -- slot 0 of an orbit or slot of a realignment (R217)
  first : Bool := false          -- slot 0 of the orbit with which the mark that ended IDLE began: no flush comes with it (R19, R217)
  hold  : Bool := false          -- PH_STAT.HOLD or UNCOMP was 1 in the slot (R87, R217)
  swap  : Bool := false          -- a rotation slot (R54)
  late  : Bool := false          -- the second half of the rotation (R54)
  fir   : Bool := false          -- FIR_SET of the live entry (R24)
  self  : Bool := false          -- SELF_TRIG of the live entry
  user  : Nat := 0               -- USER of the live entry
  oasis : Bool := false          -- oasis work ran (R217)
  ped   : Bool := false          -- a pedestal-tracking slot (R30)
  flint : Nat := 0               -- flint map, bit t for tower t (R124)
  stuck : Nat := 0               -- towers with a stuck-masked channel at the slot start (R217)
  cc0     : Nat := 0             -- core cycle with which the slot began
  cut     : Option Nat := none   -- core cycle of the slot in which CK_CORE stopped (R283)
  deriving DecidableEq, Repr, Inhabited

/-- The oasis of the present orbit (R28–R31). -/
structure Oasis where
  confirmed : Bool := false      -- the oasis-begin command took effect in its first slot (R29)
  running   : Bool := false      -- oasis work is in progress
  whole     : Bool := false      -- oasis work ran through the whole oasis
  start     : Nat := 0           -- elapsed slot of the first oasis slot
  len       : Nat := 0
  rotating  : Bool := false      -- a rotation is in progress (R54)
  sweeping  : Bool := false      -- the spine sweep is in progress (R70)
  swept     : Bool := false      -- it is complete and kept (R71, R72)
  holdSeen  : Bool := false      -- PH_STAT.HOLD was 1 in a slot of the sweep (R72)
  pedDone   : Bool := false
  eyeOn     : List Trunk := []   -- trunks whose eye is measured (R250)
  deriving DecidableEq, Repr, Inhabited

/-- A slot map copy in progress (R27). -/
structure SmapCopy where
  start   : Nat
  written : List Nat
  deriving DecidableEq, Repr, Inhabited

/-- Orbit control and the slot map (chapter 02). -/
structure Orbit where
  st        : OrbState := .idle
  slot      : Nat := 0
  orbit     : Nat := 0
  markSeen  : Bool := false      -- a mark took effect in slot ORB_OFS of this orbit (R20)
  pastCut   : Bool := false      -- the cutoff of this orbit has passed (R33)
  realigned : Bool := false      -- this orbit started at a realignment
  firstSlot : Nat := 0           -- slot number with which this orbit started
  oasis     : Oasis := {}
  live      : Ram Word := []     -- slot map banks (R23), unlisted: 0
  shadow    : Ram Word := []
  dirty     : List Nat := []     -- shadow entries written since the page's last application
  lateMap   : Ram Word := []     -- entries written after the cutoff, as they stood at the cutoff
  copies    : Ram SmapCopy := [] -- by quarter
  sweptWait : Bool := false      -- a completed oasis's sweep waits for the boundary (R31)
  tags      : List Tag := [{}]   -- newest first; the head is the present slot
  deriving DecidableEq, Repr, Inhabited

/-- One converter (chapter 03). -/
structure Conv where
  parked   : Nat := 10
  down     : Bool := true        -- the parked number goes down (R52)
  fails    : Nat := 0            -- consecutive judgements not converged (R56)
  retired  : Bool := false
  rotating : Bool := false
  rotAt    : Nat := 0            -- elapsed slot in which its last rotation began (R54)
  resid    : Nat := 0xFF
  residNew : Option Nat := none  -- waits for the boundary (R31)
  shown    : Nat := 10           -- parked number as of the last boundary (R64)
  on       : Bool := false       -- powered
  ready    : Bool := false       -- delivers valid samples (R59, R429)
  readyT   : Nat := 0            -- first instant with valid samples, as `instTick`
  onT      : Nat := 0            -- instant of the last power-up
  offT     : Nat := 0            -- instant of the last power-down
  wasReady : Bool := false       -- readiness and power-down before that power-up, for the samples still in the pipeline (R61)
  wasT     : Nat := 0
  wasOff   : Nat := 0
  shownRet : Bool := false       -- retirement as of the last boundary (R64)
  slices   : List Nat := []      -- gain and offset trims of slices 0–10 (R52, R53); unlisted: not loaded yet
  recov    : Nat := 0            -- samples that still carry OVR (R48)
  high     : Bool := false       -- rail most recently exceeded
  ovr      : Bool := false       -- the last word carried OVR
  wr       : Nat := 0            -- number after that of the last sample written to the ring (R128)
  deriving DecidableEq, Repr, Inhabited

/-- A sample word on its way through the filter: slot and sample in the slot, word, converter enabled. -/
structure Samp where
  e  : Nat
  j  : Nat
  w  : Nat
  en : Bool
  deriving DecidableEq, Repr, Inhabited

/-- A pedestal-subtracted sample in the delay line, with its flags (R101). -/
structure Tap where
  n    : Nat                     -- sample number 2 × slot + sample
  x    : Int
  ovr  : Bool
  swap : Bool
  en   : Bool
  deriving DecidableEq, Repr, Inhabited

/-- One filter output (R96). -/
structure Yval where
  n   : Nat
  y   : Int
  sat : Bool
  deriving DecidableEq, Repr, Inhabited

/-- A peak record (R98–R101), as pending or in the feature store (R103). -/
structure Peak where
  n      : Nat                   -- sample number
  energy : Nat
  fine   : Nat
  pu     : Bool := false
  sat    : Bool := false
  bnd    : Bool := false
  swap   : Bool := false
  err    : Bool := false
  deriving DecidableEq, Repr, Inhabited

/-- One channel: phase (chapter 04) and processing (chapter 05). -/
structure Chan where
  track    : Int := 0
  meas     : Int := 0
  history  : List Int := []      -- MEAS of the last 16 sweeps, newest first
  raw      : Option (Int × Int) := none -- measured in the sweep in progress
  rawDone  : Option (Int × Int) := none -- measured in a completed oasis, waits for the boundary (R31)
  lim      : Bool := false       -- its last tracking step was cut short by a limit (R73)
  trim     : Int := 0            -- effective TRIM (R67)
  offs     : List (Nat × Int) := [] -- newest first: slot from which TRIM + TRACK changed, and their sum before (R66)
  ped      : Nat := 0x20000
  pedHist  : List (Nat × Nat) := [] -- newest first: slot from which PED changed, and PED before (R36)
  pedTmp   : Option Nat := none  -- result and rejection of the oasis in progress (R31)
  pedTmpRej : Bool := false
  pedNew   : Option Nat := none  -- result and rejection that wait for the boundary
  pedRej   : Bool := false
  held     : Bool := false
  pedN     : Nat := 0
  pedT     : Nat := 0
  pedSum   : Nat := 0
  inq      : List Samp := []     -- samples not yet filtered, oldest first
  taps     : List Tap := []      -- newest first, at most 10, since the last flush
  ys       : List Yval := []     -- newest first, at most 3, since the last flush
  since    : Nat := 0            -- samples filtered since the last flush
  flushes  : List Nat := []      -- slots with whose first sample a flush of its own comes (R114, R115)
  peaks    : List Peak := []     -- not yet final, oldest first
  deriving DecidableEq, Repr, Inhabited

/-- One discriminator (chapter 06). Instants are in ps of hub time. -/
structure Flint where
  uv     : Int := 0              -- pin level in µV
  on     : Bool := false         -- comparator output (R116)
  contrib : Bool := false        -- the channel contributes (R119)
  last   : Option Nat := none    -- last counted leading edge
  hits   : Nat := 0
  cnt    : Nat := 0              -- consecutive slot starts sampled above
  clr    : Nat := 0              -- consecutive slot starts sampled not above
  above  : Bool := false         -- at the last slot start
  stuck  : Bool := false
  deriving DecidableEq, Repr, Inhabited

/-- One flint output (R119–R123): 0–5 the seams, 6 all channels. -/
structure FlintOut where
  high  : Bool := false
  t0    : Option Nat := none
  latch : Bool := false
  slot  : Nat := 0               -- slot in which the latch clears, fixed at the edge that set it (R123)
  deriving DecidableEq, Repr, Inhabited

/-- Clocking: core PLL, skew and probe (chapter 04). -/
structure Pll where
  ref       : Trunk := .a
  start     : Trunk := .a        -- the trunk on whose clock a stopped PLL starts (R428)
  lock      : Bool := false
  hold      : Bool := false
  holdAt    : Nat := 0           -- core cycle in which HOLD rose
  lockFrom  : Nat := 0           -- slot in which the hold or the change of reference began (R86)
  lvlAt     : Nat := 0           -- core cycle in which HOLD or UNCOMP last rose from both at 0 (R87)
  lvls      : List (Nat × Nat) := [] -- recent intervals of core cycles in which one of them was 1, newest first
  phaseLost : Bool := false
  uncomp    : Bool := false
  ofs       : Int := 0           -- offset applied to the reference (R85)
  skew      : Int := 0
  skewValid : Bool := false
  scale     : Nat := 0x8000      -- SPINE_SCALE
  scaleSum  : Nat := 0
  scaleN    : Nat := 0
  skewMeas  : Option Int := none
  skewVoid  : Bool := false      -- the reference has changed since the sweep: what it measured is the old standby's (R84, R280)
  scaleDone : Nat := 0x8000      -- mean scale and skew of a completed oasis, which wait for the boundary (R31)
  skewDone  : Option (Option Int) := none
  sweptLast : Bool := false
  moved     : Bool := false      -- SKEW is the one a change of reference left (R280)
  deriving DecidableEq, Repr, Inhabited

/-- A served probe on its way to its echo (R79–R81). -/
structure Probe where
  tag   : Nat
  slot  : Nat                    -- landing slot, elapsed (R264)
  t2c   : Int                    -- corrected instant
  trunk : Trunk
  bad   : Bool                   -- HOLD seen or grid moved since
  deriving DecidableEq, Repr

/-- A staged window (R140): words per channel of the list, feature records, and what the bales must report. -/
structure Window where
  seq   : Nat
  kept  : List Nat := []         -- channel list, within the seam
  words : List (Nat × List Nat) := []
  feats : List (Nat × Peak) := []
  ecc   : List Nat := []         -- channels with an uncorrectable ring group
  hold  : Bool := false
  deriving DecidableEq, Repr, Inhabited

/-- A lift in progress (R140). -/
structure Lift where
  seq   : Nat
  start : Nat                    -- core cycle
  len   : Nat                    -- core cycles it takes
  win   : Window                 -- what it copies
  deriving DecidableEq, Repr, Inhabited

/-- One bale an engine codes: image or feature payload, coded payload, bytes of it already presented to Serai. -/
structure Job where
  image    : List Byte := []
  coded    : List Byte := []
  sent     : Nat := 0
  cont     : Bool := false
  last     : Bool := false
  fallback : Bool := false
  ecc      : Bool := false
  flushes  : List Nat := []
  taken    : Nat := 0            -- image bytes the coder has surely taken (R168)
  deriving DecidableEq, Repr, Inhabited

/-- The decoder test port (R176). -/
structure TestPort where
  inp     : Ram Byte := []
  ptr     : Nat := 0
  stepI   : Option Nat := none   -- core cycle in which the hardware last stepped TP_PTR, and TP_OUT_PTR (R348)
  stepO   : Option Nat := none
  running : Bool := false
  done    : Bool := false
  aborted : Bool := false
  err     : Nat := 0
  outLen  : Nat := 0
  outCrc  : Nat := 0
  errPos  : Nat := 0
  outPtr  : Nat := 0
  out     : List Byte := []
  deriving DecidableEq, Repr, Inhabited

/-- One seam: ring bookkeeping, lift, staging buffers, engine (chapters 07, 08). -/
structure Seam where
  startN    : Nat := 0           -- sample number of the seam's start (R142)
  startSlot : Nat := 0
  startOrb  : Nat := 0
  lifts     : List Lift := []    -- lifts in progress, oldest first (R139)
  bufs      : List Window := []  -- staging buffers that hold a window, oldest first
  started   : Bool := false      -- the head buffer is being coded
  raw       : List Job := []     -- raw bales of the head buffer not yet closed
  feat      : List Job := []
  flushing  : Bool := false      -- CMP_CMD.FLUSH reads 1
  lastErr   : Nat := 0
  inBytes   : Nat := 0
  outBytes  : Nat := 0
  tp        : TestPort := {}
  deriving DecidableEq, Repr, Inhabited

/-- A seam's report on an entry (R175, R219). -/
structure Report where
  started  : Bool := false       -- lift started, or nothing to lift
  done     : Bool := false
  status   : Nat := 0x40
  phase    : Bool := false
  ecc      : Bool := false
  her      : Bool := false
  raw      : Nat := 0
  feat     : Nat := 0
  bytes    : Nat := 0
  fallback : Bool := false
  t        : Nat := 0            -- T_s at creation (R226)
  liftAt   : Option Nat := none  -- core cycles at which lift and engine began on it
  liftLen  : Nat := 0
  engAt    : Option Nat := none
  deriving DecidableEq, Repr, Inhabited

/-- The worst-case costs of one entry (R225). -/
structure Cost where
  q : List Nat := [9, 9, 9, 9, 9, 9, 17, 17, 17, 17, 17, 17, 1, 0]   -- COST of Q0–Q12 and Q26
  t : List Nat := [2085, 2085, 2085, 2085, 2085, 2085]               -- T_s
  h : Int := 4320                                                    -- H
  deriving DecidableEq, Repr, Inhabited

/-- One entry of the accept FIFO (R134). -/
structure Entry where
  seq     : Nat
  named   : Nat                  -- elapsed slot
  slot    : Nat
  orbit   : Nat
  ext     : Bool := false
  self    : Bool := false
  pin     : Bool := false
  host    : Bool := false
  overcr  : Bool := false
  seams   : Nat := 0
  arrival : Nat := 0             -- slot number
  created : Nat := 0             -- elapsed slot
  pre     : Nat := 0
  post    : Nat := 0
  user    : Nat := 0
  her     : Bool := false        -- a heritage accept (R406)
  cfg     : Ram Tri := []        -- words in force in its creation slot
  reps    : List Report := []
  hrep    : Report := {}
  cost    : Cost := {}           -- COST_q and T_s at its creation (R226)
  took    : Ram Nat := []        -- cells its bales have taken, by queue
  deriving DecidableEq, Repr

/-- A REFUSED_FULL or replay manifest that waits for the writer (R222, R223). -/
structure Refusal1 where
  seq     : Nat
  lastSeq : Nat
  slot    : Nat
  orbit   : Nat
  flags   : Nat
  seams   : Nat
  user    : Nat
  arrival : Nat
  pre     : Nat
  post    : Nat
  deriving DecidableEq, Repr

/-- Arming states (R147), with the codes of ARM_STAT.STATE. -/
inductive ArmState where
  | disarmed | priming | armed
  deriving DecidableEq, Repr, Inhabited

/-- What an arm event from DISARMED changed, kept for a DISARM in the same slot (R147). -/
structure ArmUndo where
  armAt   : Nat
  armSlot : Nat
  armOrb  : Nat
  taken   : Nat
  hoTo    : Option Nat
  hoN     : Nat
  deriving DecidableEq, Repr, Inhabited

/-- A local trigger: its slot, the slot it named, the SEQ that its entry or its REFUSED_FULL manifest has, and whether it was taken or
refused at a full FIFO; one that came too early or was held off has neither (R136). -/
structure LocalTrig where
  slot  : Nat
  named : Nat
  seq   : Option Nat := none
  taken : Bool := false
  deriving DecidableEq, Repr, Inhabited

/-- Acquisition (chapter 07). -/
structure Acq where
  fifo    : List Entry := []
  seq     : Nat := 0
  total   : Nat := 0
  wmHigh  : Bool := false
  refused : List Refusal1 := []  -- manifest store of 16 (R222)
  mfBusy  : Nat := 0             -- core cycle from which the manifest writer has written its last manifest (R190, R222)
  replay  : List (Nat × Nat) := [] -- pending replay manifests: bales, bytes (R223)
  arm     : ArmState := .disarmed
  armAt   : Nat := 0             -- A, elapsed slot
  armSlot : Nat := 0
  armOrb  : Nat := 0
  disIn   : Option Nat := none
  reArms  : Nat := 0             -- arm events of this slot that would count REARM
  taken   : Nat := 0
  hoTo    : Option Nat := none   -- mode 1: last named slot held off
  hoN     : Nat := 0             -- mode 2: triggers still to ignore
  locals  : List LocalTrig := [] -- local triggers of the present slot (R136)
  pinNext : Nat := 0             -- TRIG_IN edges whose slot m is the next one (R443)
  extIn   : Option (Nat × Nat) := none -- slot of the last ACCEPT that made or joined an entry, and its SEQ (R136)
  armUndo : Option ArmUndo := none
  trigOut : Bool := false
  trigEnd : Nat := 0
  nMon    : Nat := 0             -- bales of types 3, 4, 5 written (R158)
  nPls    : Nat := 0
  nNtc    : Nat := 0
  deriving DecidableEq, Repr

/-- A bale in Serai. -/
structure Bale where
  id    : Nat
  seq   : Nat
  typ   : Nat
  bytes : List Byte
  ord   : Nat := 0               -- order of its first granted byte; 0: none yet (R198)
  rel   : Bool := false          -- its launch had been released before a cut-off frame put another bale back before it (R195, R198)
  deriving DecidableEq, Repr, Inhabited

/-- A retained bale (R196): sent in slot `sent`, kept until slot `till`. -/
structure Retained where
  bale  : Bale
  sent  : Nat
  till  : Nat
  deriving DecidableEq, Repr, Inhabited

/-- A word a writer holds (R190): DATA, or END with its valid count. -/
structure HeldWord where
  w   : Word
  fin : Option Nat
  deriving DecidableEq, Repr, Inhabited

/-- One Serai queue (chapter 09). -/
structure Queue where
  ready    : List Bale := []
  sent     : Nat := 0            -- bytes of the head bale already taken by the reader
  cur      : Option Bale := none -- bale in progress
  held     : Option HeldWord := none
  waiting  : List Bale := []     -- whole bales a fixed writer holds back
  retained : List Retained := []
  total    : Nat := 0
  wmHigh   : Bool := false
  atQuota  : Bool := false
  active   : Bool := true
  draining : Bool := false
  deferred : Bool := false
  released : Bool := false       -- the head bale's launch is released (R195)
  ctUnder  : Bool := false       -- CT_UNDERRUN counted for the head bale (R192)
  curSent  : Nat := 0            -- bytes of the bale in progress already taken, cut through
  abort    : Bool := false       -- an abort mark waits for the reader (R189)
  late     : Bool := false       -- the head was released as late (R308)
  discard  : Bool := false       -- the port discards the rest of the bale in progress (R317)
  deriving DecidableEq, Repr, Inhabited

/-- A stored error (R201): the flipped bits of one 64-bit half of a stored word. One bit is corrected at the read, more are not. -/
structure StoreErr where
  id   : Nat                     -- bale identity
  half : Nat                     -- bytes 8 × half to 8 × half + 7 of the bale
  mask : BitVec 64
  deriving DecidableEq, Repr, Inhabited

/-- Serai (chapter 09). -/
structure Serai where
  qs        : List Queue := List.replicate 32 {}
  replaying : Bool := false
  rlist     : List Nat := []     -- bale identities still to replay
  rsent     : Nat := 0           -- bytes of the head of the list already granted
  rBales    : Nat := 0
  rBytes    : Nat := 0
  ids       : Nat := 0
  ords      : Nat := 0
  last      : Ram Nat := []      -- queue, plus one, of the last grant of each PRI level (R193)
  memLow    : Bool := false
  owner     : Option Master := none
  rdLast    : Bool := false
  rdVb      : Nat := 0
  rdAbort   : Bool := false
  ecc       : List StoreErr := [] -- stored errors (R201)
  deriving DecidableEq, Repr

/-- A trunk's framer side (chapter 10). -/
structure Framer where
  gA      : Nat := 0             -- group counts
  gB      : Nat := 0
  fA      : Nat := 0             -- frame numbers
  fB      : Nat := 0
  busyTo  : Nat := 0             -- elapsed slot in which the next frame may start
  lanes   : Nat := 4             -- data lanes of the frame in progress
  x       : Nat := 0
  adv     : Nat := 0
  cost    : Cost := {}
  unfit   : Bool := false
  caravan : List Byte := []      -- last caravan frame sent
  tower0  : List Byte := []      -- last tower frames sent
  tower1  : List Byte := []
  marker  : List (List Byte) := [] -- marker blocks of the last marker slot, lanes 0–5 of A, then of B
  shares  : List (List Byte) := [] -- share of the frame in progress that each data lane carries (R211)
  laneGrp : List (List Byte) := [] -- the shares' 24-byte groups of the present slot
  last    : Option (Nat × Bale) := none -- queue and bale whose last byte is in the frame in progress (R198)
  satA    : Nat := 0             -- towers whose last word was 0xFFF
  probe   : Option Probe := none -- probe waiting for its echo
  served  : Option Nat := none   -- slot of the last served probe
  recLo   : Word := 0            -- probe record, readable from core cycle recAt on, and the one before it (R81)
  recHi   : Word := 0
  recAt   : Nat := 0
  wasLo   : Word := 0
  wasHi   : Word := 0
  echoAt  : Option Nat := none   -- slot in which the echo was sent
  deriving DecidableEq, Repr

/-- A test checker (R255). -/
structure Checker where
  on   : Bool := false
  sync : Bool := false
  err  : Nat := 0
  deriving DecidableEq, Repr, Inhabited

/-- One trunk's lanes (chapter 11). -/
structure Lanes where
  st       : Nat := 0            -- state code of R243
  since    : Nat := 0            -- CK_SUP cycle of entry
  fwdPres  : Bool := false
  fwdOk    : Bool := false
  fwdCnt   : Nat := 0
  fwdAt    : Nat := 0            -- CK_SUP cycle in which FWD_OK last rose
  dlSignal : Bool := false
  dlLock   : Bool := false
  badSym0  : Nat := 0            -- consecutive frames whose symbol 0 was not K28.5 (R240)
  detected : BitVec 6 := 0
  service  : BitVec 6 := 0       -- IN_SERVICE
  wasIn    : BitVec 6 := 0       -- the set as it was before a test took lanes out (R254)
  good     : Nat := 0            -- run of good training frames (R245)
  runL     : Nat := 0            -- run with LOCKED, DESKEWED, and ACK with equal bytes 2–6
  runD     : Nat := 0
  runA     : Nat := 0
  lastTr   : List Byte := []
  idle     : BitVec 6 := 0       -- lanes left idle at bring-up (R243)
  pulsed   : BitVec 6 := 0       -- terminated lanes of the last detection pulse (R243)
  retrain  : Bool := false       -- LN_CMD.RETRAIN (R249)
  held     : Bool := false       -- has held ACTIVE since its EYE_W was last set to 0xFF (R251)
  bitLock  : Bool := false       -- bit and symbol clock of the downlink recovered (R240)
  errBits  : List Bool := []     -- which of the last 64 symbols carried a code error, newest first (R240)
  sets     : List (List Byte) := [] -- training set each lane sends (R244)
  caps     : List (List Byte) := [] -- capability block each lane sends (R246)
  capMis   : Bool := false
  port     : Nat := 0
  peer     : Nat := 0
  proto    : Nat := 0
  codeErr  : Nat := 0
  lastPulse : Nat := 0
  eyeErr   : List (List Nat) := []  -- positions in error, of the last 16 measured oases, newest first
  eyeNow   : List Nat := []      -- positions in error in the oasis in progress
  eyeW     : Nat := 0xFF
  eyeNew   : Option Nat := none
  prbs     : Checker := {}
  lb       : Checker := {}
  deriving DecidableEq, Repr, Inhabited

/-- A fast-command frame whose effect slot has not passed (R264). -/
structure Due where
  slot   : Nat                   -- effect slot, elapsed
  code   : Option Nat
  orbit  : Bool
  accept : Bool
  deriving DecidableEq, Repr, Inhabited

/-- A control packet (R268): its header, the data words so far, and how it ended. -/
structure Packet where
  hdr   : Word
  data  : List Word := []
  short : Bool := false          -- ended early (R269)
  ready : Nat := 0               -- elapsed slot from which its accesses are made (R264)
  resp  : Option (List Byte) := none -- response payload once the accesses are made
  deriving DecidableEq, Repr, Inhabited

/-- One downlink (chapter 12). -/
structure Dl where
  landed  : Option Nat := none   -- landing slot of the last frame, elapsed
  due     : List Due := []
  asm     : Option Packet := none -- write packet awaiting data words
  asmAt   : Nat := 0             -- slot in which its next data word is due
  drop    : Nat := 0             -- data words of a discarded header still to drop (R272); the next one is due in slot asmAt
  held    : List Packet := []    -- packets complete, oldest first, whose responses are not written
  phase   : Nat := 0
  near    : Bool := false
  fc      : Nat := 0
  fcSlot  : Nat := 0
  frames  : Nat := 0
  crcErr  : Nat := 0
  acc     : Nat := 0
  tt      : List Nat := []       -- message bits of a time-transfer message in progress, 5 a frame, newest last
  ttOn    : Bool := false
  ttAt    : Nat := 0             -- slot in which its next frame is due
  ttFrom  : Nat := 0             -- landing slot of its first frame
  ttC1    : Nat := 0             -- both bases captured at its first slot
  ttC3    : Nat := 0
  ttSlot  : Nat := 0
  deriving DecidableEq, Repr, Inhabited

/-- What the supervisor keeps of one trunk (chapter 13). -/
structure TrunkSup where
  ev       : Bool := false       -- evidence good (R276)
  badF     : Nat := 0            -- consecutive CK_SUP cycles in which FWD_OK, DL_LOCK and VDDL_OK have read 0
  badD     : Nat := 0
  badV     : Nat := 0
  goodRun  : Nat := 0
  toggles  : Nat := 0            -- consecutive heartbeat toggles of this trunk seen by its peer
  seen     : Bool := false       -- HB_x_SEEN
  hbAt     : Nat := 0            -- CK_SUP cycle of the last toggle
  latched  : Bool := false
  byCmd    : Bool := false       -- latched by the LATCH command (R287)
  repair   : Bool := false       -- REPAIRING
  tpwr     : Bool := true
  lowAt    : Nat := 0            -- CK_SUP cycle of TPWR falling, rising, of latching
  highAt   : Nat := 0
  latchAt  : Nat := 0
  fails    : Nat := 0            -- consecutive failed repairs
  detect   : Bool := false       -- has passed through DETECT since it was latched (R286)
  role     : Nat := 0
  qualAt   : Option Nat := none  -- CK_SUP cycle since which it qualifies
  deriving DecidableEq, Repr, Inhabited

/-- The supervisor (chapter 13). -/
structure Sup where
  tok0     : BitVec 2 := 0       -- the three copies of the token (R278)
  tok1     : BitVec 2 := 0
  tok2     : BitVec 2 := 0
  ta       : TrunkSup := {}
  tb       : TrunkSup := {}
  granted  : Bool := false       -- the first grant has been made
  lastHold : Option Trunk := none
  checking : Bool := false       -- the holder is CHECKING
  moving   : Bool := false       -- the move start is still to come (R280)
  moveTo   : Trunk := .a
  moveAt   : Nat := 0            -- elapsed slot from which the check is over (R281), once moved
  decAt    : Nat := 0            -- CK_SUP cycle of the last move, plus one (R285)
  returning : Bool := false      -- the move in progress is a return (R282)
  startUp  : Bool := false       -- it is the start-up grant (R430)
  coreTok  : Option Trunk := none -- the holder that CK_CORE sees until the move start (R280)
  passed   : Bool := true        -- the holder that CK_CORE sees has passed its check
  prev     : Option Trunk := none -- the trunk that held the token before the move
  prevCmd  : Option Trunk := none -- trunk that a LATCH command will latch when the swap's check passes
  reason   : Nat := 0            -- SV_LAST
  lastTo   : Nat := 0
  result   : Nat := 0
  failL    : BitVec 6 := 0
  xdown    : Bool := false       -- CROSSLINK_DOWN
  wasDark  : Bool := false
  deriving DecidableEq, Repr, Inhabited

/-- Time bases (chapter 14). Values are ns × 2^32 + fraction. -/
structure Bases where
  t1      : Nat := 0
  t3      : Nat := 0
  s1      : Nat := 0             -- values at the first core cycle of the present slot (R305)
  s3      : Nat := 0
  incr1   : Nat := 0x0320000000
  incr3   : Nat := 0x0320000000
  set1    : Bool := false
  set3    : Bool := false
  gap1    : Bool := false
  gap3    : Bool := false
  hov1    : Bool := false
  hov3    : Bool := false
  nx1     : Option Nat := none   -- value stepped to or loaded in this core cycle, before its advance (R294)
  nx3     : Option Nat := none
  ni1     : Option Nat := none   -- increment from the next core cycle on (R297)
  ni3     : Option Nat := none
  wr1     : Nat := 0             -- CK_SUP cycle of the last increment write
  wr3     : Nat := 0
  ocap    : Ram (List Word) := [] -- capture history by entry (R300)
  ocapN   : Nat := 0
  latch   : List Word := List.replicate 11 0 -- LT0_LO … LT3_HI
  latchN  : Nat := 0
  tse     : List (List Byte) := []
  ttV     : Nat := 0
  ttC     : Nat := 0
  ttVf    : Nat := 0
  ttCf    : Nat := 0
  ttBase  : Nat := 0
  ttCount : Nat := 0
  ttSlot  : Nat := 0
  deriving DecidableEq, Repr, Inhabited

/-- A management register request (R318). -/
structure MgReq where
  src  : List Byte
  body : List Byte
  deriving DecidableEq, Repr, Inhabited

/-- The management port (chapter 15). -/
structure Mg where
  sync    : Bool := false
  anDone  : Bool := false
  link    : Bool := false
  reqs    : List MgReq := []     -- requests not yet served
  resps   : List (List Byte) := [] -- response frames queued, without FCS
  rx      : Nat := 0
  tx      : Nat := 0
  rxCount : Nat := 0             -- ingress frames timestamped (R303)
  sent    : List Byte := []      -- last frame sent, with FCS
  errored : Bool := false        -- it ended with /V/
  lastRR  : Bool := true         -- Q21 was served last (R317)
  prog    : Option Nat := none   -- queue of a frame that has begun and still waits for bytes (R192, R317)
  progAdj : Nat := 0             -- its one-step correction (R309)
  regOff  : Bool := false        -- REG_EN = 0 waits for its response (R328)
  deriving DecidableEq, Repr, Inhabited

/-- I2C target, SPI master (chapter 15). -/
structure Slow where
  i2cPtr  : Nat := 0
  i2cOut  : List Byte := []      -- bytes returned by the last read transaction
  i2cWords : Nat := 0            -- word accesses of the last transaction (R321)
  i2cRd   : Bool := false        -- it was a read
  flash   : Ram Byte := []       -- the SPI flash, unlisted: 0xFF
  spiBusy : Bool := false
  spiOp   : Nat := 0
  spiAddr : Nat := 0
  spiLen  : Nat := 0
  spiAt   : Nat := 0             -- CK_SUP cycle of its start
  spiFail : Bool := false
  hdrOk   : Bool := false
  sr      : Nat := 0
  spiId   : Nat := 0
  spiNewId : Nat := 0
  usrBase : Nat := 0
  spiBuf  : Ram Byte := []
  softRst : Bool := false        -- a soft reset waits for BUSY at 0 (R331)
  deriving DecidableEq, Repr, Inhabited

/-- The calibration store (chapter 18). -/
structure Cal where
  bank    : Ram Byte := []       -- the fuse bank, unlisted: 0
  read    : Ram Byte := []       -- as read at start-up
  fuseOk  : Bool := false
  fuseBad : Bool := false
  fuseFail : BitVec 8 := 0
  user    : Ram Byte := []       -- held image U (R372)
  userOk  : Bool := false
  userBad : Bool := false
  slotNo  : Nat := 0
  gen     : Nat := 0
  saving  : Option (Ram Byte) := none -- the copy being saved
  target  : Nat := 0
  newGen  : Nat := 0
  saveFail : Bool := false
  lockIgn : Bool := false
  anyOk   : Bool := false        -- some slot is valid
  apply   : Option (Ram Byte) := none -- held image of an APPLY on its way (R376)
  eff     : Ram Byte := []       -- the user layer in effect
  useFuse : Bool := false        -- factory values (else nominal ones) are in use
  loaded  : Bool := false        -- the user store has been loaded (R359)
  deriving DecidableEq, Repr, Inhabited

/-- The monitor converter (chapter 19). -/
structure Mon where
  running  : Bool := false
  settling : Bool := false
  ready    : Bool := false
  ovr      : Bool := false
  startAt  : Nat := 0            -- CK_SUP cycle of the run's start
  old      : Option (Nat × Nat × Nat) := none -- MON_CFG, start and results of the run that a write of this CK_SUP cycle ended (R386)
  nres     : Nat := 0            -- results of the run
  code     : Nat := 0
  input    : Nat := 0
  rovr     : Bool := false
  rseq     : Nat := 0
  seq      : Nat := 0
  lasts    : Ram Nat := []       -- MON_LAST words by input
  deriving DecidableEq, Repr, Inhabited

/-- A column sink that draws (R392–R394): first core cycle, width in units of 0.5 ns, current in µA. -/
structure Sink where
  col   : Nat
  start : Nat
  width : Nat
  ua    : Nat
  deriving DecidableEq, Repr, Inhabited

/-- The light pulser (chapter 20). -/
structure Pls where
  row      : Option Nat := none  -- closed row switch
  openAt   : Nat := 0            -- core cycle from which the row switch opens
  sinks    : List Sink := []     -- column sinks of the present firing or pulse
  sites    : List (Nat × Nat) := [] -- sites whose pulse gives a verdict, and the core cycle of its sample (R400)
  last     : Nat := 0
  blankTo  : Nat := 0            -- core cycle at which blanking ends
  blanking : Bool := false
  states   : Ram Nat := []       -- site states (R400)
  colClean : Ram Nat := []       -- barred column pairs and their clean tests (R399)
  rowClean : Ram Nat := []
  colHit   : List Nat := []      -- pairs found shorted by the tests of this oasis
  rowHit   : List Nat := []
  diag     : Bool := false       -- the schedule of R398 runs
  diagRan  : Bool := false       -- it has been judged in this oasis
  diagRow  : Option Nat := none  -- D of this schedule
  diagFired : Bool := false      -- its diagnostic pulse has fired
  diagDone : Bool := false       -- its verdicts have been recorded
  diagSites : List Nat := []     -- sites of its pulse, and those with a verdict
  diagGood : List Nat := []
  diagOpen : List Nat := []
  prevD    : Nat := 7            -- the next search starts at row 0
  firings  : Nat := 0
  skips    : Nat := 0
  fired    : Nat := 0            -- last slot, plus one, in which a slot-map firing was judged
  deriving DecidableEq, Repr, Inhabited

/-- Heritage readout (chapter 21). -/
structure Her where
  on      : Bool := false        -- PAGE_CTL.EN of page 0x68 as applied
  fmt     : Bool := false        -- a bale is being written to Q26 (R409)
  seq     : Nat := 0             -- the entry it belongs to
  bale    : List Byte := []      -- the bale as formatted, and how many of its bytes have been presented to Serai
  sent    : Nat := 0
  formed  : Bool := false        -- its payload is complete, and HER_COUNT has counted it
  lastErr : Bool := false
  cnt     : Nat := 0
  deriving DecidableEq, Repr, Inhabited

/-- The hub. -/
structure State where
  pending : List Instr := []
  pw      : Power := {}
  jtag    : Jtag := {}
  fab     : Fabric := {}
  orb     : Orbit := {}
  pll     : Pll := {}
  conv    : List Conv := List.replicate 384 {}
  chan    : List Chan := List.replicate 384 {}
  ring    : Ram (BitVec 16) := []    -- ring words, key 384 × index + channel, unlisted: 0x0000
  ringErr : Ram Nat := []            -- errors of ring groups, key 384 × group + channel: 1 correctable, 2 not
  feat    : Ram Peak := []           -- feature store, key 384 × (slot mod 1,024) + channel
  featErr : Ram Nat := []
  flint   : List Flint := List.replicate 384 {}
  fout    : List FlintOut := List.replicate 7 {}
  flintOn : Nat := 0                 -- bit s: FL_SEAM of seam s has been applied (R119)
  seams   : List Seam := List.replicate 6 {}
  acq     : Acq := {}
  ser     : Serai := {}
  frm     : Framer := {}
  lnA     : Lanes := {}
  lnB     : Lanes := {}
  dlA     : Dl := {}
  dlB     : Dl := {}
  sup     : Sup := {}
  tb      : Bases := {}
  mg      : Mg := {}
  slow    : Slow := {}
  cal     : Cal := {}
  mon     : Mon := {}
  pls     : Pls := {}
  her     : Her := {}
  deriving DecidableEq, Repr

/-- The hub under the power-on reset: every field at its reset value (R359, R424–R426; log entry 3). The first command that acts
is POR_RELEASE. -/
def State.reset : State := {}

/-- Why the model stops. -/
inductive Fault where
  /-- Raised by SAMPLE_CONVERSION when the differential input lies beyond the absolute maximum of R438: R49 says such inputs
  "can damage the hub and are outside this manual". Safe: nothing is claimed of such a hub. -/
  | beyondAbsoluteMaximum
  deriving DecidableEq, Repr

/-- Why a command has no meaning. -/
inductive Refusal where
  /-- Raised by an arm of exec for a command without a meaning; no command is in that case. Safe. -/
  | notModelled (mnemonic : String)
  deriving DecidableEq, Repr

end Sys2Proof.Machine
end

