-- ==== Sys2Proof/Machine/Bits.lean ====
section
/-! DEFINITION. Bit fields, byte order, checks, sparse memories: the helpers every chapter uses. -/

namespace Sys2Proof.Machine

/-- Field of `w` bits at bit `lo` of `v`. -/
def fld (v lo w : Nat) : Nat := (v >>> lo) % 2 ^ w

/-- `v` with the field of `w` bits at `lo` set to `x`. -/
def setFld (v lo w x : Nat) : Nat := v - (fld v lo w <<< lo) + ((x % 2 ^ w) <<< lo)

/-- Two's complement reading of the low `w` bits. -/
def sgn (v w : Nat) : Int := if v % 2 ^ w < 2 ^ (w - 1) then (v % 2 ^ w : Nat) else (v % 2 ^ w : Nat) - (2 ^ w : Nat)

/-- Two's complement code of `x` in `w` bits. -/
def uns (x : Int) (w : Nat) : Nat := (x % (2 ^ w : Nat)).toNat

/-- 1 for true. -/
def b2n (b : Bool) : Nat := if b then 1 else 0

/-- `x` limited to `lo..hi`. -/
def clampI (lo hi x : Int) : Int := if x < lo then lo else if hi < x then hi else x

/-- Rounded division to the nearest integer, a tie away from zero. -/
def roundDiv (x : Int) (d : Nat) : Int :=
  if 0 ≤ x then ((2 * x + d) / (2 * d) : Int) else -((2 * (-x) + d) / (2 * d) : Int)

def ceilDiv (a b : Nat) : Nat := (a + b - 1) / b

/-- Number of ones among the low `w` bits. -/
def popcount (v w : Nat) : Nat := ((List.range w).filter (fun i => v.testBit i)).length

/-- Word whose bit i is set for each listed i. -/
def maskOf (l : List Nat) : Nat := l.foldl (fun m i => m ||| (1 <<< i)) 0

/-- `n` bytes of `v`, least significant first (R5). -/
def leBytes (n v : Nat) : List Byte := (List.range n).map (fun i => BitVec.ofNat 8 (v >>> (8 * i)))

/-- `n` bytes of `v`, most significant first. -/
def beBytes (n v : Nat) : List Byte := (leBytes n v).reverse

/-- Value of bytes in ascending significance. -/
def leNat : List Byte → Nat
  | [] => 0
  | b :: t => b.toNat + 256 * leNat t

def beNat (l : List Byte) : Nat := leNat l.reverse

/-- Bits of a byte, least significant first. -/
def byteBits (b : Byte) : List Bool := (List.range 8).map (fun i => b.getLsbD i)

/-- Value of bits in ascending significance. -/
def bitsNat : List Bool → Nat
  | [] => 0
  | b :: t => b2n b + 2 * bitsNat t

/-- The low `n` bits of `v`, least significant first. -/
def natBits (n v : Nat) : List Bool := (List.range n).map (fun i => v.testBit i)

/-- Bytes from bits, least significant first; a last partial byte is filled with zeros. -/
def packBits : Nat → List Bool → List Byte
  | 0, _ => []
  | fuel + 1, l => if l.isEmpty then [] else BitVec.ofNat 8 (bitsNat (l.take 8)) :: packBits fuel (l.drop 8)

/-- One bit of a reflected CRC. -/
def crcBitR (poly : Nat) (c : Nat) : Nat := if c % 2 = 1 then (c / 2) ^^^ poly else c / 2

def crcByteR (poly c : Nat) (b : Byte) : Nat := Nat.iterate (crcBitR poly) 8 (c ^^^ b.toNat)

/-- CRC-32 of R159: reflected 0xEDB8_8320, initial and final all ones. -/
def crc32 (l : List Byte) : Nat := (l.foldl (crcByteR 0xEDB88320) 0xFFFFFFFF) ^^^ 0xFFFFFFFF

/-- One bit of a CRC of width `w`, most significant bit first. -/
def crcBitL (w poly c : Nat) : Nat :=
  if c.testBit (w - 1) then ((2 * c) % 2 ^ w) ^^^ poly else (2 * c) % 2 ^ w

def crcByteL (w poly c : Nat) (b : Byte) : Nat := Nat.iterate (crcBitL w poly) 8 (c ^^^ (b.toNat <<< (w - 8)))

/-- CRC-16 of R368: 0x1021, initial 0xFFFF. -/
def crc16 (l : List Byte) : Nat := l.foldl (crcByteL 16 0x1021) 0xFFFF

/-- Integer square root, rounded down, by binary search over `fuel` bits. -/
def isqrtGo (n : Nat) : Nat → Nat → Nat
  | 0, r => r
  | fuel + 1, r => if (r + 2 ^ fuel) * (r + 2 ^ fuel) ≤ n then isqrtGo n fuel (r + 2 ^ fuel) else isqrtGo n fuel r

def isqrt (n : Nat) : Nat := isqrtGo n 32 0

/-- Read of a sparse memory; an unlisted key reads `d`. -/
def ramGet {α : Type} (d : α) : Ram α → Nat → α
  | [], _ => d
  | (k, v) :: t, a => if a < k then d else if a = k then v else ramGet d t a

/-- Write of a sparse memory, keeping its canonical form. -/
def ramPut {α : Type} [DecidableEq α] (d : α) : Ram α → Nat → α → Ram α
  | [], a, x => if x = d then [] else [(a, x)]
  | (k, v) :: t, a, x =>
    if a < k then (if x = d then (k, v) :: t else (a, x) :: (k, v) :: t)
    else if a = k then (if x = d then t else (k, x) :: t)
    else (k, v) :: ramPut d t a x

/-- Whether a key is listed. -/
def ramHas {α : Type} (m : Ram α) (a : Nat) : Bool := m.any (fun p => p.1 == a)

/-- Listed entry with a key, if any. -/
def ramFind {α : Type} : Ram α → Nat → Option α
  | [], _ => none
  | (k, v) :: t, a => if a = k then some v else ramFind t a

/-- Write that lists the entry whatever its value (pending words). -/
def ramSet {α : Type} : Ram α → Nat → α → Ram α
  | [], a, x => [(a, x)]
  | (k, v) :: t, a, x =>
    if a < k then (a, x) :: (k, v) :: t else if a = k then (k, x) :: t else (k, v) :: ramSet t a x

/-- Removes the listed entries whose key satisfies `p`. -/
def ramDrop {α : Type} (p : Nat → Bool) (m : Ram α) : Ram α := m.filter (fun e => !p e.1)

/-- Keys strictly rising from `lo`. -/
def keysFrom {α : Type} : Nat → Ram α → Bool
  | _, [] => true
  | lo, (k, _) :: t => decide (lo ≤ k) && keysFrom (k + 1) t

/-- The canonical form: keys strictly rising, no entry equal to the unlisted value `d`. -/
def ramWf {α : Type} [DecidableEq α] (d : α) (m : Ram α) : Bool := keysFrom 0 m && m.all (fun e => !decide (e.2 = d))

/-- Writes bytes at consecutive keys. -/
def ramPutBytes (d : Byte) (m : Ram Byte) (a : Nat) : List Byte → Ram Byte
  | [] => m
  | b :: t => ramPutBytes d (ramPut d m a b) (a + 1) t

/-- Reads `n` bytes at consecutive keys. -/
def ramBytes (d : Byte) (m : Ram Byte) (a n : Nat) : List Byte := (List.range n).map (fun i => ramGet d m (a + i))

/-- `f` applied to the pairs of a list with their indices. -/
def mapIdxN {α β : Type} (f : Nat → α → β) (l : List α) : List β := (l.zipIdx).map (fun p => f p.2 p.1)

/-- Sum of the values of `f` over 0..n-1. -/
def sumTo (n : Nat) (f : Nat → Nat) : Nat := ((List.range n).map f).sum

/-- Majority vote of three words (R288). -/
def vote (t : Tri) : Word := (t.a &&& t.b) ||| (t.a &&& t.c) ||| (t.b &&& t.c)

/-- Three equal copies. -/
def triOf (v : Nat) : Tri := ⟨BitVec.ofNat 32 v, BitVec.ofNat 32 v, BitVec.ofNat 32 v⟩

end Sys2Proof.Machine
end

