-- ==== Sys2Proof/Machine/Operands.lean ====
section
/-! DEFINITION. The register map (R356, R364, the field tables of every chapter): which pages and words exist, which bits of a
word are RW, buffered (RB), guarded (GD) or commands, the reset words, and the ranges refused at the write (R334). -/

namespace Sys2Proof.Machine

/-- The assigned pages (R356), ascending. -/
def assignedPages : List Nat :=
  [0x00, 0x01, 0x02, 0x03, 0x04, 0x05, 0x06, 0x07, 0x08, 0x09, 0x0A, 0x0B, 0x0C, 0x0D]
  ++ [0x10, 0x11, 0x12, 0x13, 0x14, 0x15, 0x16, 0x17, 0x18, 0x19, 0x1A, 0x1B]
  ++ [0x20, 0x21, 0x22, 0x23, 0x24, 0x25, 0x28, 0x30, 0x31, 0x34, 0x35, 0x36, 0x37, 0x38, 0x39]
  ++ [0x40, 0x44, 0x48, 0x49, 0x4C, 0x4D, 0x50, 0x54, 0x58, 0x5C, 0x60, 0x64, 0x68, 0x70, 0x7C]

def isAssigned (p : Nat) : Bool := assignedPages.contains p

/-- Range tests of page numbers. -/
def pgIn (p lo hi : Nat) : Bool := decide (lo ≤ p) && decide (p ≤ hi)

/-- The five pages in CK_SUP, marked PS (R16, R356). -/
def isSup (p : Nat) : Bool := [0x00, 0x50, 0x5C, 0x60, 0x70].contains p

/-- Pages whose PAGE_CTL.EN is RB, with its reset value (R356). -/
def enReset (p : Nat) : Option Bool :=
  if pgIn p 0x08 0x0D || pgIn p 0x10 0x1B || pgIn p 0x20 0x25 then some true
  else if [0x60, 0x64, 0x68].contains p then some false else none

/-- Pages with a soft reset (R356, R435). -/
def hasSoftReset (p : Nat) : Bool :=
  pgIn p 0x10 0x1B || pgIn p 0x20 0x25 || pgIn p 0x34 0x39
  || [0x28, 0x40, 0x48, 0x49, 0x4C, 0x4D, 0x50, 0x54, 0x5C, 0x60, 0x64, 0x68, 0x7C].contains p

/-- PAGE_ID of a page (R356). -/
def pageId (p : Nat) : Nat :=
  let ti : Nat × Nat :=
    if p = 0x00 then (1, 0) else if p = 0x01 then (2, 0) else if p = 0x02 then (3, 0) else if p = 0x03 then (4, 0)
    else if pgIn p 0x04 0x07 then (5, p - 0x04) else if pgIn p 0x08 0x0D then (6, p - 0x08)
    else if pgIn p 0x10 0x1B then (7, p - 0x10) else if pgIn p 0x20 0x25 then (8, p - 0x20)
    else if p = 0x28 then (9, 0) else if p = 0x30 then (0x0A, 0) else if p = 0x31 then (0x0B, 0)
    else if pgIn p 0x34 0x39 then (0x0C, p - 0x34) else if p = 0x40 then (0x0D, 0) else if p = 0x44 then (0x0E, 0)
    else if pgIn p 0x48 0x49 then (0x0F, p - 0x48) else if pgIn p 0x4C 0x4D then (0x10, p - 0x4C)
    else if p = 0x50 then (0x11, 0) else if p = 0x54 then (0x12, 0) else if p = 0x58 then (0x13, 0)
    else if p = 0x5C then (0x14, 0) else if p = 0x60 then (0x15, 0) else if p = 0x64 then (0x16, 0)
    else if p = 0x68 then (0x17, 0) else if p = 0x70 then (0x18, 0) else (0x19, 0)
  ti.1 * 0x1000000 + ti.2 * 0x10000 + 0x100

/-- How the bits of a word that the map names may be written; bits in none of the masks are RO, LV, TY, CP or reserved. -/
structure RegForm where
  rw    : Nat := 0               -- RW bits that are stored
  rb    : Nat := 0               -- RB bits
  gd    : Nat := 0               -- GD bits of a guarded register
  cmd   : Nat := 0               -- RW bits that are commands and read 0
  reset : Nat := 0               -- reset word of the stored bits
  deriving DecidableEq, Repr, Inhabited

/-- Reset words of the queue configuration (R365): QCFG_A, QCFG_B, QWM of queue q. -/
def qReset (q : Nat) : Nat × Nat × Nat :=
  if q ≤ 5 then (0x00A00180, 0x53, 0x120) else if q ≤ 11 then (0x004000C0, 0x53, 0x90)
  else if q = 12 then (0x00400100, 0x57, 0xC0) else if q = 13 then (0x00100040, 0x55, 0x30)
  else if q ≤ 15 then (0x00080020, 0x52, 0x18) else if q ≤ 19 then (0x00080040, 0x46, 0x30)
  else if q = 22 ∨ q = 23 then (0x00080020, 0x06000041, 0x18)
  else if q ≤ 25 then (0x00080020, 0x06000040, 0x18)
  else if q = 26 then (0x180, 0x53, 0x120) else (0x40, 0x41, 0x30)

/-- Queues of the C class (R181): cut-through. -/
def isCClass (q : Nat) : Bool := pgIn q 20 25

def formPage01 (o : Nat) : Option RegForm :=
  if o = 0x040 then some { cmd := 0xFFFF } else if o = 0x044 then some { rw := 0xFFFF, reset := 0xFFFF }
  else if o = 0x050 then some { gd := 0x1FF } else if o = 0x048 ∨ o = 0x04C ∨ o = 0x054 then some {} else none

def formPage00 (o : Nat) : Option RegForm :=
  if o = 0x058 then some { rw := 0xFFFFFFFF }
  else if [0x040, 0x044, 0x048, 0x04C, 0x050, 0x054, 0x060, 0x064].contains o then some {} else none

def formPage02 (o : Nat) : Option RegForm :=
  if o = 0x040 then some { rb := 0x7 } else if o = 0x04C then some { rw := 0xFFFFFFFF }
  else if [0x044, 0x048, 0x050, 0x054].contains o then some {} else none

def formPage03 (o : Nat) : Option RegForm :=
  if o = 0x040 then some { rb := 0xFFF, reset := 0xC80 } else if o = 0x044 then some { rb := 0xFFF }
  else if o = 0x048 then some { rw := 0xFFFFFFFF } else if o = 0x04C then some { rb := 1, cmd := 2 }
  else if [0x050, 0x054, 0x058, 0x05C].contains o then some {} else none

def formSmap (o : Nat) : Option RegForm :=
  if o = 0x040 then some { rw := 0x7 } else if o = 0x044 then some {}
  else if 0x400 ≤ o ∧ o < 0x800 then some { rb := 0xFF0000FF } else none

def formSeam (o : Nat) : Option RegForm :=
  if o = 0x040 then some { rb := 3, reset := 3 }
  else if o = 0x044 ∨ o = 0x048 then some { rb := 0xFFFFFFFF, reset := 0xFFFFFFFF }
  else if [0x04C, 0x050, 0x054].contains o then some {} else none

def formChan (p o : Nat) : Option RegForm :=
  let b := (o - 0x040) % 0x80 + 0x040
  if o < 0x040 ∨ 0x1040 ≤ o then none
  else if b = 0x040 then some { rb := 0xFF3F777B, reset := 0x20084253 }
  else if b = 0x044 then some { rb := 0x3FFFF, reset := 0x20000 }
  else if b = 0x048 ∨ b = 0x078 then some {}
  else if b = 0x04C ∨ b = 0x05C then some { rb := 0x0FFF0FFF, reset := 0x400 }
  else if [0x050, 0x054, 0x058, 0x060, 0x064, 0x068].contains b then some { rb := 0x0FFF0FFF }
  else if b = 0x06C then some { rb := 0x3FFFF, reset := 0x640 } else if b = 0x070 then some { rb := 0x3FFFF }
  else if b = 0x074 then some { rb := 0xFF03FF, reset := 0x500200 }
  else if o = 0x07C ∧ p % 2 = 0 then
    (if p = 0x10 then some { rb := 0x3FF, reset := 0x300 } else some { rb := 0x1FF, reset := 0x100 })
  else none

def formConv (o : Nat) : Option RegForm :=
  if o = 0x040 then some { rb := 0xFF01, reset := 0x2001 }
  else if o = 0x044 ∨ o = 0x048 then some { rb := 0xFFFFFFFF, reset := 0xFFFFFFFF }
  else if o = 0x04C then some { rb := 0xF, reset := 3 } else if o = 0x050 then some { rb := 0x3FFF, reset := 0x2000 }
  else if 0x054 ≤ o ∧ o ≤ 0x068 then some {} else if 0x080 ≤ o ∧ o ≤ 0x0BC then some {} else none

def formPhase (o : Nat) : Option RegForm :=
  if o = 0x040 then some { rb := 0xFF0173, cmd := 0x200, reset := 0x300033 }
  else if o = 0x044 then some { rb := 0x7FFF, reset := 0x4000 }
  else if o = 0x054 then some { rw := 0x1FF }
  else if 0x080 ≤ o ∧ o ≤ 0x37C then some { rb := 0xFFFFFFFF }
  else if [0x048, 0x04C, 0x050, 0x058, 0x05C].contains o ∨ (0x380 ≤ o ∧ o ≤ 0x4FC) then some {} else none

def formAcq (o : Nat) : Option RegForm :=
  if o = 0x040 then some { rb := 0x3FF, reset := 0x1E0 } else if o = 0x044 then some { rb := 0x1FF00FF, reset := 0x180008 }
  else if o = 0x048 then some { rw := 0x7F, reset := 0x30 }
  else if [0x04C, 0x050, 0x054, 0x058].contains o then some {} else none

def formArm (o : Nat) : Option RegForm :=
  if o = 0x040 then some { cmd := 7 } else if o = 0x044 then some { rb := 0xFFFF0003 }
  else if o = 0x048 then some { rb := 0xFFFF } else if o = 0x04C then some { rb := 0xF7F3, reset := 0x1080 }
  else if [0x050, 0x054, 0x058].contains o then some {}
  else if 0x060 ≤ o ∧ o < 0x090 then
    (if o % 8 = 0 then some { rb := 0x0FFF0007, reset := 0x0FFF0000 } else some { rb := 0x3FFFF, reset := 0x3FFFF })
  else none

def formCmp (o : Nat) : Option RegForm :=
  if o = 0x040 then some { rb := 0xFFF, reset := 0x872 } else if o = 0x044 then some { cmd := 1 }
  else if 0x048 ≤ o ∧ o ≤ 0x058 then some {}
  else if o = 0x080 then some { rw := 2, cmd := 1 } else if o = 0x084 then some { rw := 0x3FFF, reset := 1 }
  else if o = 0x088 then some { rw := 0xFFFF } else if o = 0x08C then some { rw := 0xFFFFFFFF }
  else if o = 0x090 then some { cmd := 0xFFFFFFFF } else if o = 0x094 then some { cmd := 0x1FFF }
  else if 0x098 ≤ o ∧ o ≤ 0x0A4 then some {} else if o = 0x0A8 then some { cmd := 0xFFF }
  else if o = 0x0AC then some {} else none

def formSerai (o : Nat) : Option RegForm :=
  if o = 0x040 then some { rb := 0x1FF, reset := 0xC8 } else if o = 0x044 then some { rw := 0x1FFF, reset := 0x200 }
  else if [0x048, 0x04C, 0x050, 0x0A0, 0x0A4].contains o then some {}
  else if o = 0x080 then some { rw := 0x1F, reset := 0x1B } else if o = 0x084 then some { rw := 3, cmd := 0x100 }
  else if 0x088 ≤ o ∧ o ≤ 0x09C then some { cmd := 0xFFFFFFFF }
  else if 0x400 ≤ o ∧ o < 0x800 then
    let q := (o - 0x400) / 0x20
    let k := o % 0x20
    if k = 0 then some { rb := 0x1FFF1FFF, reset := (qReset q).1 }
    else if k = 4 then
      some { rb := (if q = 12 then 0x10 else if q ≤ 15 ∨ q = 26 then 0x17 else if isCClass q then 0x0FFF0047
                     else if 27 ≤ q then 0x67 else 0x47), reset := (qReset q).2.1 }
    else if k = 8 then some { rb := 0x1FFF, reset := (qReset q).2.2 }
    else some {}
  else none

def formFramer (o : Nat) : Option RegForm :=
  if o = 0x040 then some { rb := 3 } else if 0x044 ≤ o ∧ o ≤ 0x058 then some {} else none

def formLanes (o : Nat) : Option RegForm :=
  if o = 0x040 then some { cmd := 1 } else if o = 0x044 then some { rb := 0xFF013F, reset := 0x600100 }
  else if o = 0x048 then some { gd := 0x1F3F03 } else if 0x04C ≤ o ∧ o ≤ 0x064 then some {} else none

def formDl (o : Nat) : Option RegForm :=
  if o = 0x040 then some { rw := 1, reset := 1 } else if 0x044 ≤ o ∧ o ≤ 0x058 then some {} else none

def formSv (o : Nat) : Option RegForm :=
  if o = 0x040 then some { rw := 0xFFFF0FFF, reset := 0x0A320414 }
  else if o = 0x044 then some { rw := 0xFF0FFFFF, reset := 0x0A0303E8 }
  else if o = 0x048 then some { gd := 0x301 } else if o = 0x04C then some { gd := 0x13 }
  else if 0x050 ≤ o ∧ o ≤ 0x05C then some {} else none

def formTb (o : Nat) : Option RegForm :=
  if o = 0x040 then some { rw := 2, cmd := 1, reset := 2 }
  else if o = 0x048 ∨ o = 0x050 then some { rw := 0xFFFFFFFF, reset := 0x20000000 }
  else if o = 0x04C ∨ o = 0x054 then some { rw := 0xFF, reset := 3 }
  else if o = 0x058 then some { rw := 0xFFFFFFFF, reset := 0x03E803E8 }
  else if o = 0x05C then some { rw := 0x7FFFFFFF, reset := 0x3E8 }
  else if o = 0x060 ∨ o = 0x064 then some { rb := 0xFFFFFFFF } else if o = 0x068 then some { gd := 0x13 }
  else if o = 0x06C ∨ o = 0x070 then some { rw := 0xFFFF } else if o = 0x074 then some { rb := 0x30F, reset := 5 }
  else if o = 0x078 then some { rb := 0xFFFF00FF, reset := 0x03E80004 }
  else if o = 0x080 then some { cmd := 1 }
  else if [0x044, 0x07C, 0x084].contains o ∨ (0x088 ≤ o ∧ o ≤ 0x09C) ∨ (0x0A0 ≤ o ∧ o ≤ 0x0B4)
      ∨ (0x0C0 ≤ o ∧ o ≤ 0x0E8) ∨ (0x100 ≤ o ∧ o ≤ 0x11C) ∨ (0x400 ≤ o ∧ o < 0x800) then some {}
  else none

def formMg (o : Nat) : Option RegForm :=
  if o = 0x040 then some { rw := 0x07FF0007, reset := 0x05F20003 }
  else if o = 0x044 then some { rw := 0xFFFFFFFF } else if o = 0x048 then some { rw := 0xFFFF }
  else if [0x04C, 0x050, 0x054].contains o then some {} else none

def formBoot (o : Nat) : Option RegForm :=
  if o = 0x040 then some {} else if o = 0x044 then some { rw := 0x10F, reset := 1 }
  else if o = 0x048 then some { rw := 0xFFFFFF } else if o = 0x04C then some { rw := 0xFF0007, cmd := 0x100, reset := 0xFF0000 }
  else if [0x050, 0x054, 0x058].contains o then some {}
  else if 0x100 ≤ o ∧ o ≤ 0x1FC then some { cmd := 0xFFFFFFFF } else none

def formMon (o : Nat) : Option RegForm :=
  if o = 0x040 then some { rw := 0x3F31F } else if o = 0x044 then some { cmd := 3 }
  else if [0x048, 0x04C, 0x050].contains o ∨ (0x080 ≤ o ∧ o ≤ 0x0FC) then some {} else none

def formPls (o : Nat) : Option RegForm :=
  if o = 0x040 then some { rb := 0x703 } else if o = 0x044 then some { rb := 0x1FFF, reset := 0x10 }
  else if o = 0x048 then some { rb := 0xFF7F7F } else if o = 0x04C then some {}
  else if 0x080 ≤ o ∧ o ≤ 0x27C then some { rb := 0xFF7F } else if 0x280 ≤ o ∧ o ≤ 0x2FC then some {} else none

def formHer (o : Nat) : Option RegForm :=
  if o = 0x040 then some { rb := 1 } else if o = 0x044 then some { rb := 0x7F, reset := 1 }
  else if 0x048 ≤ o ∧ o ≤ 0x064 then some { rb := 0xFFFF, reset := 0xFFFF }
  else if [0x068, 0x070, 0x074].contains o then some {} else none

def formCs (o : Nat) : Option RegForm :=
  if o = 0x040 then some {} else if o = 0x044 then some { gd := 3 } else if o = 0x048 then some { rw := 7 }
  else if 0x080 ≤ o ∧ o ≤ 0x17C then some {} else if 0x180 ≤ o ∧ o ≤ 0x27C then some { cmd := 0xFFFFFFFF } else none

def formNtc (o : Nat) : Option RegForm :=
  if o = 0x040 then some { rw := 0xFFF, reset := 0x10 } else if o = 0x044 then some {}
  else if 0x060 ≤ o ∧ o ≤ 0x07C then some { rw := 0xFFFFFFFF, reset := 0xFFFFFFFF } else none

/-- The form of the word at offset `o` of an assigned page, or none where the page's list names no register (R358). The header
words are in it (R332). -/
def regForm (p o : Nat) : Option RegForm :=
  if o = 0x004 then
    (match enReset p with
     | some e => some { rb := 1, rw := 0xF0, reset := b2n e }
     | none => some { rw := 0xF0 })
  else if o = 0x020 then some { cmd := 0x1FFFF }
  else if o < 0x040 then some {}
  else if p = 0x00 then formPage00 o else if p = 0x01 then formPage01 o else if p = 0x02 then formPage02 o
  else if p = 0x03 then formPage03 o else if pgIn p 0x04 0x07 then formSmap o else if pgIn p 0x08 0x0D then formSeam o
  else if pgIn p 0x10 0x1B then formChan p o else if pgIn p 0x20 0x25 then formConv o
  else if p = 0x28 then formPhase o else if p = 0x30 then formAcq o else if p = 0x31 then formArm o
  else if pgIn p 0x34 0x39 then formCmp o else if p = 0x40 then formSerai o else if p = 0x44 then formFramer o
  else if pgIn p 0x48 0x49 then formLanes o else if pgIn p 0x4C 0x4D then formDl o else if p = 0x50 then formSv o
  else if p = 0x54 then formTb o else if p = 0x58 then formMg o else if p = 0x5C then formBoot o
  else if p = 0x60 then formMon o else if p = 0x64 then formPls o else if p = 0x68 then formHer o
  else if p = 0x70 then formCs o else if p = 0x7C then formNtc o else none

/-- Reset word of the stored bits at a byte address. -/
def resetAt (a : Nat) : Tri := triOf ((regForm (a / 0x1000) (a % 0x1000)).getD {}).reset

/-- Width codes of R393. -/
def widthOk (w : Nat) : Bool := decide (w = 0) || (decide (8 ≤ w) && decide (w ≤ 128))

/-- Whether a written word holds every RW, RB and GD field in its stated range (R334 and the owning chapters' field tables).
`cdata` is the count of data lanes and `soft` is not judged here: checks against present state are made in the fabric. -/
def rangeOk (p o v : Nat) : Bool :=
  if p = 0x03 ∧ o = 0x040 then decide (1024 ≤ v % 4096)
  else if p = 0x01 ∧ o = 0x050 then !v.testBit 8 || hasSoftReset (v % 256)
  else if pgIn p 0x10 0x1B ∧ 0x040 ≤ o ∧ (o - 0x040) % 0x80 = 0x034 then decide (fld v 16 8 ≠ 0)
  else if pgIn p 0x20 0x25 ∧ o = 0x04C then decide (fld v 2 2 ≠ 3)
  else if p = 0x28 ∧ o = 0x054 then decide (v % 512 < 384)
  else if p = 0x28 ∧ 0x080 ≤ o ∧ o ≤ 0x37C then
    decide (-4096 ≤ sgn v 16 ∧ sgn v 16 ≤ 4095 ∧ -4096 ≤ sgn (fld v 16 16) 16 ∧ sgn (fld v 16 16) 16 ≤ 4095)
  else if p = 0x30 ∧ o = 0x040 then decide (1 ≤ v % 1024 ∧ v % 1024 ≤ 1000)
  else if p = 0x30 ∧ o = 0x044 then decide (fld v 16 9 ≠ 0)
  else if p = 0x30 ∧ o = 0x048 then decide (1 ≤ v % 128 ∧ v % 128 ≤ 64)
  else if p = 0x31 ∧ o = 0x044 then decide (v % 4 ≠ 3)
  else if p = 0x31 ∧ o = 0x04C then decide (v % 4 ≠ 3 ∧ fld v 12 4 ≠ 0)
  else if pgIn p 0x34 0x39 ∧ o = 0x040 then decide (fld v 8 4 ≠ 0)
  else if pgIn p 0x34 0x39 ∧ o = 0x084 then decide (1 ≤ v % 0x4000 ∧ v % 0x4000 ≤ 8192)
  else if pgIn p 0x34 0x39 ∧ (o = 0x094 ∨ o = 0x0A8) then decide (v % 4 = 0)
  else if p = 0x40 ∧ o = 0x040 then decide (20 ≤ v % 512 ∧ v % 512 ≤ 400)
  else if p = 0x40 ∧ 0x400 ≤ o ∧ o % 0x20 = 0 then decide (1 ≤ v % 8192 ∧ v % 8192 ≤ 4096 ∧ fld v 16 13 ≤ 4096)
  else if p = 0x40 ∧ 0x400 ≤ o ∧ o % 0x20 = 4 then
    let q := (o - 0x400) / 0x20
    (!isCClass q || decide (16 ≤ fld v 16 12 ∧ fld v 16 12 % 16 = 0)) && (q == 12 || decide (v % 8 ≠ 7))
      && (decide (q ≤ 15 ∨ q = 26) || !v.testBit 4)
  else if p = 0x40 ∧ o = 0x080 then decide (16 ≤ v % 32 ∧ v % 32 ≠ 26)
  else if p = 0x44 ∧ o = 0x040 then decide (v % 4 ≠ 3)
  else if pgIn p 0x48 0x49 ∧ o = 0x044 then decide (fld v 0 1 = 0 ∧ fld v 4 2 = 0)
  else if pgIn p 0x48 0x49 ∧ o = 0x048 then
    decide (v % 4 ≠ 3)
  else if p = 0x50 ∧ o = 0x040 then decide (v % 256 ≠ 0 ∧ fld v 8 4 ≠ 0 ∧ fld v 24 8 ≠ 0)
  else if p = 0x50 ∧ o = 0x044 then decide (v % 65536 ≠ 0 ∧ fld v 24 8 ≠ 0)
  else if p = 0x54 ∧ o = 0x068 then decide (v % 4 ≠ 3)
  else if p = 0x54 ∧ o = 0x074 then decide (v % 2 = 1 ∧ fld v 2 1 = 1)
  else if p = 0x58 ∧ o = 0x040 then decide (64 ≤ fld v 16 11 ∧ fld v 16 11 ≤ 2000)
  else if p = 0x60 ∧ o = 0x040 then decide (fld v 12 4 ≤ 9)
  else if p = 0x64 ∧ o = 0x040 then decide (fld v 8 3 ≤ 5)
  else if p = 0x64 ∧ o = 0x044 then decide (16 ≤ v % 8192 ∧ v % 8192 ≤ 4096)
  else if p = 0x64 ∧ o = 0x048 then widthOk (fld v 16 8)
  else if p = 0x64 ∧ 0x080 ≤ o ∧ o ≤ 0x27C then widthOk (fld v 8 8)
  else if p = 0x68 ∧ o = 0x044 then decide (1 ≤ v % 16 ∧ v % 16 ≤ 8)
  else if p = 0x7C ∧ o = 0x040 then decide (v % 4096 ≠ 0)
  else true

/-- Guarded registers: page and offset of the value position (R364). -/
def isGuarded (p o : Nat) : Bool :=
  [(0x01, 0x050), (0x48, 0x048), (0x49, 0x048), (0x50, 0x048), (0x50, 0x04C), (0x54, 0x068), (0x70, 0x044)].contains (p, o)

/-- Low word of the capture pair that holds the word at `o` of page `p`, if it is one (R363). -/
def pairLow (p o : Nat) : Option Nat :=
  let lows : List Nat :=
    if p = 0x00 then [0x060] else if p = 0x02 then [0x050] else if p = 0x30 then [0x054]
    else if pgIn p 0x34 0x39 then [0x04C, 0x054] else if p = 0x54 then [0x0A0, 0x0A8, 0x100, 0x108, 0x110, 0x118]
    else if p = 0x68 then [0x070] else []
  if lows.contains o then some o else if 4 ≤ o ∧ lows.contains (o - 4) then some (o - 4) else none

/-- How many tallies a page has (R467). -/
def tallyCount (p : Nat) : Nat :=
  if p = 0x00 then 3 else if p = 0x01 then 5 else if p = 0x02 then 6 else if p = 0x03 then 8
  else if pgIn p 0x08 0x0D then 6 else if pgIn p 0x10 0x1B then 9 else if pgIn p 0x20 0x25 then 5
  else if p = 0x28 then 3 else if p = 0x30 then 3 else if p = 0x31 then 4 else if pgIn p 0x34 0x39 then 2
  else if p = 0x40 then 12 else if p = 0x44 then 4 else if pgIn p 0x48 0x49 then 6 else if pgIn p 0x4C 0x4D then 8
  else if p = 0x50 then 9 else if p = 0x54 then 10 else if p = 0x58 then 8 else if p = 0x5C then 3
  else if p = 0x60 then 5 else if p = 0x64 then 8 else if p = 0x68 then 2 else if p = 0x70 then 3
  else if p = 0x7C then 2 else 0

/-! ### Rails -/

/-- A level lies in the rail's recommended operating range, in mV (R439). -/
def railInRange (r : Rail) (mv : Nat) : Bool :=
  match r with
  | .vdd => decide (855 ≤ mv) && decide (mv ≤ 945)
  | .vdda => decide (1140 ≤ mv) && decide (mv ≤ 1260)
  | .vddlA | .vddlB => decide (950 ≤ mv) && decide (mv ≤ 1050)
  | .vddio => decide (1710 ≤ mv) && decide (mv ≤ 1890)
  | .vddp => decide (3135 ≤ mv) && decide (mv ≤ 3465)

end Sys2Proof.Machine
end

