-- ==== Sys2Proof/Machine/Ops.lean ====
section
/-! DEFINITION. The operations every block shares: time, registers in force, tallies and notices (R349, R350, R468–R472),
refusals (R333), free values. -/

namespace Sys2Proof.Machine

/-! ### Trunks, seams, channels -/


def peer : Trunk → Trunk
  | .a => .b
  | .b => .a

def masterIdx : Master → Nat
  | .dlA => 0
  | .dlB => 1
  | .mgmt => 2
  | .i2c => 3

def trunkOf (n : Nat) : Trunk := if n = 0 then .a else .b

def tIdx (t : Trunk) : Nat := match t with | .a => 0 | .b => 1

def getLn (s : State) (t : Trunk) : Lanes := match t with | .a => s.lnA | .b => s.lnB

def modLn (t : Trunk) (f : Lanes → Lanes) (s : State) : State :=
  match t with
  | .a => { s with lnA := f s.lnA }
  | .b => { s with lnB := f s.lnB }

def getDl (s : State) (t : Trunk) : Dl := match t with | .a => s.dlA | .b => s.dlB

def modDl (t : Trunk) (f : Dl → Dl) (s : State) : State :=
  match t with
  | .a => { s with dlA := f s.dlA }
  | .b => { s with dlB := f s.dlB }

def getTs (s : State) (t : Trunk) : TrunkSup := match t with | .a => s.sup.ta | .b => s.sup.tb

def modTs (t : Trunk) (f : TrunkSup → TrunkSup) (s : State) : State :=
  match t with
  | .a => { s with sup := { s.sup with ta := f s.sup.ta } }
  | .b => { s with sup := { s.sup with tb := f s.sup.tb } }

def getConv (s : State) (c : Nat) : Conv := s.conv.getD c {}
def modConv (c : Nat) (f : Conv → Conv) (s : State) : State := { s with conv := s.conv.modify c f }
def getChan (s : State) (c : Nat) : Chan := s.chan.getD c {}
def modChan (c : Nat) (f : Chan → Chan) (s : State) : State := { s with chan := s.chan.modify c f }
def getFlint (s : State) (c : Nat) : Flint := s.flint.getD c {}
def modFlint (c : Nat) (f : Flint → Flint) (s : State) : State := { s with flint := s.flint.modify c f }
def getFout (s : State) (o : Nat) : FlintOut := s.fout.getD o {}
def modFout (o : Nat) (f : FlintOut → FlintOut) (s : State) : State := { s with fout := s.fout.modify o f }
def getSeam (s : State) (i : Nat) : Seam := s.seams.getD i {}
def modSeam (i : Nat) (f : Seam → Seam) (s : State) : State := { s with seams := s.seams.modify i f }
def getQ (s : State) (q : Nat) : Queue := s.ser.qs.getD q {}
def modQ (q : Nat) (f : Queue → Queue) (s : State) : State :=
  { s with ser := { s.ser with qs := s.ser.qs.modify q f } }
def getMaster (s : State) (m : Master) : MasterSt := s.fab.masters.getD (masterIdx m) {}
def modMaster (m : Master) (f : MasterSt → MasterSt) (s : State) : State :=
  { s with fab := { s.fab with masters := s.fab.masters.modify (masterIdx m) f } }

/-! ### The ACTIVE token (R278, R275) -/

/-- The voted token: 0 none, 1 A, 2 B, 3 no holder. -/
def token (s : State) : Nat :=
  ((s.sup.tok0 &&& s.sup.tok1) ||| (s.sup.tok0 &&& s.sup.tok2) ||| (s.sup.tok1 &&& s.sup.tok2)).toNat

def holder (s : State) : Option Trunk := if token s = 1 then some .a else if token s = 2 then some .b else none

/-- The trunk that holds ACTIVE as CK_CORE sees it: the new token value acts from the move start on (R280). -/
def coreHolder (s : State) : Option Trunk :=
  if s.sup.moving && (holder s == some s.sup.moveTo) then s.sup.coreTok else holder s

/-- The trunk holds ACTIVE for the fabric, the framer and the fast commands (R12). -/
def holds (s : State) (t : Trunk) : Bool := coreHolder s == some t

/-! ### Registers in force -/

def regsGet (r : Ram Tri) (p o : Nat) : Nat := (vote (ramGet (resetAt (p * 0x1000 + o)) r (p * 0x1000 + o))).toNat

/-- The voted word in force at page `p`, offset `o` (R288, R359). -/
def regAt (s : State) (p o : Nat) : Nat := regsGet s.fab.regs p o

/-- A field in force. -/
def regF (s : State) (p o lo w : Nat) : Nat := fld (regAt s p o) lo w

def regPut (r : Ram Tri) (p o v : Nat) : Ram Tri := ramPut (resetAt (p * 0x1000 + o)) r (p * 0x1000 + o) (triOf v)

def setReg (p o v : Nat) (s : State) : State := { s with fab := { s.fab with regs := regPut s.fab.regs p o v } }

/-- The words in force in elapsed slot `e`: those before the first application after it (R36). -/
def regsIn (s : State) (e : Nat) : Ram Tri :=
  match (s.fab.hist.filter (fun h => decide (e < h.1))).getLast? with
  | some h => h.2.2
  | none => s.fab.regs

/-- An instant as one number: elapsed slot and core cycle of the slot. -/
def instTick (e k : Nat) : Nat := 1024 * e + k

/-- The words in force in core cycle `k` of elapsed slot `e`: in IDLE an application falls inside a slot (R59). -/
def regsAt (s : State) (e k : Nat) : Ram Tri :=
  match (s.fab.hist.filter (fun h => decide (instTick e k < instTick h.1 h.2.1))).getLast? with
  | some h => h.2.2
  | none => s.fab.regs

/-- The value that held in slot `e`, given what held before each change, newest first, and the value now (R36). -/
def heldIn {α : Type} (h : List (Nat × α)) (now : α) (e : Nat) : α :=
  match (h.filter (fun p => decide (e < p.1))).getLast? with
  | some p => p.2
  | none => now

/-- A change in slot `e` from `was` joins a history kept for `keep` slots. -/
def heldPush {α : Type} (keep e : Nat) (was : α) (h : List (Nat × α)) : List (Nat × α) :=
  (e, was) :: h.filter (fun p => decide (e < p.1 + keep))

def regIn (s : State) (e p o lo w : Nat) : Nat := fld (regsGet (regsIn s e) p o) lo w

/-- Page and base offset of a channel's block (R111). -/
def chPage (c : Nat) : Nat := 0x10 + c / 32
def chOff (c o : Nat) : Nat := 0x80 * (c % 32) + o

/-! ### Which pages run (R16) -/

/-- A page runs while its clock does: a downlink page while the trunk's bit and symbol clock is recovered. -/
def pageRuns (s : State) (p : Nat) : Bool :=
  if s.pw.por then false else if isSup p then true else if p = 0x58 then s.pw.xtal
  else if p = 0x4C then s.lnA.bitLock else if p = 0x4D then s.lnB.bitLock else s.pw.coreRun && isAssigned p

/-! ### Page state -/

def pageReset (p : Nat) : PageSt := { active := !(enReset p == some false) }

def pageSt (s : State) (p : Nat) : PageSt := ramGet (pageReset p) s.fab.pages p

def modPage (p : Nat) (f : PageSt → PageSt) (s : State) : State :=
  { s with fab := { s.fab with pages := ramPut (pageReset p) s.fab.pages p (f (pageSt s p)) } }

def tallyOf (s : State) (p i : Nat) : Nat := ramGet 0 (pageSt s p).tally i

/-- The cycle of the page's clock domain (R348): CK_SUP, or a core cycle; a management or downlink page runs on while CK_CORE is stopped. -/
def pageCycle (s : State) (p : Nat) : Nat := if isSup p then s.pw.sup else if s.pw.coreRun then 2 * s.pw.cc else 2 * s.pw.sup + 1

/-- The tallies of the page that rose in the present cycle of its domain. -/
def bumpedNow (s : State) (p : Nat) : List (Nat × Nat) :=
  if (pageSt s p).bumpAt = pageCycle s p then (pageSt s p).bumped else []

/-- One increment of a tally, saturating (R349). -/
def bump (p i : Nat) (s : State) : State :=
  modPage p (fun x => { x with tally := ramPut 0 x.tally i (min 0xFF (ramGet 0 x.tally i + 1)), bumpAt := pageCycle s p,
                               bumped := (i, s.pw.cc) :: bumpedNow s p }) s

/-! ### Notices -/

def noticeOn (s : State) (p : Nat) : Bool := (regAt s 0x7C (0x060 + 4 * (p / 32))).testBit (p % 32)

/-- Notice `n` enters before `h`: both are of one core cycle, and its page, or item of the same page, is the lower one (R472). -/
def noticeBefore (n h : Notice) : Bool :=
  decide (h.cc = n.cc) && (decide (n.page < h.page) || (decide (n.page = h.page) && decide (n.item < h.item)))

/-- A notice takes its place. What the notice it enters before reports of lost and, for the same page, suppressed ones, it reports. -/
def noticeIns (n : Notice) : List Notice → List Notice
  | [] => [n]
  | h :: t =>
    if noticeBefore n h then
      (if h.page = n.page then { n with lost := n.lost + h.lost, supp := n.supp + h.supp } :: { h with lost := 0, supp := 0 } :: t
       else { n with lost := n.lost + h.lost } :: { h with lost := 0 } :: t)
    else h :: noticeIns n t

/-- The notice with the counts that it reports. -/
def noticeOf (p : Nat) (n : Notice) (s : State) : Notice := { n with supp := (pageSt s p).ntcSupp, lost := s.fab.lost }

/-- A notice enters the store (R350). -/
def noticeIn (p : Nat) (n : Notice) (s : State) : State :=
  let s' := { s with fab := { s.fab with store := noticeIns (noticeOf p n s) s.fab.store, lost := 0 } }
  modPage p (fun x => { x with ntcSupp := 0, ntcAt := some s.pw.elapsed }) s'

/-- A notice that found no room: it is counted, and what it would have reported waits for the next one (R350). -/
def noticeLost (d : Notice) (s : State) : State :=
  let s := bump 0x7C 1 { s with fab := { s.fab with lost := s.fab.lost + 1 + d.lost } }
  modPage d.page (fun x => { x with ntcSupp := x.ntcSupp + d.supp }) s

/-- The last of the stored notices loses its place to one that enters before it (R472). -/
def noticeDrop (s : State) : State :=
  match s.fab.store.getLast? with
  | none => s
  | some d =>
    let s := { s with fab := { s.fab with store := s.fab.store.dropLast } }
    noticeLost d (modPage d.page (fun x => { x with ntcAt := none }) s)

/-- A notice finds room in the store or is lost (R350); events of one core cycle find it in the order of R472. -/
def storeNotice (p : Nat) (n : Notice) (s : State) : State :=
  if s.fab.store.length < 32 then noticeIn p n s
  else if s.fab.store.any (noticeBefore n) then noticeDrop (noticeIn p n s)
  else noticeLost { n with supp := 0, lost := 0 } s

/-- The stored notice of the same page and core cycle that this one goes before: it would not have been posted (R350, R472). -/
def noticeAhead (n h : Notice) : Bool := noticeBefore n h && decide (h.page = n.page)

/-- A notice within MIN_GAP of the page's last one: that one, if this one goes before it, else this one, is suppressed (R350, R472). -/
def gapNotice (p : Nat) (n : Notice) (s : State) : State :=
  let s := bump 0x7C 0 (modPage p (fun x => { x with ntcSupp := x.ntcSupp + 1 }) s)
  { s with fab := { s.fab with store := s.fab.store.map (fun h =>
      if noticeAhead n h then { n with supp := h.supp, lost := h.lost } else h) } }

/-- Posts a notice of page `p` under NTC_EN and MIN_GAP, or holds it while CK_CORE is stopped (R350). -/
def postNotice (p : Nat) (n : Notice) (s : State) : State :=
  let n := { n with page := p, slot := s.orb.slot, orbit := s.orb.orbit, cc := s.pw.cc, stopped := !s.pw.coreRun }
  if !noticeOn s p then s
  else if !s.pw.coreRun then
    modPage p (fun x => { x with heldSupp := x.heldSupp + b2n x.held.isSome, held := some n }) s
  else if (match (pageSt s p).ntcAt with
           | some t => decide (s.pw.elapsed < t + regF s 0x7C 0x040 0 12)
           | none => false) then gapNotice p n s
  else storeNotice p n s

/-- CK_CORE runs again: the held notices enter the store in ascending page order (R350). -/
def releaseHeld (s : State) : State :=
  assignedPages.foldl (fun s p =>
    match (pageSt s p).held with
    | none => s
    | some n =>
      let k := (pageSt s p).heldSupp
      let s := modPage p (fun x => { x with held := none, heldSupp := 0, ntcSupp := x.ntcSupp + k }) s
      let s := Nat.iterate (bump 0x7C 0) k s
      storeNotice p { n with cc := s.pw.cc } s) s

/-- An event that a tally counts, with its notice (R468). Tallies of page 0x7C post none. -/
def countD (p i d : Nat) (s : State) : State :=
  let s := bump p i s
  if p = 0x7C then s else postNotice p { kind := 0xA1, page := p, item := i, value := tallyOf s p i, detail := d } s

def count (p i : Nat) (s : State) : State := countD p i 0 s

def countN (p i n : Nat) (s : State) : State := Nat.iterate (count p i) n s

/-- A refusal on a page (R333, R468). -/
def refuse (p cause d : Nat) (s : State) : State :=
  let s := modPage p (fun x => { x with refused := true, cause := cause }) s
  postNotice p { kind := 0xA2, page := p, item := cause, value := 0, detail := d } s

/-- A refusal at an access: DETAIL is its byte address (R471), and the master sees its cause. -/
def refuseAt (m : Master) (a cause : Nat) (s : State) : State :=
  modMaster m (fun x => { x with cause := cause }) (refuse (a / 0x1000) cause a s)

/-! ### Time -/

/-- A base after `n` core cycles: a step or load `nx` of the present cycle shows with that cycle's increment, and an increment `ni`
committed in it governs from the next cycle (R294, R297). -/
def advBase (n t incr : Nat) (nx ni : Option Nat) : Nat :=
  match n with
  | 0 => t
  | k + 1 => (nx.getD t + incr + k * ni.getD incr) % 2 ^ 96

/-- The bases after `n` core cycles. -/
def basesAfter (n : Nat) (b : Bases) : Bases :=
  if n = 0 then b
  else { b with t1 := advBase n b.t1 b.incr1 b.nx1 b.ni1, t3 := advBase n b.t3 b.incr3 b.nx3 b.ni3, incr1 := b.ni1.getD b.incr1,
                incr3 := b.ni3.getD b.incr3, nx1 := none, nx3 := none, ni1 := none, ni3 := none }

/-- TBASE1 and TBASE3 advance for `n` core cycles. -/
def tbAdvance (n : Nat) (s : State) : State := { s with tb := basesAfter n s.tb }

/-- `n` core cycles pass within the slot. -/
def coreCycles (n : Nat) (s : State) : State :=
  tbAdvance n { s with pw := { s.pw with cc := s.pw.cc + n, cyc := s.pw.cyc + n } }

/-- One core cycle passes when no command waits, unless it would leave the slot (SLOT_ADVANCE and ORBIT_BOUNDARY do that) or
CK_CORE does not run (DESIGN CHOICE, log entry 6). -/
def idleCycle (s : State) : State :=
  if s.pw.coreRun && decide (s.pw.cyc + 1 < s.pw.slotLen) then coreCycles 1 s else s

/-- Hub time in ps: slots at the nominal 25 ns (R4; DESIGN CHOICE, log entry 7). -/
def psAt (e : Nat) : Nat := e * 25000

/-- The tag of elapsed slot `e`, if the hub still keeps it. -/
def tagOf (s : State) (e : Nat) : Tag := if e ≤ s.pw.elapsed then s.orb.tags.getD (s.pw.elapsed - e) {} else {}

def tagHead (s : State) : Tag := s.orb.tags.headD {}

/-- The newest slot that began at or before core cycle `c`, as its tag. -/
def tagAtCycle (s : State) (c : Int) : Tag := (s.orb.tags.find? (fun g => decide ((g.cc0 : Int) ≤ c))).getD {}

def modTag (f : Tag → Tag) (s : State) : State := { s with orb := { s.orb with tags := s.orb.tags.modify 0 f } }

/-- CK_SUP cycles in `ms` milliseconds: 20,000 each (R427). -/
def supMs (ms : Nat) : Nat := 20000 * ms

/-! ### Free values -/

/-- The next value the spec leaves open, and the state with the counter advanced (log entry 4). -/
def takeFree (s : State) : Nat × State :=
  ((Config.freeValue s.pw.freeCtr).toNat, { s with pw := { s.pw with freeCtr := s.pw.freeCtr + 1 } })

/-- `n` bytes of the flash from `a` on hold what the spec does not give: each is a free value (log entries 4, 21, 22). -/
def spoilFlash (a n : Nat) (s : State) : State :=
  let l := (List.range n).map (fun i => (Config.freeValue (s.pw.freeCtr + i)).setWidth 8)
  { s with pw := { s.pw with freeCtr := s.pw.freeCtr + n }, slow := { s.slow with flash := ramPutBytes 0xFF s.slow.flash a l } }

/-! ### Digital pins -/

/-- The digital pins work: no test instruction has taken them, and their supply is present (R327, R432). -/
def pinsOk (s : State) : Bool := s.pw.vddio && !s.jtag.taken

/-! ### Levels of live causes -/

/-- Counts tally `i` of page `p` when a live cause rises. -/
def onRise (was isNow : Bool) (p i d : Nat) (s : State) : State := if !was && isNow then countD p i d s else s

end Sys2Proof.Machine
end

