-- ==== Sys2Proof/Machine/Trims.lean ====
section
/-! DEFINITION. Factory and user layers of the trims and their effective values (R367–R372). -/

namespace Sys2Proof.Machine

/-- Address in the fuse bank of byte `k` of the data image D (R368). -/
def fuseAddr (k : Nat) : Nat := 256 * (k / 252) + 2 + k % 252

/-- Record `r` of a fuse bank image passes its CRC-16 and record number (R370). -/
def fuseRecOk (bank : Ram Byte) (r : Nat) : Bool :=
  let l := ramBytes 0 bank (256 * r) 256
  (l.getD 0 0).toNat == r && crc16 (l.take 254) == leNat (l.drop 254)

/-- Nominal value of byte `k` of D (R370): zero, the locally administered MAC, and the typical correction constants of R451. -/
def nominal (adr k : Nat) : Nat :=
  if k = 9 then 0x02 else if k = 14 then 0x60 + adr
  else if 16 ≤ k ∧ k < 24 then ((nominalCorr.getD ((k - 16) / 2) 0) >>> (8 * (k % 2))) % 256 else 0
where
  /-- TS_RX_CORR, TS_TX_CORR, PROBE_RX, PROBE_TX, typical. -/
  nominalCorr : List Nat := [0x1B80, 0x0E40, 0x12F2, 0x1894]

/-- Byte `k` of the factory layer in use (R370). -/
def factByte (s : State) (k : Nat) : Nat :=
  if s.cal.useFuse then (ramGet 0 s.cal.read (fuseAddr k)).toNat else nominal s.pw.adr k

/-- Locked bytes of D and U (R369). -/
def lockedByte (k : Nat) : Bool := decide (k < 16) || decide (1600 ≤ k)

/-- Field of `n` bytes at byte `k` of the factory layer. -/
def factVal (s : State) (k n : Nat) : Nat := leNat ((List.range n).map (fun i => BitVec.ofNat 8 (factByte s (k + i))))

/-- Field of `n` bytes at byte `k` of a user image. -/
def userVal (u : Ram Byte) (k n : Nat) : Nat := leNat (ramBytes 0 u k n)

/-- A stored quantity: byte position, width in bits, position of the field in its byte, and its range. -/
structure Quantity where
  at_ : Nat
  n   : Nat := 2                 -- bytes
  lo  : Nat := 0                 -- first bit
  w   : Nat := 16                -- bits
  min : Int := -32768
  max : Int := 32767
  deriving DecidableEq, Repr, Inhabited

/-- TRIM[c], FL_OFS[c], CONV_SEED gain and offset, and the rest of R369. -/
def qTrim (c : Nat) : Quantity := { at_ := 64 + 2 * c, min := -4096, max := 4095 }
def qFlOfs (c : Nat) : Quantity := { at_ := 832 + c, n := 1, w := 8, min := -128, max := 127 }
def qSeed (c k : Nat) : Quantity := { at_ := 1216 + c, n := 1, lo := 4 * k, w := 4, min := -8, max := 7 }
def qCol (k : Nat) : Quantity := { at_ := 36 + k, n := 1, w := 8, min := -128, max := 127 }
def qWord (k : Nat) : Quantity := { at_ := k }

/-- The unlocked quantities of one field, in the order of R369. -/
def plainQuantities : List Quantity :=
  [qWord 16, qWord 18, qWord 20, qWord 22] ++ (List.range 6).map (fun i => qWord (24 + 2 * i))
  ++ (List.range 16).map qCol ++ (List.range 6).map (fun i => qWord (52 + 2 * i))
  ++ (List.range 384).map qTrim ++ (List.range 384).map qFlOfs

/-- The fields of every unlocked quantity: CONV_SEED[c] is one quantity of two fields, gain and offset (R369). -/
def quantities : List (List Quantity) :=
  plainQuantities.map (fun q => [q]) ++ (List.range 384).map (fun c => [qSeed c 0, qSeed c 1])

def rawSum2 (s : State) (u : Ram Byte) (q : Quantity) : Int :=
  sgn (fld (factVal s q.at_ q.n) q.lo q.w) q.w + sgn (fld (userVal u q.at_ q.n) q.lo q.w) q.w

def sumOk (s : State) (u : Ram Byte) (q : Quantity) : Bool :=
  decide (q.min ≤ rawSum2 s u q) && decide (rawSum2 s u q ≤ q.max)

/-- EFF of a quantity (R367): limited to its range. -/
def effOf (s : State) (u : Ram Byte) (q : Quantity) : Int := clampI q.min q.max (rawSum2 s u q)

/-- The effective value in force. -/
def eff (s : State) (q : Quantity) : Int := effOf s s.cal.eff q

/-- The user image without its locked bytes (R372). -/
def unlockedOnly (u : Ram Byte) : Ram Byte := ramDrop lockedByte u

/-- Slice trims in service of a converter, as one code (R52). -/
def seedOf (s : State) (c : Nat) : Nat := uns (eff s (qSeed c 0)) 4 + 16 * uns (eff s (qSeed c 1)) 4

/-- The quantities "at start-up and each apply" reach their registers (R369, R372, R376). -/
def loadCorr (s : State) : State :=
  let v (k : Nat) : Nat := uns (eff s (qWord k)) 16
  setReg 0x02 0x04C (v 20 + v 22 * 0x10000) (setReg 0x54 0x070 (v 18) (setReg 0x54 0x06C (v 16) s))

end Sys2Proof.Machine
end

