-- ==== Sys2Proof/Machine/Sampling.lean ====
section
/-! DEFINITION. Converters (chapter 03) and channel processing (chapter 05): the sample word, the ring write, the filter, peaks,
features, tower sums, pedestals. -/

namespace Sys2Proof.Machine

/-! ### Which converters run -/

def convPage (c : Nat) : Nat := 0x20 + c / 64

/-- Bit of channel `c` in a _LO/_HI register pair that starts at `o`. -/
def loHi (r : Ram Tri) (p o c : Nat) : Bool := (regsGet r p (o + 4 * (c % 64 / 32))).testBit (c % 32)

/-- Converter enabled under the words `r` (R58). -/
def convEn (r : Ram Tri) (c : Nat) : Bool := (regsGet r (convPage c) 0x004).testBit 0 && loHi r (convPage c) 0x044 c

/-- CH_OFS of a channel under the words `r` (R91). -/
def chOfs (r : Ram Tri) (c : Nat) : Int := sgn (regsGet r 0x28 (0x080 + 4 * (c / 2)) >>> (16 * (c % 2))) 16

def hubOfs (r : Ram Tri) : Int := (regsGet r 0x28 0x044 % 0x8000 : Nat)

/-- CODE of a channel with the given TRIM and TRACK (R67). -/
def codeWith (r : Ram Tri) (c : Nat) (trim track : Int) : Int := hubOfs r + chOfs r c + trim + track

/-- TRIM + TRACK of a channel in slot `e`: samples still in the pipeline were taken under the values of their slot (R36, R66). -/
def offsIn (x : Chan) (e : Nat) : Int := heldIn x.offs (x.trim + x.track) e

/-- TRIM and TRACK become `trim` and `track` from slot `e` on. -/
def setOffs (e : Nat) (trim track : Int) (x : Chan) : Chan :=
  if trim + track = x.trim + x.track then { x with trim := trim, track := track }
  else { x with trim := trim, track := track, offs := heldPush 2048 e (x.trim + x.track) x.offs }

/-- Core cycle of slot `e` in which sample `j` of channel `c` is taken (R67). -/
def instCycle (s : State) (c e j : Nat) : Nat :=
  ((codeWith (regsIn s e) c (offsIn (getChan s c) e) 0 + 32768 * j) / 8192).toNat

/-- The sampling instant did not occur: CK_CORE had stopped in the slot (R283). -/
def instMissing (s : State) (c e j : Nat) : Bool := (tagOf s e).cut.elim false (fun k => decide (k ≤ instCycle s c e j))

/-- The converter is powered and ready at an instant: since its last power-up, or before it until the power-down that preceded it
(R59, R61, R429). -/
def convReadyAt (k : Conv) (t : Nat) : Bool :=
  if t < k.onT then k.wasReady && decide (k.wasT ≤ t) && decide (t < k.wasOff)
  else k.ready && decide (k.readyT ≤ t) && (k.on || decide (t < k.offT))

/-- Converter `c` delivers a valid sample for instant `j` of slot `e`: in IDLE enabled from the core cycle of an application on, else
from a boundary on (R59, R60, R429). -/
def convLive (s : State) (c e j : Nat) : Bool :=
  let k := instCycle s c e j
  convEn (regsAt s e k) c && convReadyAt (getConv s c) (instTick e k)

/-- The block of page `p` works on the samples of slot `e`: enabled then, and either before it last began to drain or started since
(R351). -/
def pageOnIn (s : State) (p e : Nat) : Bool :=
  let x := pageSt s p
  (regsGet (regsIn s e) p 0x004).testBit 0 && (decide (e < x.drainAt) || (x.active && decide (x.startAt ≤ e)))

/-- A seam's rings are written for slot `e`: enabled, or draining (R128). -/
def ringOn (s : State) (i e : Nat) : Bool := pageOnIn s (0x08 + i) e || (pageSt s (0x08 + i)).draining

/-! ### The sample word (R43–R49) -/

/-- IN_CTL.INSEL of a converter's seam in slot `e`. -/
def inSel (s : State) (c e : Nat) : Nat := regIn s e (convPage c) 0x04C 2 2

/-- Differential input at the converter in LSB (R44). INSEL 0: the pins, at `level`. INSEL 1 and 2 disconnect the pins: the internal
short, or the reference DAC at IN_TEST.LEVEL, with the converter's own error `own`, which the spec does not give (a free value, log
entry 42). -/
def inputAt (s : State) (c e : Nat) (level own : Int) : Int :=
  if inSel s c e = 0 then level
  else if inSel s c e = 2 then ((regIn s e (convPage c) 0x050 0 14 : Nat) : Int) - 0x2000 + own
  else own

/-- Code of an in-range input. -/
def codeOf (v : Int) : Nat := (clampI 0 0x3FFF (v + 0x2000)).toNat

/-- Samples that carry OVR after the return (R49): 3 up to twice full scale, else 10; one more when the return falls on an
instant (DEDUCED, log entry 12). -/
def recovery (peak : Nat) (onEdge : Bool) : Nat := (if peak ≤ 16384 then 3 else 10) + b2n onEdge

/-- Clamp code of a rail. -/
def railCode (high : Bool) : Nat := if high then 0x3FFF else 0

/-- Code and OVR of one sample, with the converter's over-range state afterwards (R48). A later excursion does not cut the
recovery of an earlier one short. -/
def convert (k : Conv) (v : Int) (peak : Nat) (onEdge : Bool) : Nat × Bool × Conv :=
  if 8192 < v then (0x3FFF, true, { k with high := true, recov := max (k.recov - 1) (recovery peak onEdge) })
  else if v < -8192 then (0, true, { k with high := false, recov := max (k.recov - 1) (recovery peak onEdge) })
  else if 0 < k.recov then (railCode k.high, true, { k with recov := k.recov - 1 })
  else (codeOf v, false, k)

def sampleWord (code : Nat) (ovr swap : Bool) : Nat := code % 0x4000 + 0x4000 * b2n ovr + 0x8000 * b2n swap

/-! ### The ring (R128) -/

def ringKey (n c : Nat) : Nat := 384 * (n % 2048) + c
def groupKey (n c : Nat) : Nat := 384 * (n % 2048 / 4) + c

/-- Writes the word of sample number `n`; the fourth sample of a group writes its check bits anew (R129). -/
def ringWrite (n c w : Nat) (s : State) : State :=
  { s with ring := ramPut 0 s.ring (ringKey n c) (BitVec.ofNat 16 w),
           ringErr := if n % 4 = 3 then ramPut 0 s.ringErr (groupKey n c) 0 else s.ringErr,
           conv := s.conv.modify c (fun k => { k with wr := n + 1 }) }

def ringRead (s : State) (n c : Nat) : Nat := (ramGet 0 s.ring (ringKey n c)).toNat

/-! ### Pedestals (R93–R95) -/

/-- PED of a channel in slot `e` (R36, R93). -/
def pedIn (x : Chan) (e : Nat) : Nat := heldIn x.pedHist x.ped e

/-- PED becomes `v` from slot `e` on. -/
def setPed (e v : Nat) (x : Chan) : Chan := { x with ped := v, pedHist := heldPush 16 e x.ped x.pedHist }

def chanReg (s : State) (e c o lo w : Nat) : Nat := regIn s e (chPage c) (chOff c o) lo w

/-- Whether the channel's page is enabled in slot `e` (R114). -/
def chanEn (s : State) (c e : Nat) : Bool := pageOnIn s (chPage c) e

/-- A sample of a pedestal-tracking slot is taken, and kept when it meets both conditions (R94). -/
def trackSample (s : State) (c e code : Nat) (ovr : Bool) (x : Chan) : Chan :=
  let win := chanReg s e c 0x040 24 8
  let d : Int := 16 * (code : Int) - (pedIn x e : Nat)
  let keep := !ovr && (decide (win = 0) || decide (d.natAbs ≤ 16 * win))
  { x with pedT := x.pedT + 1, pedN := x.pedN + b2n keep, pedSum := x.pedSum + (if keep then code else 0) }

/-- A sample leaves converter `c` for slot `e`, sample `j` (R45, R46): the ring, OVR_EDGE, the filter's input. -/
def deliver (c e j code : Nat) (ovr swap live : Bool) (s : State) : State :=
  let n := 2 * e + j
  let w := if live then sampleWord code ovr swap else 0
  let was := (getConv s c).ovr
  let isNow := live && ovr
  let s := if ringOn s (c / 64) e then ringWrite n c w s else s
  let s := modConv c (fun k => { k with ovr := isNow }) s
  let s := onRise was isNow (convPage c) 0 c s
  let track := (tagOf s e).ped && live && chanEn s c e && decide (chanReg s e c 0x040 0 1 = 1)
  modChan c (fun x =>
    let x := if track then trackSample s c e code ovr x else x
    { x with inq := x.inq ++ [⟨e, j, w, live⟩] }) s

/-- No recovery outlasts a stop of CK_CORE (DEDUCED, log entry 43): the first conversion after a slot that was cut starts clean. -/
def recoverCut (c e j : Nat) (s : State) : State :=
  if j = 0 ∧ (tagOf s (e - 1)).cut.isSome then modConv c (fun k => { k with recov := 0 }) s else s

/-- Elapsed slot `e` is one of the 16 of the converter's last rotation (R54): a sample keeps the SWAP of the slot it was taken in. -/
def rotatedIn (k : Conv) (e : Nat) : Bool := decide (k.rotAt ≤ e) && decide (e < k.rotAt + 16)

/-- A converter's sample of slot `e` at the input `v`: over-range and recovery follow the input whether or not the converter
delivers (R48). `open_` is the code and OVR of a sample taken with the common mode out of range, which the spec leaves open (R44). -/
def sampleAt (c e j : Nat) (v : Int) (peak : Nat) (onEdge : Bool) (open_ : Option Nat) (s : State) : State :=
  let r := convert (getConv s c) v peak onEdge
  let live := convLive s c e j
  let swap := (tagOf s e).swap && rotatedIn (getConv s c) e
  let s := modConv c (fun _ => r.2.2) s
  if !live then deliver c e j 0 false false false s
  else
    match open_ with
    | some f => deliver c e j (f % 0x4000) (f.testBit 14) swap true s
    | none => deliver c e j r.1 r.2.1 swap true s

/-- SAMPLE_CONVERSION for an input within the absolute maximum: the sample taken 12 sample periods ago leaves its converter. -/
def sampleOut (c j : Nat) (level : Int) (peak : Nat) (onEdge cmBad : Bool) (s : State) : State :=
  if !s.pw.coreRun ∨ s.pw.elapsed < 2054 then s
  else
    let e := s.pw.elapsed - 6
    if instMissing s c e j then deliver c e j 0 false false false (modConv c (fun k => { k with recov := 0 }) s)
    else
      let s := recoverCut c e j s
      if inSel s c e = 0 then
        (if cmBad then sampleAt c e j level peak onEdge (some (takeFree s).1) (takeFree s).2
         else sampleAt c e j level peak onEdge none s)
      else
        let v := inputAt s c e level (sgn (takeFree s).1 14)
        sampleAt c e j v v.natAbs onEdge none (takeFree s).2

/-- The input lies beyond the absolute maximum of R438: 3.0 V differential. -/
def beyondMax (s : State) (c : Nat) (level : Int) : Bool :=
  decide (24576 < level.natAbs) && decide (2054 ≤ s.pw.elapsed) &&
    decide (regIn s (s.pw.elapsed - 6) (convPage c) 0x04C 2 2 = 0)

/-! ### The filter (R96) -/

/-- Coefficient k of the set that FIR_SET names. -/
def coef (s : State) (c e : Nat) (set : Bool) (k : Nat) : Int :=
  sgn (chanReg s e c ((if set then 0x05C else 0x04C) + 4 * (k / 2)) (16 * (k % 2)) 12) 12

/-- ACC over the present taps, newest first. -/
def firAcc (h : Nat → Int) : List Tap → Nat → Int
  | [], _ => 0
  | t :: ts, k => if 8 ≤ k then 0 else h k * t.x + firAcc h ts (k + 1)

/-- Rounded arithmetic shift of R96. -/
def firShift (acc : Int) (sh : Nat) : Int := (acc + (if sh = 0 then 0 else 2 ^ (sh - 1))) / (2 ^ sh : Nat)

/-- Saturation to 19 bits signed, with the mark. -/
def satY (v : Int) : Int × Bool := (clampI (-262144) 262143 v, decide (v < -262144) || decide (262143 < v))

/-! ### Peaks (R98–R101) -/

/-- FINE of a peak (R99). -/
def fineTime (j : Nat) (a b q : Int) : Nat :=
  let den := 2 * b - a - q
  let v : Int := 512 * j + 256 + roundDiv (256 * (q - a)) den.toNat
  (clampI (512 * j) (512 * j + 511) v).toNat

/-- The record of a peak at sample `n`, from the values around it and the span's taps. -/
def peakRec (n : Nat) (a b q : Yval) (span : List Tap) : Peak :=
  { n := n, energy := b.y.toNat, fine := fineTime (n % 2) a.y b.y q.y,
    sat := span.any (·.ovr) || a.sat || b.sat || q.sat,
    bnd := decide (span.length < 10) || span.any (fun t => !t.en),
    swap := span.any (·.swap) }

/-- Pile-up: PU goes on every peak within `gap` of sample `n` (R100). -/
def markPile (gap n : Nat) (l : List Peak) : List Peak :=
  l.map (fun p => if gap ≠ 0 ∧ n - p.n ≤ gap ∧ p.n ≠ n then { p with pu := true } else p)

def piled (gap n since newest : Nat) (l : List Peak) : Bool :=
  decide (gap ≠ 0) && l.any (fun p => decide (n - p.n ≤ gap) && decide (newest < p.n + since))

/-- Flush of a channel (R102): taps and peak-finder state empty; peaks found stay, judged on their own side. It comes with the first
sample of a slot, so the samples of the slots before it that are still in the pipeline are filtered first. OVR and SWAP of the samples
before it leave with their taps: a peak after it does not carry them (DESIGN CHOICE, log entry 78). -/
def flushChan (x : Chan) : Chan := { x with taps := [], ys := [], since := 0 }

/-- Feature store key of slot `e`. -/
def featKey (e c : Nat) : Nat := 384 * (e % 1024) + c

/-- The next written sample of the channel is filtered, and the sample before it is judged (R96, R98). -/
def filterNext (c : Nat) (s : State) : State :=
  match (getChan s c).inq with
  | [] => s
  | p :: rest =>
    let n := 2 * p.e + p.j
    let tg := tagOf s p.e
    let s := if p.j = 0 then
      { s with feat := ramDrop (· == featKey p.e c) s.feat, featErr := ramDrop (· == featKey p.e c) s.featErr } else s
    modChan c (fun x =>
      let x := if p.j = 0 ∧ (tg.orb0 = true ∨ x.flushes.any (fun e => decide (e ≤ p.e))) then flushChan { x with flushes := x.flushes.filter (fun e => decide (p.e < e)) } else x
      let xv : Int := if p.en then 16 * ((p.w % 0x4000 : Nat) : Int) - (pedIn x p.e : Nat) else 0
      let tap : Tap := { n := n, x := xv, ovr := p.w.testBit 14, swap := p.w.testBit 15, en := p.en }
      let taps := (tap :: x.taps).take 10
      let yr := satY (firShift (firAcc (coef s c p.e tg.fir) taps 0) (chanReg s p.e c 0x040 3 4))
      let ys := (({ n := n, y := yr.1, sat := yr.2 } : Yval) :: x.ys).take 3
      let x := { x with inq := rest, taps := taps, ys := ys, since := x.since + 1 }
      match ys with
      | q :: b :: a :: _ =>
        let e := b.n / 2
        let ok := decide ((chanReg s e c 0x06C 0 18 : Int) < b.y) && decide (a.y < b.y) && decide (q.y ≤ b.y)
          && chanEn s c e && ((taps.getD 1 tap).en)
        if ok then
          let gap := chanReg s e c 0x040 16 6
          let live := x.peaks.filter (fun p => decide (n < p.n + x.since))
          let old := x.peaks.filter (fun p => !decide (n < p.n + x.since))
          let pk := { peakRec b.n a b q taps with pu := piled gap b.n x.since n x.peaks }
          { x with peaks := old ++ markPile gap b.n live ++ [pk] }
        else x
      | _ => x) s

/-- A peak is final once y of sample n + PU_GAP + 1 is formed, or the channel was flushed after it (R100, R102). -/
def peakDone (s : State) (c : Nat) (p : Peak) : Bool :=
  let x := getChan s c
  match x.ys with
  | [] => true
  | y :: _ => decide (p.n + chanReg s (p.n / 2) c 0x040 16 6 + 1 ≤ y.n) || decide (p.n + x.since ≤ y.n)

/-- The oldest peak of the channel, if final, is written to the feature store (R103). -/
def peakStore (c : Nat) (s : State) : State :=
  match (getChan s c).peaks with
  | [] => s
  | p :: rest =>
    if peakDone s c p then
      let s := modChan c (fun x => { x with peaks := rest }) s
      { s with feat := ramSet s.feat (featKey (p.n / 2) c) p }
    else s

/-- The peak of channel `c` in slot `e`, found so far, pending or stored (R108). -/
def peakIn (s : State) (c e : Nat) : Option Peak :=
  match (getChan s c).peaks.find? (fun p => p.n / 2 == e) with
  | some p => some p
  | none =>
    match ramFind s.feat (featKey e c) with
    | some p => if p.n / 2 = e then some p else none
    | none => none

/-! ### Tower sums (R108, R109) -/

/-- The 12-bit word of a raw sum. -/
def towerWord (v : Nat) : Nat :=
  if v < 512 then v else if 65536 ≤ v then 0xFFF
  else
    let e := Nat.log2 v - 8
    512 * e + (v / 2 ^ (e - 1) - 512)

/-- S_t(e). -/
def rawSum (s : State) (t e : Nat) : Nat :=
  sumTo 16 (fun i =>
    let c := 16 * t + i
    if chanReg s e c 0x040 1 1 = 1 && chanEn s c e then
      (match peakIn s c e with
       | some p => p.energy / 2 ^ chanReg s e c 0x040 12 3
       | none => 0)
    else 0)

def towerOf (s : State) (t e : Nat) : Nat := towerWord (rawSum s t e)

/-- TOWER_SAT: towers whose word of slot elapsed − 8 turns to 0xFFF (R109). -/
def towerSync (s : State) : State :=
  if s.pw.elapsed < 2056 then s
  else
    let e := s.pw.elapsed - 8
    let sat := (List.range 24).filter (fun t => towerOf s t e = 0xFFF)
    let old := s.frm.satA
    let s := sat.foldl (fun s t => if old.testBit t then s else count (0x10 + t / 2) 4 s) s
    { s with frm := { s.frm with satA := maskOf sat } }

/-! ### Pedestal tracking results (R94) -/

/-- PED_NEW of a channel from its sums, or none when too few samples were kept. -/
def pedResult (shift : Nat) (x : Chan) : Option Nat :=
  if x.pedN = 0 ∨ 2 * x.pedN < x.pedT then none
  else
    let mean := roundDiv (16 * x.pedSum) x.pedN
    some (clampI 0 0x3FFFF (x.ped + roundDiv (mean - x.ped) (2 ^ shift))).toNat

/-- PEDESTAL_TRACKING ends: every tracked channel gets its result or its rejection, held with the oasis in progress (R31). -/
def pedEnd (s : State) : State :=
  (List.range 384).foldl (fun s c =>
    let x := getChan s c
    if x.pedT = 0 then s
    else
      match pedResult (chanReg s s.pw.elapsed c 0x040 8 3) x with
      | some v => modChan c (fun x => { x with pedTmp := some v, pedTmpRej := false }) s
      | none => countD (chPage c) 0 c (modChan c (fun x => { x with pedTmp := none, pedTmpRej := true }) s)) s

/-- The oasis's pedestal results wait for the boundary; a channel without one keeps what already waits (R31). -/
def pedCommit (x : Chan) : Chan :=
  if x.pedTmp.isSome || x.pedTmpRej then { x with pedNew := x.pedTmp, pedRej := x.pedTmpRej, pedTmp := none, pedTmpRej := false } else x

/-- The samples of the pedestal-tracking slots have all been written (R30, R45), and tracking has not ended. -/
def pedReady (s : State) : Bool :=
  s.orb.oasis.running && !s.orb.oasis.pedDone && decide (s.orb.oasis.start + s.orb.oasis.len ≤ s.pw.elapsed + 10)

/-! ### Rotation (R52–R56) -/

/-- The next parked number of the sequence of R52. -/
def parkStep (k : Conv) : Conv :=
  if k.down then { k with parked := k.parked - 1, down := decide (k.parked ≠ 1) }
  else { k with parked := k.parked + 1, down := decide (k.parked = 9) }

/-- RESID from the sum of squared differences in units of 1/16 LSB (R55). -/
def residOf (sumSq : Nat) : Nat := min 0xFE ((isqrt (sumSq / 16) + 1) / 2)

/-- The reference DAC of a seam gives its levels with EFF(REF_TRIM[s]), in units of 2^−16 of the full scale of 16,384 LSB (R369). -/
def qRef (i : Nat) : Quantity := qWord (24 + 2 * i)

/-- The parked slice named by an estimate has converged: gain within 0.05 %, offset within 0.5 LSB (R53). The estimate is told against
the untrimmed reference DAC; the loop reads it against the trimmed one, 250 thousandths of an LSB a step (DEDUCED, log entry 79). -/
def sliceOk (s : State) (l : List SliceEst) (c : Nat) : Bool :=
  l.any (fun x => x.ch == c && decide (x.gain.natAbs ≤ 500) && decide ((x.ofs - 250 * eff s (qRef (c / 64))).natAbs ≤ 500))

/-- The calibration has left the parked slice's trims where its loop ended, which the spec does not give: a free value for each
powered converter (R53, log entry 44). A disabled one keeps its trims (R61). -/
def parkedTrims (s : State) : State :=
  { s with conv := mapIdxN (fun c k =>
             if k.on then { k with slices := k.slices.set k.parked (Config.freeValue (s.pw.freeCtr + c)).toNat } else k) s.conv,
           pw := { s.pw with freeCtr := s.pw.freeCtr + 384 } }

/-- A rotation opportunity of one converter at the first oasis slot (R54, R56). -/
def judgeConv (conv : Bool) (c : Nat) (s : State) : State :=
  let k := getConv s c
  let p := convPage c
  if !convEn s.fab.regs c ∨ k.retired ∨ regF s p 0x040 0 1 = 0 then modConv c (fun k => { k with rotating := false }) s
  else if conv then modConv c (fun k => { k with rotating := true, rotAt := s.pw.elapsed, fails := 0 }) s
  else if 3 ≤ k.fails then
    count p 3 (count p 2 (modConv c (fun k => { k with rotating := false, fails := 4, retired := true, residNew := some 0xFF }) s))
  else count p 2 (modConv c (fun k => { k with rotating := false, fails := k.fails + 1 }) s)

/-- The rotation's 16 slots have passed: the incoming slices serve and the outgoing slices are parked (R54). -/
def rotateAll (diffs : List (Nat × Nat)) (s : State) : State :=
  { s with
    conv := mapIdxN (fun c k =>
      if k.rotating then
        { parkStep k with residNew := (diffs.find? (fun d => d.1 == c)).elim k.residNew (fun d => some (residOf d.2)) }
      else k) s.conv,
    orb := { s.orb with oasis := { s.orb.oasis with rotating := false } } }

/-- RESID_HIGH of a seam (R62, R64). -/
def residHigh (s : State) (i : Nat) : Bool :=
  (List.range 64).any (fun k =>
    let r := (getConv s (64 * i + k)).resid
    r != 0xFF && decide (regF s (0x20 + i) 0x040 8 8 < r))

/-- The page soft reset of a converter page (R65). -/
def convReset (i : Nat) (seed : Nat → Nat) (s : State) : State :=
  { s with conv := mapIdxN (fun c k =>
      if c / 64 = i then
        { k with parked := 10, down := true, fails := 0, retired := false, rotating := false, resid := 0xFF,
                 residNew := none, shown := 10, shownRet := false, slices := List.replicate 11 (seed c) }
      else k) s.conv }

end Sys2Proof.Machine
end

