-- ==== Sys2Proof/Machine/FlintPath.lean ====
section
/-! DEFINITION. The flint path (chapter 06): discriminators, outputs, stuck masking, hold-off, flint map. Instants are in ps of hub
time at the nominal 25 ns slot, taken at the input crossing: propagation delays (R121) are left out (DESIGN CHOICE, log entry 8). -/

namespace Sys2Proof.Machine

/-- FL_CTL of a channel as it governs crossings of slot `e`. -/
def flCtl (s : State) (c e : Nat) : Nat := regsGet (regsIn s e) (chPage c) (chOff c 0x074)

/-- FL_SEAM of a seam as it governs slot `e`. -/
def flSeam (s : State) (i e : Nat) : Nat := regsGet (regsIn s e) (0x10 + 2 * i) 0x07C

/-- Threshold in µV with the offset trim of 0.25 mV steps (R116, R369). -/
def flThr (s : State) (c e : Nat) : Int := 4000 * (fld (flCtl s c e) 0 8 : Nat) + 250 * eff s (qFlOfs c)

/-- The present instant, at a core cycle. -/
def nowPs (s : State) : Nat := psAt s.pw.elapsed + 3125 * s.pw.cyc

/-- The discriminator at the input `uv` µV with threshold `thr`, off at THR 0: above past the threshold in its direction, and, once
above, until the input has returned by the hysteresis of 2.0 mV (R116). -/
def comparator (ctl : Nat) (thr : Int) (was : Bool) (uv : Int) : Bool :=
  let v := if ctl.testBit 8 then -uv else uv
  decide (fld ctl 0 8 ≠ 0) && (decide (thr < v) || (was && decide (thr - 2000 < v)))

/-- The channel may contribute (R119): OR_EN and not stuck-masked. -/
def mayContribute (s : State) (c e : Nat) : Bool := (flCtl s c e).testBit 9 && !(getFlint s c).stuck

/-- Channels of an output: a seam's 64, or all. -/
def outChans (o : Nat) : List Nat := if o < 6 then (List.range 64).map (fun k => 64 * o + k) else List.range 384

/-- The output is driven: its driver has VDDIO (R422, R432) and FL_SEAM, once applied, enables it (R119). -/
def outEn (s : State) (o e : Nat) : Bool :=
  s.pw.vddio && if o < 6 then s.flintOn.testBit o && (flSeam s o e).testBit 8 else s.flintOn.testBit 0 && (flSeam s 0 e).testBit 9

/-- Some channel of the output contributes, as the comparators were last judged. -/
def contribution (s : State) (o : Nat) : Bool := (outChans o).any (fun c => (getFlint s c).contrib)

/-- An instant of a flint command: `ps` into the present slot, or, while CK_CORE is stopped, from the start of the interrupted slot on
(DESIGN CHOICE, log entry 51). -/
def flintAt (s : State) (ps : Nat) : Nat := psAt s.pw.elapsed + if s.pw.coreRun then ps % 25000 else ps

/-- An output that is high falls when 2.0 ns have passed since its edge and nothing contributes (R120). -/
def outFall (o t : Nat) (s : State) : State :=
  let f := getFout s o
  if f.high && (match f.t0 with | some t0 => decide (t0 + 2000 ≤ t) | none => true) && !contribution s o then
    modFout o (fun f => { f with high := false }) s
  else s

/-- A contribution rises at output `o` at instant `t` (R120, R123). An edge that sets the hold-off latch fixes the slot in which it
clears, by the HOLDOFF of its own slot (R118, R123). -/
def outRise (o t : Nat) (s : State) : State :=
  let e := s.pw.elapsed
  let f := getFout s o
  let free := match f.t0 with | some t0 => decide (t0 + 4000 ≤ t) | none => true
  if outEn s o e && !f.high && free && !(decide (o < 6) && f.latch) then
    let hold := decide (o < 6) && decide (fld (flSeam s o e) 0 8 ≠ 0)
    modFout o (fun f => { f with high := true, t0 := some t, latch := f.latch || hold, slot := if hold then e + fld (flSeam s o e) 0 8 + 1 else f.slot }) s
  else s

/-- A contribution of channel `c` rises at both of its outputs. -/
def bothRise (c t : Nat) (s : State) : State := outRise 6 t (outRise (c / 64) t s)

/-- A transition of channel `c` from not above to above at instant `t`: merged, or counted, and at the outputs and in the flint map if
it contributes (R117, R119, R124). While CK_CORE is stopped the outputs act as ever, and HITS and the map, which it clocks, stand
still (R17; DEDUCED, log entry 51). -/
def edgeEvent (c t : Nat) (s : State) : State :=
  if (match (getFlint s c).last with | some l => decide (t < l + 4000) | none => false) then s
  else
    let run := s.pw.coreRun
    let s := modFlint c (fun f => { f with last := some t, hits := if run then (f.hits + 1) % 65536 else f.hits }) s
    if mayContribute s c s.pw.elapsed then
      bothRise c t (if run then modTag (fun g => { g with flint := g.flint ||| (1 <<< (c / 16)) }) s else s)
    else s

/-- The comparator of channel `c` is judged at instant `t` at its present input level: a rise is a leading edge, and a channel above
that has come to contribute raises its outputs (R116, R117, R119, R120). -/
def judgeChan (c t : Nat) (s : State) : State :=
  let f := getFlint s c
  let on := comparator (flCtl s c s.pw.elapsed) (flThr s c s.pw.elapsed) f.on f.uv
  let ct := on && mayContribute s c s.pw.elapsed
  let s := modFlint c (fun f => { f with on := on, contrib := ct }) s
  if on && !f.on then edgeEvent c t s else if ct && !f.contrib then bothRise c t s else s

/-- FLINT_LEADING_EDGE: at `ps` of the present slot the input of channel `c` goes to `uv` µV and stays there until its next change. A
level that crosses the threshold is a leading edge; one that returns past the hysteresis ends what the last one began. -/
def leadingEdge (c : Nat) (uv : Int) (ps : Nat) (s : State) : State :=
  let t := flintAt s ps
  if !s.pw.vdda then s
  else judgeChan c t (modFlint c (fun f => { f with uv := uv }) (outFall 6 t (outFall (c / 64) t s)))

/-- The input of channel `c` goes to `uv` at `ps`; one that lasts `tot` ps and not longer goes to `rest` then. A pulse in which another
input changes comes as two commands (log entry 51). -/
def inputPulse (c : Nat) (uv : Int) (ps tot : Nat) (rest : Int) (s : State) : State :=
  if tot = 0 then leadingEdge c uv ps s else leadingEdge c rest (ps + tot) (leadingEdge c uv ps s)

/-- FLINT_OUTPUT_FALL at `ps` of the present slot (R120). -/
def outputFall (o ps : Nat) (s : State) : State := if s.pw.vdda then outFall o (flintAt s ps) s else s

/-- Every comparator is judged again, after a change of the words or trims that govern it (R36, R118). -/
def flintJudge (s : State) : State :=
  if !s.pw.vdda then s else (List.range 384).foldl (fun s c => judgeChan c (nowPs s) s) s

/-- Towers with a stuck-masked channel (R217). -/
def stuckTowers (s : State) : Nat :=
  maskOf ((List.range 24).filter (fun t => (List.range 16).any (fun k => (getFlint s (16 * t + k)).stuck)))

def markStuck (s : State) : State :=
  let m := stuckTowers s
  modTag (fun g => { g with stuck := m }) s

/-- The slot start samples whether each channel is above (R122). -/
def flintSample (s : State) : State :=
  let s := flintJudge s
  markStuck { s with flint := s.flint.map (fun f =>
    { f with above := f.on, cnt := if f.on then f.cnt + 1 else 0, clr := if f.on then 0 else f.clr + 1 }) }

/-- STUCK_MASK: more than STUCK_LIMIT consecutive slot starts above (R122). -/
def stuckSet (c : Nat) (s : State) : State :=
  let f := getFlint s c
  if !f.stuck && decide (fld (flCtl s c s.pw.elapsed) 16 8 < f.cnt) then
    countD (chPage c) 8 c (markStuck (modFlint c (fun f => { f with stuck := true, contrib := false }) s))
  else s

/-- STUCK_RELEASE: 16 consecutive slot starts not above (R122). A channel that is above by then contributes from now on. -/
def stuckClear (c : Nat) (s : State) : State :=
  let f := getFlint s c
  if f.stuck && decide (16 ≤ f.clr) then judgeChan c (nowPs s) (markStuck (modFlint c (fun f => { f with stuck := false }) s)) else s

/-- HOLDOFF_LATCH_CLEAR at slot n + HOLDOFF + 1 (R123). -/
def latchClear (i : Nat) (s : State) : State :=
  let f := getFout s i
  if f.latch && decide (f.slot ≤ s.pw.elapsed) then modFout i (fun f => { f with latch := false }) s else s

/-- At the return of CK_CORE, edges of the stop are further back than 4.0 ns: their instants bind no longer (DEDUCED, log entry 51). -/
def flintResume (s : State) : State :=
  let t := nowPs s
  { s with fout := s.fout.map (fun f => { f with t0 := f.t0.filter (· ≤ t) }),
           flint := s.flint.map (fun f => { f with last := f.last.filter (· ≤ t) }) }

/-- The outputs that are no longer driven are low (R119). -/
def outsLow (s : State) : State :=
  { s with fout := mapIdxN (fun o f => if outEn s o s.pw.elapsed then f else { f with high := false }) s.fout }

/-- FL_SEAM.MASKED (R126). -/
def maskedCount (s : State) (i : Nat) : Nat := sumTo 64 (fun k => b2n (getFlint s (64 * i + k)).stuck)

end Sys2Proof.Machine
end

