-- ==== Sys2Proof/Machine/Codec.lean ====
section
/-! DEFINITION. Bales (R156–R159), the raw image (R160–R163), the DEFLATE coder (R164–R168) and the inflater (R174, R176). -/

namespace Sys2Proof.Machine

/-! ### Bale framing -/

/-- A bale's header (R156). `slotFlags` is bytes 7–8: slot number with FLAGS in [15:12]. -/
def baleHeader (typ seam : Nat) (last : Bool) (seq len slotFlags orbit : Nat) : List Byte :=
  [0xB7, BitVec.ofNat 8 (typ % 16 + 16 * (seam % 8) + 128 * b2n last)] ++ leBytes 3 seq ++ leBytes 2 len
    ++ leBytes 2 slotFlags ++ leBytes 4 orbit ++ [0, 0, 0]

/-- Adds the CRC-32 trailer (R159). -/
def withTrailer (l : List Byte) : List Byte := l ++ leBytes 4 (crc32 l)

/-- A whole bale. -/
def mkBale (typ seam : Nat) (last : Bool) (seq slotFlags orbit : Nat) (payload : List Byte) : List Byte :=
  withTrailer (baleHeader typ seam last seq payload.length slotFlags orbit ++ payload)

/-! ### The raw image -/

/-- Symbols z of a channel block (R162). -/
def zSyms : Option Nat → List Nat → List Nat
  | _, [] => []
  | none, w :: t => w :: zSyms (some w) t
  | some p, w :: t =>
    let d := sgn (w + 65536 - p) 16
    (if 0 ≤ d then 2 * d else -2 * d - 1).toNat :: zSyms (some w) t

/-- A channel block: symbols low byte first, or high bytes then low bytes (R163). -/
def chanBlock (plane : Bool) (ws : List Nat) : List Byte :=
  let z := zSyms none ws
  if plane then z.map (fun x => BitVec.ofNat 8 (x / 256)) ++ z.map (fun x => BitVec.ofNat 8 x)
  else z.flatMap (fun x => [BitVec.ofNat 8 x, BitVec.ofNat 8 (x / 256)])

/-- The raw image (R160): descriptor, then the blocks of the bale's channels in ascending order. -/
def rawImage (inBale kept pre post : Nat) (plane chBlocks : Bool) (blocks : List (List Nat)) : List Byte :=
  leBytes 8 inBale ++ leBytes 8 kept ++ [BitVec.ofNat 8 pre] ++ leBytes 2 post
    ++ [BitVec.ofNat 8 (b2n plane + 2 * b2n chBlocks), 0, 0, 0, 0] ++ blocks.flatMap (chanBlock plane)

/-- Cuts a list into pieces of `c`. -/
def chunksOf {α : Type} (c : Nat) : Nat → List α → List (List α)
  | 0, _ => []
  | fuel + 1, l => if l.isEmpty ∨ c = 0 then [] else l.take c :: chunksOf c fuel (l.drop c)

/-- Channels per raw bale (R161). -/
def rawCount (baleIn w : Nat) : Nat := (4096 * baleIn - 24) / (2 * w)

/-! ### The coder -/

/-- Index into the head table (R167). -/
def hash3 (a b c : Nat) : Nat := ((a <<< 4) ^^^ (b <<< 2) ^^^ c) % 4096

/-- Common prefix length of b[q..] and b[p..], at most the fuel. -/
def commonLen (b : Array Byte) : Nat → Nat → Nat → Nat
  | 0, _, _ => 0
  | fuel + 1, q, p => if b.getD q 0 = b.getD p 0 then commonLen b fuel (q + 1) (p + 1) + 1 else 0

/-- Hash at a position. -/
def hashAt (b : Array Byte) (p : Nat) : Nat := hash3 (b.getD p 0).toNat (b.getD (p + 1) 0).toNat (b.getD (p + 2) 0).toNat

/-- Walks a chain of positions, newest first, for at most `tries` entries (R167). -/
def chainBest (b : Array Byte) (p blockEnd : Nat) : Nat → List Nat → Nat × Nat → Nat × Nat
  | 0, _, best => best
  | _, [], best => best
  | tries + 1, q :: t, best =>
    if 4096 < p - q then best
    else
      let n := commonLen b (min 258 (blockEnd - p)) q p
      chainBest b p blockEnd tries t (if best.1 < n then (n, p - q) else best)

/-- best_match of R167 over the inserted positions, newest first, each with its hash. -/
def bestMatch (b : Array Byte) (depth blockEnd : Nat) (ins : List (Nat × Nat)) (p : Nat) : Nat × Nat :=
  if blockEnd - p < 3 then (0, 0)
  else
    let h := hashAt b p
    let best := chainBest b p blockEnd depth ((ins.filter (fun e => e.1 == h)).map (·.2)) (0, 0)
    if best.1 < 3 then (0, 0) else best

/-- A coded item. -/
inductive Item where
  | lit (v : Byte)
  | copy (len dist : Nat)
  deriving DecidableEq, Repr

/-- Links positions p .. p + n - 1 into the table; a position counts only when p + 2 lies within the image (R167). -/
def insertRun (b : Array Byte) : Nat → Nat → List (Nat × Nat) → List (Nat × Nat)
  | 0, _, ins => ins
  | n + 1, p, ins => insertRun b n (p + 1) (if p + 2 < b.size then (hashAt b p, p) :: ins else ins)

/-- The items of one block, with the table afterwards (R167). -/
def matchBlock (b : Array Byte) (depth : Nat) (lazy : Bool) (blockEnd : Nat) :
    Nat → Nat → List (Nat × Nat) → List Item → List Item × List (Nat × Nat)
  | 0, _, ins, acc => (acc.reverse, ins)
  | fuel + 1, p, ins, acc =>
    if blockEnd ≤ p then (acc.reverse, ins)
    else
      let m := bestMatch b depth blockEnd ins p
      let one := insertRun b 1 p ins
      if m.1 < 3 ∨ (lazy = true ∧ m.1 < (bestMatch b depth blockEnd ins (p + 1)).1) then
        matchBlock b depth lazy blockEnd fuel (p + 1) one (.lit (b.getD p 0) :: acc)
      else matchBlock b depth lazy blockEnd fuel (p + m.1) (insertRun b m.1 p ins) (.copy m.1 m.2 :: acc)

/-- Bits of a Huffman code, most significant first. -/
def codeBits (n v : Nat) : List Bool := (natBits n v).reverse

/-- Fixed code of a literal or length symbol (RFC 1951). -/
def fixedLit (v : Nat) : List Bool :=
  if v < 144 then codeBits 8 (0x30 + v) else if v < 256 then codeBits 9 (0x190 + v - 144)
  else if v < 280 then codeBits 7 (v - 256) else codeBits 8 (0xC0 + v - 280)

/-- Extra bits of the length codes 257 to 285 (RFC 1951). -/
def lenExtra : List Nat := [0, 0, 0, 0, 0, 0, 0, 0, 1, 1, 1, 1, 2, 2, 2, 2, 3, 3, 3, 3, 4, 4, 4, 4, 5, 5, 5, 5, 0]

/-- Base lengths of the length codes 257 to 285. -/
def lenBase : List Nat :=
  [3, 4, 5, 6, 7, 8, 9, 10, 11, 13, 15, 17, 19, 23, 27, 31, 35, 43, 51, 59, 67, 83, 99, 115, 131, 163, 195, 227, 258]

/-- Extra bits of the distance codes 0 to 29. -/
def distExtra : List Nat :=
  [0, 0, 0, 0, 1, 1, 2, 2, 3, 3, 4, 4, 5, 5, 6, 6, 7, 7, 8, 8, 9, 9, 10, 10, 11, 11, 12, 12, 13, 13]

/-- Base distances of the distance codes 0 to 29. -/
def distBase : List Nat :=
  [1, 2, 3, 4, 5, 7, 9, 13, 17, 25, 33, 49, 65, 97, 129, 193, 257, 385, 513, 769, 1025, 1537, 2049, 3073, 4097, 6145,
   8193, 12289, 16385, 24577]

/-- Index of the last base that does not exceed `v`. -/
def lastBase (bases : List Nat) (v : Nat) : Nat := (bases.filter (fun x => decide (x ≤ v))).length - 1

/-- Bits of an item. -/
def itemBits : Item → List Bool
  | .lit v => fixedLit v.toNat
  | .copy l d =>
    let i := lastBase lenBase l
    let j := lastBase distBase d
    fixedLit (257 + i) ++ natBits (lenExtra.getD i 0) (l - lenBase.getD i 0)
      ++ codeBits 5 j ++ natBits (distExtra.getD j 0) (d - distBase.getD j 0)

/-- Zero bits up to the next byte boundary. -/
def padTo8 (n : Nat) : List Bool := List.replicate ((8 - n % 8) % 8) false

/-- A stored block after `pos` bits of the stream. -/
def storedBits (pos : Nat) (fin : Bool) (l : List Byte) : List Bool :=
  [fin, false, false] ++ padTo8 (pos + 3) ++ natBits 16 l.length ++ natBits 16 (65535 - l.length) ++ l.flatMap byteBits

/-- First end of the block that starts at `st` (R165). -/
def blockEndOf (n st : Nat) (cuts : List Nat) : Nat :=
  cuts.foldl (fun e c => if st < c ∧ c < e then c else e) (min n (st + 4096))

/-- The blocks of an image as (start, end) pairs. -/
def blocksOf (n : Nat) (cuts : List Nat) : Nat → Nat → List (Nat × Nat)
  | 0, _ => []
  | fuel + 1, st => if n ≤ st then [] else
      let e := blockEndOf n st cuts
      (st, e) :: blocksOf n cuts fuel e

/-- Channel-block ends of CH_BLOCKS (R165). -/
def chCuts (n w : Nat) : List Nat := (List.range (1 + (n - 24) / (2 * w))).map (fun i => 24 + 2 * w * i)

/-- Codes the blocks in order (R166): each fixed-Huffman, or stored when that is longer or `stored` is set. -/
def codeBlocks (b : Array Byte) (image : List Byte) (stored lazy : Bool) (depth : Nat) :
    List (Nat × Nat) → List (Nat × Nat) → List Bool → List Bool
  | [], _, acc => acc
  | (st, e) :: t, ins, acc =>
    let fin := t.isEmpty
    let bytes := (image.drop st).take (e - st)
    if stored then codeBlocks b image stored lazy depth t ins (acc ++ storedBits acc.length fin bytes)
    else
      let r := matchBlock b depth lazy e (e - st + 1) st ins []
      let fixed := [fin, true, false] ++ r.1.flatMap itemBits ++ fixedLit 256
      codeBlocks b image stored lazy depth t r.2
        (acc ++ (if fixed.length ≤ 8 * (e - st) + 32 then fixed else storedBits acc.length fin bytes))

/-- Coder settings of an entry (R169, R178). -/
structure CodeCfg where
  stored   : Bool := false
  lazy     : Bool := true
  plane    : Bool := false
  chBlocks : Bool := false
  depth    : Nat := 8
  baleIn   : Nat := 8
  deriving DecidableEq, Repr, Inhabited

def codeCfg (v : Nat) : CodeCfg :=
  { stored := v.testBit 0, lazy := v.testBit 1, plane := v.testBit 2, chBlocks := v.testBit 3,
    depth := fld v 4 4 + 1, baleIn := fld v 8 4 }

/-- The payload of a raw bale: one complete DEFLATE stream (R164). -/
def deflate (c : CodeCfg) (w : Nat) (flushes : List Nat) (image : List Byte) : List Byte :=
  let cuts := (if c.chBlocks then chCuts image.length w else []) ++ flushes
  let bits := codeBlocks image.toArray image c.stored c.lazy c.depth (blocksOf image.length cuts image.length 0) [] []
  packBits (bits.length / 8 + 1) bits

/-- Image bytes of an item. -/
def itemBytes : Item → Nat
  | .lit _ => 1
  | .copy l _ => l

/-- Stream position in bits and image position after each item of a block, from `pos` and `p` on. -/
def itemMarks : List Item → Nat → Nat → List (Nat × Nat)
  | [], _, _ => []
  | x :: t, pos, p =>
    let pos := pos + (itemBits x).length
    let p := p + itemBytes x
    (pos, p) :: itemMarks t pos p

/-- The same for the whole stream of `codeBlocks`: after each coded item, and after each byte of a stored block (R171). -/
def codeMarks (b : Array Byte) (image : List Byte) (stored lazy : Bool) (depth : Nat) :
    List (Nat × Nat) → List (Nat × Nat) → Nat → List (Nat × Nat)
  | [], _, _ => []
  | (st, e) :: t, ins, pos =>
    let bytes := (image.drop st).take (e - st)
    let raw := storedBits pos t.isEmpty bytes
    let rawMarks := (List.range (e - st)).map (fun k => (pos + raw.length - 8 * (e - st - 1 - k), st + k + 1))
    if stored then rawMarks ++ codeMarks b image stored lazy depth t ins (pos + raw.length)
    else
      let r := matchBlock b depth lazy e (e - st + 1) st ins []
      let fixed := 3 + (r.1.map (fun x => (itemBits x).length)).sum + 7
      if fixed ≤ 8 * (e - st) + 32 then itemMarks r.1 (pos + 3) st ++ codeMarks b image stored lazy depth t r.2 (pos + fixed)
      else rawMarks ++ codeMarks b image stored lazy depth t r.2 (pos + raw.length)

/-- The marks of the stream of `deflate`. -/
def deflateMarks (c : CodeCfg) (w : Nat) (flushes : List Nat) (image : List Byte) : List (Nat × Nat) :=
  let cuts := (if c.chBlocks then chCuts image.length w else []) ++ flushes
  codeMarks image.toArray image c.stored c.lazy c.depth (blocksOf image.length cuts image.length 0) [] 0

/-- The payload of a fallback rewrite (R173): stored blocks of 4,096 bytes. -/
def deflateStored (image : List Byte) : List Byte :=
  let bits := codeBlocks image.toArray image true false 1 (blocksOf image.length [] image.length 0) [] []
  packBits (bits.length / 8 + 1) bits

/-! ### The inflater -/

/-- What an inflation produced: output newest first and its length, the bits consumed, and the error (R174), 0 for none. -/
structure Infl where
  out : List Byte := []
  n   : Nat := 0
  pos : Nat := 0
  err : Nat := 0
  deriving DecidableEq, Repr, Inhabited

/-- Where the inflater stands in the stream. -/
inductive InflAt where
  | block
  | sym (fin : Bool)
  | raw (fin : Bool) (left : Nat)
  | done
  deriving DecidableEq, Repr

/-- Decoded literal or length symbol and its code length, or none when the bits end. -/
def readSym (bits : List Bool) : Option (Nat × Nat) :=
  let v (k : Nat) : Nat := bitsNat (bits.take k).reverse
  if bits.length < 7 then none
  else if v 7 ≤ 23 then some (256 + v 7, 7)
  else if bits.length < 8 then none
  else if v 8 ≤ 0xBF then some (v 8 - 0x30, 8)
  else if v 8 ≤ 0xC7 then some (280 + v 8 - 0xC0, 8)
  else if bits.length < 9 then none else some (144 + v 9 - 0x190, 9)

/-- Copies `n` bytes from distance `d`, stopping one past the expected length (R174). -/
def copyOut (d limit : Nat) : Nat → Infl → Infl
  | 0, r => r
  | n + 1, r =>
    let r := { r with out := r.out.getD (d - 1) 0 :: r.out, n := r.n + 1 }
    if limit < r.n then { r with err := 0x22 } else copyOut d limit n r

/-- The inflater over the remaining bits. `limit` is the expected length or the bound of R176. The error position is that of the
last bit taken when the error was met (DEDUCED, log entry 20). -/
def inflGo (limit : Nat) : Nat → InflAt → List Bool → Infl → Infl
  | 0, _, _, r => r
  | _, .done, _, r => r
  | fuel + 1, .block, bits, r =>
    if bits.length < 3 then { r with pos := r.pos + bits.length, err := 0x22 }
    else
      let fin := bits.headD false
      let typ := bitsNat ((bits.drop 1).take 2)
      let r := { r with pos := r.pos + 3 }
      let bits := bits.drop 3
      if 2 ≤ typ then { r with err := 0x23 }
      else if typ = 1 then inflGo limit fuel (.sym fin) bits r
      else
        let pad := (8 - r.pos % 8) % 8
        let bits := bits.drop pad
        if bits.length < 32 then { r with pos := r.pos + pad + bits.length, err := 0x22 }
        else
          let len := bitsNat (bits.take 16)
          let nlen := bitsNat ((bits.drop 16).take 16)
          let r := { r with pos := r.pos + pad + 32 }
          if len + nlen ≠ 65535 then { r with err := 0x24 } else inflGo limit fuel (.raw fin len) (bits.drop 32) r
  | fuel + 1, .raw fin left, bits, r =>
    if left = 0 then inflGo limit fuel (if fin then .done else .block) bits r
    else if bits.length < 8 then { r with pos := r.pos + bits.length, err := 0x22 }
    else
      let r := { r with out := BitVec.ofNat 8 (bitsNat (bits.take 8)) :: r.out, n := r.n + 1, pos := r.pos + 8 }
      if limit < r.n then { r with err := 0x22 } else inflGo limit fuel (.raw fin (left - 1)) (bits.drop 8) r
  | fuel + 1, .sym fin, bits, r =>
    match readSym bits with
    | none => { r with pos := r.pos + bits.length, err := 0x22 }
    | some (v, k) =>
      let bits := bits.drop k
      let r := { r with pos := r.pos + k }
      if v < 256 then
        let r := { r with out := BitVec.ofNat 8 v :: r.out, n := r.n + 1 }
        if limit < r.n then { r with err := 0x22 } else inflGo limit fuel (.sym fin) bits r
      else if v = 256 then inflGo limit fuel (if fin then .done else .block) bits r
      else if 286 ≤ v then { r with err := 0x20 }
      else
        let le := lenExtra.getD (v - 257) 0
        if bits.length < le + 5 then { r with pos := r.pos + bits.length, err := 0x22 }
        else
          let len := lenBase.getD (v - 257) 0 + bitsNat (bits.take le)
          let dc := bitsNat ((bits.drop le).take 5).reverse
          let bits := bits.drop (le + 5)
          let r := { r with pos := r.pos + le + 5 }
          if 30 ≤ dc then { r with err := 0x20 }
          else
            let de := distExtra.getD dc 0
            if bits.length < de then { r with pos := r.pos + bits.length, err := 0x22 }
            else
              let d := distBase.getD dc 0 + bitsNat (bits.take de)
              let r := { r with pos := r.pos + de }
              if r.n < d ∨ 4096 < d then { r with err := 0x21 }
              else
                let r := copyOut d limit len r
                if r.err = 0 then inflGo limit fuel (.sym fin) (bits.drop de) r else r

/-- A test job's outcome (R174, R176): output, error code and the byte offset of the error. -/
structure JobEnd where
  out : List Byte
  err : Nat
  pos : Nat
  deriving DecidableEq, Repr

/-- Inflates the whole input. With `cmp`, the expected length and CRC are compared. Input left after the final block is an error at its
first byte; without an error the position is 0 (DESIGN CHOICE, log entry 20). -/
def inflateJob (input : List Byte) (cmp : Option (Nat × Nat)) : JobEnd :=
  let bits := input.flatMap byteBits
  let limit := match cmp with | some e => e.1 | none => 65535
  let r := inflGo limit (2 * bits.length + 3) .block bits {}
  let out := r.out.reverse
  let used := (r.pos + 7) / 8
  if r.err ≠ 0 then ⟨out, r.err, (r.pos - 1) / 8⟩
  else if used < input.length then ⟨out, 0x22, used⟩
  else
    match cmp with
    | none => ⟨out, 0, 0⟩
    | some (len, crc) => if r.n < len ∨ crc32 out ≠ crc then ⟨out, 0x25, input.length - 1⟩ else ⟨out, 0, 0⟩

end Sys2Proof.Machine
end

