-- ==== Sys2Proof/Machine/Serai.lean ====
section
/-! DEFINITION. Serai (chapter 09): cells and admission, the word handshakes, retention, host port. -/

namespace Sys2Proof.Machine

/-! ### Cells (R183) and configuration (R206) -/

def cellsOf (bytes : Nat) : Nat := ceilDiv bytes 512

def qReg (s : State) (q o lo w : Nat) : Nat := regF s 0x40 (0x400 + 0x20 * q + o) lo w
def quotaOf (s : State) (q : Nat) : Nat := qReg s q 0 0 13
def reserveOf (s : State) (q : Nat) : Nat := qReg s q 0 16 13
def retains (s : State) (q : Nat) : Bool := decide (qReg s q 4 4 1 = 1)
def sinkFramer (s : State) (q : Nat) : Bool := decide (27 ≤ q) && decide (qReg s q 4 5 1 = 1)

/-- U of a queue: cells of bales not yet sent in full (R183). -/
def uCells (x : Queue) : Nat :=
  (x.ready.map (fun b => cellsOf b.bytes.length)).sum + (match x.cur with | some b => cellsOf b.bytes.length | none => 0)

def retCells (x : Queue) : Nat := (x.retained.map (fun r => cellsOf r.bale.bytes.length)).sum

def uOf (s : State) (q : Nat) : Nat := uCells (getQ s q)
def uAll (s : State) : Nat := (s.ser.qs.map uCells).sum
def retAll (s : State) : Nat := (s.ser.qs.map retCells).sum

/-- AVAIL (R200) and FREE (R183). -/
def availCells (s : State) : Nat := 4096 - uAll s
def freeCells (s : State) : Nat := 4096 - uAll s - retAll s

/-- Unused reserves of all queues but `q` (R184). -/
def otherReserve (s : State) (q : Nat) : Nat :=
  sumTo 32 (fun p => if p = q then 0 else reserveOf s p - uOf s p)

/-- The second condition of R184 with `u` cells held by the queue and `fr` free cells. -/
def cellFree (s : State) (q u fr : Nat) : Bool :=
  (decide (u < reserveOf s q) && decide (1 ≤ fr)) || decide (otherReserve s q < fr)

/-- Whether the queue may take one more cell (R184). -/
def cellOk (s : State) (q : Nat) : Bool := decide (uOf s q < quotaOf s q) && cellFree s q (uOf s q) (freeCells s)

/-! ### Live causes (R184, R200) -/

def wmNow (s : State) (q : Nat) : Bool := decide (qReg s q 8 0 13 ≤ uOf s q)
def heldNow (x : Queue) : Bool := x.held.isSome || !x.waiting.isEmpty
def atQuotaNow (s : State) (q : Nat) : Bool := heldNow (getQ s q) && decide (quotaOf s q ≤ uOf s q)
def memLowNow (s : State) : Bool := decide (availCells s ≤ regF s 0x40 0x044 0 13)

/-- Follows WM_HIGH and AT_QUOTA of one queue, counting rising edges. -/
def qSync (q : Nat) (s : State) : State :=
  let x := getQ s q
  let wm := wmNow s q
  let aq := atQuotaNow s q
  let s := modQ q (fun y => { y with wmHigh := wm, atQuota := aq }) s
  onRise x.atQuota aq 0x40 2 0 (onRise x.wmHigh wm 0x40 0 q s)

/-! ### The pool and UNFIT (R226, R231) -/

/-- The queues of S (R226), in the order of `Cost.q`. -/
def setS : List Nat := [0, 1, 2, 3, 4, 5, 6, 7, 8, 9, 10, 11, 12, 26]

def inS (q : Nat) : Bool := decide (q ≤ 12) || decide (q = 26)

def costQ (c : Cost) (q : Nat) : Nat := if q = 26 then c.q.getD 13 0 else c.q.getD q 0
def costAll (c : Cost) : Nat := c.q.sum

/-- CELL_POOL under quotas and reserves of `r` (R226). -/
def poolOf (s : State) (r : Ram Tri) : Int :=
  (4096 : Int) - (sumTo 32 (fun q =>
    let a := regsGet r 0x40 (0x400 + 0x20 * q)
    if inS q then max (uOf s q) (fld a 16 13) else fld a 0 13) : Nat)

def poolNow (s : State) : Int := poolOf s s.fab.regs

/-- Conditions 2–4 fail for a hub without entries and promises (R231). -/
def unfitNow (s : State) : Bool :=
  let c := s.frm.cost
  !(decide ((costAll c : Int) ≤ poolNow s)
    && setS.all (fun q => decide (costQ c q = 0) || decide (uOf s q + costQ c q ≤ quotaOf s q))
    && (List.range 6).all (fun i => decide (c.t.getD i 0 = 0) || decide ((c.t.getD i 0 : Int) ≤ c.h)))

/-- CR_STAT.UNFIT follows its conditions; its rising edge counts (R231). -/
def unfitSync (s : State) : State :=
  let u := unfitNow s
  onRise s.frm.unfit u 0x44 3 0 { s with frm := { s.frm with unfit := u } }

/-- Follows the live causes of Serai after a change, and UNFIT, which depends on the cells the queues hold. -/
def seraiSync (s : State) : State :=
  let s := (List.range 32).foldl (fun s q => qSync q s) s
  let low := memLowNow s
  unfitSync (onRise s.ser.memLow low 0x40 1 0 { s with ser := { s.ser with memLow := low } })

/-! ### Early release (R185) -/

/-- The retained bale whose retention started earliest, with its queue. -/
def oldestRetained (s : State) : Option (Nat × Retained) :=
  (s.ser.qs.zipIdx).foldl (fun best p =>
    p.1.retained.foldl (fun best r =>
      match best with
      | none => some (p.2, r)
      | some (_, b) => if r.sent < b.sent ∨ (r.sent = b.sent ∧ r.bale.ord < b.bale.ord) then some (p.2, r) else best) best) none

def dropRetained (q id : Nat) (s : State) : State :=
  modQ q (fun x => { x with retained := x.retained.filter (fun r => r.bale.id != id) }) s

/-- Releases whole retained bales, earliest first, until a cell is admitted to queue `q` or none is left. -/
def releaseFor (q : Nat) : Nat → State → State
  | 0, s => s
  | fuel + 1, s =>
    if cellOk s q ∨ s.ser.replaying = true ∨ quotaOf s q ≤ uOf s q then s
    else
      match oldestRetained s with
      | none => s
      | some (p, r) => releaseFor q fuel (count 0x40 4 (dropRetained p r.bale.id s))

def releaseRetained (q : Nat) (s : State) : State := releaseFor q ((s.ser.qs.map (fun x => x.retained.length)).sum) s

/-! ### Words (R187–R190) -/

/-- A queue takes the first word of a bale only while it is enabled and not draining (R190, R199). -/
def startOk (x : Queue) : Bool := x.cur.isSome || (x.active && !x.draining)

/-- Whether a DATA or END word needs a new cell. -/
def needsCell (x : Queue) : Bool := match x.cur with | none => true | some b => decide (b.bytes.length % 512 = 0)

/-- Whether Serai accepts the next word of the queue (R184, R190). -/
def wordOk (s : State) (q : Nat) : Bool :=
  let x := getQ s q
  startOk x && (!needsCell x || cellOk s q)

/-- Bytes go to the bale in progress, or start a new one. -/
def putBytes (q : Nat) (l : List Byte) (s : State) : State :=
  match (getQ s q).cur with
  | some b => modQ q (fun x => { x with cur := some { b with bytes := b.bytes ++ l }, held := none }) s
  | none =>
    let s := modQ q (fun x => { x with cur := some { id := s.ser.ids, seq := 0, typ := 0, bytes := l }, held := none, curSent := 0 }) s
    { s with ser := { s.ser with ids := s.ser.ids + 1 } }

/-- Accept sequence and type as the bale's header says (R156). -/
def baleSeq (l : List Byte) : Nat := leNat ((l.drop 2).take 3)
def baleTyp (l : List Byte) : Nat := (l.getD 1 0).toNat % 16

/-- The bale in progress closes and becomes readable (R188). -/
def closeBale (q : Nat) (s : State) : State :=
  modQ q (fun x =>
    match x.cur with
    | none => x
    | some b =>
      if x.discard then { x with cur := none, curSent := 0, ctUnder := false, discard := false, total := (x.total + 1) % 2 ^ 32 }
      else
        { x with ready := x.ready ++ [{ b with seq := baleSeq b.bytes, typ := baleTyp b.bytes }], cur := none,
                 sent := if x.ready.isEmpty then x.curSent else x.sent, curSent := 0, ctUnder := x.ctUnder && !x.ready.isEmpty,
                 total := (x.total + 1) % 2 ^ 32 }) s

/-- A DATA word is accepted or held (R190). -/
def wrData (q : Nat) (w : Word) (s : State) : State :=
  if (getQ s q).held.isSome then s
  else if wordOk s q then seraiSync (putBytes q (leBytes 4 w.toNat) s)
  else seraiSync (modQ q (fun x => { x with held := some ⟨w, none⟩ }) s)

/-- Valid bytes of an END word: 0 means 4. -/
def endBytes (v : Nat) : Nat := if v % 4 = 0 then 4 else v % 4

/-- An END word is accepted, closing the bale, or held. -/
def wrEnd (q : Nat) (w : Word) (v : Nat) (s : State) : State :=
  if (getQ s q).held.isSome then s
  else if wordOk s q then seraiSync (closeBale q (putBytes q ((leBytes 4 w.toNat).take (endBytes v)) s))
  else seraiSync (modQ q (fun x => { x with held := some ⟨w, some v⟩ }) s)

/-- Replaces word i of the bale in progress, once word 3 has been written. -/
def wrHdr (q i : Nat) (w : Word) (s : State) : State :=
  match (getQ s q).cur with
  | some b =>
    if 16 ≤ b.bytes.length then
      modQ q (fun x => { x with cur := some { b with
        bytes := b.bytes.take (4 * i) ++ leBytes 4 w.toNat ++ b.bytes.drop (4 * i + 4) } }) s
    else s
  | none => s

/-- CANCEL (R189): the bale in progress and its cells go; a reader that has started it meets an abort mark. -/
def cancelBale (q : Nat) (s : State) : State :=
  match (getQ s q).cur with
  | none => s
  | some _ =>
    seraiSync (count 0x40 3 (modQ q (fun x => { x with
      cur := none, held := none, curSent := 0, ctUnder := x.ctUnder && !x.ready.isEmpty, released := x.released && !x.ready.isEmpty,
      late := x.late && !x.ready.isEmpty, abort := x.abort || (!x.discard && decide (0 < x.curSent)), discard := false,
      waiting := (match x.waiting with | b :: t => if b.ord = 0 then x.waiting else t | [] => []) }) s))

/-! ### Whole bales of the fixed writers

A fixed writer presents a whole bale. Its words enter the queue cell by cell while Serai accepts them; from the first word that is
held on, the rest waits at the front of `waiting`, with `ord` at 1 once some words are in. Later bales of the writer wait behind. -/

/-- The bale that closes carries the slot and orbit of its closing: types 3–5 of Q13–Q15 (R158, R159). -/
def stampClose (q : Nat) (s : State) : State :=
  if pgIn q 13 15 then
    modQ q (fun x => { x with cur := x.cur.map (fun b =>
      let l := b.bytes.take 7 ++ leBytes 2 (s.orb.slot % 4096) ++ leBytes 4 s.orb.orbit ++ (b.bytes.take (b.bytes.length - 4)).drop 13
      { b with bytes := l ++ leBytes 4 (crc32 l) }) }) s
  else s

/-- The front waiting bale may put its next words into the queue. -/
def pourOk (s : State) (q : Nat) : Bool :=
  let x := getQ s q
  match x.waiting with
  | [] => false
  | b :: _ => x.held.isNone && (decide (b.ord ≠ 0) || x.cur.isNone) && wordOk s q

/-- The front waiting bale fills one cell; with its last bytes it closes. -/
def pourCell (q : Nat) (s : State) : State :=
  let x := getQ s q
  match x.waiting with
  | [] => s
  | b :: t =>
    let k := 512 - (match x.cur with | some c => c.bytes.length | none => 0) % 512
    let s := putBytes q (b.bytes.take k) s
    if b.bytes.length ≤ k then closeBale q (stampClose q (modQ q (fun x => { x with waiting := t }) s))
    else modQ q (fun x => { x with waiting := { b with bytes := b.bytes.drop k, ord := 1 } :: t }) s

def pourGo (q : Nat) : Nat → State → State
  | 0, s => s
  | n + 1, s => if pourOk s q then pourGo q n (pourCell q s) else s

/-- Cells that the waiting bales of a queue still have to fill, at most. -/
def pourFuel (s : State) (q : Nat) : Nat := ((getQ s q).waiting.map (fun b => cellsOf b.bytes.length + 1)).sum

/-- The waiting bales go in as far as Serai accepts their words. -/
def pour (q : Nat) (s : State) : State := pourGo q (pourFuel s q) s

/-- The same, with early release of retained bales for a word that is held (R185). -/
def pourHeldGo (q : Nat) : Nat → State → State
  | 0, s => s
  | n + 1, s =>
    let s := pour q s
    if (getQ s q).waiting.isEmpty then s
    else if startOk (getQ s q) && needsCell (getQ s q) then
      let s := releaseRetained q s
      if pourOk s q then pourHeldGo q n s else s
    else s

def pourHeld (q : Nat) (s : State) : State := pourHeldGo q (pourFuel s q) s

/-- A writer presents a whole bale: its words go in, or wait behind the held writes of the queue (R190). -/
def writeBale (q : Nat) (l : List Byte) (s : State) : State :=
  seraiSync (pour q (modQ q (fun x => { x with waiting := x.waiting ++ [{ id := 0, seq := 0, typ := 0, bytes := l }] }) s))

/-- The held write of a queue completes when it may, after early release if needed (R185, R190). -/
def heldComplete (q : Nat) (s : State) : State :=
  let x := getQ s q
  match x.held with
  | some h =>
    if !startOk x then s
    else
      let s := if needsCell x then releaseRetained q s else s
      if wordOk s q then
        (match h.fin with
         | none => seraiSync (putBytes q (leBytes 4 h.w.toNat) s)
         | some v => seraiSync (closeBale q (putBytes q ((leBytes 4 h.w.toNat).take (endBytes v)) s)))
      else seraiSync s
  | none => if x.waiting.isEmpty then s else seraiSync (pourHeld q s)

/-! ### Retention (R196–R198) -/

/-- Span of a bale sent now, in slots: it is released at the first core cycle of the slot after the span (R196). -/
def retainTill (s : State) : Nat := s.pw.elapsed + 40 * regF s 0x40 0x040 0 9 + 1

/-- The head bale of a queue has been sent in full: it is retained or released. -/
def headSent (q : Nat) (s : State) : State :=
  let till := retainTill s
  let keep := retains s q
  seraiSync (modQ q (fun x =>
    match x.ready with
    | [] => x
    | b :: t =>
      { x with ready := t, sent := 0, released := (t.head?.map (·.rel)).getD false, late := false, ctUnder := false,
               retained := if keep then x.retained ++ [⟨b, s.pw.elapsed, till⟩] else x.retained }) s)

/-- Ends the retention of the queue's bales whose span has passed; a bale on the replay list stays (R198). -/
def retentionEnd (q : Nat) (s : State) : State :=
  seraiSync (modQ q (fun x => { x with retained := x.retained.filter (fun r =>
    decide (s.pw.elapsed < r.till) || (s.ser.replaying && s.ser.rlist.contains r.bale.id)) }) s)

/-- Bales of queue `x` that a replay sends: retained ones, and the head when some byte of it has been granted. -/
def replayable (x : Queue) : List Bale :=
  x.retained.map (·.bale) ++ (match x.ready with | b :: _ => if b.ord ≠ 0 then [b] else [] | [] => [])

def insOrd (b : Bale) : List Bale → List Bale
  | [] => [b]
  | h :: t => if b.ord < h.ord then b :: h :: t else h :: insOrd b t

/-- Queues whose bales the framer sends (R181, R199). -/
def framerQueue (s : State) (q : Nat) : Bool := decide (q ≤ 19) || decide (q = 26) || (decide (27 ≤ q) && sinkFramer s q)

/-- A replay starts: the list holds every retained and partly sent bale in the order of first granted bytes (R198). -/
def startReplay (s : State) : State :=
  let l := ((s.ser.qs.zipIdx).filter (fun p => framerQueue s p.2 || !p.1.retained.isEmpty)).flatMap (fun p => replayable p.1)
  let l := l.foldr insOrd []
  count 0x40 11 { s with ser := { s.ser with
    replaying := true, rlist := l.map (·.id), rsent := 0, rBales := l.length,
    rBytes := (l.map (fun b => b.bytes.length)).sum,
    qs := s.ser.qs.map (fun x => if 0 < x.sent ∧ (l.map (·.id)).contains (x.ready.headD {id := 0, seq := 0, typ := 0, bytes := []}).id then { x with sent := 0 } else x) } }

/-! ### Gating and readability (R193–R195) -/

/-- Whether any bale of accept sequence `seq` in Q0–Q11 or Q26 has not been sent in full (R194). -/
def balesUnsent (s : State) (seq : Nat) : Bool :=
  (s.ser.qs.zipIdx).any (fun p =>
    (decide (p.2 ≤ 11) || decide (p.2 = 26)) &&
      (p.1.ready.any (fun b => b.seq == seq)
        || (match p.1.cur with | some b => decide (5 ≤ b.bytes.length) && decide (baleSeq b.bytes = seq) | none => false)))

/-- Whether a manifest's payload reports at least one bale: the bale counts of its seven entries (R220). -/
def manifestCounts (l : List Byte) : Bool :=
  l.getD 16 0 != 0x45 && (List.range 7).any (fun i => (l.getD (30 + 8 * i) 0 != 0) || (l.getD (31 + 8 * i) 0 != 0))

def isTimed (q : Nat) : Bool := pgIn q 16 19 || q == 22 || q == 23

/-! ### The queue enables (R199) -/

/-- A draining queue with nothing left is disabled; in IDLE a deferred re-enable acts at once (R351). -/
def queueDrained (q : Nat) (s : State) : State :=
  let x := getQ s q
  if x.draining && x.ready.isEmpty && x.cur.isNone then
    if x.deferred && decide (s.orb.st = .idle) then
      modQ q (fun x => { x with draining := false, deferred := false, active := true }) s
    else modQ q (fun x => { x with draining := false, active := false }) s
  else s

/-- QEN as applied at a boundary (R199, R351). -/
def applyQen (q : Nat) (s : State) : State :=
  if q ≤ 15 ∨ q = 26 then s
  else
    let x := getQ s q
    let en := decide (qReg s q 4 6 1 = 1)
    if !en then (if x.active && !x.draining then modQ q (fun x => { x with draining := true, deferred := false }) s else
      modQ q (fun x => { x with deferred := false }) s)
    else if x.draining then (if x.deferred then s else count 0x40 10 (modQ q (fun x => { x with deferred := true }) s))
    else modQ q (fun x => { x with active := true, deferred := false }) s

/-! ### Host port (R202–R204) -/

def hostQ (s : State) : Nat := regF s 0x40 0x080 0 5
def owns (s : State) (m : Master) : Bool := s.ser.owner == some m
def hostWrites (q : Nat) : Bool := pgIn q 16 23 || pgIn q 27 31
def hostReads (s : State) (q : Nat) : Bool := q == 24 || q == 25 || (pgIn q 27 31 && !sinkFramer s q)

def discardHost (s : State) : State := count 0x40 8 s

/-- A write of QH_SEL in range: the writer owns the port, and a host bale in progress is cancelled. -/
def hostSel (m : Master) (q : Nat) (s : State) : State :=
  let s := if hostWrites (hostQ s) then cancelBale (hostQ s) s else s
  let s := setReg 0x40 0x080 q s
  { s with ser := { s.ser with owner := some m } }

/-- A host DATA or END word: written, or discarded with the bale cancelled. -/
def hostWord (m : Master) (w : Word) (fin : Option Nat) (s : State) : State :=
  let q := hostQ s
  if !owns s m ∨ !hostWrites q then discardHost s
  else if wordOk s q then (match fin with | none => wrData q w s | some v => wrEnd q w v s)
  else discardHost (cancelBale q s)

def hostHdr (m : Master) (i : Nat) (w : Word) (s : State) : State :=
  if !owns s m ∨ !hostWrites (hostQ s) then discardHost s else wrHdr (hostQ s) i w s

/-- QH_CTL: WB is kept, CANCEL acts. -/
def hostCtl (m : Master) (v : Nat) (s : State) : State :=
  if !owns s m then discardHost s
  else
    let s := setReg 0x40 0x084 (v % 4) s
    if v.testBit 8 ∧ hostWrites (hostQ s) then cancelBale (hostQ s) s else s

/-! ### Stored errors (R201) -/

/-- Stored errors in the 64-bit halves that begin within bytes `a` to `a + n` of a bale. -/
def eccHits (s : State) (id a n : Nat) : List StoreErr :=
  s.ser.ecc.filter (fun p => p.id == id && decide (a ≤ 8 * p.half) && decide (8 * p.half < a + n))

/-- One flipped bit is corrected; more are not. -/
def correctable (p : StoreErr) : Bool := decide (popcount p.mask.toNat 64 ≤ 1)

/-- A read of bytes `a` to `a + n` of bale `b` of queue `q` meets the stored errors there: they count, and one that cannot be
corrected posts its notice with the queue and the bale's accept sequence or count. The memory keeps them. -/
def eccRead (q : Nat) (b : Bale) (a n : Nat) (s : State) : State :=
  (eccHits s b.id a n).foldl (fun s p =>
    if correctable p then count 0x40 5 s else countD 0x40 6 (q + 256 * (baleSeq b.bytes % 2 ^ 24)) s) s

/-- The bytes of bale `id` from `a` on as the reader gets them: a word that cannot be corrected comes as it is stored. -/
def eccBytes (s : State) (id a : Nat) (l : List Byte) : List Byte :=
  if s.ser.ecc.all (fun p => p.id != id || correctable p) then l
  else mapIdxN (fun i b =>
    (s.ser.ecc.filter (fun p => p.id == id && p.half == (a + i) / 8 && !correctable p)).foldl
      (fun b p => b ^^^ BitVec.ofNat 8 (p.mask.toNat >>> (8 * ((a + i) % 8)))) b) l

/-- Bytes of the head bale that the host may read now: those of a closed bale, or the whole read words of a cut-through bale (R191,
R192). -/
def hostAvail (s : State) (q : Nat) : Nat :=
  let x := getQ s q
  if !hostReads s q then 0
  else match x.ready with
    | b :: _ => b.bytes.length - x.sent
    | [] =>
      match x.cur with
      | some b =>
        if isCClass q ∧ (0 < x.curSent ∨ qReg s q 4 16 12 ≤ b.bytes.length) then b.bytes.length / 16 * 16 - x.curSent else 0
      | none => 0

/-- The word of up to four bytes. -/
def wordAt (l : List Byte) (i : Nat) : Nat := leNat ((l.drop i).take 4)

def setRd (last : Bool) (vb : Nat) (ab : Bool) (s : State) : State :=
  { s with ser := { s.ser with rdLast := last, rdVb := vb, rdAbort := ab } }

/-- A read of QH_RD (R204): the word returned and the state afterwards. -/
def hostRead (m : Master) (s : State) : Nat × State :=
  let q := hostQ s
  let x := getQ s q
  if !owns s m then (0, discardHost s)
  else if hostReads s q ∧ x.abort = true then
    (0, setRd false 0 true (modQ q (fun x => { x with abort := false }) s))
  else if hostAvail s q = 0 then
    let s := if hostReads s q ∧ x.ready = [] ∧ 0 < x.curSent ∧ x.ctUnder = false then
      countD 0x40 7 q (modQ q (fun x => { x with ctUnder := true }) s) else s
    (0, count 0x40 9 (setRd false 0 false s))
  else match x.ready with
    | b :: t =>
      let n := min 4 (b.bytes.length - x.sent)
      let w := wordAt (eccBytes s b.id 0 b.bytes) x.sent
      let s := eccRead q b x.sent 4 s
      if b.bytes.length ≤ x.sent + 4 then
        (w, seraiSync (setRd true (n % 4) false (modQ q (fun x => { x with ready := t, sent := 0, ctUnder := false }) s)))
      else (w, setRd false 0 false (modQ q (fun x => { x with sent := x.sent + 4 }) s))
    | [] =>
      match x.cur with
      | some b =>
        (wordAt (eccBytes s b.id 0 b.bytes) x.curSent,
         setRd false 0 false (modQ q (fun x => { x with curSent := x.curSent + 4 }) (eccRead q b x.curSent 4 s)))
      | none => (0, s)

/-- A page soft reset of page 0x40 (R208). -/
def seraiReset (s : State) : State :=
  let s := if s.ser.owner.isSome ∧ hostWrites (hostQ s) then cancelBale (hostQ s) s else s
  { s with ser := { s.ser with owner := none, rdLast := false, rdVb := 0, rdAbort := false } }

end Sys2Proof.Machine
end

