-- ==== Sys2Proof/Machine/Monitor.lean ====
section
/-! DEFINITION. The monitor converter (chapter 19). -/

namespace Sys2Proof.Machine

/-- CK_SUP cycles between results for an ODR code (R381, R382). -/
def odrCycles (odr : Nat) : Nat :=
  [2000000, 1000000, 400000, 200000, 100000, 40000, 20000, 10000, 4000, 2000].getD odr 2000

def monCfg (s : State) : Nat := regAt s 0x60 0x040

/-- A run begins with an empty filter (R382). -/
def monBegin (s : State) : State :=
  { s with mon := { s.mon with running := true, settling := true, ready := false, startAt := s.pw.sup, nres := 0, old := none } }

def monHalt (s : State) : State := { s with mon := { s.mon with running := false, settling := false } }

/-- MON_CMD as the posted write takes effect (R385). -/
def monCommand (start stop : Bool) (s : State) : State :=
  if !(pageSt s 0x60).active then (if start then count 0x60 1 s else s)
  else if stop then monHalt s
  else if start then (if s.mon.running then count 0x60 0 (monBegin s) else monBegin s)
  else s

/-- A write of MON_CFG takes effect; a run in progress restarts, and the one it ends stays known for a result of the same CK_SUP cycle
(R386). -/
def monConfig (v : Nat) (s : State) : State :=
  let was := (monCfg s, s.mon.startAt, s.mon.nres)
  let s := setReg 0x60 0x040 (v % 2 ^ 18 &&& 0x3F31F) s
  if s.mon.running then
    let s := monBegin s
    count 0x60 0 { s with mon := { s.mon with old := some was } }
  else s

/-- EFF of a monitor quantity: the effective values reach their blocks when CK_CORE first runs (R372). -/
def monEff (s : State) (q : Quantity) : Int := if s.pw.coreEver then eff s q else 0

/-- FS of an input in µV (R379). -/
def monScale (insel : Nat) : Nat :=
  if insel = 25 then 5000000 else if insel = 26 then 6250000 else if 20 ≤ insel ∧ insel ≠ 28 ∧ insel < 28 then 2500000 else 1250000

/-- RAW of an input at `level` (R379, R380, R384): µV in units of FS / 65,536, to the nearest, below 0 only for a level below 0 V and
65,536 or more only from FS on; a diode's temperature in µK in units of 1/64 K. -/
def monRaw (insel : Nat) (level : Int) : Int :=
  if 16 ≤ insel ∧ insel < 20 then roundDiv (64 * level) 1000000
  else
    let r := roundDiv (65536 * level) (monScale insel)
    if level < 0 then min (-1) r else if level < monScale insel then min 65535 r else r

/-- RAW as calibrated: result and OVR (R380, R383, R384). -/
def monValue (s : State) (insel : Nat) (raw : Int) : Nat × Bool :=
  let raw := if 16 ≤ insel ∧ insel < 20 then raw + 4 * monEff s (qWord (56 + 2 * (insel - 16))) else raw
  let v := roundDiv (raw * (65536 + monEff s (qWord 52))) 65536 + monEff s (qWord 54)
  ((clampI 0 65535 v).toNat, decide (raw < 0 ∨ 65535 < raw ∨ v < 0 ∨ 65535 < v))

/-- A result bale of R389. -/
def monBale (s : State) (cfg code insel : Nat) (ovr first : Bool) : List Byte :=
  mkBale 3 7 true s.acq.nMon (s.orb.slot % 4096) s.orb.orbit
    (leBytes 2 code ++ [BitVec.ofNat 8 insel, BitVec.ofNat 8 (b2n ovr + 2 * b2n first + 4 * fld cfg 8 2),
      BitVec.ofNat 8 (fld cfg 12 4), 0, 0, 0] ++ leBytes 4 s.mon.seq ++ leBytes 4 (50 * s.pw.sup))

def monShip (cfg code insel : Nat) (ovr first : Bool) (s : State) : State :=
  if !cfg.testBit 17 then s
  else if !s.pw.coreRun ∨ (getQ s 14).waiting ≠ [] then count 0x60 3 s
  else
    let l := monBale s cfg code insel ovr first
    writeBale 14 l { s with acq := { s.acq with nMon := (s.acq.nMon + 1) % 2 ^ 24 } }

/-- A result of a run with the configuration `cfg` and `n` results before it, the input at `level` (R388). What VDDP's loss leaves is
undefined (R432). -/
def monReport (cfg n : Nat) (level : Int) (s : State) : State :=
  let insel := cfg % 32
  let f := takeFree s
  let r := if s.pw.vddp then monValue s insel (monRaw insel level) else (f.1 % 65536, f.1.testBit 16)
  let s := if s.pw.vddp then s else f.2
  let first := decide (n = 0)
  let edge := r.2 && (first || !s.mon.ovr)
  let seq := (s.mon.seq + 1) % 2 ^ 32
  let s := { s with mon := { s.mon with
    ovr := r.2, code := r.1, input := insel, rovr := r.2, rseq := seq % 256, seq := seq,
    lasts := ramPut 0 s.mon.lasts insel (r.1 + 0x10000 * b2n r.2 + 0x20000) } }
  let s := if edge then count 0x60 2 s else s
  monShip cfg r.1 insel r.2 first s

/-- CK_SUP cycle in which result `n` of a run is complete (R382). -/
def monDue (cfg start n : Nat) : Nat := start + (fld cfg 8 2 + 1 + n) * odrCycles (fld cfg 12 4)

/-- A result of the run in progress. -/
def monRun (level : Int) (s : State) : State :=
  let cfg := monCfg s
  if s.pw.sup < monDue cfg s.mon.startAt s.mon.nres then s
  else
    monReport cfg s.mon.nres level { s with mon := { s.mon with
      running := cfg.testBit 16, settling := false, ready := true, nres := s.mon.nres + 1 } }

/-- MONITOR_RESULT: the filter delivers a result, of the run in progress or of the one that a write of MON_CFG has ended in this CK_SUP
cycle (R386). -/
def monResult (level : Int) (s : State) : State :=
  if !s.mon.running then s
  else
    match s.mon.old with
    | some (cfg, start, n) =>
      if s.mon.startAt ≠ s.pw.sup then monRun level s
      else if s.pw.sup < monDue cfg start n then s
      else monReport cfg n level { s with mon := { s.mon with old := none } }
    | none => monRun level s

/-- The page soft reset of page 0x60 (R387). -/
def monReset (s : State) : State :=
  let s := monHalt s
  { s with mon := { s.mon with seq := 0, lasts := (s.mon.lasts.map (fun p => (p.1, p.2 % 0x20000))).filter (fun p => p.2 != 0) } }

end Sys2Proof.Machine
end

