-- ==== Sys2Proof/Machine/Pulser.lean ====
section
/-! DEFINITION. The light pulser (chapter 20). -/

namespace Sys2Proof.Machine

/-! ### Bars and states (R399, R400) -/

def barred (m : Ram Nat) (k : Nat) : Bool := ramHas m k || (decide (1 ≤ k) && ramHas m (k - 1))
def colBarred (s : State) (k : Nat) : Bool := barred s.pls.colClean k
def rowBarred (s : State) (r : Nat) : Bool := barred s.pls.rowClean r
def anyBar (s : State) : Bool := !s.pls.colClean.isEmpty || !s.pls.rowClean.isEmpty

def siteState (s : State) (i : Nat) : Nat := ramGet 0 s.pls.states i

/-- A site's state is set; a change to OPEN counts. -/
def setSite (i v : Nat) (s : State) : State :=
  let old := siteState s i
  let s := { s with pls := { s.pls with states := ramPut 0 s.pls.states i v } }
  if v = 2 ∧ old ≠ 2 then countD 0x64 3 i s else s

def healthByte (s : State) (i : Nat) : Nat := siteState s i + 4 * b2n (colBarred s (i % 16)) + 8 * b2n (rowBarred s (i / 16))

def sitesIn (s : State) (v : Nat) : List Nat := (List.range 128).filter (fun i => siteState s i == v)

/-! ### Firing (R394–R396) -/

def plsActive (s : State) : Bool := (pageSt s 0x64).active

/-- First core cycle of the present slot. -/
def slotStartCc (s : State) : Nat := s.pw.cc - s.pw.cyc

/-- A firing of row `r` whose slot starts at core cycle `t` would be clear (R395). -/
def firingClear (s : State) (r t : Nat) : Bool :=
  (s.pls.row.isNone || decide (s.pls.openAt ≤ t))
    && (decide (r = s.pls.last) || decide (s.pls.blankTo ≤ t))

/-- Blanking in core cycles. -/
def blankCycles (s : State) : Nat := ceilDiv (1000 * regF s 0x64 0x044 0 13) 3125

/-- One site's pulse in a firing: its width code and its current code (R393). -/
structure Pulse where
  site  : Nat
  width : Nat
  cur   : Nat
  deriving DecidableEq, Repr

/-- Current in µA that the sink of column `k` draws for CUR at 1–127 (R393), to the nearest µA. -/
def sinkCurrent (s : State) (k cur : Nat) : Nat :=
  (clampI 5000 100000 (5000 + roundDiv ((8 * ((cur : Int) - 1) + eff s (qCol k)) * 95000) 1008)).toNat

/-- The column sink of a pulse that starts at core cycle `c`. -/
def sinkOf (s : State) (c : Nat) (p : Pulse) : Sink := ⟨p.site % 16, c, p.width, sinkCurrent s (p.site % 16) p.cur⟩

/-- The sink draws current `ps` picoseconds after the start of core cycle 0: from its core cycle on, for its own width (R393, R394). -/
def sinkDraws (k : Sink) (ps : Nat) : Bool := decide (3125 * k.start ≤ ps) && decide (ps < 3125 * k.start + 500 * k.width)

/-- Site `i` emits light at that instant: its row switch is closed and its column sink draws, from a present VDDP (R392, R432). -/
def siteLit (s : State) (i ps : Nat) : Bool :=
  s.pw.vddp && (s.pls.row == some (i / 16)) && s.pls.sinks.any (fun k => k.col == i % 16 && sinkDraws k ps)

/-- Row `r` fires in the slot that starts at core cycle `t` with pulse offset `f` (R394). -/
def fireRow (r t f : Nat) (pulses : List Pulse) (s : State) : State :=
  let w := pulses.foldl (fun m p => max m p.width) 0
  let openAt := t + ceilDiv (3125 * (2 + f) + 500 * w) 3125 + 2
  let verdicts := (pulses.filter (fun p => decide (24 ≤ p.width))).map (fun p => (p.site, t + 2 + f + 4))
  let s := { s with pls := { s.pls with
    row := some r, sinks := pulses.map (sinkOf s (t + 2 + f)), openAt := openAt, blankTo := openAt + blankCycles s, blanking := false,
    last := r, sites := s.pls.sites.filter (fun p => !pulses.any (fun q => q.site == p.1)) ++ verdicts,
    firings := min 0xFFFF (s.pls.firings + 1) } }
  pulses.foldl (fun s p => if p.width < 24 then setSite p.site 3 s else s) s

/-- Sites of row `r` that a slot-map firing pulses. -/
def rowPulses (s : State) (r : Nat) : List Pulse :=
  (List.range 16).filterMap (fun k =>
    let v := regAt s 0x64 (0x080 + 4 * (16 * r + k))
    if v % 128 ≠ 0 ∧ fld v 8 8 ≠ 0 ∧ !colBarred s k then some ⟨16 * r + k, fld v 8 8, v % 128⟩ else none)

def countSkip (i : Nat) (s : State) : State := count 0x64 i { s with pls := { s.pls with skips := min 0xFFFF (s.pls.skips + 1) } }

def liveEntry (s : State) (n : Nat) : Nat := (ramGet (0 : Word) s.orb.live n).toNat

/-- The present slot holds a slot-map firing. -/
def firingSlot (s : State) : Bool :=
  plsActive s && decide (s.orb.st ≠ .idle) && (liveEntry s s.orb.slot).testBit 2

/-- PULSER_FIRING of the present slot, judged once. -/
def slotFiring (s : State) : State :=
  if !s.pw.coreRun ∨ !firingSlot s ∨ s.pls.fired = s.pw.elapsed + 1 then s
  else
    let r := fld (liveEntry s s.orb.slot) 3 3
    let t := slotStartCc s
    let s := { s with pls := { s.pls with fired := s.pw.elapsed + 1 } }
    if rowBarred s r || !firingClear s r t then countSkip 0 s
    else fireRow r t (regF s 0x64 0x040 8 3) (rowPulses s r) s

/-- The TEST_PULSE command in its effect slot (R396). -/
def testFiring (s : State) : State :=
  let v := regAt s 0x64 0x048
  let i := v % 128
  let t := slotStartCc s
  if !plsActive s || firingSlot s || decide (fld v 8 7 = 0) || decide (fld v 16 8 = 0) || rowBarred s (i / 16)
      || colBarred s (i % 16) || !firingClear s (i / 16) t then countSkip 1 s
  else fireRow (i / 16) t (regF s 0x64 0x040 8 3) [⟨i, fld v 16 8, fld v 8 7⟩] s

def rowOpen (s : State) : State :=
  if s.pls.row.isSome ∧ s.pls.openAt ≤ s.pw.cc then
    { s with pls := { s.pls with row := none, sinks := [], blanking := decide (s.pw.cc < s.pls.blankTo) } } else s

def blankEnd (s : State) : State :=
  if s.pls.blanking ∧ s.pls.blankTo ≤ s.pw.cc then { s with pls := { s.pls with blanking := false } } else s

/-- SITE_VERDICT of column `k` (R400); without VDDP a site emits no light and its verdict is OPEN (R432). The verdict of a
diagnostic pulse is recorded at offset L − 9. -/
def verdict (k : Nat) (inReg : Bool) (s : State) : State :=
  match s.pls.sites.find? (fun p => p.1 % 16 == k) with
  | none => s
  | some (i, t) =>
    if s.pw.cc < t then s
    else
      let good := inReg && s.pw.vddp
      let s := { s with pls := { s.pls with sites := s.pls.sites.filter (fun p => p.1 != i) } }
      if s.pls.diagFired && !s.pls.diagDone && s.pls.diagSites.contains i then
        (if good then { s with pls := { s.pls with diagGood := s.pls.diagGood ++ [i] } }
         else { s with pls := { s.pls with diagOpen := s.pls.diagOpen ++ [i] } })
      else setSite i (if good then 1 else 2) s

/-! ### Oasis diagnostics (R398–R402) -/

/-- What a test of the schedule drives: the columns of one parity are sourced, or the rows of one parity close one after another. -/
inductive TestDrive where
  | cols (parity : Nat)
  | rows (parity : Nat)
  deriving DecidableEq, Repr

/-- The drive of the present slot while the schedule runs: offsets L − 16 to L − 13. -/
def testDrive (s : State) : Option TestDrive :=
  if !s.pls.diag then none
  else
    match s.orb.oasis.start + s.orb.oasis.len - s.pw.elapsed with
    | 16 => some (.cols 0)
    | 15 => some (.cols 1)
    | 14 => some (.rows 0)
    | 13 => some (.rows 1)
    | _ => none

/-- The row switch that is closed: that of a firing, or in a row test the four of the parity in turn, two core cycles each (R398 gives no
times; DESIGN CHOICE, log entry 77). -/
def closedRow (s : State) : Option Nat :=
  match s.pls.row, testDrive s with
  | some r, _ => some r
  | none, some (.rows p) => some (2 * min 3 (s.pw.cyc / 2) + p)
  | none, _ => none

/-- D: the next row with an OPEN_UNVERIFIED site that is not barred. -/
def diagRowOf (s : State) : Option Nat :=
  ((List.range 8).map (fun k => (s.pls.prevD + 1 + k) % 8)).find? (fun r =>
    !rowBarred s r && (List.range 16).any (fun k => siteState s (16 * r + k) == 3))

/-- The diagnostic pulse of row D in the present slot. -/
def diagPulse (s : State) : State :=
  match s.pls.diagRow with
  | none => s
  | some r =>
    let sites := (List.range 16).filterMap (fun k =>
      if siteState s (16 * r + k) = 3 ∧ !colBarred s k then some (16 * r + k) else none)
    fireRow r (slotStartCc s) 0 (sites.map (fun i => ⟨i, 24, 1⟩))
      { s with pls := { s.pls with diagFired := true, prevD := r, diagSites := sites } }

/-- The pulse falls due at offset L − 12. -/
def diagDue (s : State) : State :=
  if s.pls.diag && !s.pls.diagFired && decide (s.orb.oasis.start + s.orb.oasis.len ≤ s.pw.elapsed + 12) then diagPulse s else s

/-- The slot start ends the schedule's span after offset L − 9. -/
def diagSlot (s : State) : State :=
  let s := diagDue s
  if s.pls.diag && decide (s.orb.oasis.start + s.orb.oasis.len ≤ s.pw.elapsed + 8) then
    { s with pls := { s.pls with diag := false } } else s

/-- PULSER_DIAGNOSTICS at offset L − 16: the shorts its tests sense, and D. -/
def diagStart (cols rows : List Nat) (s : State) : State :=
  let ctl := regAt s 0x64 0x040
  if !s.pw.coreRun ∨ !s.orb.oasis.running ∨ s.pls.diagRan ∨ !ctl.testBit 0 ∨ !plsActive s
      ∨ s.pw.elapsed + 16 < s.orb.oasis.start + s.orb.oasis.len then s
  else
    let t := slotStartCc s
    let s := { s with pls := { s.pls with diagRan := true } }
    if (s.pls.row.isSome && decide (t < s.pls.openAt)) || decide (t < s.pls.blankTo) then
      count 0x64 2 { s with pls := { s.pls with diagDone := true } }
    else
      let d := diagRowOf s
      diagDue { s with pls := { s.pls with
        diag := true, diagDone := false, diagFired := false, diagRow := d, diagSites := [], diagGood := [], diagOpen := [],
        colHit := (cols.filter (· < 15)).dedup, rowHit := (rows.filter (· < 7)).dedup } }

/-- Bars of one kind after a schedule's tests: hits set a bar, the fourth clean test clears it. -/
def newBars (hits : List Nat) (m : Ram Nat) : Ram Nat :=
  let kept := (m.map (fun p => (p.1, if hits.contains p.1 then 0 else p.2 + 1))).filter (fun p => decide (p.2 < 4))
  hits.foldl (fun m k => ramSet m k 0) kept

/-- New bars count. -/
def countBars (tally : Nat) (hits : List Nat) (m : Ram Nat) (s : State) : State :=
  (hits.mergeSort (fun a b => decide (a ≤ b))).foldl (fun s k => if ramHas m k then s else countD 0x64 tally k s) s

/-- The payload of a result bale (R402). -/
def plsPayload (s : State) : List Byte :=
  let r := s.pls.diagRow.getD 0
  let col (l : List Nat) : Nat := maskOf ((l.filter (fun i => decide (i / 16 = r))).map (· % 16))
  [BitVec.ofNat 8 ((if s.pls.diagFired then r else 0) + 8 * b2n s.pls.diagFired), 0]
    ++ leBytes 2 (maskOf ((List.range 16).filter (colBarred s)))
    ++ [BitVec.ofNat 8 (maskOf ((List.range 8).filter (rowBarred s))), 0]
    ++ leBytes 2 (col s.pls.diagSites) ++ leBytes 2 (col s.pls.diagOpen)
    ++ leBytes 2 s.pls.firings ++ leBytes 2 s.pls.skips ++ List.replicate 6 0
    ++ leBytes 16 (maskOf (sitesIn s 2)) ++ leBytes 16 (maskOf (sitesIn s 3))

/-- The result bale is written to Q15, or lost behind the one that waits. -/
def plsShip (s : State) : State :=
  if !(regAt s 0x64 0x040).testBit 1 then s
  else if (getQ s 15).waiting ≠ [] then count 0x64 6 s
  else
    let l := mkBale 4 7 true s.acq.nPls (s.orb.slot % 4096) s.orb.orbit (plsPayload s)
    writeBale 15 l { s with acq := { s.acq with nPls := (s.acq.nPls + 1) % 2 ^ 24 },
                            pls := { s.pls with firings := 0, skips := 0 } }

/-- DIAG_VERDICTS at offset L − 9. -/
def diagRecord (s : State) : State :=
  if !s.pw.coreRun ∨ !s.pls.diagRan ∨ s.pls.diagDone ∨ s.pw.elapsed + 9 < s.orb.oasis.start + s.orb.oasis.len then s
  else
    let c0 := s.pls.colClean
    let r0 := s.pls.rowClean
    let s := { s with pls := { s.pls with diagDone := true, colClean := newBars s.pls.colHit c0, rowClean := newBars s.pls.rowHit r0 } }
    let s := s.pls.diagGood.foldl (fun s i => setSite i 1 s) s
    let s := s.pls.diagOpen.foldl (fun s i => setSite i 2 s) s
    let s := countBars 5 s.pls.rowHit r0 (countBars 4 s.pls.colHit c0 s)
    plsShip s

/-- A realignment cuts the schedule short, or a new oasis begins: nothing of it is recorded. -/
def diagClear (ran : Bool) (s : State) : State :=
  { s with pls := { s.pls with diag := false, diagRan := ran, diagDone := true, diagFired := false } }

/-- The firing in progress has ended and its blanking has run (R403). -/
def plsDrained (s : State) : Bool := (s.pls.row.isNone || decide (s.pls.openAt ≤ s.pw.cc)) && decide (s.pls.blankTo ≤ s.pw.cc)

/-- The page soft reset of page 0x64 (R403): a result bale that waits is discarded, and the next one takes its SEQ (R158). -/
def plsReset (s : State) : State :=
  modQ 15 (fun x => { x with waiting := [] })
    { s with pls := { s.pls with states := [], colClean := [], rowClean := [], prevD := 7 },
             acq := { s.acq with nPls := (s.acq.nPls + (2 ^ 24 - (getQ s 15).waiting.length)) % 2 ^ 24 } }

end Sys2Proof.Machine
end

