-- ==== Sys2Proof/Machine/Credits.lean ====
section
/-! DEFINITION. Credits: worst-case costs (R225, R416), the pool and the outstanding costs (R226), UNFIT (R231). -/

namespace Sys2Proof.Machine

/-- Selected channels of a seam. -/
def selCount (r : Ram Tri) (i : Nat) : Nat :=
  popcount (regsGet r (0x08 + i) 0x044) 32 + popcount (regsGet r (0x08 + i) 0x048) 32

/-- RAW_EN and FEAT_EN as R139, R161 and R225 take them: 0 for seams 0 and 1 in heritage mode (R406). -/
def rawEn (r : Ram Tri) (her : Bool) (i : Nat) : Bool := (regsGet r (0x08 + i) 0x040).testBit 0 && !(her && decide (i ≤ 1))
def featEn (r : Ram Tri) (her : Bool) (i : Nat) : Bool := (regsGet r (0x08 + i) 0x040).testBit 1 && !(her && decide (i ≤ 1))
def seamEn (r : Ram Tri) (i : Nat) : Bool := (regsGet r (0x08 + i) 0x004).testBit 0

def preOf (r : Ram Tri) : Nat := fld (regsGet r 0x30 0x044) 0 8
def postOf (r : Ram Tri) : Nat := fld (regsGet r 0x30 0x044) 16 9
def latOf (r : Ram Tri) : Nat := fld (regsGet r 0x30 0x040) 0 10

/-- Channels of each bale when `k` go `c` to a bale, at least one bale (R161). -/
def shareOut (k c : Nat) : List Nat :=
  if c = 0 then [k] else (List.range (max 1 (ceilDiv k c))).map (fun i => min c (k - c * i))

/-- Raw bales of one entry on seam i: (n_i, k_i) each (R225). -/
def rawCosts (r : Ram Tri) (her : Bool) (i : Nat) : List (Nat × Nat) :=
  let w := preOf r + postOf r
  let cc := codeCfg (regsGet r (0x34 + i) 0x040)
  if rawEn r her i then
    (shareOut (selCount r i) (rawCount cc.baleIn w)).map (fun k =>
      let n := 24 + 2 * w * k
      (n, ceilDiv n 4096 + 1 + (if cc.chBlocks then k + 1 else 0)))
  else []

/-- Feature bales of one entry on seam i: records in each (R225). -/
def featCosts (r : Ram Tri) (her : Bool) (i : Nat) : List Nat :=
  let w := preOf r + postOf r
  if featEn r her i then shareOut (selCount r i * ((w + preOf r % 2 + 1) / 2)) 4096 else []

/-- Heritage channels and samples (R410, R407). -/
def herN (r : Ram Tri) : Nat := sumTo 8 (fun i => popcount (regsGet r 0x68 (0x048 + 4 * i)) 16)
def herLen (r : Ram Tri) : Nat := fld (regsGet r 0x68 0x044) 0 4
def herPre (r : Ram Tri) : Nat := fld (regsGet r 0x68 0x044) 4 3

/-- T_s of seam i (R225, R416). -/
def costT (r : Ram Tri) (her : Bool) (i : Nat) : Nat :=
  if !seamEn r i then 0
  else if her && decide (i ≤ 1) then 2 * herLen r + herN r * herLen r + 24
  else if !(rawEn r her i || featEn r her i) then 0
  else
    preOf r + postOf r
      + max ((rawCosts r her i).map (fun p => 2 * ceilDiv p.1 8 + 23)).sum
          ((featCosts r her i).map (fun j => ceilDiv (8 * j + 20) 4)).sum

/-- Worst-case costs of one entry under the words `r` in force (R225). -/
def costOf (r : Ram Tri) (her : Bool) : Cost :=
  let raw := (List.range 6).map (fun i =>
    if seamEn r i then ((rawCosts r her i).map (fun p => ceilDiv (p.1 + 5 * p.2 + 21) 512)).sum else 0)
  let feat := (List.range 6).map (fun i =>
    if seamEn r i then ((featCosts r her i).map (fun j => ceilDiv (8 * j + 20) 512)).sum else 0)
  { q := raw ++ feat ++ [1, if her then ceilDiv (28 + 4 * herN r * herLen r) 512 else 0],
    t := (List.range 6).map (costT r her),
    h := 4 * (2048 - (preOf r : Int) - (max (2 * latOf r) (postOf r + 80) : Nat)) }

/-- rem_q of an entry (R226). -/
def remQ (e : Entry) (q : Nat) : Nat := costQ e.cost q - ramGet 0 e.took q

/-- Core cycles that the lift and the engine of a seam have spent on an entry. -/
def spent (r : Report) (now : Nat) : Nat :=
  (match r.liftAt with | some t => min (now - t) r.liftLen | none => 0)
    + (match r.engAt with | some t => now - t | none => 0)

/-- rem_s of an entry (R226). -/
def remS (s : State) (e : Entry) (i : Nat) : Nat :=
  let r := e.reps.getD i {}
  if r.done then 0 else e.cost.t.getD i 0 - spent r s.pw.cc

def promised (s : State) : Nat := s.frm.adv - s.frm.x

def oQ (s : State) (q : Nat) : Nat := promised s * costQ s.frm.cost q + (s.acq.fifo.map (fun e => remQ e q)).sum
def oCells (s : State) : Nat := (setS.map (oQ s)).sum
def oS (s : State) (i : Nat) : Nat := promised s * s.frm.cost.t.getD i 0 + (s.acq.fifo.map (fun e => remS s e i)).sum

/-- Conditions 1–4 of R226 for one further accept. -/
def creditOk (s : State) : Bool :=
  let c := s.frm.cost
  decide (s.acq.fifo.length + promised s + 1 ≤ 64)
    && decide ((costAll c : Int) ≤ poolNow s - (oCells s : Int))
    && setS.all (fun q => decide (costQ c q = 0) || decide (uOf s q + oQ s q + costQ c q ≤ quotaOf s q))
    && (List.range 6).all (fun i => decide (c.t.getD i 0 = 0) || decide ((oS s i + c.t.getD i 0 : Nat) ≤ c.h))

/-- R230: whether the promises and entries outstanding fit under new Serai values. -/
def seraiFits (s : State) (r : Ram Tri) : Bool :=
  decide ((oCells s : Int) ≤ poolOf s r)
    && setS.all (fun q => decide (oQ s q = 0) || decide (uOf s q + oQ s q ≤ fld (regsGet r 0x40 (0x400 + 0x20 * q)) 0 13))

/-- The costs are computed anew at each boundary and each application in IDLE (R225, R340). -/
def recost (s : State) : State := unfitSync { s with frm := { s.frm with cost := costOf s.fab.regs s.her.on } }

/-- The entry of accept sequence `seq`. -/
def findEntry (s : State) (seq : Nat) : Option Entry := s.acq.fifo.find? (fun e => e.seq == seq)

def modEntry (seq : Nat) (f : Entry → Entry) (s : State) : State :=
  { s with acq := { s.acq with fifo := s.acq.fifo.map (fun e => if e.seq = seq then f e else e) } }

def modRep (seq i : Nat) (f : Report → Report) (s : State) : State :=
  modEntry seq (fun e => { e with reps := e.reps.modify i f }) s

/-- A bale of the entry has taken `n` more cells of queue `q` (R226). -/
def tookCells (seq q n : Nat) (s : State) : State :=
  modEntry seq (fun e => { e with took := ramPut 0 e.took q (ramGet 0 e.took q + n) }) s

end Sys2Proof.Machine
end

