-- ==== Sys2Proof/Machine/Phase.lean ====
section
/-! DEFINITION. The phase plane (chapter 04): delay-line codes, spine sweep, drift tracking, quality figures, hold and UNCOMP. -/

namespace Sys2Proof.Machine

def codeInRange (v : Int) : Bool := decide (0 ≤ v) && decide (v ≤ 32767)

/-- Every channel's CODE stays in range under `r` with the tracks `f` (R68, R376). -/
def codesOk (s : State) (r : Ram Tri) (trim track : Nat → Int) : Bool :=
  (List.range s.chan.length).all (fun c => codeInRange (codeWith r c (trim c) (track c)))

/-- MEAS from the two raw instants of a channel, the sweep's scale and the target instant (R70, R71). "Rounded to the nearest step"
leaves a tie open; it goes away from zero, as round() of R73 does (DESIGN CHOICE, log entry 46). -/
def measOf (m0 m1 : Int) (scale : Nat) (target : Int) : Int :=
  roundDiv ((m0 + m1) * 32768 - 32768 * scale - 2 * scale * target) (2 * scale)

/-- The new TRACK of R73, and whether the step was cut short by a limit: TRACK counts as held at a limit from such a step until the
channel's next tracking step, whatever its registers become meanwhile (DESIGN CHOICE, log entry 70). -/
def trackStep (r : Ram Tri) (c : Nat) (x : Chan) (shift : Nat) : Int × Bool :=
  let want := x.track - clampI (-256) 256 (roundDiv x.meas (2 ^ shift))
  let base := hubOfs r + chOfs r c + x.trim
  let got := clampI (max (-4096) (-base)) (min 4095 (32767 - base)) want
  (got, decide (got ≠ want))

/-- PHASE_RESID from the measurements kept (R75): one phase step is 3125/8192 ps. -/
def phaseResid (h : List Int) : Nat :=
  if h.isEmpty then 0xFF
  else
    let sq := (h.map (fun m => (m * m).toNat)).sum
    min 0xFE ((isqrt (4 * sq * 3125 * 3125 / (h.length * 512 * 512)) + 1) / 2)

/-- A level of HOLD or UNCOMP marks the present slot (R87, R217). -/
def markPhase (s : State) : State := if s.pll.hold || s.pll.uncomp then modTag (fun t => { t with hold := true }) s else s

/-- HOLD or UNCOMP is 1. -/
def phaseLevel (s : State) : Bool := s.pll.hold || s.pll.uncomp

/-- HOLD becomes `h` and UNCOMP `u`: the intervals in which one of them was 1 are kept for the samples of recent windows (R87). -/
def setPhase (h u : Bool) (s : State) : State :=
  let was := phaseLevel s
  let p := { s.pll with hold := h, uncomp := u }
  markPhase { s with pll :=
    if was == (h || u) then p
    else if was then { p with lvls := (p.lvlAt, s.pw.cc) :: p.lvls.filter (fun v => decide (s.pw.cc < v.2 + 16384)) }
    else { p with lvlAt := s.pw.cc } }

/-- HOLD or UNCOMP was 1 in core cycle `c` (R87). -/
def phaseAt (s : State) (c : Nat) : Bool :=
  (phaseLevel s && decide (s.pll.lvlAt ≤ c)) || s.pll.lvls.any (fun v => decide (v.1 ≤ c) && decide (c < v.2))

def setUncomp (s : State) : State := setPhase s.pll.hold true s

/-- The PLL enters hold; a hold that already runs goes on (R86, R90). -/
def enterHold (s : State) : State :=
  if s.pll.hold then s
  else
    let s := setPhase true s.pll.uncomp s
    let s := { s with pll := { s.pll with holdAt := s.pw.cc, lock := false, lockFrom := s.pw.elapsed },
                      orb := { s.orb with oasis := { s.orb.oasis with holdSeen := s.orb.oasis.holdSeen || s.orb.oasis.sweeping } } }
    count 0x02 0 s

/-- UNCOMP_ACK (R88): no effect while HOLD is 1. -/
def ackUncomp (s : State) : State := if s.pll.hold then s else setPhase false false s

/-! ### The sweep (R70–R72) -/

/-- Channels measured at sweep offset k, by place within the seam. -/
def sweptAt (k c : Nat) : Bool := c % 32 == k

/-- The sweep starts with the oasis, or the orbit counts SWEEP_SKIPPED. -/
def sweepStart (s : State) : State :=
  let on := decide (regF s 0x28 0x040 1 1 = 1)
  let s := { s with pll := { s.pll with scaleSum := 0, scaleN := 0, skewMeas := none, skewVoid := false },
                    chan := s.chan.map (fun x => { x with raw := none }),
                    orb := { s.orb with oasis := { s.orb.oasis with sweeping := on, swept := false, holdSeen := on && s.pll.hold } } }
  if on then s else count 0x28 2 s

/-- What the spine measured in the sweep slot that ends. Of the slots' measurements of the standby clock the last one is kept, and
TRUNK_SKEW takes it at the boundary with the other results (R31, R84; DESIGN CHOICE, log entry 49). -/
def sweepSlot (obs : SlotObs) (s : State) : State :=
  let k := s.pw.elapsed - s.orb.oasis.start
  if !s.orb.oasis.sweeping ∨ 32 ≤ k then s
  else
    let s := obs.taps.foldl (fun s t =>
      if sweptAt k t.ch ∧ convEn s.fab.regs t.ch then modChan t.ch (fun x => { x with raw := some (t.m0, t.m1) }) s else s) s
    let sk := match obs.skew with
      | some v => some (sgn (uns v 13) 13)
      | none => s.pll.skewMeas
    { s with pll := { s.pll with scaleSum := s.pll.scaleSum + obs.scale, scaleN := s.pll.scaleN + 1, skewMeas := sk } }

/-- The sweep's 32 slots have passed: it is kept for the boundary, discarded whole, or skipped (R71, R72). SPINE_SCALE reports the mean
count rounded to the nearest integer, a tie up (DESIGN CHOICE, log entry 47), and keeps its value after a sweep that is discarded
(DESIGN CHOICE, log entry 68). TRUNK_SKEW.VALID stays after a sweep that HOLD made to be skipped, and falls with one that its scale
discards (DESIGN CHOICE, log entry 69). -/
def sweepEnd (s : State) : State :=
  let mean := (roundDiv s.pll.scaleSum (max 1 s.pll.scaleN)).toNat
  let s := { s with orb := { s.orb with oasis := { s.orb.oasis with sweeping := false } } }
  if s.orb.oasis.holdSeen then count 0x28 2 s
  else if mean < 0x6000 ∨ 0xA000 < mean then
    count 0x28 2 { s with pll := { s.pll with skewValid := false } }
  else
    let s := { s with pll := { s.pll with scaleSum := mean } }
    { s with orb := { s.orb with oasis := { s.orb.oasis with swept := true } } }

/-- The oasis has run whole: its sweep, if it was kept, waits for the boundary (R31). -/
def sweepKeep (s : State) : State :=
  if s.orb.oasis.swept then
    { s with chan := s.chan.map (fun x => { x with rawDone := x.raw, raw := none }),
             pll := { s.pll with scaleDone := s.pll.scaleSum, skewDone := if s.pll.skewVoid then none else some s.pll.skewMeas },
             orb := { s.orb with sweptWait := true } }
  else s

/-- RESID_HIGH of the phase plane (R75). -/
def phaseHigh (s : State) : Bool :=
  let lim := regF s 0x28 0x040 16 8
  s.chan.any (fun x => !x.history.isEmpty && decide (lim < phaseResid x.history))

/-- PH_STAT.TRACK_LIMIT: some channel's TRACK is held at a limit (R73). -/
def trackLim (s : State) : Bool := s.chan.any (·.lim)

/-- The boundary's tracking step from a completed sweep (R73, step 4 of R34). -/
def trackApply (s : State) : State :=
  let r := s.fab.regs
  let scale := s.pll.scaleDone
  let e := s.pw.elapsed
  let shift := regF s 0x28 0x040 4 3
  let en := decide (regF s 0x28 0x040 0 1 = 1)
  let ms := mapIdxN (fun c x =>
    match x.rawDone with
    | none => x
    | some (m0, m1) =>
      let m := measOf m0 m1 scale (hubOfs r + chOfs r c)
      let x := { x with meas := m, history := (m :: x.history).take 16, rawDone := none }
      if en then { setOffs e x.trim (trackStep r c x shift).1 x with lim := (trackStep r c x shift).2 } else x) s.chan
  let was := trackLim s
  let first := ((ms.zipIdx).find? (fun p => p.1.lim)).elim 0 (·.2)
  let pll := { s.pll with scale := scale, skewDone := none }
  let s := { s with chan := ms, orb := { s.orb with sweptWait := false },
                    pll := match s.pll.skewDone with
                      | some (some v) => { pll with skew := v, skewValid := true, moved := false }
                      | some none => { pll with skewValid := false }
                      | none => pll }
  onRise was (trackLim s) 0x28 0 first s

/-- TRACK of every channel becomes 0; none is at a limit then (R68, R73, R92). -/
def zeroTracks (s : State) : State :=
  { s with chan := s.chan.map (fun x => { setOffs s.pw.elapsed x.trim 0 x with lim := false }) }

/-- The page soft reset of page 0x28 (R92). No check of PHASE_RANGE comes with it: a CODE that leaves 0–32,767 stays where the sum
puts it (DESIGN CHOICE, log entry 50). -/
def phaseReset (s : State) : State :=
  let s := zeroTracks s
  { s with chan := s.chan.map (fun x => { x with meas := 0, history := [] }) }

/-! ### The two-way probe (R77–R81) -/

/-- Place of an instant, in phase steps of the core cycles run, as slot number, orbit number and fraction: its slot is the newest
that began at or before it (R79). In the added core cycles of a long slot the fraction wraps at 65,536, all that RX_FRAC holds
(DESIGN CHOICE, log entry 71). -/
def placeOf (s : State) (t : Int) : Nat × Nat × Nat :=
  let tg := tagAtCycle s (t / 8192)
  (tg.slot, tg.orbit, ((t - 8192 * tg.cc0) % 65536).toNat)

/-- A probe that arrives on the active downlink at phase `ph` of the present slot, in a frame that lands in slot `e`, is served, or
counted as busy (R78, R79, R264). In a slot that a grid move has made longer the move lies between t2 and t3 (R81). -/
def serveProbe (t : Trunk) (tag ph e : Nat) (s : State) : State :=
  if (match s.frm.served with | some p => decide (e < p + 17) | none => false) then count 0x02 2 s
  else
    let t2 := 8192 * (tagHead s).cc0 + ph
    let pr : Probe := { tag := tag, slot := e, t2c := (t2 : Int) - sgn (regAt s 0x02 0x04C) 16, trunk := t,
                        bad := s.pll.hold || decide (s.pw.slotLen ≠ 8) }
    { s with frm := { s.frm with served := some e, probe := some pr } }

/-- The probe record of R81 for an arrival at `place` and a turnaround of `turn` phase steps. -/
def probeRecord (p : Probe) (place : Nat × Nat × Nat) (turn : Int) (valid : Bool) : Word × Word :=
  (BitVec.ofNat 32 (place.2.2 + place.1 % 4096 * 0x10000 + place.2.1 % 16 * 0x10000000),
   BitVec.ofNat 32 (uns turn 24 + p.tag % 64 * 0x1000000 + b2n valid * 0x40000000))

/-- A grid move or a hold spoils a probe on its way (R81). -/
def spoilProbe (s : State) : State :=
  { s with frm := { s.frm with probe := s.frm.probe.map (fun p => { p with bad := true }) } }

end Sys2Proof.Machine
end

