-- ==== Sys2Proof/Machine/Acquire.lean ====
section
/-! DEFINITION. Acquisition (chapter 07) with the manifests (R218–R223): the accept FIFO, local triggers and arming, lifts. -/

namespace Sys2Proof.Machine

/-! ### Watermark (R138) -/

def acqSync (s : State) : State :=
  let wm := decide (regF s 0x30 0x048 0 7 ≤ s.acq.fifo.length)
  onRise s.acq.wmHigh wm 0x30 2 0 { s with acq := { s.acq with wmHigh := wm } }

/-! ### Manifests (R218–R223) -/

/-- Byte 1 of a manifest without PHASE_HOLD (R149, R218). -/
def causeBits (ext self pin host overcr : Bool) : Nat :=
  b2n ext + 2 * b2n self + 4 * b2n pin + 8 * b2n host + 16 * b2n overcr

/-- One seam entry of a manifest (R219). -/
def seamEntry (status : Nat) (phase ecc her : Bool) (raw feat bytes : Nat) : List Byte :=
  [BitVec.ofNat 8 status, BitVec.ofNat 8 (b2n phase + 2 * b2n ecc + 4 * b2n her), BitVec.ofNat 8 raw, BitVec.ofNat 8 feat]
    ++ leBytes 4 bytes

def repEntry (r : Report) : List Byte := seamEntry r.status r.phase r.ecc r.her r.raw r.feat r.bytes

/-- A seam whose output goes to entry 6 reports OK with zero counts and HERITAGE set (R220, R415). -/
def shownRep (r : Report) : Report := if r.her then { her := true } else r

/-- The status of the highest precedence among those present (R220). -/
def accStatus (l : List Nat) : Nat :=
  ([0x42, 0x43, 0x41, 0x44, 0x46].find? (fun c => l.contains c)).getD 0x40

/-- A manifest's payload (R218). -/
def manifestPayload (acc flags seams user arrival pre post lastSeq : Nat) (entries : List Byte) : List Byte :=
  [BitVec.ofNat 8 acc, BitVec.ofNat 8 flags, BitVec.ofNat 8 seams, BitVec.ofNat 8 user] ++ leBytes 2 arrival
    ++ [BitVec.ofNat 8 pre] ++ leBytes 2 post ++ leBytes 3 lastSeq ++ entries

/-- The manifest of an entry whose seams and heritage output have all reported (R221). `herOn` is heritage mode at the write: off, entry
6 reads zero whatever the entry was (R219). -/
def entryManifest (e : Entry) (herOn : Bool) : List Byte :=
  let reps := (e.reps.take 6).map shownRep
  let h := if herOn then [e.hrep] else []
  let acc := accStatus ((reps ++ h).map (·.status))
  let ph := (reps ++ h).any (·.phase)
  let flags := causeBits e.ext e.self e.pin e.host e.overcr + 32 * b2n ph
  mkBale 6 7 true e.seq (e.slot % 4096) e.orbit
    (manifestPayload acc flags e.seams e.user e.arrival e.pre e.post e.seq
      (reps.flatMap repEntry ++ (if h.isEmpty then List.replicate 8 0 else repEntry e.hrep)))

/-- A REFUSED_FULL manifest (R220, R222). `herOn` is heritage mode at the write (R219). -/
def refusedManifest (herOn : Bool) (r : Refusal1) : List Byte :=
  let z := seamEntry 0x42 false false false 0 0 0
  mkBale 6 7 true r.seq (r.slot % 4096) r.orbit
    (manifestPayload 0x42 r.flags r.seams r.user r.arrival r.pre r.post r.lastSeq
      ((List.replicate 6 z).flatten ++ (if herOn then z else List.replicate 8 0)))

/-- The replay manifest (R223). -/
def replayManifest (s : State) (bales bytes : Nat) : List Byte :=
  mkBale 6 7 true s.acq.seq (s.orb.slot % 4096) s.orb.orbit
    ([0x45] ++ List.replicate 11 0 ++ leBytes 4 bales ++ leBytes 4 bytes ++ List.replicate 48 0)

/-- The manifest writer is free: Q12 holds no write of its, and the words of its last manifest are written (R222). -/
def writerFree (s : State) : Bool := (getQ s 12).waiting.isEmpty && decide (s.acq.mfBusy ≤ s.pw.cc)

/-- An entry is freed in the core cycle in which its manifest is written (R134). -/
def freeEntry (seq : Nat) (s : State) : State :=
  acqSync { s with acq := { s.acq with fifo := s.acq.fifo.filter (fun e => e.seq != seq) } }

/-- ACC_STATUS of a manifest bale. -/
def accOf (l : List Byte) : Nat := (l.getD 16 0).toNat

/-- A manifest enters Q12 at one word per core cycle (R190; DEDUCED, log entry 25): an entry's manifest frees its entry. -/
def manifestIn (l : List Byte) (s : State) : State :=
  let s := { s with acq := { s.acq with mfBusy := s.pw.cc + (l.length + 3) / 4 } }
  if accOf l = 0x42 ∨ accOf l = 0x45 then s else freeEntry (baleSeq l) s

/-- Writes one manifest, or leaves it with the writer while Q12 holds the write. -/
def putManifest (l : List Byte) (s : State) : State :=
  let s := writeBale 12 l s
  if (getQ s 12).waiting.isEmpty then manifestIn l s else s

/-- Every seam of the entry and the heritage output have reported (R221). -/
def entryDone (e : Entry) : Bool := (e.reps.take 6).all (·.done) && e.hrep.done

/-- The held manifest of Q12 completes: the entry of the one that went in is freed (R134, R190). -/
def manifestHeld (s : State) : State :=
  match (getQ s 12).waiting with
  | [] => heldComplete 12 s
  | b :: t =>
    let s := heldComplete 12 s
    if (getQ s 12).waiting.length ≤ t.length then manifestIn b.bytes s else s

/-- MANIFEST_WRITE: the next manifest in the order of R222. -/
def manifestNext (s : State) : State :=
  if !writerFree s then s
  else
    match s.acq.refused with
    | r :: t => putManifest (refusedManifest s.her.on r) { s with acq := { s.acq with refused := t } }
    | [] =>
      match s.acq.replay with
      | (n, b) :: t => putManifest (replayManifest s n b) { s with acq := { s.acq with replay := t } }
      | [] =>
        match s.acq.fifo with
        | e :: _ => if entryDone e then putManifest (entryManifest e s.her.on) s else s
        | [] => s

/-! ### Entries (R134–R136) -/

/-- Causes of a trigger (R149). -/
structure Cause where
  ext   : Bool := false
  self  : Bool := false
  pin   : Bool := false
  host  : Bool := false
  seams : Nat := 0
  overcr : Bool := false
  deriving DecidableEq, Repr, Inhabited

/-- The next accept sequence is given out. -/
def takeSeq (s : State) : State :=
  { s with acq := { s.acq with seq := (s.acq.seq + 1) % 2 ^ 24, total := (s.acq.total + 1) % 2 ^ 64 } }

/-- Whether the trigger is a heritage accept (R406). -/
def isHer (s : State) (c : Cause) : Bool := s.her.on && (c.ext || decide (regF s 0x68 0x040 0 1 = 1))

/-- The report of a seam on an entry created now: disabled, nothing to lift, or to come (R139, R143, R415). -/
def newReport (s : State) (her : Bool) (i : Nat) : Report :=
  let r := s.fab.regs
  let off := !(pageSt s (0x08 + i)).active
  let h := s.her.on && decide (i ≤ 1)
  if h && her then { started := off, done := off, her := true, status := if off then 0x46 else 0x40 }
  else if h then { started := true, done := true, her := true }
  else if off then { started := true, done := true, status := 0x46 }
  else if rawEn r s.her.on i || featEn r s.her.on i then {} else { started := true, done := true }

/-- SEAM_DISABLED is counted for each seam that reports it (R143). -/
def countDisabled (seq : Nat) (reps : List Report) (s : State) : State :=
  (reps.zipIdx).foldl (fun s p => if p.1.status = 0x46 then countD (0x08 + p.2) 2 seq s else s) s

/-- A new entry for a trigger that names elapsed slot `named`. -/
def createEntry (named : Nat) (c : Cause) (s : State) : State :=
  let tg := tagOf s named
  let her := isHer s c
  let reps := (List.range 6).map (newReport s her)
  let seq := s.acq.seq
  let e : Entry :=
    { seq := seq, named := named, slot := tg.slot, orbit := tg.orbit, ext := c.ext, self := c.self, pin := c.pin, host := c.host,
      overcr := c.overcr, seams := c.seams, arrival := s.orb.slot, created := s.pw.elapsed, pre := preOf s.fab.regs,
      post := postOf s.fab.regs, user := tg.user, her := her, cfg := s.fab.regs, reps := reps,
      hrep := { done := !her }, cost := s.frm.cost }
  let s := takeSeq s
  let s := countDisabled seq reps s
  acqSync { s with acq := { s.acq with fifo := s.acq.fifo ++ [e] } }

/-- A refused trigger takes a sequence and a REFUSED_FULL manifest (R135, R222). -/
def refuseTrigger (named : Nat) (c : Cause) (s : State) : State :=
  let tg := tagOf s named
  let r : Refusal1 :=
    { seq := s.acq.seq, lastSeq := s.acq.seq, slot := tg.slot, orbit := tg.orbit,
      flags := causeBits c.ext c.self c.pin c.host c.overcr, seams := c.seams, user := tg.user, arrival := s.orb.slot,
      pre := preOf s.fab.regs, post := postOf s.fab.regs }
  let s := count 0x30 0 (takeSeq s)
  if writerFree s && s.acq.refused.isEmpty then putManifest (refusedManifest s.her.on r) s
  else if s.acq.refused.length < 16 then { s with acq := { s.acq with refused := s.acq.refused ++ [r] } }
  else
    count 0x44 2 { s with acq := { s.acq with
      refused := s.acq.refused.modify 15 (fun x => { x with lastSeq := r.seq }) } }

/-- Lift of the entry has started on a seam that lifts something (R136). A seam that counts as lifted at once (R139), is disabled or has
lost its window starts none (DESIGN CHOICE, log entry 80). -/
def liftBegun (e : Entry) : Bool := e.reps.any (fun r => r.liftAt.isSome)

/-- The entry with the causes of a trigger that merges (R136). -/
def addCause (c : Cause) (e : Entry) : Entry :=
  { e with ext := e.ext || c.ext, self := e.self || c.self, pin := e.pin || c.pin, host := e.host || c.host,
           overcr := e.overcr || c.overcr, seams := e.seams ||| c.seams }

/-- An entry made without EXT in heritage mode whose seams 0 and 1 gave their place to entry 6. -/
def herPassed (e : Entry) : Bool := !e.her && (e.reps.getD 0 {}).her

/-- An entry whose cause comes to include EXT is a heritage accept: seams 0 and 1 lift for it, and entry 6 waits for its bale (R406). -/
def herJoin (seq : Nat) (c : Cause) (s : State) : State :=
  match findEntry s seq with
  | none => s
  | some e =>
    if herPassed e && isHer s c then
      let r0 := newReport s true 0
      let r1 := newReport s true 1
      countDisabled seq [r0, r1] (modEntry seq (fun e =>
        { e with her := true, hrep := {}, reps := (e.reps.set 0 { r0 with t := (e.reps.getD 0 {}).t }).set 1 { r1 with t := (e.reps.getD 1 {}).t } }) s)
    else s

/-- A trigger merges with entry `seq`, which takes its causes (R136). -/
def joinEntry (seq : Nat) (c : Cause) (s : State) : State := count 0x30 1 (modEntry seq (addCause c) (herJoin seq c s))

/-- An entry that names the slot and whose lift has not started on any seam. -/
def sameNamed (s : State) (named : Nat) : Option Entry :=
  s.acq.fifo.find? (fun e => e.named == named && !liftBegun e)

/-- An external accept with effect slot `a` (R22, R131, R135, R227). The entry it makes or joins takes the local triggers of its slot
(R136). -/
def acceptAt (a : Nat) (s : State) : State :=
  if s.orb.st = .idle then count 0x03 3 s
  else
    let x := s.frm.x + 1
    let excess := decide (s.frm.adv < x)
    let s := { s with frm := { s.frm with x := x, adv := max x s.frm.adv } }
    let s := if excess then count 0x44 0 s else s
    let named := a - latOf (regsIn s a)
    let c : Cause := { ext := true, overcr := excess }
    let made (seq : Nat) (s : State) : State := { s with acq := { s.acq with extIn := some (s.pw.elapsed, seq) } }
    match sameNamed s named with
    | some e => joinEntry e.seq c (made e.seq s)
    | none => if 64 ≤ s.acq.fifo.length then refuseTrigger named c s else createEntry named c (made s.acq.seq s)

/-! ### Arming and local triggers (R144–R148) -/

/-- First slot that a ready trigger may name (R147). -/
def readyFrom (s : State) : Nat := s.acq.armAt + (preOf s.fab.regs + 1) / 2

/-- An arm event (R147). REARM is counted when the slot ends without a DISARM (DEDUCED, log entry 15). What an arm event from DISARMED
changes is kept, so that a DISARM in the same slot leaves the hub as if it had stayed DISARMED. -/
def armEvent (s : State) : State :=
  if s.acq.disIn = some s.pw.elapsed then s
  else
    match s.acq.arm with
    | .disarmed =>
      { s with acq := { s.acq with arm := .priming, armAt := s.pw.elapsed, armSlot := s.orb.slot, armOrb := s.orb.orbit,
                                   taken := 0, hoTo := none, hoN := 0,
                                   armUndo := some ⟨s.acq.armAt, s.acq.armSlot, s.acq.armOrb, s.acq.taken, s.acq.hoTo, s.acq.hoN⟩ } }
    | _ => { s with acq := { s.acq with reArms := s.acq.reArms + 1 } }

/-- DISARM (R147). -/
def disarmNow (s : State) : State :=
  let a := { s.acq with arm := .disarmed, disIn := some s.pw.elapsed, reArms := 0, armUndo := none }
  { s with acq :=
    match s.acq.armUndo with
    | some u =>
      if s.acq.armAt = s.pw.elapsed then
        { a with armAt := u.armAt, armSlot := u.armSlot, armOrb := u.armOrb, taken := u.taken, hoTo := u.hoTo, hoN := u.hoN }
      else a
    | none => a }

/-- The slot ends: its arm events that changed nothing are counted. -/
def rearmFlush (s : State) : State := countN 0x31 2 s.acq.reArms { s with acq := { s.acq with reArms := 0 } }

def primingOver (s : State) : State :=
  if s.acq.arm = .priming ∧ readyFrom s ≤ s.pw.elapsed then { s with acq := { s.acq with arm := .armed } } else s

/-- ARM_STAT.HELD (R148). -/
def heldOff (s : State) : Bool := s.acq.hoTo.isSome || decide (0 < s.acq.hoN)

def holdoffOver (s : State) : State :=
  match s.acq.hoTo with
  | some t => if t + 16 ≤ s.pw.elapsed then { s with acq := { s.acq with hoTo := none } } else s
  | none => s

/-- TRIG_OUT rises or its width starts again (R145). -/
def trigOutRise (c : Cause) (s : State) : State :=
  let src := regF s 0x31 0x04C 8 3
  if (c.self && src.testBit 0) || (c.host && src.testBit 1) || (c.pin && src.testBit 2) then
    { s with acq := { s.acq with trigOut := true, trigEnd := s.pw.elapsed + regF s 0x31 0x04C 12 4 } }
  else s

/-- TRIG_OUT_FALL: its width has passed with no further taken trigger (R145). -/
def trigOutFall (s : State) : State :=
  if s.acq.trigOut && decide (s.acq.trigEnd ≤ s.pw.elapsed) then { s with acq := { s.acq with trigOut := false } } else s

/-- A local trigger of the present slot is remembered (R136). -/
def noteLocal (named : Nat) (seq : Option Nat) (taken : Bool) (s : State) : State :=
  { s with acq := { s.acq with
      locals := ⟨s.pw.elapsed, named, seq, taken⟩ :: s.acq.locals.filter (fun t => decide (t.slot = s.pw.elapsed)) } }

/-- What a taken local trigger that made or joined entry `seq` does to the arming state (R147, R148). TAKEN has 16 bits and wraps when
no limit stops it (R154; DESIGN CHOICE, log entry 53). HO_MODE and HO_LEN are those in force when it is taken, and a later change of
them leaves the hold-off that runs as it is (DESIGN CHOICE, log entry 82). -/
def afterTaken (named seq : Nat) (s : State) : State :=
  let mode := regF s 0x31 0x044 0 2
  let len := regF s 0x31 0x044 16 16
  let lim := regF s 0x31 0x048 0 16
  let n := (s.acq.taken + 1) % 65536
  let s := { s with acq := { s.acq with
    taken := n, hoTo := if mode = 1 then some (named + len) else s.acq.hoTo, hoN := if mode = 2 then len else s.acq.hoN } }
  let s := noteLocal named (some seq) true s
  if lim ≠ 0 ∧ n = lim then count 0x31 3 { s with acq := { s.acq with arm := .disarmed } } else s

/-- The entry that the external accept of the present slot made or joined (R136). -/
def extEntry (s : State) : Option Entry :=
  match s.acq.extIn with
  | some (e, seq) => if e = s.pw.elapsed then findEntry s seq else none
  | none => none

/-- A ready trigger that is not held off: it joins an entry, makes one, or is refused (R136, R226). -/
def takeLocal (named : Nat) (c : Cause) (s : State) : State :=
  match (match extEntry s with | some e => some e | none => sameNamed s named) with
  | some e => afterTaken named e.seq (trigOutRise c (joinEntry e.seq c s))
  | none =>
    if creditOk s then afterTaken named s.acq.seq (trigOutRise c (createEntry named c s))
    else count 0x44 1 (noteLocal named (some s.acq.seq) false (refuseTrigger named c s))

/-- The local trigger of the present slot that names the same slot: the two form one trigger (R136). -/
def localOf (s : State) (named : Nat) : Option LocalTrig :=
  s.acq.locals.find? (fun t => decide (t.slot = s.pw.elapsed) && decide (t.named = named))

/-- A trigger merges with one that was refused: its causes go into the manifest, unless that is written already (R136). -/
def joinRefused (seq : Nat) (c : Cause) (s : State) : State :=
  count 0x30 1 { s with acq := { s.acq with refused := s.acq.refused.map (fun r =>
    if r.seq = seq then { r with flags := r.flags ||| causeBits c.ext c.self c.pin c.host c.overcr, seams := r.seams ||| c.seams } else r) } }

/-- A local trigger merges with the trigger of its slot and named slot: it adds its causes to that one's entry or manifest, and shares its
lot where that one came too early or was held off. Either way it counts MERGED (R136; DESIGN CHOICE, log entry 81). -/
def joinLocal (t : LocalTrig) (c : Cause) (s : State) : State :=
  match t.seq with
  | none => count 0x30 1 s
  | some seq => if t.taken then trigOutRise c (joinEntry seq c s) else joinRefused seq c s

/-- A local trigger that is ignored and counted under tally `i`. -/
def ignoreLocal (i named : Nat) (s : State) : State := count 0x31 i (noteLocal named none false s)

/-- A local trigger that names elapsed slot `named` enters the FIFO in the present slot. -/
def localTrigger (named : Nat) (c : Cause) (s : State) : State :=
  if s.orb.st = .idle then s
  else
    match localOf s named with
    | some t => joinLocal t c s
    | none =>
      match s.acq.arm with
      | .disarmed => s
      | .priming => ignoreLocal 0 named s
      | .armed =>
        if named < readyFrom s then ignoreLocal 0 named s
        else if (match s.acq.hoTo with | some t => decide (named ≤ t) | none => false) then ignoreLocal 1 named s
        else if 0 < s.acq.hoN then ignoreLocal 1 named { s with acq := { s.acq with hoN := s.acq.hoN - 1 } }
        else takeLocal named c s

/-- Self-trigger conditions of seam i in slot n (R144). -/
def selfFires (s : State) (i n : Nat) : Bool :=
  let ctl := regAt s 0x31 (0x060 + 8 * i)
  let thr := regF s 0x31 (0x064 + 8 * i) 0 18
  (ctl.testBit 0 && (List.range 64).any (fun k =>
      match peakIn s (64 * i + k) n with | some p => decide (thr ≤ p.energy) | none => false))
    || (ctl.testBit 1 && decide (fld (tagOf s n).flint (4 * i) 4 ≠ 0))
    || (ctl.testBit 2 && (List.range 4).any (fun t => decide (fld ctl 16 12 ≤ towerOf s (4 * i + t) n)))

/-- SELF_TRIGGER: the conditions of slot n = now − 8 (R144). -/
def selfTrig (s : State) : State :=
  let n := s.pw.elapsed - 8
  let tg := tagOf s n
  if tg.idle ∨ tg.self = false ∨ s.orb.st = .idle then s
  else
    let fired := (List.range 6).filter (fun i => selfFires s i n)
    if fired.isEmpty then s else localTrigger n { self := true, seams := maskOf fired } s

/-- An edge on TRIG_IN that is seen in the present slot (R145). -/
def trigInSeen (s : State) : State :=
  let mode := regF s 0x31 0x04C 0 2
  if mode = 1 then localTrigger (s.pw.elapsed - regF s 0x31 0x04C 4 4) { pin := true } s
  else if mode = 2 then armEvent s else s

/-- Core cycle of the present slot in which an edge `ps` picoseconds into it is seen: two after the first core-cycle start at or after
`ps` + 1.0 ns; within 0.3 ns of that point it may be one later, and `late` says whether it is (R443; log entry 83). -/
def seenCycle (ps : Nat) (late : Bool) : Nat :=
  ceilDiv (ps + 1000) 3125 + 2 + b2n (late && (decide ((ps + 1000) % 3125 ≤ 300) || decide (2825 ≤ (ps + 1000) % 3125)))

/-- TRIG_IN_EDGE: slot m of R145 is the present slot, or the next one, at whose start the edge is seen (R443). -/
def trigInEdge (ps : Nat) (late : Bool) (s : State) : State :=
  if seenCycle ps late < s.pw.slotLen then trigInSeen s else { s with acq := { s.acq with pinNext := s.acq.pinNext + 1 } }

def softTrigger (s : State) : State := localTrigger s.pw.elapsed { host := true } s

/-! ### Lifts (R139–R142, R409) -/

/-- The first entry that has not started on seam i. -/
def nextLift (s : State) (i : Nat) : Option Entry := s.acq.fifo.find? (fun e => !(e.reps.getD i {}).started)

def herSeam (e : Entry) (i : Nat) : Bool := e.her && decide (i ≤ 1)

/-- First sample number and length of the window of an entry on a seam (R132, R407). -/
def winStart (e : Entry) (i : Nat) : Int :=
  if herSeam e i then 2 * ((e.named : Int) - herPre e.cfg) else 2 * (e.named : Int) - e.pre
def winLen (e : Entry) (i : Nat) : Nat := if herSeam e i then 2 * herLen e.cfg else e.pre + e.post

/-- Channels selected on the seam for the entry (R140, R410). -/
def selChans (e : Entry) (i : Nat) : List Nat :=
  (List.range 64).filter (fun k =>
    (regsGet e.cfg (0x08 + i) (0x044 + 4 * (k / 32))).testBit (k % 32))

/-- A flush of the channel comes with sample `n` (R102, R114, R115). -/
def flushesAt (s : State) (c n : Nat) : Bool :=
  decide (n % 2 = 0) && ((tagOf s (n / 2)).orb0 || (getChan s c).flushes.contains (n / 2))

/-- y of sample `m` of channel `c` is formed: the filter has taken the sample, or its slot is long past and it was never delivered. -/
def formedY (s : State) (c m : Nat) : Bool :=
  let x := getChan s c
  x.inq.all (fun p => decide (m < 2 * p.e + p.j)) && (decide (m / 2 + 6 < s.pw.elapsed) || x.taps.head?.any (fun t => decide (m ≤ t.n)))

/-- Every record of channel `c` up to sample `last` is final and stored: y of the sample after it is formed, unless a flush comes
before that sample, and no peak up to it is pending (R98, R100, R104). -/
def recordsFinal (s : State) (c last : Nat) : Bool :=
  formedY s c (if flushesAt s c (last + 1) then last else last + 1) && (getChan s c).peaks.all (fun p => decide (last < p.n))

/-- Sample `last` of channel `c` is in the ring: it has been written, or its slot is long past. -/
def inRing (s : State) (c last : Nat) : Bool := decide (last / 2 + 6 < s.pw.elapsed) || decide (last < (getConv s c).wr)

/-- The window is complete: its last sample is in the ring and every record in it, of any channel of the seam, is final (R139; DEDUCED,
log entry 16). -/
def winComplete (s : State) (e : Entry) (i : Nat) : Bool :=
  let last := (winStart e i + winLen e i - 1).toNat
  (List.range 64).all (fun k => inRing s (64 * i + k) last && recordsFinal s (64 * i + k) last)

/-- The ring index of sample `n` has been rewritten on some channel of seam i: sample n + 2,048 has been written (R141). -/
def rewritten (s : State) (i : Nat) (n : Int) : Bool :=
  (List.range 64).any (fun k => decide (n + 2049 ≤ (getConv s (64 * i + k)).wr))

/-- Ring groups that a window of `w` samples from `n0` touches. -/
def groupsOf (n0 w : Nat) : List Nat := (List.range (w / 4 + 2)).filterMap (fun k =>
  let g := n0 / 4 + k
  if 4 * g < n0 + w then some (4 * g) else none)

/-- Channels of the seam whose groups in the window have an error of kind `kind`, one entry per group (R129). A group that is not yet
complete is read from the write register without a check. -/
def groupErrs (s : State) (i n0 w kind : Nat) : List Nat :=
  (List.range 64).flatMap (fun k =>
    ((groupsOf n0 w).filter (fun g =>
      decide (g + 4 ≤ (getConv s (64 * i + k)).wr) && decide (ramGet 0 s.ringErr (groupKey g (64 * i + k)) = kind))).map (fun _ => k))

/-- A feature record as the lift reads it: the stored peak, or the record of an uncorrectable entry, whose bits as read are free values
(R103, log entry 52). -/
def featRead (s : State) (c e : Nat) : Option Peak :=
  let st := match ramFind s.feat (featKey e c) with
    | some p => if p.n / 2 = e then some p else none
    | none => none
  if ramGet 0 s.featErr (featKey e c) = 2 then
    let k := s.pw.freeCtr + 2 * featKey e c
    let a := (Config.freeValue k).toNat
    let b := (Config.freeValue (k + 1)).toNat
    let fine := fld b 1 10
    some { n := 2 * e + b2n (fine.testBit 9), energy := a + 0x20000 * (b % 2), fine := fine, pu := b.testBit 11, sat := b.testBit 12,
           bnd := b.testBit 13, swap := b.testBit 14, err := true }
  else st

/-- Feature records of a channel in the window, by slot. -/
def featsIn (s : State) (c : Nat) (n0 w : Nat) : List Peak :=
  (List.range (w / 2 + 2)).filterMap (fun k =>
    match featRead s c (n0 / 2 + k) with
    | some p => if n0 ≤ p.n ∧ p.n < n0 + w then some p else none
    | none => none)

/-- A selected channel is kept under R105. -/
def keptUnder (zs : Nat) (ws : List Nat) (fs : List Peak) : Bool :=
  decide (zs = 0) || fs.any (fun p => p.err || decide (zs ≤ p.energy)) || ws.any (fun w => w.testBit 14)

/-- One of `w` samples from `n0` on, every `st`-th, was taken on seam i while HOLD or UNCOMP was 1 (R87). -/
def holdIn (s : State) (i n0 w st : Nat) : Bool :=
  (phaseLevel s || !s.pll.lvls.isEmpty) && (List.range 64).any (fun k => (List.range w).any (fun j =>
    let n := n0 + st * j
    let c := instCycle s (64 * i + k) (n / 2) (n % 2)
    !instMissing s (64 * i + k) (n / 2) (n % 2) && phaseAt s ((tagOf s (n / 2)).cc0 + c)))

/-- A window of the entry on seam i includes a sample taken while HOLD or UNCOMP was 1: a heritage window holds sample 0 of each slot
(R87, R407). -/
def winHold (s : State) (e : Entry) (i : Nat) : Bool :=
  if herSeam e i then holdIn s i (winStart e i).toNat (herLen e.cfg) 2 else holdIn s i (winStart e i).toNat (winLen e i) 1

/-- What the lift copies (R140). -/
def liftWindow (s : State) (e : Entry) (i : Nat) : Window :=
  let n0 := (winStart e i).toNat
  let w := winLen e i
  let words (k : Nat) : List Nat := (List.range w).map (fun j => ringRead s (n0 + j) (64 * i + k))
  let sel := if herSeam e i then List.range 64 else selChans e i
  let all := sel.map (fun k => (k, words k, if herSeam e i then [] else featsIn s (64 * i + k) n0 w))
  let zs (k : Nat) : Nat := fld (regsGet e.cfg (chPage (64 * i + k)) (chOff (64 * i + k) 0x070)) 0 18
  let kept := all.filter (fun p => herSeam e i || keptUnder (zs p.1) p.2.1 p.2.2)
  { seq := e.seq, kept := kept.map (·.1), words := kept.map (fun p => (p.1, p.2.1)),
    feats := all.flatMap (fun p => (p.2.2.filter (fun f => f.err || decide (zs p.1 ≤ f.energy))).map (fun f => (p.1, f))),
    ecc := (groupErrs s i n0 w 2).dedup,
    hold := winHold s e i }

/-- Counts the ECC events of a lift (R103, R129): one for each group or entry with an error, although a lift reads the four words of a
group in as many core cycles (DESIGN CHOICE, log entry 54). -/
def liftEcc (e : Entry) (i : Nat) (s : State) : State :=
  let n0 := (winStart e i).toNat
  let w := winLen e i
  let s := countN (0x08 + i) 3 (groupErrs s i n0 w 1).length s
  let s := countN (0x08 + i) 4 (groupErrs s i n0 w 2).length s
  if herSeam e i then s
  else
    (List.range 64).foldl (fun s k =>
      (List.range ((w + 1) / 2 + 1)).foldl (fun s j =>
        let c := 64 * i + k
        let x := ramGet 0 s.featErr (featKey (n0 / 2 + j) c)
        if 2 * (n0 / 2 + j) < n0 + w ∧ x ≠ 0 then count (chPage c) x s else s) s) s

/-- A seam that lifts nothing for an entry reports at once (R141–R143). -/
def liftNothing (e : Entry) (i status tally : Nat) (s : State) : State :=
  countD (0x08 + i) tally e.seq (modRep e.seq i (fun r => { r with started := true, done := true, status := status }) s)

/-- Staging buffers of a seam that are not free (R139, R170). -/
def bufUsed (x : Seam) : Nat := x.bufs.length + x.lifts.length

/-- LIFT_START on seam i (R139, R141, R142). -/
def liftBegin (i : Nat) (s : State) : State :=
  match nextLift s i with
  | none => s
  | some e =>
    let x := getSeam s i
    if !s.pw.coreRun ∨ s.pw.elapsed ≤ e.created ∨ 2 ≤ bufUsed x ∨ !winComplete s e i then s
    else if rewritten s i (winStart e i) then liftNothing e i 0x43 0 s
    else if winStart e i < x.startN then liftNothing e i 0x41 1 s
    else
      let w := liftWindow s e i
      let s := liftEcc e i { s with pw := { s.pw with freeCtr := s.pw.freeCtr + 786432 } }
      let s := modSeam i (fun x => { x with lifts := x.lifts ++ [{ seq := e.seq, start := s.pw.cc, len := winLen e i, win := w }] }) s
      modRep e.seq i (fun r => { r with started := true, liftAt := some s.pw.cc, liftLen := winLen e i,
                                        phase := w.hold && !r.her }) s

/-- SEAM_STAT.PRIMED: 2,048 samples have been written since the seam's start (R142). -/
def primed (s : State) (i : Nat) : Bool :=
  (List.range 64).all (fun k => decide ((getSeam s i).startN + 2048 ≤ (getConv s (64 * i + k)).wr))

end Sys2Proof.Machine
end

