-- ==== Sys2Proof/Machine/Engine.lean ====
section
/-! DEFINITION. The engines (chapter 08): coding of a staged window, bales closed and cancelled, the verifier's rewrite, flushes, the
decoder test port. -/

namespace Sys2Proof.Machine

/-! ### Jobs (R160–R163, R106, R107) -/

/-- A feature record (R107). -/
def featRecord (named k : Nat) (p : Peak) : List Byte :=
  leBytes 8 (p.energy % 0x40000 + (p.fine % 0x400) * 2 ^ 18 + uns ((p.n / 2 : Nat) - (named : Int)) 9 * 2 ^ 28
    + (k % 64) * 2 ^ 37 + b2n p.pu * 2 ^ 43 + b2n p.sat * 2 ^ 44 + b2n p.bnd * 2 ^ 45 + b2n p.err * 2 ^ 46 + b2n p.swap * 2 ^ 47)

/-- Marks the jobs of one queue: CONT on all but the first, LAST on the last (R156, R157). The raw bales of an accept count as of one type
also after a fallback has made one of them type 1 (DESIGN CHOICE, log entry 75; R173 keeps the CONT of the rewritten bale). -/
def markJobs (l : List Job) : List Job :=
  mapIdxN (fun i j => { j with cont := decide (0 < i), last := decide (i + 1 = l.length) }) l

/-- At least one list. -/
def orEmpty {α : Type} (l : List (List α)) : List (List α) := if l.isEmpty then [[]] else l

/-- The coding settings of an entry on seam i (R169). -/
def cfgOf (e : Entry) (i : Nat) : CodeCfg := codeCfg (regsGet e.cfg (0x34 + i) 0x040)

/-- Samples per channel of an entry. -/
def widthOf (e : Entry) : Nat := e.pre + e.post

/-- The coded form of an image for an entry. -/
def codeImage (e : Entry) (i : Nat) (flushes : List Nat) (image : List Byte) : List Byte :=
  deflate (cfgOf e i) (widthOf e) flushes image

/-- The raw jobs of a staged window (R161). -/
def rawJobs (e : Entry) (i : Nat) (w : Window) : List Job :=
  if rawEn e.cfg false i then
    let c := cfgOf e i
    let groups := orEmpty (chunksOf (rawCount c.baleIn (widthOf e)) w.words.length w.words)
    markJobs (groups.map (fun g =>
      let image := rawImage (maskOf (g.map (·.1))) (maskOf w.kept) e.pre e.post c.plane c.chBlocks (g.map (·.2))
      { image := image, coded := codeImage e i [] image, ecc := g.any (fun p => w.ecc.contains p.1) }))
  else []

/-- The feature jobs of a staged window (R106). -/
def featJobs (e : Entry) (i : Nat) (w : Window) : List Job :=
  if featEn e.cfg false i then
    markJobs ((orEmpty (chunksOf 4096 w.feats.length w.feats)).map (fun g =>
      { coded := g.flatMap (fun p => featRecord e.named p.1 p.2), ecc := g.any (fun p => p.2.err) }))
  else []

/-! ### The test port's job (R176, R177) -/

/-- What the running test job produces: its input is inflated under CMP_EN (R176), with TP_LEN, CMP_EN, TP_EXP_LEN and TP_EXP_CRC as they
stand at its end (DESIGN CHOICE, log entry 76). -/
def tpResult (i : Nat) (s : State) : JobEnd :=
  let p := 0x34 + i
  inflateJob (ramBytes 0 (getSeam s i).tp.inp 0 (regF s p 0x084 0 14))
    (if regF s p 0x080 1 1 = 1 then some (regF s p 0x088 0 16, regAt s p 0x08C) else none)

/-- The registers of the port hold the output `out`. -/
def tpShow (out : List Byte) (err pos : Nat) (t : TestPort) : TestPort :=
  { t with running := false, done := true, err := err, outLen := out.length, outCrc := crc32 out, errPos := pos, out := out.take 4096 }

/-- The engine starts a bale: a running test job ends aborted, with what it has produced so far, whose length the spec does not give
(R177; a free value, log entry 56). -/
def tpAbort (i : Nat) (s : State) : State :=
  if (getSeam s i).tp.running then
    let out := (tpResult i s).out
    let n := (Config.tpProduced (6 * s.pw.cc + i)).toNat % (out.length + 1)
    count (0x34 + i) 1 (modSeam i (fun x => { x with tp := { tpShow (out.take n) 0 0 x.tp with aborted := true } }) s)
  else s

/-! ### Starting on a buffer (R170) -/

/-- The engine starts on its head buffer unless a heritage window waits there for the formatter (R409). -/
def engineStart (i : Nat) (s : State) : State :=
  let x := getSeam s i
  match x.started, x.bufs with
  | false, w :: _ =>
    (match findEntry s w.seq with
     | none => s
     | some e =>
       if herSeam e i then s
       else
         let s := modSeam i (fun x => { x with started := true, raw := rawJobs e i w, feat := featJobs e i w, flushing := false }) s
         tpAbort i (modRep e.seq i (fun r => { r with engAt := some s.pw.cc }) s))
  | _, _ => s

/-- LIFT_END: the window of the oldest lift is staged (R140). -/
def liftEnd (i : Nat) (s : State) : State :=
  match (getSeam s i).lifts with
  | [] => s
  | l :: t =>
    if s.pw.cc < l.start + l.len then s
    else engineStart i (modSeam i (fun x => { x with lifts := t, bufs := x.bufs ++ [l.win] }) s)

/-! ### The bale in progress -/

def jobQ (i : Nat) (k : BaleKind) : Nat := match k with | .raw => i | .feat => 6 + i

/-- Seam and kind of the engine's writer on queue q ≤ 11. -/
def jobOf (q : Nat) : Nat × BaleKind := if q < 6 then (q, .raw) else (q - 6, .feat)

def jobsOf (x : Seam) (k : BaleKind) : List Job := match k with | .raw => x.raw | .feat => x.feat

def modJobs (i : Nat) (k : BaleKind) (f : List Job → List Job) (s : State) : State :=
  modSeam i (fun x => match k with | .raw => { x with raw := f x.raw } | .feat => { x with feat := f x.feat }) s

def modHead (f : Job → Job) : List Job → List Job
  | [] => []
  | h :: t => f h :: t

/-- The bale type of a job (R158, R173, R178). -/
def jobType (e : Entry) (i : Nat) (k : BaleKind) (j : Job) : Nat :=
  match k with
  | .feat => 2
  | .raw => if j.fallback || (cfgOf e i).stored then 1 else 0

/-- The whole bale of a job with its final header and trailer (R156, R157, R159). -/
def jobBale (e : Entry) (i : Nat) (k : BaleKind) (hold : Bool) (j : Job) : List Byte :=
  mkBale (jobType e i k j) i j.last e.seq
    (e.slot % 4096 + 0x1000 * b2n hold + 0x2000 * b2n j.ecc + 0x4000 * b2n j.fallback + 0x8000 * b2n j.cont) e.orbit j.coded

/-- Bytes that the DATA words of a bale of `n` bytes carry; the END word carries the rest. -/
def dataBytes (n : Nat) : Nat := 4 * ((n - 1) / 4)

/-- The bale, entry and job that the engine has in progress on a queue. -/
def engineBale (s : State) (i : Nat) (k : BaleKind) : Option (Entry × Job × List Byte) :=
  let x := getSeam s i
  match x.started, jobsOf x k, x.bufs with
  | true, j :: _, w :: _ => (findEntry s w.seq).map (fun e => (e, j, jobBale e i k w.hold j))
  | _, _, _ => none

/-- Cells of the bale in progress of a queue. -/
def curCells (s : State) (q : Nat) : Nat :=
  match (getQ s q).cur with
  | some b => cellsOf b.bytes.length
  | none => 0

/-! ### What the coder has taken (R170, R171) -/

/-- Payload bytes of a bale that its DATA words have carried. -/
def paidBytes (j : Job) : Nat := min j.coded.length (j.sent - 16)

/-- Marks of a raw job's stream: a fallback rewrite is one of stored blocks. -/
def jobMarks (e : Entry) (i : Nat) (j : Job) : List (Nat × Nat) :=
  if j.fallback then codeMarks j.image.toArray j.image true false 1 (blocksOf j.image.length [] j.image.length 0) [] 0
  else deflateMarks (cfgOf e i) (widthOf e) j.flushes j.image

/-- Where the blocks of an image end (R165). -/
def blockEnds (e : Entry) (i : Nat) (j : Job) : List Nat :=
  let n := j.image.length
  let cuts := (if (cfgOf e i).chBlocks then chCuts n (widthOf e) else []) ++ j.flushes
  (blocksOf n cuts n 0).map (·.2)

/-- Taken image bytes `n` stand at a block's end, so that the block in progress is empty (R168). -/
def flushAtEnd (e : Entry) (i : Nat) (j : Job) (n : Nat) : Bool := decide (n = 0) || (blockEnds e i j).contains n

/-- The job with a flush once `n` image bytes are taken: the block in progress ends there, or after the next byte if it would be empty
(R168). -/
def flushJob (e : Entry) (i : Nat) (j : Job) (n : Nat) : Job :=
  let cut := if flushAtEnd e i j n then n + 1 else n
  { j with flushes := j.flushes ++ [cut], coded := codeImage e i (j.flushes ++ [cut]) j.image, taken := n }

/-- The words already presented stand under a flush at `n`. -/
def flushFits (e : Entry) (i : Nat) (j : Job) (n : Nat) : Bool :=
  decide ((flushJob e i j n).coded.take (paidBytes j) = j.coded.take (paidBytes j)) && decide (paidBytes j ≤ (flushJob e i j n).coded.length)

/-- Image bytes that the coder must have taken for the bits of its presented words. -/
def takenBits (e : Entry) (i : Nat) (j : Job) : Nat :=
  max j.taken (if j.sent ≤ 16 then 0
    else ((jobMarks e i j).find? (fun m => decide (8 * paidBytes j ≤ m.1))).elim j.image.length (·.2))

/-- Image bytes that the coder must have taken to have presented its words: with fewer, a flush could still end the block in progress
there, and the words would be others. A block's type, its LEN and its BFINAL fix its end (R165, R166; DEDUCED, log entry 55). -/
def takenLow (e : Entry) (i : Nat) (j : Job) : Nat :=
  let t := takenBits e i j
  if j.fallback then t
  else (((List.range (j.image.length - t)).map (fun k => t + k)).find? (flushFits e i j)).getD j.image.length

/-- Image bytes that it may have taken: coded items wait in the accumulator of 64 bits, each whole (R171). -/
def takenHigh (e : Entry) (i : Nat) (j : Job) : Nat :=
  max (takenLow e i j) (((jobMarks e i j).filter (fun m => decide (m.1 ≤ 8 * paidBytes j + 64))).getLast?.elim 0 (·.2))

/-- The accumulator's content once `n` image bytes are taken: the coded bits not yet presented (R171). -/
def accumulator (e : Entry) (i : Nat) (j : Job) (n : Nat) : List Bool :=
  let done := ((jobMarks e i j).filter (fun m => decide (m.2 ≤ n))).getLast?.elim 0 (·.1)
  ((j.coded.flatMap byteBits).take done).drop (8 * paidBytes j)

/-- CMP_IN: image bytes coded, with those of the bale in progress (R178). -/
def codedNow (s : State) (i : Nat) : Nat :=
  (getSeam s i).inBytes + (match engineBale s i .raw with | some (e, j, _) => takenLow e i j | none => 0)

/-- FLUSH reads 1 until its block has ended: the byte after which it ends has been taken (R168). -/
def flushSync (i : Nat) (s : State) : State :=
  if (getSeam s i).flushing then
    match engineBale s i .raw with
    | some (e, j, _) => modSeam i (fun x => { x with flushing := decide (takenLow e i j < j.flushes.getLast?.getD 0) }) s
    | none => s
  else s

/-- A cell taken by the accept of the engine's bale is charged to it (R226). -/
def charge (seq q before : Nat) (s : State) : State :=
  if before < curCells s q then tookCells seq q (curCells s q - before) s else s

/-- The engine presents its next DATA word on queue q ≤ 11 (R170, R187, R190). -/
def engineWord (q : Nat) (s : State) : State :=
  let i := (jobOf q).1
  let k := (jobOf q).2
  match engineBale s i k with
  | none => s
  | some (e, j, l) =>
    if (getQ s q).held.isSome ∨ dataBytes l.length ≤ j.sent then s
    else
      let n := curCells s q
      let s := wrData q (BitVec.ofNat 32 (wordAt l j.sent)) s
      flushSync i (charge e.seq q n (modJobs i k (modHead (fun j => { j with sent := j.sent + 4 })) s))

/-! ### Closing (R172, R175) -/

/-- The entry's seam reports a closed bale. -/
def closedRep (k : BaleKind) (n : Nat) (j : Job) (r : Report) : Report :=
  { r with raw := r.raw + (match k with | .raw => 1 | .feat => 0), feat := r.feat + (match k with | .raw => 0 | .feat => 1),
           bytes := r.bytes + n, ecc := r.ecc || j.ecc, fallback := r.fallback || j.fallback,
           status := if r.fallback || j.fallback then 0x44 else r.status }

/-- The job's bale has closed: its counts, and the buffer's release once both lists are empty. -/
def jobClosed (i : Nat) (k : BaleKind) (e : Entry) (j : Job) (n : Nat) (s : State) : State :=
  let s := modRep e.seq i (closedRep k n j) (modJobs i k List.tail s)
  let s := match k with
    | .raw => modSeam i (fun x => { x with flushing := false, inBytes := (x.inBytes + j.image.length) % 2 ^ 64,
                                           outBytes := (x.outBytes + j.coded.length) % 2 ^ 64 }) s
    | .feat => s
  let x := getSeam s i
  if x.raw.isEmpty && x.feat.isEmpty then
    let s := modSeam i (fun x => { x with started := false, bufs := x.bufs.tail }) s
    engineStart i (modRep e.seq i (fun r => { r with done := true }) s)
  else if (jobsOf x k).isEmpty then s
  else tpAbort i s

/-- The final header words of a bale `l` replace its first ones (R172, R188). -/
def finalHdr (q : Nat) (l : List Byte) (s : State) : State :=
  (List.range 4).foldl (fun s h => wrHdr q h (BitVec.ofNat 32 (wordAt l (4 * h))) s) s

/-- BALE_CLOSE: once its DATA words are in, the bale's final header words and then its END word (R172, R188). -/
def engineClose (i : Nat) (k : BaleKind) (s : State) : State :=
  let q := jobQ i k
  match engineBale s i k with
  | none => s
  | some (e, j, l) =>
    if (getQ s q).held.isSome ∨ j.sent < dataBytes l.length then s
    else
      let w := BitVec.ofNat 32 (wordAt l j.sent)
      let v := (l.length - j.sent) % 4
      let n := curCells s q
      let s := finalHdr q l s
      if wordOk s q then
        let need := needsCell (getQ s q)
        let s := jobClosed i k e j l.length (wrEnd q w v s)
        if need then tookCells e.seq q 1 s else s
      else charge e.seq q n (wrEnd q w v s)

/-- The held word of queue q ≤ 11 completes; a held END word closes the bale (R190). -/
def engineHeld (q : Nat) (s : State) : State :=
  let i := (jobOf q).1
  let k := (jobOf q).2
  match engineBale s i k, (getQ s q).held with
  | some (e, j, l), some h =>
    let need := needsCell (getQ s q)
    let s := heldComplete q s
    if (getQ s q).held.isSome then s
    else
      let s := if need then tookCells e.seq q 1 s else s
      if h.fin.isSome then jobClosed i k e j l.length s else s
  | _, _ => heldComplete q s

/-- HDR word i of the engine's bale: its final header word (R172, R187). -/
def engineHdr (q h : Nat) (s : State) : State :=
  match engineBale s (jobOf q).1 (jobOf q).2 with
  | none => s
  | some (_, _, l) => wrHdr q h (BitVec.ofNat 32 (wordAt l (4 * h))) s

/-- A job starts again from its first image byte, with no flush (R168). -/
def jobAgain (e : Entry) (i : Nat) (j : Job) : Job :=
  { j with sent := 0, taken := 0, flushes := [], coded := if j.flushes.isEmpty then j.coded else codeImage e i [] j.image }

/-- The bale on queue q ≤ 11 is given up: its cells go back, a held word is dropped, a pending flush ends, and the engine starts it again
from its first byte. -/
def engineRewind (q : Nat) (s : State) : State :=
  let i := (jobOf q).1
  let k := (jobOf q).2
  match engineBale s i k with
  | none => cancelBale q s
  | some (e, _, _) =>
    let n := curCells s q
    let s := modQ q (fun x => { x with held := none }) (cancelBale q s)
    let s := modEntry e.seq (fun e => { e with took := ramPut 0 e.took q (ramGet 0 e.took q - n) }) s
    let s := modJobs i k (modHead (jobAgain e i)) s
    match k with
    | .raw => modSeam i (fun x => { x with flushing := false }) s
    | .feat => s

/-- CANCEL on queue q ≤ 11: with no bale in progress it has no effect (R189). -/
def engineCancel (q : Nat) (s : State) : State := if (getQ s q).cur.isNone then s else engineRewind q s

/-- The codes that the verifier reports (R174). -/
def verifyCode (code : Nat) : Bool := decide (0x20 ≤ code) && decide (code ≤ 0x25)

/-- VERIFY_ERROR: the raw bale in progress is cancelled and rewritten in stored blocks (R173). The image bytes it had coded stay counted
(DEDUCED, log entry 57). -/
def verifyFail (i code : Nat) (s : State) : State :=
  match engineBale s i .raw with
  | none => s
  | some (e, j, _) =>
    if j.fallback || !verifyCode code then s
    else
      let n := takenLow e i j
      let s := modJobs i .raw (modHead (fun j => { j with coded := deflateStored j.image, fallback := true, flushes := [] })) (engineRewind i s)
      countD (0x34 + i) 0 e.seq (modSeam i (fun x => { x with lastErr := code, flushing := false, inBytes := (x.inBytes + n) % 2 ^ 64 }) s)

/-- The image bytes that the coder has taken at a FLUSH, `taken` by the command: a count between its bounds under which the presented
words stand (R171; DEDUCED, log entry 55). -/
def takenAt (e : Entry) (i : Nat) (j : Job) (taken : Nat) : Nat :=
  let lo := takenLow e i j
  let hi := takenHigh e i j
  let t := max lo (min taken hi)
  (((List.range (hi + 1 - t)).map (fun k => t + k)).find? (flushFits e i j)).getD lo

/-- CMP_FLUSH with `taken` image bytes taken so far (R168). With the last image byte taken a flush has nothing to end. -/
def flushBale (i taken : Nat) (s : State) : State :=
  match engineBale s i .raw with
  | none => s
  | some (e, j, _) =>
    let n := takenAt e i j taken
    if j.fallback || decide (j.image.length ≤ n) then s
    else modSeam i (fun x => { x with raw := modHead (fun j => flushJob e i j n) x.raw, flushing := flushAtEnd e i j n }) s

/-! ### The decoder test port (R176) -/

/-- START: the job runs when the engine is free; while one runs the write is discarded. -/
def tpStartJob (i : Nat) (s : State) : State :=
  modSeam i (fun x =>
    if x.tp.running then x
    else { x with tp := { x.tp with running := true, done := false, aborted := false, err := 0, ptr := 0 } }) s

/-- A write of TP_IN while no job runs. -/
def tpIn (i : Nat) (w : Word) (s : State) : State :=
  modSeam i (fun x =>
    if x.tp.running then x
    else { x with tp := { x.tp with inp := ramPutBytes 0 x.tp.inp x.tp.ptr (leBytes 4 w.toNat), ptr := (x.tp.ptr + 4) % 8192,
                                    stepI := some s.pw.cc } }) s

/-- TP_JOB_DONE: the decoder has ended; it runs only while the engine has no bale in progress (R177). -/
def tpDone (i : Nat) (s : State) : State :=
  let x := getSeam s i
  if !x.tp.running || x.started then s
  else
    let r := tpResult i s
    modSeam i (fun x => { x with tp := tpShow r.out r.err r.pos x.tp }) s

/-- A read of TP_OUT: the word at TP_OUT_PTR, which advances. -/
def tpOut (i : Nat) (s : State) : Nat × State :=
  let t := (getSeam s i).tp
  (wordAt t.out t.outPtr, modSeam i (fun x => { x with tp := { x.tp with outPtr := (x.tp.outPtr + 4) % 4096, stepO := some s.pw.cc } }) s)

/-- The page soft reset of a compressor page (R180). -/
def cmpReset (i : Nat) (s : State) : State :=
  modSeam i (fun x => { x with lastErr := 0, tp := { inp := x.tp.inp, out := x.tp.out, outLen := x.tp.outLen, outCrc := x.tp.outCrc, errPos := x.tp.errPos } }) s

end Sys2Proof.Machine
end

