-- ==== Sys2Proof/Machine/Heritage.lean ====
section
/-! DEFINITION. Heritage readout (chapter 21): the formatter of type-7 bales. -/

namespace Sys2Proof.Machine

/-- A heritage channel of an entry (R410). -/
def herChan (r : Ram Tri) (c : Nat) : Bool := (regsGet r 0x68 (0x048 + 4 * (c / 16))).testBit (c % 16)

/-- The forerunner order of channels (R412). -/
def herOrder : List Nat :=
  (List.range 8).flatMap (fun g => (List.range 8).flatMap (fun j => [16 * g + j, 16 * g + j + 8]))

/-- The data word of sample `i` of channel `c` (R411). -/
def herWord (c i w : Nat) : Nat := w % 0x4000 / 4 + 0x1000 * (w / 0x4000 % 2) + 0x10000 * (i % 8) + 0x80000 * (c % 128) + 0x40000000

/-- The staged window of an entry on a seam. -/
def stagedOf (s : State) (i seq : Nat) : Option Window := (getSeam s i).bufs.find? (fun w => w.seq == seq)

/-- Words of channel `c` in its seam's staged window. -/
def stagedWords (s : State) (seq c : Nat) : List Nat :=
  match stagedOf s (c / 64) seq with
  | some w => (w.words.find? (fun p => p.1 == c % 64)).elim [] (·.2)
  | none => []

/-- Seam i of the entry has lifted, or has been left with nothing lifted (R409, R413). -/
def herLifted (s : State) (e : Entry) (i : Nat) : Bool :=
  let r := e.reps.getD i {}
  (r.started && r.liftAt.isNone) || (stagedOf s i e.seq).isSome

/-- Seam i has nothing lifted for the entry (R413). -/
def herLost (e : Entry) (i : Nat) : Bool := (e.reps.getD i {}).status != 0x40

/-- The next heritage accept to format, in ascending sequence (R414). -/
def nextHer (s : State) : Option Entry := s.acq.fifo.find? (fun e => e.her && !e.hrep.done)

/-- The heritage window includes a sample taken under HOLD or UNCOMP (R87): what the lifts found, and the window of a seam that lifted
nothing. -/
def herHold (s : State) (e : Entry) : Bool :=
  [0, 1].any (fun i => match stagedOf s i e.seq with | some w => w.hold | none => winHold s e i)

/-- A ring group read for the bale had an uncorrectable error (R157, R411): a lift reads every channel of its seam. -/
def herEcc (s : State) (e : Entry) : Bool :=
  [0, 1].any (fun i => match stagedOf s i e.seq with | some w => !w.ecc.isEmpty | none => false)

/-- The payload of a heritage bale, with the COUNT given (R411–R413). -/
def herPayload (s : State) (e : Entry) (err hold ecc : Bool) (count : Nat) : List Byte :=
  let n := herLen e.cfg
  let nch := if err then 0 else herN e.cfg
  let head := e.slot % 4096 + 0x1000 * (n % 16) + 0x10000 * nch + 0x1000000 * b2n err + 0x2000000 * b2n hold
    + 0x4000000 * b2n ecc + 0x80000000
  let data := if err then [] else
    (herOrder.filter (herChan e.cfg)).flatMap (fun c =>
      let ws := stagedWords s e.seq c
      (List.range n).map (fun i => herWord c i (ws.getD (2 * i) 0)))
  (head :: data ++ [count % 0x40000000 + 0xC0000000]).flatMap (leBytes 4)

/-- The heritage bale has closed: entry 6 reports, both staging buffers are free, and the formatter is free (R409, R415). -/
def herClosed (s : State) : State :=
  let seq := s.her.seq
  let n := s.her.bale.length
  let s := { s with her := { s.her with fmt := false, bale := [], sent := 0, formed := false } }
  match findEntry s seq with
  | none => s
  | some e =>
    let drop (i : Nat) (s : State) : State := modSeam i (fun x => { x with bufs := x.bufs.filter (fun w => w.seq != seq) }) s
    let stat := accStatus [(e.reps.getD 0 {}).status, (e.reps.getD 1 {}).status]
    let s := drop 1 (drop 0 s)
    let s := modRep seq 1 (fun r => { r with done := true }) (modRep seq 0 (fun r => { r with done := true }) s)
    let s := modEntry seq (fun e => { e with hrep := { e.hrep with done := true, status := stat, raw := 1, bytes := n } }) s
    engineStart 1 (engineStart 0 s)

/-- HERITAGE_FORMAT_START (R409–R413): the bale of the next heritage accept is formatted, and its words follow one by one. Its header word
stands; the COUNT of its end word is that of the counter when the word is formed. -/
def herFormat (s : State) : State :=
  match nextHer s with
  | none => s
  | some e =>
    if s.her.fmt ∨ !s.pw.coreRun ∨ !herLifted s e 0 ∨ !herLifted s e 1 then s
    else
      let err := herLost e 0 || herLost e 1
      let hold := herHold s e
      let ecc := herEcc s e
      let cnt := (s.her.cnt + 1) % 0x40000000
      let bale := mkBale 7 7 true e.seq (e.slot % 4096 + 0x1000 * b2n hold + 0x2000 * b2n ecc) e.orbit (herPayload s e err hold ecc cnt)
      let started (r : Report) : Report := { r with engAt := some s.pw.cc }
      let s := modRep e.seq 1 started (modRep e.seq 0 started s)
      let s := modEntry e.seq (fun e => { e with hrep := { e.hrep with phase := hold && !err, ecc := ecc } }) s
      let s := { s with her := { s.her with fmt := true, lastErr := err, seq := e.seq, bale := bale, sent := 0, formed := false } }
      if err then count 0x68 0 s else s

/-- The bale with its end word formed at counter value `cnt`, and the trailer that follows from it. -/
def herSealed (cnt : Nat) (l : List Byte) : List Byte :=
  let d := l.take (l.length - 8) ++ leBytes 4 (cnt % 0x40000000 + 0xC0000000)
  d ++ leBytes 4 (crc32 d)

/-- The end word is formed when the formatter comes to it: the counter advances, once for each accept (R414). -/
def herForm (s : State) : State :=
  if s.her.formed ∨ s.her.sent + 8 ≠ s.her.bale.length then s
  else
    let cnt := (s.her.cnt + 1) % 0x40000000
    let s := { s with her := { s.her with formed := true, cnt := cnt, bale := herSealed cnt s.her.bale } }
    if cnt = 0 then count 0x68 1 s else s

/-- The formatter presents its next DATA word on Q26 (R190, R409). -/
def herNext (s : State) : State :=
  if s.her.fmt = false ∨ (getQ s 26).held.isSome ∨ dataBytes s.her.bale.length ≤ s.her.sent then s
  else
    let s := herForm s
    let n := curCells s 26
    let s := wrData 26 (BitVec.ofNat 32 (wordAt s.her.bale s.her.sent)) s
    charge s.her.seq 26 n { s with her := { s.her with sent := s.her.sent + 4 } }

/-- HDR word `h` of the heritage bale: its final header word (R188). -/
def herHdr (h : Nat) (s : State) : State :=
  if s.her.fmt then wrHdr 26 h (BitVec.ofNat 32 (wordAt s.her.bale (4 * h))) s else s

/-- The heritage bale's END word, once its DATA words are in: with it the bale closes (R188, R409). -/
def herEnd (s : State) : State :=
  if s.her.fmt = false ∨ (getQ s 26).held.isSome ∨ s.her.sent < dataBytes s.her.bale.length then s
  else
    let w := BitVec.ofNat 32 (wordAt s.her.bale s.her.sent)
    let v := (s.her.bale.length - s.her.sent) % 4
    let n := curCells s 26
    let s := finalHdr 26 s.her.bale s
    if wordOk s 26 then
      let need := needsCell (getQ s 26)
      let s := wrEnd 26 w v s
      herClosed (if need then tookCells s.her.seq 26 1 s else s)
    else charge s.her.seq 26 n (wrEnd 26 w v s)

/-- The held word of Q26 completes; a held END word closes the bale (R190). -/
def herHeld (s : State) : State :=
  match (getQ s 26).held with
  | none => heldComplete 26 s
  | some h =>
    let need := needsCell (getQ s 26)
    let s := heldComplete 26 s
    if (getQ s 26).held.isSome then s
    else
      let s := if need then tookCells s.her.seq 26 1 s else s
      if h.fin.isSome then herClosed s else s

/-- CANCEL on Q26 (R189): the cells of the bale in progress go back, and the formatter presents it again from its first word (DEDUCED, log
entry 58). With no bale in progress it has no effect. -/
def herRewind (s : State) : State :=
  if (getQ s 26).cur.isNone then s
  else
    let n := curCells s 26
    let s := modQ 26 (fun x => { x with held := none }) (cancelBale 26 s)
    let s := modEntry s.her.seq (fun e => { e with took := ramPut 0 e.took 26 (ramGet 0 e.took 26 - n) }) s
    { s with her := { s.her with sent := 0 } }

/-- CANCEL on a queue with a fixed writer of whole bales, Q12–Q15: the words of its bale in progress go, and the writer presents that bale
again from its first word (R189; DEDUCED, log entry 58). -/
def writerCancel (q : Nat) (s : State) : State :=
  match (getQ s q).waiting, (getQ s q).cur with
  | b :: _, some c =>
    if b.ord = 0 then cancelBale q s
    else
      let l := c.bytes ++ b.bytes
      modQ q (fun x => { x with waiting := { b with bytes := l, ord := 0 } :: x.waiting }) (cancelBale q s)
  | _, _ => cancelBale q s

end Sys2Proof.Machine
end

