-- ==== Sys2Proof/Machine/Uplink.lean ====
section
/-! DEFINITION. The uplink framer (chapter 10): grants (R193–R198), caravan and tower frames, marker blocks, the probe echo, credits. -/

namespace Sys2Proof.Machine

/-! ### Group counts and frame numbers -/

def gOf (s : State) (t : Trunk) : Nat := match t with | .a => s.frm.gA | .b => s.frm.gB
def fOf (s : State) (t : Trunk) : Nat := match t with | .a => s.frm.fA | .b => s.frm.fB

def setG (t : Trunk) (v : Nat) (s : State) : State :=
  match t with
  | .a => { s with frm := { s.frm with gA := v } }
  | .b => { s with frm := { s.frm with gB := v } }

def setF (t : Trunk) (v : Nat) (s : State) : State :=
  match t with
  | .a => { s with frm := { s.frm with fA := v } }
  | .b => { s with frm := { s.frm with fB := v } }

/-- Data lanes in use under UPF_CTL.DLANES (R232). -/
def lanesUnder (r : Ram Tri) : Nat :=
  let d := fld (regsGet r 0x44 0x040) 0 2
  if d = 0 then 4 else if d = 1 then 2 else 1

def dataLanes (s : State) : Nat := lanesUnder s.fab.regs

/-- LN_STAT.VDDL_OK (R440). -/
def vddlOk (s : State) (t : Trunk) : Bool := match t with | .a => s.pw.vddlA | .b => s.pw.vddlB

/-- Frames can leave on the trunk that holds ACTIVE: CK_CORE and the crystal run, and the trunk is powered and in SERVICE (R16, R17,
R211, R243). -/
def canSend (s : State) : Option Trunk :=
  match coreHolder s with
  | some t => if s.pw.coreRun && s.pw.xtal && !s.pw.por && vddlOk s t && decide ((getLn s t).st = 6) then some t else none
  | none => none

/-! ### Readable queues (R193–R195) -/

/-- Q12's head is gated (R194). -/
def gated (s : State) : Bool :=
  match (getQ s 12).ready with
  | b :: _ => manifestCounts b.bytes && balesUnsent s b.seq
  | [] => false

def launchWait (x : Queue) (q : Nat) : Bool := isTimed q && !x.ready.isEmpty && !x.released && decide (x.sent = 0)

def priOf (s : State) (q : Nat) : Nat := if q = 12 then 7 else qReg s q 4 0 3

def readable (s : State) (q : Nat) : Bool :=
  let x := getQ s q
  framerQueue s q && !x.ready.isEmpty && !(decide (q = 12) && gated s) && !launchWait x q

/-- The queue of the next grant: of the highest level, the queue of the level's last grant while its bale is partly sent, else round
robin after that queue (R193). -/
def grantQ (s : State) : Option Nat :=
  let qs := (List.range 32).filter (readable s)
  if qs.isEmpty then none
  else
    let lvl := (qs.map (priOf s)).foldl max 0
    let top := qs.filter (fun q => priOf s q == lvl)
    let after := ramGet 0 s.ser.last lvl
    if 0 < after ∧ top.contains (after - 1) = true ∧ 0 < (getQ s (after - 1)).sent then some (after - 1)
    else
      match top.find? (fun q => decide (after ≤ q)) with
      | some q => some q
      | none => top.head?

/-! ### Grants (R193, R196, R198, R214) -/

/-- A grant: queue, bytes, and the marks SOB, EOB, RPL. -/
structure Grant where
  q   : Nat := 0
  l   : List Byte := []
  sob : Bool := false
  eob : Bool := false
  rpl : Bool := false
  own : Option Bale := none      -- the queue's head, when the grant takes its last byte
  deriving DecidableEq, Repr, Inhabited

/-- The bale of the replay list's head with its queue. -/
def replayHead (s : State) : Option (Nat × Bale) :=
  match s.ser.rlist with
  | [] => none
  | id :: _ =>
    (s.ser.qs.zipIdx).findSome? (fun p =>
      match p.1.retained.find? (fun r => r.bale.id == id) with
      | some r => some (p.2, r.bale)
      | none =>
        match p.1.ready with
        | b :: _ => if b.id = id then some (p.2, b) else none
        | [] => none)

/-- The replayed bale has been sent whole: its retention starts again, and a partly sent head leaves its queue. -/
def replayed (q id : Nat) (s : State) : State :=
  let s := { s with ser := { s.ser with rlist := s.ser.rlist.tail, rsent := 0 } }
  if (getQ s q).retained.any (fun r => r.bale.id == id) then
    let till := retainTill s
    modQ q (fun x => { x with retained := x.retained.map (fun r =>
      if r.bale.id = id then { r with sent := s.pw.elapsed, till := till } else r) }) s
  else headSent q s

/-- Takes up to 88 bytes of the replay list's head. -/
def takeReplay (q : Nat) (b : Bale) (s : State) : Grant × State :=
  let at0 := s.ser.rsent
  let l := eccBytes s b.id at0 ((b.bytes.drop at0).take 88)
  let fin := decide (b.bytes.length ≤ at0 + 88)
  let s := eccRead q b at0 l.length s
  let kept := (getQ s q).retained.any (fun r => r.bale.id == b.id)
  (⟨q, l, decide (at0 = 0), fin, true, if fin && !kept then some b else none⟩,
   if fin then replayed q b.id s else { s with ser := { s.ser with rsent := at0 + 88 } })

/-- Takes up to 88 bytes of the head bale of queue `q`. -/
def takeHead (q : Nat) (b : Bale) (s : State) : Grant × State :=
  let at0 := (getQ s q).sent
  let l := eccBytes s b.id at0 ((b.bytes.drop at0).take 88)
  let fin := decide (b.bytes.length ≤ at0 + 88)
  let s := { s with ser := { s.ser with last := ramPut 0 s.ser.last (priOf s q) (q + 1) } }
  let n := s.ser.ords + 1
  let s := if at0 = 0 then modQ q (fun x => { x with ready := modHeadOrd n x.ready }) { s with ser := { s.ser with ords := n } } else s
  let s := eccRead q b at0 l.length s
  (⟨q, l, decide (at0 = 0), fin, false, if fin then (getQ s q).ready.head? else none⟩,
   if fin then headSent q s else modQ q (fun x => { x with sent := at0 + 88 }) s)
where
  modHeadOrd (n : Nat) : List Bale → List Bale
    | [] => []
    | h :: t => { h with ord := n } :: t

/-- Serai grants nothing from the move start on until the check passes; before the move start the old holder goes on as it did (R280,
R282). -/
def grantsStop (s : State) : Bool := s.sup.checking && (!s.sup.moving || !s.sup.passed)

/-- Serai's grant for one frame. -/
def takeGrant (s : State) : Grant × State :=
  if grantsStop s then ({}, s)
  else
    match (if s.ser.replaying then replayHead s else none) with
    | some (q, b) => takeReplay q b s
    | none =>
      match grantQ s with
      | none => ({}, s)
      | some q =>
        match (getQ s q).ready with
        | b :: _ => takeHead q b s
        | [] => ({}, s)

/-! ### Caravan frames (R211–R213) -/

/-- CVAL for a frame number (R213). -/
def cvalOf (s : State) (csel : Nat) : Nat :=
  if csel = 0 then s.frm.adv % 32768 else if csel = 1 then s.frm.x % 32768
  else if csel = 2 then (64 - s.acq.fifo.length) % 128 + 0x80 * b2n s.frm.unfit + 0x100 * b2n s.ser.replaying
  else (max 0 (poolNow s - (oCells s : Int))).toNat % 0x2000

def frameHeader (g : Grant) (csel cval : Nat) : Nat :=
  g.q % 32 + 0x20 * b2n g.sob + 0x40 * b2n g.eob + 0x80 * b2n g.rpl + 0x100 * g.l.length + 0x8000 * csel + 0x20000 * (cval % 32768)

/-- The 96 bytes of a caravan frame. -/
def caravanBytes (g : Grant) (csel cval : Nat) : List Byte :=
  withTrailer (leBytes 4 (frameHeader g csel cval) ++ g.l ++ List.replicate (88 - g.l.length) 0)

/-- The words of a frame that each of `n` data lanes carries: word j goes to lane j mod n (R211). -/
def laneShares (n : Nat) (l : List Byte) : List (List Byte) :=
  (List.range n).map (fun i => ((List.range 24).filter (fun j => j % n == i)).flatMap (fun j => (l.drop (4 * j)).take 4))

/-- Group `k` of each share: 24 bytes (R211). -/
def shareGroups (shares : List (List Byte)) (k : Nat) : List (List Byte) := shares.map (fun l => (l.drop (24 * k)).take 24)

/-- Slots that a caravan frame takes on `n` data lanes (R211). -/
def framePeriod (n : Nat) : Nat := 4 / n

/-- A frame in progress is cut off: a bale whose last byte was in it is partly sent again, at the head of its queue, with its launch
released as it was (R195, R198, R280). -/
def unsend (s : State) : State :=
  if s.frm.busyTo ≤ s.pw.elapsed then s
  else
    let s1 := { s with frm := { s.frm with shares := [], laneGrp := [], last := none, busyTo := s.pw.elapsed } }
    match s.frm.last with
    | none => s1
    | some (q, b) =>
      seraiSync (modQ q (fun x => { x with
        ready := b :: (match x.ready with | h :: t => { h with rel := x.released } :: t | [] => []), released := isTimed q,
        sent := (b.bytes.length - 1) / 88 * 88, retained := x.retained.filter (fun r => r.bale.id != b.id) }) s1)

/-- CARAVAN_FRAME_SEND at a frame start of the active trunk. -/
def sendCaravan (s : State) : State :=
  match canSend s with
  | none => s
  | some t =>
    if s.pw.elapsed < s.frm.busyTo then s
    else
      let csel := fOf s t % 4
      let cval := cvalOf s csel
      let n := dataLanes s
      let r := takeGrant s
      let s := setF t ((fOf s t + 1) % 2 ^ 32) r.2
      let l := caravanBytes r.1 csel cval
      { s with frm := { s.frm with lanes := n, busyTo := s.pw.elapsed + framePeriod n, caravan := l, shares := laneShares n l,
                                   laneGrp := shareGroups (laneShares n l) 0, last := r.1.own.map (fun b => (r.1.q, b)) } }

/-! ### Tower frames (R216, R217) -/

/-- CRC-8 of R216. -/
def crc8 (l : List Byte) : Nat := l.foldl (crcByteL 8 7) 0

/-- TAG of the echo that the tower frame of this slot carries, if any (R80). -/
def echoTag (s : State) (t : Trunk) : Option Nat :=
  match s.frm.probe with
  | some p => if p.slot + 16 = s.pw.elapsed ∧ p.trunk = t then some p.tag else none
  | none => if s.frm.echoAt = some s.pw.elapsed then some (fld s.frm.recHi.toNat 24 6) else none

/-- The status byte of lane `l`. -/
def towerStatus (s : State) (t : Trunk) (l : Nat) (sums : List Nat) : Nat :=
  let tg := tagOf s (s.pw.elapsed - 8)
  let low := match (if l = 0 then echoTag s t else none) with
    | some tag => 0x80 + tag % 64
    | none => b2n ((tg.orb0 || tg.first) && !tg.idle) + 2 * b2n tg.oasis + 4 * b2n (sums.contains 0xFFF)
        + 8 * b2n (decide (fld tg.stuck (12 * l) 12 ≠ 0))
  low + 0x40 * b2n tg.hold

def towerBytes (s : State) (t : Trunk) (l : Nat) : List Byte :=
  let e := s.pw.elapsed - 8
  let tg := tagOf s e
  let sums := (List.range 12).map (fun i => towerOf s (12 * l + i) e)
  let bits := sums.flatMap (natBits 12) ++ natBits 12 (fld tg.flint (12 * l) 12) ++ List.replicate 12 false
  let b := [BitVec.ofNat 8 tg.slot, BitVec.ofNat 8 (towerStatus s t l sums)] ++ packBits 21 bits
  b ++ [BitVec.ofNat 8 (crc8 b)]

/-- TOWER_FRAME_SEND: both tower lanes of the active trunk. -/
def sendTowers (s : State) : State :=
  match canSend s with
  | none => s
  | some t => { s with frm := { s.frm with tower0 := towerBytes s t 0, tower1 := towerBytes s t 1 } }

/-! ### The echo (R80, R81) -/

/-- PROBE_LO and PROBE_HI: a record reads from the core cycle after its t3 on (R81). -/
def probeShown (s : State) : Word × Word := if s.frm.recAt ≤ s.pw.cc then (s.frm.recLo, s.frm.recHi) else (s.frm.wasLo, s.frm.wasHi)

/-- PROBE_ECHO: the echo's K character leaves `frac` phase steps into the present slot. -/
def sendEcho (frac : Nat) (s : State) : State :=
  match s.frm.probe with
  | none => s
  | some p =>
    if s.pw.elapsed < p.slot + 16 then s
    else
      let t3 : Int := 8192 * ((tagHead s).cc0 : Int) + frac + sgn (regAt s 0x02 0x04C >>> 16) 16
      let echoed := decide (p.slot + 16 = s.pw.elapsed) && decide (canSend s = some p.trunk)
      let valid := echoed && !p.bad && !s.pll.hold
      let w := probeRecord p (placeOf s p.t2c) (t3 - p.t2c) valid
      { s with frm := { s.frm with probe := none, recLo := w.1, recHi := w.2, recAt := (tagHead s).cc0 + frac / 8192 + 1,
                                   wasLo := (probeShown s).1, wasHi := (probeShown s).2,
                                   echoAt := if echoed then some s.pw.elapsed else s.frm.echoAt } }

/-! ### Marker blocks (R209, R210) -/

def markerBlock (s : State) (t : Trunk) (lane : Nat) : List Byte :=
  withTrailer ([BitVec.ofNat 8 (lane + 8 * tIdx t + 16 * b2n (holds s t)), BitVec.ofNat 8 (dataLanes s)]
    ++ leBytes 4 (gOf s t) ++ leBytes 2 (s.orb.slot % 4096) ++ leBytes 4 s.orb.orbit ++ List.replicate 8 0)

/-- A lane of the trunk is driven: the crystal and the trunk's supply are there, and the lane was not left idle at bring-up (R243). -/
def laneDriven (s : State) (t : Trunk) (lane : Nat) : Bool :=
  s.pw.xtal && !s.pw.por && vddlOk s t && !(getLn s t).idle.getLsbD lane

/-- LN_TEST in force of a trunk; with PAT at 0 every test function is off (R253). -/
def lnTest (s : State) (t : Trunk) : Nat := regAt s (0x48 + tIdx t) 0x048
def patOn (s : State) (t : Trunk) : Bool := decide (lnTest s t % 4 ≠ 0)
def txMasked (s : State) (t : Trunk) (i : Nat) : Bool := patOn s t && (lnTest s t).testBit (8 + i)

/-- A driven lane in TX_MASK sends the pattern of PAT in place of what its state gives it: 1 PRBS-7, 2 PRBS-31, 0 no pattern (R253). -/
def lanePat (s : State) (t : Trunk) (lane : Nat) : Nat := if laneDriven s t lane && txMasked s t lane then lnTest s t % 4 else 0

/-- The feedback taps of the patterns: x^7 + x^6 + 1 and x^31 + x^28 + 1 (R253). -/
def patTaps (pat : Nat) : Nat × Nat := if pat = 1 then (7, 6) else (31, 28)

/-- The next bit of a pattern after `bits`, newest first: the exclusive or of the bits at its two taps (R253). -/
def patNext (pat : Nat) (bits : List Bool) : Bool := bits.getD ((patTaps pat).1 - 1) false != bits.getD ((patTaps pat).2 - 1) false

/-- `n` bits of a pattern that follow `seed`, newest first; which bits a lane begins with is open (R253, R255). -/
def patBits (pat : Nat) : Nat → List Bool → List Bool
  | 0, bits => bits
  | n + 1, bits => patBits pat n (patNext pat bits :: bits)

/-- Whether a lane of the trunk sends markers: states DESKEW to SERVICE, driven, no test pattern (R211, R243). -/
def markerOn (s : State) (t : Trunk) (lane : Nat) : Bool :=
  laneDriven s t lane && decide (4 ≤ (getLn s t).st) && !txMasked s t lane

def markersOf (s : State) (t : Trunk) : List (List Byte) :=
  (List.range 6).map (fun i => if gOf s t % 256 = 0 && markerOn s t i then markerBlock s t i else [])

/-- The marker blocks of the present slot, with the slot and orbit number that it has by now (R210, R264). -/
def markerSync (s : State) : State :=
  let m := markersOf s .a ++ markersOf s .b
  { s with frm := { s.frm with marker := if m.all (·.isEmpty) then s.frm.marker else m } }

/-! ### Training sets and capability blocks (R244, R246) -/

/-- The 16 bytes of the uplink training set of a lane (R244). -/
def trainingSet (s : State) (t : Trunk) (lane : Nat) : List Byte :=
  let l := getLn s t
  let b := [BitVec.ofNat 8 l.st, BitVec.ofNat 8 (lane + 8 * tIdx t), BitVec.ofNat 8 l.detected.toNat,
            BitVec.ofNat 8 (b2n l.dlLock + 2 * b2n l.fwdOk)] ++ List.replicate 10 (0xB5 : Byte) ++ [BitVec.ofNat 8 (min 255 l.good)]
  b ++ [BitVec.ofNat 8 (crc8 b)]

/-- The 24-byte capability block of a lane (R246). REV is bits [15:8] of PAGE_ID. -/
def capBlock (s : State) (t : Trunk) (lane : Nat) : List Byte :=
  withTrailer (leBytes 2 0x0384 ++ [BitVec.ofNat 8 (pageId 0x48 / 256), 1, BitVec.ofNat 8 (lane + 8 * tIdx t),
    BitVec.ofNat 8 (getLn s t).detected.toNat, 4, 0] ++ leBytes 4 (factVal s 0 4) ++ List.replicate 8 0)

/-- What each lane of a trunk that trains sends: training sets in TRAIN and LOCK, a capability block a slot in EXCHANGE, nothing of
either in the other states, on a lane that is idle or on one that sends a test pattern (R243, R244, R246, R253). -/
def txSync (t : Trunk) (s : State) : State :=
  let l := getLn s t
  let each (on : Bool) (f : Nat → List Byte) : List (List Byte) :=
    if on then (List.range 6).map (fun i => if laneDriven s t i && !txMasked s t i then f i else []) else []
  let sets := each (decide (l.st = 2 ∨ l.st = 3)) (trainingSet s t)
  let caps := each (decide (l.st = 5)) (capBlock s t)
  modLn t (fun l => { l with sets := sets, caps := caps }) s

/-- Both trunks' training streams follow the state. -/
def txBoth (s : State) : State := txSync .b (txSync .a s)

/-- The slot start: G advances, in a slot with G mod 256 at 0 each lane sends its marker block, and the shares of a caravan frame in
progress go on with their next groups; where no frame can leave any longer it is cut off (R198, R209, R211, R283). -/
def groupSlot (s : State) : State :=
  let s := setG .b ((s.frm.gB + 1) % 2 ^ 32) (setG .a ((s.frm.gA + 1) % 2 ^ 32) s)
  let s := if (canSend s).isNone then unsend s else s
  let k := s.pw.elapsed + framePeriod s.frm.lanes - s.frm.busyTo
  let grp := if s.pw.elapsed < s.frm.busyTo then shareGroups s.frm.shares k else []
  txBoth (markerSync { s with frm := { s.frm with laneGrp := grp } })

/-! ### Credits (R226) and replay's end (R198, R223) -/

/-- CREDIT_ADVANCE in one core cycle. -/
def creditStep (s : State) : State :=
  if s.pw.coreRun && creditOk s then { s with frm := { s.frm with adv := s.frm.adv + 1 } } else s

/-- REPLAY_END: the list is empty, REPLAYING clears, and the replay manifest is written when the writer is free. -/
def replayOver (s : State) : State :=
  if s.ser.replaying && s.ser.rlist.isEmpty then
    manifestNext { s with ser := { s.ser with replaying := false, rsent := 0 },
                          acq := { s.acq with replay := s.acq.replay ++ [(s.ser.rBales, s.ser.rBytes)] } }
  else s

/-- UPF_FRAME: F of the holder, else of the trunk that last held ACTIVE (R212). -/
def frameNumber (s : State) : Nat :=
  match holder s with
  | some t => fOf s t
  | none => match s.sup.lastHold with
    | some t => fOf s t
    | none => 0

end Sys2Proof.Machine
end

