-- ==== Sys2Proof/Machine/Roles.lean ====
section
/-! DEFINITION. Trunk roles, evidence, heartbeats and the ACTIVE token (R275–R278), lane service set (R247), holds of the core PLL. -/

namespace Sys2Proof.Machine

/-- A command acts only out of the power-on reset (R424). -/
def running (f : State → State) (s : State) : State := if s.pw.por then s else f s

/-- CK_CORE runs. -/
def coreOnly (f : State → State) (s : State) : State := if s.pw.por || !s.pw.coreRun then s else f s

def lnPage (t : Trunk) : Nat := 0x48 + tIdx t
def dlPage (t : Trunk) : Nat := 0x4C + tIdx t

/-! ### Evidence (R276) -/

/-- The three observations of R276. -/
def rawEvidence (s : State) (t : Trunk) : Bool := (getLn s t).fwdOk && (getLn s t).dlLock && vddlOk s t

def forceBad (s : State) (t : Trunk) : Bool := decide (regF s 0x50 0x048 (8 + tIdx t) 1 = 1)

/-- Evidence good (R276). -/
def evGood (s : State) (t : Trunk) : Bool := (getTs s t).ev && !forceBad s t

/-- The in-service set holds the tower lanes and the data lanes in use. -/
def lanesServe (s : State) (t : Trunk) : Bool :=
  let sv := (getLn s t).service
  sv.getLsbD 4 && sv.getLsbD 5 && (List.range (dataLanes s)).all (fun j => sv.getLsbD j)

/-- A trunk qualifies (R276). -/
def qualifies (s : State) (t : Trunk) : Bool :=
  decide ((getLn s t).st = 6) && evGood s t && !(getTs s t).latched && !(getTs s t).repair && lanesServe s t

/-! ### Roles (R275) -/

/-- A trunk whose role is OFF, REPAIRING or TRAINING reports no heartbeat as seen (R277). -/
def quiet (s : State) (t : Trunk) : Bool :=
  let u := getTs s t
  u.repair || !u.tpwr || !vddlOk s t || (!u.latched && holder s != some t && (getLn s t).st != 6)

/-- HB_x_SEEN: the peer reports the trunk's heartbeat as seen. -/
def hbSeen (s : State) (t : Trunk) : Bool := (getTs s t).seen && !quiet s (peer t)

/-- The role of a trunk (R275). -/
def roleOf (s : State) (t : Trunk) : Nat :=
  let u := getTs s t
  if u.repair then 8 else if !u.tpwr || !vddlOk s t then 0 else if u.latched then 7
  else if holder s = some t then (if s.sup.checking then 5 else 4)
  else if (getLn s t).st ≠ 6 then 1 else if !qualifies s t then 6
  else if (hbSeen s .a && hbSeen s .b) || !evGood s (peer t) then 2 else 3

/-- A role notice (R470, R472). -/
def roleNotice (s : State) : Notice :=
  { kind := 0xA3, page := 0x50, item := s.sup.ta.role, value := s.sup.tb.role,
    detail := s.sup.reason + 16 * s.sup.lastTo + 256 * s.sup.result }

/-- One trunk's role takes its new value: its notice, the entry into UNCONFIRMED, the repair count (R279, R287). -/
def roleStep (t : Trunk) (old : Nat) (s : State) : State :=
  let r := (getTs s t).role
  if r = old then s
  else
    let s := if r = 3 then count 0x50 4 s else s
    let s := if r = 2 ∨ r = 3 then modTs t (fun u => { u with fails := 0 }) s else s
    postNotice 0x50 (roleNotice s) s

/-- SV_STAT.DARK. -/
def dark (s : State) : Bool := s.sup.granted && (holder s).isNone

/-- The hub becomes DARK: counted once per entry, whatever takes the token away (R278, R291). -/
def darkSync (s : State) : State :=
  let d := dark s
  onRise s.sup.wasDark d 0x50 2 0 { s with sup := { s.sup with wasDark := d } }

/-- The role of each trunk and DARK follow the state. -/
def roleSync (s0 : State) : State :=
  let s := darkSync s0
  let oa := s.sup.ta.role
  let ob := s.sup.tb.role
  let ra := roleOf s .a
  let rb := roleOf s .b
  roleStep .b ob (roleStep .a oa (modTs .b (fun u => { u with role := rb }) (modTs .a (fun u => { u with role := ra }) s)))

/-! ### The token (R278) -/

def tokenCode : Option Trunk → BitVec 2
  | none => 0
  | some .a => 1
  | some .b => 2

def setToken (h : Option Trunk) (s : State) : State :=
  { s with sup := { s.sup with tok0 := tokenCode h, tok1 := tokenCode h, tok2 := tokenCode h } }

/-! ### Commands of a trunk that does not hold ACTIVE (R267, R280) -/

/-- A frame whose command has not been consumed. -/
def dueLive (d : Due) : Bool := d.code.isSome || d.orbit || d.accept

/-- Fast-command frames whose effect slot has begun on a trunk that does not hold ACTIVE count under STBY_CMD, once each (R267). Those
of the trunk to which a move is under way are judged when the move start falls due or the slot is over. -/
def dueSlot (t : Trunk) (s : State) : State :=
  let e := s.pw.elapsed
  if holds s t then modDl t (fun d => { d with due := d.due.filter (fun x => decide (e < x.slot + 64)) }) s
  else
    let past (x : Due) : Bool := if s.sup.moving && (s.sup.moveTo == t) then decide (x.slot < e) else decide (x.slot ≤ e)
    let n := ((getDl s t).due.filter (fun x => past x && dueLive x)).length
    countN (dlPage t) 2 n (modDl t (fun d => { d with due := d.due.filter (fun x => !past x) }) s)

/-! ### The core PLL's reference (R84–R86) -/

/-- FWD_OK of a trunk. -/
def fwdOk (s : State) (t : Trunk) : Bool := (getLn s t).fwdOk

/-- The reference changes to trunk `t` with the offset of R85; the skew is that of R280 afterwards, and a measurement of the old standby
that waits for the boundary is void. -/
def changeRef (t : Trunk) (s : State) : State :=
  let s := enterHold s
  let ok := s.pll.skewValid
  let s := { s with pll := { s.pll with
    ref := t, ofs := if ok then -s.pll.skew else 0, skew := clampI (-4096) 4095 (-s.pll.ofs),
    skewValid := ok && fwdOk s (peer t), moved := true, lock := false,
    skewDone := none, skewVoid := true, lockFrom := s.pw.elapsed } }
  if ok then s else count 0x02 5 (setUncomp s)

/-- A stopped PLL whose clock has failed starts again on the other trunk where FWD_OK reads 1 there (R428). -/
def startLost (t : Trunk) (s : State) : State :=
  if s.pll.start = t ∧ fwdOk s (peer t) = true then { s with pll := { s.pll with start := peer t } } else s

/-- The forwarded clock of `t` has failed: the active reference's loss enters hold (R86), a stopped PLL starts again (R428), and a skew
left by a move loses VALID. -/
def refLost (t : Trunk) (s : State) : State :=
  if !s.pw.coreRun then startLost t s
  else if s.pll.ref = t then enterHold s
  else if s.pll.moved then { s with pll := { s.pll with skewValid := false } } else s

end Sys2Proof.Machine
end

