-- ==== Sys2Proof/Machine/Store.lean ====
section
/-! DEFINITION. The calibration store (chapter 18): start-up load, views, save and apply. -/

namespace Sys2Proof.Machine

/-! ### The flash and the user slots (R325, R371) -/

def flashBytes (s : State) (a n : Nat) : List Byte := ramBytes 0xFF s.slow.flash a n

/-- The boot header passes the conditions of R325, given the flash's identification. -/
def bootHdrOk (s : State) (flashId : Nat) : Bool :=
  let l := flashBytes s 0 16
  let base := leNat ((l.drop 6).take 3)
  flashId != 0 && flashId != 0xFFFFFF && l.take 6 == [0x54, 0x59, 0x4D, 0x52, 0x01, 0x00]
    && leNat (l.drop 12) == crc32 (l.take 12) && decide (base % 0x1000 = 0 ∧ 0x1000 ≤ base ∧ base ≤ 0xFFC000)

def slotBase (s : State) (i : Nat) : Nat := s.slow.usrBase + 0x2000 * i

/-- A 256-byte part with its CRC-32 in the last four bytes. -/
def partOk (l : List Byte) : Bool := leNat (l.drop 252) == crc32 (l.take 252)

/-- GEN of slot `i`, if the slot is valid (R372). -/
def slotGen (s : State) (i : Nat) : Option Nat :=
  let hdr := flashBytes s (slotBase s i) 256
  let gen := leNat ((hdr.drop 4).take 4)
  if partOk hdr && decide (1 ≤ gen ∧ gen ≤ 0xFFFFFFFE)
      && (List.range 8).all (fun u => partOk (flashBytes s (slotBase s i + 0x100 + 0x100 * u) 256)) then some gen else none

/-- The user data bytes of slot `i`. -/
def slotImage (s : State) (i : Nat) : Ram Byte :=
  (List.range 8).foldl (fun m u => ramPutBytes 0 m (252 * u) (flashBytes s (slotBase s i + 0x100 + 0x100 * u) 252)) []

/-- Byte of a user record as it is stored: 252 data bytes and their CRC-32. -/
def userRecord (u : Ram Byte) (r : Nat) : List Byte :=
  let l := ramBytes 0 u (252 * r) 252
  l ++ leBytes 4 (crc32 l)

/-- The slot header of R371. -/
def slotHeader (gen : Nat) : List Byte :=
  let l := [0x55, 0x53, 0x52, 0x31] ++ leBytes 4 gen ++ [0x01] ++ List.replicate 243 (0 : Byte)
  l ++ leBytes 4 (crc32 l)

/-! ### Start-up (R370, R372) -/

/-- FUSE_LOAD: the eight records are read and checked. -/
def fuseLoad (s : State) : State :=
  let bad := (List.range 8).filter (fun r => !fuseRecOk s.cal.bank r)
  let s := { s with cal := { s.cal with
    read := s.cal.bank, fuseFail := BitVec.ofNat 8 (maskOf bad), fuseBad := !bad.isEmpty, fuseOk := bad.isEmpty,
    useFuse := bad.isEmpty } }
  let m (k : Nat) : Nat := factByte s (9 + k)
  setReg 0x58 0x048 (256 * m 0 + m 1) (setReg 0x58 0x044 (m 2 * 0x1000000 + m 3 * 0x10000 + m 4 * 0x100 + m 5) s)

/-- Slot to load, with its GEN. -/
def pickSlot (s : State) : Option (Nat × Nat) :=
  match slotGen s 0, slotGen s 1 with
  | some a, some b => if a < b then some (1, b) else some (0, a)
  | some a, none => some (0, a)
  | none, some b => some (1, b)
  | none, none => none

/-- Quantities whose sum a start-up load limits (R367). -/
def clamped (s : State) (u : Ram Byte) : Nat := (quantities.filter (fun q => !q.all (sumOk s u))).length

/-- The user store is loaded, or USER_BAD is raised. Without the pins of the SPI no header is read (R327, R432). -/
def userLoad (flashId : Nat) (s : State) : State :=
  let ok := pinsOk s && bootHdrOk s flashId
  let s := { s with slow := { s.slow with
    spiId := flashId, hdrOk := ok, usrBase := if ok then leNat (flashBytes s 6 3) else s.slow.usrBase } }
  match (if ok then pickSlot s else none) with
  | none => { s with cal := { s.cal with userBad := true, user := [], eff := [], loaded := true } }
  | some (i, g) =>
    let raw := slotImage s i
    let u := unlockedOnly raw
    { s with cal := { s.cal with
        userOk := true, anyOk := true, slotNo := i, gen := g, lockIgn := decide (u ≠ raw), user := u, eff := u, loaded := true } }

/-- BOOT_STAT.STAGE after the user store: 3, and 4 when a forwarded clock is already good. -/
def stageLoaded (s : State) : State := stageTo (if s.lnA.fwdOk || s.lnB.fwdOk then 4 else 3) s
where
  stageTo (n : Nat) (s : State) : State := { s with pw := { s.pw with stage := max n s.pw.stage } }

/-- USER_STORE_LOAD: the work of stage USER, once after the power-on reset. -/
def loadStores (flashId : Nat) (s : State) : State :=
  if 3 ≤ s.pw.stage then s
  else
    let s := userLoad flashId s
    stageLoaded (countN 0x70 0 (clamped s s.cal.eff) s)

/-! ### Views (R373, R377) -/

def csRec (s : State) : Nat := regF s 0x70 0x048 0 3

def fuseView (s : State) (j : Nat) : Nat := leNat (ramBytes 0 s.cal.read (256 * csRec s + 4 * j) 4)

/-- The held record with its CRC-32; until the user store is loaded it reads 0 (R359). -/
def userView (s : State) (j : Nat) : Nat :=
  if s.cal.loaded then leNat (((userRecord s.cal.user (csRec s)).drop (4 * j)).take 4) else 0

/-- A write of word `j` of the held record by master `m` (R373). -/
def csWrite (m : Master) (j : Nat) (w : Word) (s : State) : State :=
  let a := 0x70180 + 4 * j
  if s.cal.saving.isSome then refuseAt m a 0x09 s
  else if 63 ≤ j then s
  else
    let k := 252 * csRec s + 4 * j
    let bytes := leBytes 4 w.toNat
    if (bytes.zipIdx).any (fun p => p.1 != 0 && lockedByte (k + p.2)) then refuseAt m a 0x0D s
    else { s with cal := { s.cal with user := ramPutBytes 0 s.cal.user k bytes } }

/-! ### Save (R375) -/

/-- The target slot. -/
def saveTarget (s : State) : Nat := if s.cal.anyOk then 1 - s.cal.slotNo else 0

/-- One above the greater valid GEN, or 1. -/
def saveGen (s : State) : Nat :=
  match slotGen s 0, slotGen s 1 with
  | none, none => 1
  | a, b => max (a.getD 0) (b.getD 0) + 1

/-- Cause for which CS_SAVE is refused at its application. -/
def saveRefusal (s : State) (op : Nat) : Option Nat :=
  if op < 2 then none else if s.cal.saving.isSome then some 0x09 else if !s.slow.hdrOk then some 0x02 else none

/-- The two sectors of a slot erased. -/
def eraseSlot (s : State) (i : Nat) : Ram Byte :=
  ramDrop (fun a => decide (slotBase s i ≤ a) && decide (a < slotBase s i + 0x2000)) s.slow.flash

/-- Steps 1 and 2 of a save. Without the pins of the SPI nothing is erased, and the save never gets further (R327, R432). -/
def saveStart (s : State) : State :=
  let t := saveTarget s
  let g := saveGen s
  { s with cal := { s.cal with saving := some s.cal.user, saveFail := false, target := t, newGen := g },
           slow := { s.slow with flash := if pinsOk s then eraseSlot s t else s.slow.flash } }

/-- The first `n` records of the copy programmed into the target slot. -/
def programRecords (s : State) (u : Ram Byte) (n : Nat) : Ram Byte :=
  (List.range n).foldl (fun f r => ramPutBytes 0xFF f (slotBase s s.cal.target + 0x100 + 0x100 * r) (userRecord u r)) s.slow.flash

/-- A save stops without its header: SAVE_FAIL. What it has left in the target slot's two sectors is open
(log entry 21). -/
def saveStop (s : State) : State :=
  match s.cal.saving with
  | none => s
  | some _ =>
    let s := spoilFlash (slotBase s s.cal.target) 0x2000 s
    count 0x70 2 { s with cal := { s.cal with saving := none, saveFail := true } }

def setFlash (f : Ram Byte) (s : State) : State := { s with slow := { s.slow with flash := f } }

/-- SAVE_DONE: records and header have verified, or the save stops. -/
def saveEnd (ok : Bool) (s : State) : State :=
  match s.cal.saving with
  | none => s
  | some u =>
    if !ok then saveStop s
    else if !pinsOk s then s
    else
      let g := if s.cal.newGen = 0xFFFFFFFF then 1 else s.cal.newGen
      let t := s.cal.target
      let s := setFlash (programRecords s u 8) s
      let s := setFlash (ramPutBytes 0xFF s.slow.flash (slotBase s t) (slotHeader g)) s
      let s := if s.cal.newGen = 0xFFFFFFFF then setFlash (eraseSlot s (1 - t)) s else s
      { s with cal := { s.cal with saving := none, slotNo := t, gen := g, anyOk := true } }

/-! ### Apply (R376) -/

/-- CS_SAVE as its group is applied. -/
def csCommand (op : Nat) (s : State) : State :=
  let s := setReg 0x70 0x044 0 s
  let s := if op = 1 ∨ op = 3 then { s with cal := { s.cal with apply := some s.cal.user } } else s
  if 2 ≤ op then saveStart s else s

def trimUnder (s : State) (u : Ram Byte) (c : Nat) : Int := effOf s u (qTrim c)

/-- Every sum lies within its field. -/
def sumsOk (s : State) (u : Ram Byte) : Bool := quantities.all (fun q => q.all (sumOk s u))

/-- The TRIM values in effect reach the channels. -/
def loadTrims (s : State) : State :=
  let t := (List.range 384).map (fun c => trimUnder s s.cal.eff c)
  { s with chan := mapIdxN (fun c x => setOffs s.pw.elapsed (t.getD c 0) x.track x) s.chan }

/-- Whether the page's group names it in a refusal at a boundary (R471). -/
def grpOf (s : State) (p : Nat) : Nat := regF s p 0x004 4 4

/-- TRIM_APPLY_EFFECT: the new effective values take effect together, or page 0x70 refuses them. -/
def applyEffect (s : State) : State :=
  match s.cal.apply with
  | none => s
  | some u =>
    let s := { s with cal := { s.cal with apply := none } }
    if !sumsOk s u then count 0x70 1 (refuse 0x70 0x02 (grpOf s 0x70) s)
    else if !codesOk s s.fab.regs (trimUnder s u) (fun c => (getChan s c).track) then
      count 0x70 1 (refuse 0x70 0x0C (grpOf s 0x70) s)
    else
      let old := s.chan.map (·.trim)
      let s := loadCorr (loadTrims { s with cal := { s.cal with eff := u } })
      if s.chan.map (·.trim) = old then s else setUncomp s

end Sys2Proof.Machine
end

