-- ==== Sys2Proof/Machine/Lanes.lean ====
section
/-! DEFINITION. Serial lanes and bring-up (chapter 11): forwarded clock, downlink lock, training, eye, test checkers. -/

namespace Sys2Proof.Machine

/-! ### Test functions in force (R253, R256) -/

def dlChk (s : State) (t : Trunk) : Bool := patOn s t && (lnTest s t).testBit 16
def lbOn (s : State) (t : Trunk) : Bool := patOn s t && (lnTest s t).testBit 20
def laneDis (s : State) (t : Trunk) (i : Nat) : Bool := (regAt s (lnPage t) 0x044).testBit i

/-! ### Entering states (R243) -/

/-- Enters DETECT: runs end, the in-service set empties, CAP_MISMATCH and RETRAIN clear (R243, R247, R249). -/
def enterDetect (t : Trunk) (s : State) : State :=
  let now := s.pw.sup
  modLn t (fun l => { l with st := 1, since := now, lastPulse := now, service := 0, wasIn := 0, good := 0, runL := 0, runD := 0,
                             runA := 0, capMis := false, idle := 0, pulsed := 0, retrain := false }) s

/-- The failed repairs of a latched trunk have used up SV_REPAIR.TRIES (R287). -/
def triesUsed (s : State) (t : Trunk) : Bool :=
  decide (0 < (getTs s t).fails) && decide (regF s 0x50 0x044 16 4 ≤ (getTs s t).fails)

/-- A bring-up begins that clears a latch when it reaches SERVICE: by RETRAIN, a power cycle or the return of the supply (R286); after
TRIES failed repairs only the first two (R287). -/
def beginDetect (t : Trunk) (s : State) : State := enterDetect t (modTs t (fun u => { u with detect := true }) s)

/-- A return to DETECT from TRAIN to EXCHANGE counts TRAIN_FAIL. -/
def trainFail (t : Trunk) (s : State) : State :=
  if 2 ≤ (getLn s t).st ∧ (getLn s t).st ≤ 5 then roleSync (count (lnPage t) 2 (enterDetect t s)) else s

def enterSt (t : Trunk) (st : Nat) (s : State) : State :=
  let now := s.pw.sup
  modLn t (fun l => { l with st := st, since := now, runL := 0, runD := 0, runA := 0 }) s

/-- DETECT leaves for TRAIN while CK_LANE runs, the forwarded clock and the downlink signal are there and the last pulse found lanes 0, 4
and 5 terminated (R243, R427). Lanes not detected and lanes set in LANE_DIS stay idle until the next bring-up (R243). -/
def detectJudge (t : Trunk) (s : State) : State :=
  let l := getLn s t
  if decide (l.st = 1) && s.pw.xtal && l.fwdOk && l.dlSignal && l.pulsed.getLsbD 0 && l.pulsed.getLsbD 4 && l.pulsed.getLsbD 5 then
    let off : BitVec 6 := BitVec.ofNat 6 (regF s (lnPage t) 0x044 0 6) ||| ~~~l.detected
    enterSt t 2 (modLn t (fun l => { l with good := 0, idle := off }) s)
  else s

/-- Lanes of the in-service set on entry to SERVICE (R247). -/
def serviceSet (s : State) (t : Trunk) (peerLanes : Nat) : BitVec 6 :=
  BitVec.ofNat 6 (maskOf ((List.range 6).filter (fun i =>
    (getLn s t).detected.getLsbD i && !laneDis s t i && (decide (4 ≤ i) || decide (i < peerLanes)))))

def withoutMask (s : State) (t : Trunk) (v : BitVec 6) : BitVec 6 :=
  BitVec.ofNat 6 (maskOf ((List.range 6).filter (fun i => v.getLsbD i && !txMasked s t i)))

/-- Enters SERVICE with the accepted capability; a trunk that has passed through DETECT loses its latch, and its repair is over once TPWR
is high again (R247, R286). -/
def enterService (t : Trunk) (port peerLanes proto : Nat) (s : State) : State :=
  let set := serviceSet s t peerLanes
  let s := modLn t (fun l => { l with st := 6, since := s.pw.sup, port := port, peer := peerLanes, proto := proto,
                                      capMis := false, service := withoutMask s t set, wasIn := set }) s
  roleSync (modTs t (fun u =>
    if u.detect then { u with latched := false, byCmd := false, repair := u.repair && !u.tpwr } else u) s)

/-! ### Forwarded clock (R238) -/

/-- BOOT_STAT.STAGE leaves WAIT_CLOCK (R361). -/
def stageClock (s : State) : State :=
  if s.pw.stage = 3 ∧ (s.lnA.fwdOk ∨ s.lnB.fwdOk) then { s with pw := { s.pw with stage := 4 } } else s

/-- While CK_CORE does not run the PLL starts on the first trunk whose FWD_OK reads 1, trunk A when both rise together (R428). -/
def refFirst (t : Trunk) (s : State) : State :=
  if s.pw.coreRun then s
  else if !fwdOk s s.pll.start ∨ (t = .a ∧ s.lnB.fwdAt = s.pw.sup) then { s with pll := { s.pll with start := t } } else s

/-- FWD_OK follows FWD_PRESENT and the last count. -/
def fwdSync (t : Trunk) (s : State) : State :=
  let l := getLn s t
  let ok := l.fwdPres && decide (1480 ≤ l.fwdCnt ∧ l.fwdCnt ≤ 1720)
  if l.fwdOk && !ok then
    trainFail t (refLost t (count (lnPage t) 1 (modLn t (fun l => { l with fwdOk := false }) s)))
  else if !l.fwdOk && ok then
    detectJudge t (stageClock (refFirst t (modLn t (fun l => { l with fwdOk := true, fwdAt := s.pw.sup }) s)))
  else s

def fwdLoss (t : Trunk) (s : State) : State := fwdSync t (modLn t (fun l => { l with fwdPres := false }) s)

def fwdReturn (t : Trunk) (s : State) : State :=
  if vddlOk s t then fwdSync t (modLn t (fun l => { l with fwdPres := true }) s) else s

def fwdWindow (t : Trunk) (n : Nat) (s : State) : State := fwdSync t (modLn t (fun l => { l with fwdCnt := n }) s)

/-! ### Downlink signal and lock (R239, R240, R256) -/

/-- A write packet that awaits data words ends early (R269). -/
def ctlAbort (t : Trunk) (s : State) : State :=
  match (getDl s t).asm with
  | some k => count (dlPage t) 5 (modDl t (fun d => { d with asm := none, held := d.held ++ [{ k with short := true }] }) s)
  | none => s

/-- A frame time without a decoded frame while CK_CORE is stopped: no slot shows it, and the packet ends here (R269, R272). -/
def ctlLost (t : Trunk) (s : State) : State :=
  if s.pw.coreRun then s else modDl t (fun d => { d with drop := d.drop - 1 }) (ctlAbort t s)

/-- DL_LOCK falls: LOCK_LOSS counts, and the run of good training frames ends. -/
def lockFall (t : Trunk) (s : State) : State :=
  if (getLn s t).dlLock then
    let s := ctlLost t s
    let s := modLn t (fun l => { l with dlLock := false, badSym0 := 0, errBits := [], good := 0, runL := 0, runD := 0, runA := 0 }) s
    if dlChk s t then s else countD (lnPage t) 0 (tIdx t) s
  else s

/-- Bit lock is lost, and DL_LOCK with it (R240). -/
def bitLose (t : Trunk) (s : State) : State := lockFall t (modLn t (fun l => { l with bitLock := false }) s)

def signalChange (t : Trunk) (on : Bool) (s : State) : State :=
  if on then (if vddlOk s t then detectJudge t (modLn t (fun l => { l with dlSignal := true }) s) else s)
  else trainFail t (bitLose t (modLn t (fun l => { l with dlSignal := false }) s))

/-- DL_SIGNAL_CHANGE: the downlink's input amplitude becomes `mv` mV p-p. DL_SIGNAL reads 1 at or above 75 mV and 0 at or below 35 mV; in
between it is a free value (R449; log entry 4). -/
def signalLevel (t : Trunk) (mv : Nat) (s : State) : State :=
  if 75 ≤ mv then signalChange t true s
  else if mv ≤ 35 then signalChange t false s
  else
    let f := takeFree s
    signalChange t (f.1.testBit 0) f.2

/-- DL_LOCK is set: the receiver has bit lock, and K28.5 has arrived 8 symbols apart in 8 frames (R239). -/
def lockAcquire (t : Trunk) (s : State) : State :=
  if (getLn s t).dlSignal && !dlChk s t then
    modLn t (fun l => { l with dlLock := true, bitLock := true, badSym0 := 0, errBits := [] }) s
  else s

/-- 4 consecutive frames without K28.5 in symbol 0, and 8 code errors within 64 consecutive symbols (R240). -/
def badCommas (l : Lanes) : Bool := decide (4 ≤ l.badSym0)
def badSymbols (l : Lanes) : Bool := decide (8 ≤ (l.errBits.filter id).length)

/-- What R240 lists, one by one; the first two hold only when the frames received say so. -/
def lockLose (t : Trunk) (why : LockLoss) (s : State) : State :=
  match why with
  | .signal => signalChange t false s
  | .bitLock => bitLose t s
  | .commas => if badCommas (getLn s t) then lockFall t s else s
  | .codeErrors => if badSymbols (getLn s t) then lockFall t s else s

/-! ### Supply (R243, R433) -/

def setVddl (t : Trunk) (v : Bool) (s : State) : State :=
  match t with
  | .a => { s with pw := { s.pw with vddlA := v } }
  | .b => { s with pw := { s.pw with vddlB := v } }

/-- VDDL_OK rises: OFF leaves for DETECT. -/
def supplyUp (t : Trunk) (s : State) : State :=
  let s := setVddl t true s
  if (getLn s t).st ≠ 0 then roleSync s
  else if triesUsed s t && !(getTs s t).repair then roleSync (enterDetect t s)
  else roleSync (beginDetect t s)

/-- VDDL_OK falls: OFF from any state; CAP_MISMATCH stays, since only SERVICE and DETECT clear it (R247). The receivers of the trunk lie
in this supply (R422), so its clock, signal and lock go, and a caravan frame in progress on it is cut off (R198). -/
def supplyLoss (t : Trunk) (s : State) : State :=
  let s := setVddl t false (if holds s t then unsend s else s)
  let s := modLn t (fun l => { l with st := 0, since := s.pw.sup, service := 0, wasIn := 0, good := 0, pulsed := 0 }) s
  roleSync (signalChange t false (fwdLoss t s))

/-- VDDL_OK of a trunk whose rail stands at `mv` mV: set at 930 mV and below 1,080, cleared below 900 or above 1,100 (R440). -/
def vddlTo (t : Trunk) (mv : Nat) (s : State) : State :=
  if vddlOk s t then (if mv < 900 ∨ 1100 < mv then supplyLoss t s else s)
  else if 930 ≤ mv ∧ mv < 1080 then supplyUp t s
  else s

/-! ### Training (R243–R248) -/

/-- Core of R243's DETECT row: a receiver-detect pulse 100 µs after the last, on every lane. -/
def detectPulse (t : Trunk) (term : BitVec 6) (s : State) : State :=
  let l := getLn s t
  if l.st ≠ 1 ∨ !s.pw.xtal ∨ s.pw.sup < l.lastPulse + 2000 then s
  else
    detectJudge t (modLn t (fun l => { l with detected := term, pulsed := term, lastPulse := s.pw.sup }) s)

/-- K28.5 and K28.3. -/
def isK285 (x : Sym) : Bool := x.k && x.b == 0xBC
def isK283 (x : Sym) : Bool := x.k && x.b == 0x7C

/-- A symbol at a position is a code error (R237). -/
def codeErrAt (i : Nat) (x : Sym) : Bool :=
  x.bad || (x.k && !(isK285 x || isK283 x)) || (isK285 x && decide (i ≠ 0)) || (isK283 x && decide (i ≠ 1))

def codeErrs (f : DlFrame) : Nat := ((f.syms.zipIdx).filter (fun p => codeErrAt p.2 p.1)).length

def symAt (f : DlFrame) (i : Nat) : Sym := f.syms.getD i ⟨false, 0, true⟩

/-- One more symbol joins the last 64; once 8 of them are in error they stay (R240). -/
def pushSym (l : Lanes) (bad : Bool) : Lanes := if badSymbols l then l else { l with errBits := (bad :: l.errBits).take 64 }

/-- Code errors are counted, and consecutive frames whose symbol 0 is not K28.5; with enough of either, lock falls (R240). A frame that
makes it fall is not decoded (DEDUCED, log entry 60). -/
def frameErrs (t : Trunk) (f : DlFrame) (s : State) : State :=
  if dlChk s t then s
  else
    let s := modLn t (fun l =>
      let l := (f.syms.zipIdx).foldl (fun l p => pushSym l (codeErrAt p.2 p.1)) l
      { l with codeErr := (l.codeErr + codeErrs f) % 65536, badSym0 := if isK285 (symAt f 0) then 0 else l.badSym0 + 1 }) s
    if badCommas (getLn s t) || badSymbols (getLn s t) then lockFall t s else s

/-- Bytes `i` to `j` of a frame. -/
def frameBytes (f : DlFrame) (i n : Nat) : List Byte := ((f.syms.drop i).take n).map (·.b)

/-- A good training frame (R243, R245). -/
def goodTraining (f : DlFrame) : Bool :=
  decide (f.syms.length = 8) && decide (codeErrs f = 0) && isK285 (symAt f 0) && isK283 (symAt f 1)
    && decide (crc8 (frameBytes f 2 5) = ((symAt f 7).b).toNat)

/-- The capability of R247. -/
def capValid (b : List Byte) : Bool := b.getD 4 0 == 1 && [1, 2, 4].contains ((b.getD 1 0).toNat % 8)

/-- Run lengths after a good training frame with bytes `b` of symbols 2–6. -/
def runStep (b : List Byte) (l : Lanes) : Lanes :=
  let x := (b.getD 0 0).toNat
  { l with good := l.good + 1, runL := if x.testBit 0 then l.runL + 1 else 0, runD := if x.testBit 1 then l.runD + 1 else 0,
           runA := if x.testBit 2 then (if l.lastTr = b then l.runA + 1 else 1) else 0, lastTr := b }

/-- LOCK leaves for DESKEW once 16 consecutive frames had LOCKED and CK_CORE runs. On entry G is 0 in the present slot, whose marker goes
out (R209, R243; DEDUCED, log entry 61). -/
def deskewJudge (t : Trunk) (s : State) : State :=
  let l := getLn s t
  if decide (l.st = 3) && decide (16 ≤ l.runL) && s.pw.coreRun then markerSync (setG t 0 (enterSt t 4 s)) else s

/-- The state moves on after a good frame. -/
def trainStep (t : Trunk) (b : List Byte) (s : State) : State :=
  let l := getLn s t
  if l.st = 2 then (if 64 ≤ l.good then enterSt t 3 s else s)
  else if l.st = 3 then deskewJudge t s
  else if l.st = 4 then (if 16 ≤ l.runD then enterSt t 5 s else s)
  else if l.st = 5 ∧ 16 ≤ l.runA then
    if capValid b then enterService t (leNat ((b.drop 2).take 2)) ((b.getD 1 0).toNat % 8) ((b.getD 4 0).toNat) s
    else if l.runA = 16 then count (lnPage t) 3 (modLn t (fun l => { l with capMis := true }) s)
    else s
  else s

/-- A frame while the trunk trains: a good one lengthens the runs, any other ends them. -/
def trainingFrame (t : Trunk) (f : DlFrame) (s : State) : State :=
  let l := getLn s t
  if !l.dlLock then s
  else
    let s := frameErrs t f s
    if !(getLn s t).dlLock then s
    else if l.st = 6 then
      (if isK283 (symAt f 1) ∧ codeErrs f = 0 then modLn t (fun l => { l with codeErr := (l.codeErr + 1) % 65536 }) s else s)
    else if l.st < 2 then s
    else if goodTraining f then
      let b := frameBytes f 2 5
      trainStep t b (modLn t (runStep b) s)
    else modLn t (fun l => { l with good := 0, runL := 0, runD := 0, runA := 0 }) s

/-- A bring-up state times out (R243). -/
def trainTimeout (t : Trunk) (s : State) : State :=
  let l := getLn s t
  let lim := if l.st = 2 then supMs 2 else supMs 20
  if 2 ≤ l.st ∧ l.st ≤ 5 ∧ l.since + lim ≤ s.pw.sup then trainFail t s else s

/-- LN_CMD.RETRAIN (R249): it reads 1 until DETECT is entered, which a trunk without supply does when the supply returns. -/
def retrainTrunk (m : Master) (t : Trunk) (s : State) : State :=
  if holder s = some t ∨ holds s t = true then refuseAt m (lnPage t * 0x1000 + 0x040) 0x09 s
  else
    let s := count (lnPage t) 4 (modLn t (fun l => { l with retrain := true }) s)
    if vddlOk s t then roleSync (beginDetect t s) else s

/-! ### Eye (R250–R252) -/

/-- Whether the eye of trunk `t` is measured. -/
def eyeRuns (s : State) (t : Trunk) : Bool :=
  (regAt s (lnPage t) 0x044).testBit 8 && decide ((getLn s t).st = 6) && !holds s t && !dlChk s t

/-- The first oasis slot: the measurement starts where it may. -/
def eyeStart (s : State) : State :=
  let on := [Trunk.a, Trunk.b].filter (eyeRuns s)
  modLn .b (fun l => { l with eyeNow := [] }) (modLn .a (fun l => { l with eyeNow := [] })
    { s with orb := { s.orb with oasis := { s.orb.oasis with eyeOn := on } } })

/-- Positions visited at offset `k` of an oasis of length `n`. -/
def eyePos (k n : Nat) : List Nat := (List.range 64).filter (fun p => decide (p * n / 64 ≤ k) && decide (k < (p + 1) * n / 64))

/-- The oasis slot that ends, for one trunk: a position with an error, or without lock, is noted; a trunk that stopped qualifying
is dropped. -/
def eyeSlot (t : Trunk) (errs : Nat) (s : State) : State :=
  let o := s.orb.oasis
  let k := s.pw.elapsed - o.start
  if !o.running ∨ !o.eyeOn.contains t ∨ o.len ≤ k then s
  else if !eyeRuns s t then { s with orb := { s.orb with oasis := { o with eyeOn := o.eyeOn.filter (· != t) } } }
  else if errs ≠ 0 ∨ !(getLn s t).dlLock then
    modLn t (fun l => { l with eyeNow := (l.eyeNow ++ eyePos k o.len).dedup }) s
  else s

/-- Length of the run of open positions upwards from `p`, within `fuel`. -/
def runFrom (bad : Nat → Bool) : Nat → Nat → Nat
  | 0, _ => 0
  | fuel + 1, p => if bad p then 0 else runFrom bad fuel (p + 1) + 1

def runDown (bad : Nat → Bool) : Nat → Nat
  | 0 => 0
  | p + 1 => if bad p then 0 else runDown bad p + 1

/-- EYE_W from the errors of 16 oases (R251). -/
def eyeWidth (errs : List (List Nat)) : Nat :=
  let bad (p : Nat) : Bool := errs.any (fun l => l.contains p)
  if bad 32 then 0 else min 0xFC (4 * (runFrom bad 32 32 + runDown bad 32))

/-- The measured oasis is over: its errors join the history, and EYE_W waits for the boundary. -/
def eyeEnd (t : Trunk) (s : State) : State :=
  if s.orb.oasis.eyeOn.contains t then
    modLn t (fun l =>
      let h := (l.eyeNow :: l.eyeErr).take 16
      { l with eyeErr := h, eyeNow := [], eyeNew := if h.length = 16 then some (eyeWidth h) else l.eyeNew }) s
  else s

def eyeLow (s : State) (t : Trunk) : Bool :=
  decide ((getLn s t).eyeW ≠ 0xFF) && decide ((getLn s t).eyeW < regF s (lnPage t) 0x044 16 8)

/-- The boundary shows the new EYE_W (R31); a trunk that has held ACTIVE and is a standby again shows 0xFF (R251). -/
def eyeShow (t : Trunk) (s : State) : State :=
  let again := (getLn s t).held && decide ((getLn s t).st = 6) && !holds s t
  modLn t (fun l =>
    let l := match l.eyeNew with | some v => { l with eyeW := v, eyeNew := none } | none => l
    if again then { l with eyeW := 0xFF, held := false } else l) s

/-! ### Test functions (R254–R256) -/

/-- Lanes leave or rejoin the in-service set, and the checkers start at zero, when a test function is applied (R254, R255). DL_CHK takes
the downlink lock, and the runs of good training frames end with it (R243, R256). -/
def testApplied (t : Trunk) (s : State) : State :=
  let dl := dlChk s t
  let lb := lbOn s t
  let s := modLn t (fun l => { l with service := withoutMask s t l.wasIn, prbs := { on := dl }, lb := { on := lb } }) s
  if dl then modLn t (fun l => { l with dlLock := false, badSym0 := 0, errBits := [], good := 0, runL := 0, runD := 0, runA := 0 }) s else s

/-- Every test function of the trunk is cancelled: LN_TEST reads 0 (R256, R259). -/
def testCancel (t : Trunk) (s : State) : State := testApplied t (setReg (lnPage t) 0x048 0 s)

def modChk (loopback : Bool) (f : Checker → Checker) (l : Lanes) : Lanes :=
  if loopback then { l with lb := f l.lb } else { l with prbs := f l.prbs }

/-- PRBS_SYNC: 64 consecutive bits matched, and `errs` bit errors since (R255). The downlink checker matches bits only with the
downlink's bit clock recovered. -/
def prbsSync (t : Trunk) (loopback : Bool) (errs : Nat) (s : State) : State :=
  if (if loopback then lbOn s t else dlChk s t) then
    modLn t (fun l => { modChk loopback (fun c => { c with sync := true, err := min 0xFFFF (c.err + errs) }) l with
      bitLock := l.bitLock || !loopback }) s
  else s

/-- PRBS_SYNC_LOSS: the errors up to the loss count, and SYNC clears. -/
def prbsLoss (t : Trunk) (loopback : Bool) (errs : Nat) (s : State) : State :=
  modLn t (modChk loopback (fun c => if c.sync then { c with sync := false, err := min 0xFFFF (c.err + errs) } else c)) s

/-- The page soft reset of a lane page (R259). -/
def laneReset (t : Trunk) (s : State) : State :=
  modLn t (fun l => { l with codeErr := 0, prbs := {}, lb := {}, eyeErr := [], eyeNow := [], eyeNew := none, eyeW := 0xFF })
    (testCancel t s)

end Sys2Proof.Machine
end

