-- ==== Sys2Proof/Machine/Supervisor.lean ====
section
/-! DEFINITION. The supervisor (chapter 13): decisions, moves, takeover checks, DARK, CK_CORE's stop and return, commands, repair,
scrubbing. -/

namespace Sys2Proof.Machine

/-! ### Evidence and heartbeats (R276, R277) -/

def debounce (s : State) : Nat := regF s 0x50 0x040 0 8

/-- One CK_SUP cycle of a trunk's evidence: the run in which all three observations have read 1, and for each of them the run in which
it has read 0. -/
def evidenceCycle (t : Trunk) (s : State) : State :=
  let l := getLn s t
  let g := rawEvidence s t
  let v := vddlOk s t
  modTs t (fun u => { u with goodRun := if g then u.goodRun + 1 else 0, badF := if l.fwdOk then 0 else u.badF + 1,
                             badD := if l.dlLock then 0 else u.badD + 1, badV := if v then 0 else u.badV + 1 }) s

/-- EVIDENCE_CHANGE: any one of the three has read 0, or all have read 1, for DEBOUNCE consecutive cycles. -/
def evidenceChange (t : Trunk) (s : State) : State :=
  let u := getTs s t
  if u.ev ∧ (debounce s ≤ u.badF ∨ debounce s ≤ u.badD ∨ debounce s ≤ u.badV) then roleSync (modTs t (fun u => { u with ev := false }) s)
  else if !u.ev ∧ debounce s ≤ u.goodRun then roleSync (modTs t (fun u => { u with ev := true }) s)
  else s

/-- HEARTBEAT_TOGGLE of a powered trunk whose lane PLL runs (R277). -/
def heartToggle (t : Trunk) (s : State) : State :=
  if !vddlOk s t ∨ !s.pw.xtal ∨ quiet s (peer t) = true then s
  else
    roleSync (modTs t (fun u => { u with toggles := u.toggles + 1, hbAt := s.pw.sup, seen := u.seen || decide (4 ≤ u.toggles + 1) }) s)

/-- HEARTBEAT_TIMEOUT after HB_TIMEOUT µs without a toggle. -/
def heartTimeout (t : Trunk) (s : State) : State :=
  if (getTs s t).hbAt + 20 * regF s 0x50 0x040 8 4 ≤ s.pw.sup then
    roleSync (modTs t (fun u => { u with toggles := 0, seen := false }) s)
  else s

/-! ### The words of the control state machines (R288, R289) -/

/-- Code of a trunk, or of none. -/
def trunkCode : Option Trunk → Nat
  | none => 0
  | some .a => 1
  | some .b => 2

/-- The voted code of a control state machine's word, by the page of its block (R288). The words are: 0x00 the start-up stage; 0x03 the
orbit counter's state and cutoff; 0x28 the PLL's hold, lock and reference; 0x31 arming;
0x34–0x39 the engines; 0x40 the replay, and the host port's owner; 0x44 the frame in progress; 0x48 and 0x49 the trunks' bring-up
states; 0x4C and 0x4D the packet and the message being taken; 0x50 the check and the move (word 0), the latches and repairs (word 1), the
grants and commands (word 2); 0x58 the frame being sent; 0x5C the flash operation; 0x60 the monitor converter; 0x64 the diagnostics
schedule; 0x68 the formatter; 0x70 the save. -/
def ctlCode (s : State) (page word : Nat) : Nat :=
  if page = 0x00 then s.pw.stage
  else if page = 0x03 then (match s.orb.st with | .idle => 0 | .locked => 1 | .seek => 2) + 4 * b2n s.orb.pastCut
  else if page = 0x28 then b2n s.pll.hold + 2 * b2n s.pll.lock + 4 * trunkCode (some s.pll.ref)
  else if page = 0x31 then (match s.acq.arm with | .disarmed => 0 | .priming => 1 | .armed => 2)
  else if pgIn page 0x34 0x39 then b2n (getSeam s (page - 0x34)).started + 2 * b2n (getSeam s (page - 0x34)).tp.running
  else if page = 0x40 then (if word = 0 then b2n s.ser.replaying else (s.ser.owner.map (fun m => masterIdx m + 1)).getD 0)
  else if page = 0x44 then s.frm.busyTo
  else if page = 0x48 then s.lnA.st
  else if page = 0x49 then s.lnB.st
  else if pgIn page 0x4C 0x4D then
    let d := getDl s (trunkOf (page - 0x4C))
    b2n d.asm.isSome + 2 * b2n d.ttOn + 4 * d.drop
  else if page = 0x50 then
    (if word = 0 then b2n s.sup.checking + 2 * b2n s.sup.moving + 4 * b2n s.sup.returning
     else if word = 1 then b2n s.sup.ta.latched + 2 * b2n s.sup.ta.repair + 4 * b2n s.sup.tb.latched + 8 * b2n s.sup.tb.repair
     else b2n s.sup.granted + 2 * trunkCode s.sup.prevCmd + 8 * trunkCode s.sup.coreTok + 32 * b2n s.sup.passed)
  else if page = 0x58 then (s.mg.prog.map (· + 1)).getD 0
  else if page = 0x5C then b2n s.slow.spiBusy
  else if page = 0x60 then b2n s.mon.running
  else if page = 0x64 then b2n s.pls.diag
  else if page = 0x68 then b2n s.her.on + 2 * b2n s.her.fmt
  else if page = 0x70 then b2n s.cal.saving.isSome
  else 0

/-- The upset still stands: its word has not been written, to all three copies, since (R288). -/
def upsetStands (s : State) (u : Upset) : Bool := decide (ctlCode s u.page u.word = u.was)

/-- Upsets of words that have been written since are gone: every slot start and every CK_SUP cycle looks. -/
def upsetsPast (s : State) : State := { s with fab := { s.fab with upsets := s.fab.upsets.filter (upsetStands s) } }

/-- The bits in which copy `k` of a control word differs from the voted code. In each bit at most one copy does, since two that did would
be the vote (R289). -/
def upsetBits (u : Upset) (k : Nat) : Nat :=
  if k = 0 then u.m0 else if k = 1 then u.m1 ^^^ (u.m1 &&& u.m0) else u.m2 ^^^ (u.m2 &&& (u.m0 ||| u.m1))

/-- Copy `k` of a control state machine's word (R288). -/
def ctlCopy (s : State) (page word k : Nat) : Nat :=
  match s.fab.upsets.find? (fun u => u.page == page && u.word == word && upsetStands s u) with
  | some u => ctlCode s page word ^^^ upsetBits u k
  | none => ctlCode s page word

/-- The bitwise majority of the copies of a control word, which is what every use takes: it is the voted code (R288, R289; lemma
`ctlVote_eq`). -/
def ctlVote (s : State) (page word : Nat) : Nat :=
  let a := ctlCopy s page word 0
  let b := ctlCopy s page word 1
  let c := ctlCopy s page word 2
  (a &&& b) ||| (a &&& c) ||| (b &&& c)

/-! ### Moves (R279–R282, R284) -/

/-- SV_LAST. -/
def setLast (reason dest result : Nat) (s : State) : State :=
  { s with sup := { s.sup with reason := reason, lastTo := dest, result := result } }

/-- The token moves to trunk `t`: it enters CHECKING, and the move start is still to come (R280). The moves of R279 are those with reason
1, 2 or 7; a command in the same CK_SUP cycle is declined (R285). -/
def moveToken (t : Trunk) (reason result : Nat) (s : State) : State :=
  let old := holder s
  let core := coreHolder s
  let s := setToken (some t) s
  let s := { s with sup := { s.sup with checking := true, moving := true, moveTo := t, prev := old, granted := true,
                                        returning := decide (reason = 6), lastHold := some t, startUp := decide (reason = 1),
                                        coreTok := core,
                                        decAt := if [1, 2, 7].contains reason then s.pw.sup + 1 else s.sup.decAt } }
  count 0x50 0 (setLast reason (tokenCode (some t)).toNat result s)

/-- No trunk holds the token: no check and no move is under way. -/
def noHolder (s : State) : State :=
  let s := setToken none s
  { s with sup := { s.sup with checking := false, moving := false, prev := none, prevCmd := none, returning := false } }

/-- The token goes to none: the hub is DARK, and a caravan frame in progress is cut off (R198, R283). -/
def goDark (reason result : Nat) (s : State) : State := setLast reason 0 result (noHolder (unsend s))

/-- A trunk becomes LATCHED; a repair that ran is over (R275, R285). -/
def latchTrunk (t : Trunk) (byCmd : Bool) (s : State) : State :=
  modTs t (fun u => { u with latched := true, byCmd := byCmd, repair := false, detect := false, latchAt := s.pw.sup }) s

/-- The preferred trunk (R284). -/
def preferred (s : State) : Trunk := if regF s 0x50 0x048 0 1 = 1 then .b else .a

/-- Row 1: the grant out of no holder (R284). The start-up grant to the other trunk is PREF_WAIT_EXPIRY's. -/
def grantRow (s : State) : State :=
  let p := preferred s
  if qualifies s p then moveToken p (if s.sup.granted then 7 else 1) 0 s
  else if s.sup.granted && qualifies s (peer p) then moveToken (peer p) 7 0 s
  else s

def setXdown (v : Bool) (s : State) : State :=
  onRise s.sup.xdown v 0x50 3 0 { s with sup := { s.sup with xdown := v } }

/-- Rows 4–7 for holder `h` (R279). -/
def holderRow (h : Trunk) (s : State) : State :=
  let o := peer h
  if !evGood s h then
    if qualifies s o then moveToken o 2 0 (latchTrunk h false s) else goDark 2 0 s
  else if evGood s o && decide ((getLn s o).st = 6) && !(hbSeen s .a && hbSeen s .b) then setXdown true s
  else setXdown false s

/-- The decision table in one CK_SUP cycle (R279). -/
def decide279 (s : State) : State :=
  match holder s with
  | none => if token s = 3 then s else grantRow s
  | some h => if s.sup.checking then s else holderRow h s

/-- Since when each trunk qualifies (R284). -/
def qualTrack (t : Trunk) (s : State) : State :=
  let q := qualifies s t
  modTs t (fun u => { u with qualAt := if q then (match u.qualAt with | some x => some x | none => some s.pw.sup) else none }) s

/-- SUPERVISOR_DECISION: one CK_SUP cycle. TBASE2 advances with it (R295), and with the first one the stage FUSE, whose work
POR_RELEASE has done, is over (R361, R370; DESIGN CHOICE, log entry 73). -/
def supCycle (s : State) : State :=
  let s := upsetsPast { s with pw := { s.pw with sup := s.pw.sup + 1, stage := if s.pw.stage = 1 then 2 else s.pw.stage } }
  let s := roleSync (evidenceCycle .b (evidenceCycle .a s))
  roleSync (decide279 (qualTrack .b (qualTrack .a s)))

/-- PREF_WAIT_EXPIRY (R284). -/
def prefWait (s : State) : State :=
  let o := peer (preferred s)
  if s.sup.granted ∨ token s ≠ 0 ∨ qualifies s (preferred s) = true ∨ qualifies s o = false then s
  else
    match (getTs s o).qualAt with
    | some t => if t + supMs (regF s 0x50 0x040 16 8) ≤ s.pw.sup then roleSync (moveToken o 1 0 s) else s
    | none => s

/-- MOVE_START: the first slot start after the token has crossed into CK_CORE (R280, R430, R256). -/
def moveStart (s : State) : State :=
  if !s.sup.moving ∨ !s.pw.coreRun ∨ holder s ≠ some s.sup.moveTo then s
  else
    let n := s.sup.moveTo
    let s := unsend s
    let s := if s.pll.ref = n then (if s.sup.startUp then count 0x02 5 (setUncomp s) else s) else changeRef n s
    let s := testCancel n s
    let s := modLn n (fun l => { l with eyeErr := [], eyeNow := [], eyeNew := none, held := true }) s
    dueSlot (peer n) { s with sup := { s.sup with moving := false, passed := false, startUp := false, moveAt := s.pw.elapsed + 4 * (dataLanes s + 2) } }

/-- The lanes that the check covers (R281). -/
def checkedLanes (s : State) : Nat := maskOf (List.range (dataLanes s) ++ [4, 5])

/-- A LATCH command's latch of the old holder falls due (R285). -/
def latchCmd (s : State) : State := match s.sup.prevCmd with | some t => latchTrunk t true s | none => s

/-- The check fails: the trunk is latched, and the token returns or the hub is DARK (R282). Where a LATCH command began the move, the old
holder becomes LATCHED unless the token returns to it (R285). -/
def checkFail (h : Trunk) (s : State) : State :=
  let s := count 0x50 1 (latchTrunk h false s)
  let back := match s.sup.prev with
    | some p => if decide ((getLn s p).st = 6) && !(getTs s p).repair && evGood s p && !s.sup.returning then some p else none
    | none => none
  match back with
  | some p => moveToken p 6 2 { (modTs p (fun u => { u with latched := false, byCmd := false }) s) with
      sup := { (modTs p (fun u => { u with latched := false, byCmd := false }) s).sup with prevCmd := none } }
  | none => goDark s.sup.reason 3 (latchCmd s)

/-- The check passes: the trunk is ACTIVE, a LATCH command's latch falls due, and Serai starts a replay (R280, R285, R198). With the first
grant's check the work of stage 4 is done (R361, R427; DEDUCED, log entry 72). -/
def checkPass (s : State) : State :=
  let s := latchCmd s
  startReplay { s with sup := { s.sup with checking := false, prev := none, prevCmd := none, returning := false, passed := true },
                       pw := { s.pw with stage := max s.pw.stage 5 } }

/-- TAKEOVER_CHECK_END with the lanes the checker saw fail (R281, R282). Bad evidence ends the check at once. -/
def checkEnd (fails : BitVec 6) (s : State) : State :=
  match holder s with
  | none => s
  | some h =>
    if !s.sup.checking then s
    else
      let bad := fails.toNat &&& checkedLanes s
      let t := { s with sup := { s.sup with failL := BitVec.ofNat 6 bad } }
      if !evGood s h then roleSync (checkFail h t)
      else if s.sup.moving ∨ s.pw.elapsed < s.sup.moveAt then s
      else if bad ≠ 0 then roleSync (checkFail h t) else roleSync (checkPass t)

/-! ### CK_CORE's stop and return (R86, R283, R428) -/

/-- CK_CORE stops where it stands: the slot is not completed, nor is a caravan frame in progress (R283, R198). -/
def coreStop (s : State) : State :=
  let s := unsend s
  let s := modTag (fun t => { t with cut := some s.pw.cyc }) s
  let s := { s with orb := { s.orb with oasis := { s.orb.oasis with holdSeen := s.orb.oasis.holdSeen || s.orb.oasis.sweeping } } }
  let start := if fwdOk s s.pll.ref then s.pll.ref else if fwdOk s (peer s.pll.ref) then peer s.pll.ref else s.pll.ref
  { s with pw := { s.pw with coreRun := false, coreStopped := true }, acq := { s.acq with pinNext := 0 }, pll := { s.pll with lock := false, start := start } }

/-- Phase lock on the reference: the PLL has been within its bounds for 64 consecutive slots, all of them since HOLD rose or the
reference changed (R86). -/
def phaseLock (s : State) : State :=
  if s.pll.hold && fwdOk s s.pll.ref && s.pw.coreRun && decide (s.pll.lockFrom + 64 ≤ s.pw.elapsed) then
    let s := setPhase false s.pll.uncomp s
    { s with pll := { s.pll with lock := true, phaseLost := false } }
  else s

/-- A hold reaches 100 µs, 32,000 core cycles (R86, R283). -/
def holdTimeout (s : State) : State :=
  if !s.pll.hold ∨ !s.pw.coreRun ∨ s.pw.cc < s.pll.holdAt + 32000 then s
  else
    let s := if s.pll.phaseLost then s
      else count 0x02 1 (setUncomp { s with pll := { s.pll with phaseLost := true } })
    if fwdOk s s.pll.ref || s.sup.moving then s
    else if fwdOk s (peer s.pll.ref) then changeRef (peer s.pll.ref) s
    else coreStop s

/-! ### Commands (R285, R286) -/

/-- A power cycle (R286). What its peer has seen of its heartbeat fails only with time (R277). -/
def powerCycle (t : Trunk) (s : State) : State :=
  count 0x50 6 (modTs t (fun u => { u with repair := true, tpwr := false, lowAt := s.pw.sup }) s)

def declined (reason : Nat) (s : State) : State := count 0x50 5 (setLast reason (token s % 3) 1 s)

/-- A command of SV_FORCE as it is applied; the register then reads 0 (R285). -/
def forceCmd (v : Nat) (s : State) : State :=
  let t := trunkOf (fld v 4 1)
  let cmd := v % 4
  let late := decide (s.sup.decAt = s.pw.sup + 1)
  let s := setReg 0x50 0x04C 0 s
  if cmd = 0 then s
  else if cmd = 1 then
    match holder s with
    | some h =>
      if !late && !s.sup.checking && decide (roleOf s (peer h) = 2) then roleSync (moveToken (peer h) 3 0 s) else declined 3 s
    | none => declined 3 s
  else if cmd = 2 then
    if holder s = some t then
      (if !late && !s.sup.checking && decide (roleOf s (peer t) = 2) then
        let s := moveToken (peer t) 4 0 s
        roleSync { s with sup := { s.sup with prevCmd := some t } }
       else declined 4 s)
    else if late then declined 4 s
    else roleSync (latchTrunk t true (setLast 4 (token s % 3) 0 s))
  else if !late && decide (roleOf s t = 7) && decide (holder s ≠ some t) then
    roleSync (powerCycle t (setLast 5 (token s % 3) 0 s))
  else declined 5 s

/-- PCYCLE_OFF_END: TPWR goes high again, whatever has become of the repair (R286). -/
def pcycleEnd (t : Trunk) (s : State) : State :=
  let u := getTs s t
  if !u.tpwr && decide (u.lowAt + supMs (regF s 0x50 0x040 24 8) ≤ s.pw.sup) then
    roleSync (modTs t (fun u => { u with tpwr := true, highAt := s.pw.sup }) s)
  else s

/-- REPAIR_TIMEOUT: the power-cycled trunk has not reached SERVICE, and is latched until another repair (R286, R287). -/
def repairTimeout (t : Trunk) (s : State) : State :=
  let u := getTs s t
  if u.repair && u.tpwr && decide (u.highAt + supMs (regF s 0x50 0x044 0 16) ≤ s.pw.sup) then
    roleSync (count 0x50 7 (modTs t (fun u => { u with repair := false, latched := true, detect := false, latchAt := s.pw.sup, fails := u.fails + 1 }) s))
  else s

/-- AUTO_REPAIR (R287). -/
def autoRepair (t : Trunk) (s : State) : State :=
  let u := getTs s t
  let tries := regF s 0x50 0x044 16 4
  if u.latched && !u.repair && !u.byCmd && decide (u.fails < tries) && decide (holder s ≠ some t)
      && decide (u.latchAt + supMs (100 * regF s 0x50 0x044 24 8) ≤ s.pw.sup) then
    roleSync (powerCycle t s)
  else s

/-- The soft reset of page 0x50 (R292). -/
def supReset (s : State) : State :=
  let s := modTs .b (fun u => { u with fails := 0 }) (modTs .a (fun u => { u with fails := 0 }) s)
  { s with sup := { s.sup with reason := 0, lastTo := 0, result := 0, failL := 0 } }

/-! ### Scrubbing (R278, R288) -/

def triFix (t : Tri) : Tri := ⟨vote t, vote t, vote t⟩

def triBad (t : Tri) : Bool := t.a != t.b || t.a != t.c

/-- Scrubs the words of one store that `live` admits: the scrubbed store and how many words differed. -/
def scrubRam (live : Nat → Bool) (m : Ram Tri) : Ram Tri × Nat :=
  (m.map (fun p => if live p.1 then (p.1, triFix p.2) else p), (m.filter (fun p => live p.1 && triBad p.2)).length)

/-- Words in force that the vote brings back to the reset word are unlisted again. -/
def normRegs (m : Ram Tri) : Ram Tri := m.filter (fun p => !decide (p.2 = resetAt p.1))

/-- The token's scrub: a voted 0b11 becomes 0b00 in all copies, and a check or move that ran is over; else the majority. -/
def scrubToken (s : State) : State × Nat :=
  let v := BitVec.ofNat 2 (token s)
  let bad := s.sup.tok0 != v || s.sup.tok1 != v || s.sup.tok2 != v
  if token s = 3 then (noHolder s, b2n bad)
  else ({ s with sup := { s.sup with tok0 := v, tok1 := v, tok2 := v } }, b2n bad)

/-- Control state machine words of running domains whose copies differ. -/
def ctlBad (s : State) : List (Nat × Nat) :=
  ((s.fab.upsets.map (fun u => (u.page, u.word))).dedup).filter (fun p =>
    pageRuns s p.1 && !(ctlCopy s p.1 p.2 0 == ctlCopy s p.1 p.2 1 && ctlCopy s p.1 p.2 0 == ctlCopy s p.1 p.2 2))

/-- SCRUB_PASS: every triplicated word of the running domains is read, and the majority goes into a copy that differs (R288). -/
def scrubPass (s : State) : State :=
  let live (a : Nat) : Bool := pageRuns s (a / 0x1000)
  let r := scrubRam live s.fab.regs
  let b := scrubRam live s.fab.buf
  let f := match s.fab.frozen with
    | some m => (some (scrubRam live m).1, (scrubRam live m).2)
    | none => (none, 0)
  let t := scrubToken s
  let n := r.2 + b.2 + f.2 + t.2 + (ctlBad s).length
  let s := { t.1 with fab := { s.fab with regs := normRegs r.1, buf := b.1, frozen := f.1,
                                          upsets := s.fab.upsets.filter (fun u => !pageRuns s u.page),
                                          passes := (s.fab.passes + 1) % 65536 } }
  roleSync (countN 0x50 8 n s)

end Sys2Proof.Machine
end

