-- ==== Sys2Proof/Machine/TimeBase.lean ====
section
/-! DEFINITION. Time bases (chapter 14): increments, steps and loads, captures, timestamp records, time transfer, launches. -/

namespace Sys2Proof.Machine

/-! ### Values (R293–R296) -/

/-- PHASE of TBASE0 at core-cycle resolution, a multiple of 8,192; within a long slot (R69) it stays at the last multiple that 16 bits
hold (DEDUCED, log entry 17). -/
def phaseNow (s : State) : Nat := min 57344 (8192 * s.pw.cyc)

/-- TBASE0 in the 64-bit form of R293. -/
def tb0 (s : State) : Nat := s.orb.orbit * 2 ^ 32 + s.orb.slot % 4096 * 65536 + phaseNow s

/-- ns of a base. -/
def nsOf (t : Nat) : Nat := t / 2 ^ 32 % 2 ^ 64

/-- TBASE2 with its zero fraction. -/
def tb2 (s : State) : Nat := 50 * s.pw.sup * 2 ^ 32

def tBase (s : State) (n : NetBase) : Nat := match n with | .tb1 => s.tb.t1 | .tb3 => s.tb.t3
def incrOf (s : State) (n : NetBase) : Nat := match n with | .tb1 => s.tb.incr1 | .tb3 => s.tb.incr3
def isSet (s : State) (n : NetBase) : Bool := match n with | .tb1 => s.tb.set1 | .tb3 => s.tb.set3
def inGap (s : State) (n : NetBase) : Bool := match n with | .tb1 => s.tb.gap1 | .tb3 => s.tb.gap3
def inHoldover (s : State) (n : NetBase) : Bool := match n with | .tb1 => s.tb.hov1 | .tb3 => s.tb.hov3

def incrReg (n : NetBase) : Nat := match n with | .tb1 => 0x048 | .tb3 => 0x050

/-! ### Increments (R297, R298) -/

/-- An increment write: the increment governs from the next core cycle on. -/
def setIncr (n : NetBase) (v now : Nat) (b : Bases) : Bases :=
  match n with
  | .tb1 => { b with ni1 := some v, wr1 := now, hov1 := false }
  | .tb3 => { b with ni3 := some v, wr3 := now, hov3 := false }

/-- A write of INCRn_INT commits it with the held fraction, or is refused (R297). -/
def incrCommit (m : Master) (n : NetBase) (v : Nat) (s : State) : State :=
  let a := 0x54000 + incrReg n + 4
  let x := v % 256 * 2 ^ 32 + regAt s 0x54 (incrReg n)
  if x < 0x0200000000 ∨ 0x0400000000 < x then refuseAt m a 0x02 s
  else
    let s := setReg 0x54 (incrReg n + 4) (v % 256) s
    { s with tb := setIncr n x s.pw.sup s.tb }

/-- HOLDOVER: HOLDn ms without an increment write (R298). -/
def holdoverSet (n : NetBase) (s : State) : State :=
  let lim := match n with | .tb1 => regF s 0x54 0x058 0 16 | .tb3 => regF s 0x54 0x058 16 16
  let wr := match n with | .tb1 => s.tb.wr1 | .tb3 => s.tb.wr3
  if lim = 0 ∨ inHoldover s n = true ∨ s.pw.sup < wr + supMs lim then s
  else
    match n with
    | .tb1 => count 0x54 1 { s with tb := { s.tb with hov1 := true } }
    | .tb3 => count 0x54 2 { s with tb := { s.tb with hov3 := true } }

/-! ### Steps and loads (R299) -/

def tcmdBase (v : Nat) : NetBase := if v.testBit 4 then .tb3 else .tb1

/-- ns of the base after the command. -/
def tcmdNs (op ns tval : Nat) : Nat := if op = 1 then (ns + tval) % 2 ^ 64 else tval % 2 ^ 64

/-- Magnitude of a step or load. -/
def tcmdMag (op ns tval : Nat) : Nat := if op = 1 then (sgn tval 64).natAbs else ((tval : Int) - ns).natAbs

/-- The command would be refused with STEP_REFUSED. -/
def stepRefused (s : State) (tcmd tval limit : Nat) : Bool :=
  let n := tcmdBase tcmd
  (decide (tcmd % 4 = 1) || decide (tcmd % 4 = 2)) && isSet s n && !inGap s n && decide (limit < tcmdMag (tcmd % 4) (nsOf (tBase s n)) tval)

/-- The command acts on its base, which shows it from the next core cycle on (R294); a load or step sets the base and ends its GAP. -/
def stepApply (tcmd tval : Nat) (s : State) : State :=
  let op := tcmd % 4
  if op = 0 ∨ op = 3 then s
  else
    let n := tcmdBase tcmd
    let t := tBase s n
    let v := tcmdNs op (nsOf t) tval * 2 ^ 32 + (if op = 1 then t % 2 ^ 32 else 0)
    match n with
    | .tb1 => { s with tb := { s.tb with nx1 := some v, set1 := true, gap1 := false } }
    | .tb3 => { s with tb := { s.tb with nx3 := some v, set3 := true, gap3 := false } }

/-- CK_CORE runs again: GAP of every set base (R296). -/
def gapSet (s : State) : State :=
  if s.tb.set1 || s.tb.set3 then
    count 0x54 3 { s with tb := { s.tb with gap1 := s.tb.gap1 || s.tb.set1, gap3 := s.tb.gap3 || s.tb.set3 } }
  else s

/-! ### Captures (R300, R301) -/

/-- A base as fraction, low and high word. -/
def tWords (t : Nat) : List Word := [BitVec.ofNat 32 t, BitVec.ofNat 32 (t / 2 ^ 32), BitVec.ofNat 32 (t / 2 ^ 64)]

/-- The 16 words of an orbit-start capture. -/
def ocapEntry (s : State) (orbit slot : Nat) (realign : Bool) : List Word :=
  let w1 := slot % 4096 + 0x10000 * b2n realign + 0x20000 * b2n s.tb.set1 + 0x40000 * b2n s.tb.set3
    + 0x80000 * b2n s.tb.hov1 + 0x100000 * b2n s.tb.hov3 + 0x200000 * b2n s.tb.gap1 + 0x400000 * b2n s.tb.gap3
    + 0x800000 * b2n (s.pll.hold || s.pll.uncomp)
  [BitVec.ofNat 32 orbit, BitVec.ofNat 32 w1] ++ tWords s.tb.t1 ++ tWords (tb2 s) ++ tWords s.tb.t3
    ++ [BitVec.ofNat 32 s.tb.incr1, BitVec.ofNat 32 s.tb.incr3,
        BitVec.ofNat 32 (s.tb.incr1 / 2 ^ 32 % 256 + 256 * (s.tb.incr3 / 2 ^ 32 % 256)), 0, BitVec.ofNat 32 orbit]

/-- ORBIT_CAPTURE into the history. -/
def orbitCapture (orbit slot : Nat) (realign : Bool) (s : State) : State :=
  { s with tb := { s.tb with ocap := ramPut [] s.tb.ocap (orbit % 16) (ocapEntry s orbit slot realign), ocapN := orbit } }

/-- TB_CTL.LATCH (R301). -/
def latchBases (s : State) : State :=
  let z := tb0 s
  { s with tb := { s.tb with
    latch := [BitVec.ofNat 32 z, BitVec.ofNat 32 (z / 2 ^ 32)] ++ tWords s.tb.t1 ++ tWords (tb2 s) ++ tWords s.tb.t3,
    latchN := (s.tb.latchN + 1) % 256 } }

/-! ### Timestamp records (R302, R303) -/

/-- The value a base gives an event `m` sixty-fourths into the core cycle, moved by a correction of 2^−8 ns units. -/
def tsInt (s : State) (n : NetBase) (m : Nat) (corr : Int) : Int := ((tBase s n + m * incrOf s n / 64 : Nat) : Int) + corr * 2 ^ 24

def tsValue (s : State) (n : NetBase) (m : Nat) (corr : Int) : Nat := (tsInt s n m corr % (2 ^ 96 : Nat)).toNat

def tsRx (s : State) (n : NetBase) (m : Nat) : Nat := tsValue s n m (-(sgn (regAt s 0x54 0x06C) 16))

/-- The instant at which a timestamp point now at position `m` leaves the pins: t_tx. -/
def pinAt (s : State) (n : NetBase) (m : Nat) : Int := tsInt s n m (sgn (regAt s 0x54 0x070) 16)

def tsTx (s : State) (n : NetBase) (m : Nat) : Nat := tsValue s n m (sgn (regAt s 0x54 0x070) 16)

/-- A base runs, is set and is not in GAP. -/
def baseOk (s : State) (n : NetBase) : Bool := s.pw.coreRun && isSet s n && !inGap s n

/-- A 24-byte timestamp record; `times` is absent for zero times. -/
def tsRecord (s : State) (times : Option (Nat × Nat)) (id : Nat) (egress oneStep late : Bool) (queue : Nat) : List Byte :=
  let t := match times with | some p => if s.pw.coreRun then p else (0, 0) | none => (0, 0)
  let flags := b2n egress + 2 * b2n (baseOk s .tb1) + 4 * b2n (baseOk s .tb3) + 8 * b2n s.tb.hov1 + 16 * b2n s.tb.hov3
    + 32 * b2n oneStep + 64 * b2n late
  leBytes 8 (nsOf t.1) ++ leBytes 2 (t.1 / 65536) ++ leBytes 2 (t.2 / 65536) ++ leBytes 8 (nsOf t.2) ++ leBytes 2 id
    ++ [BitVec.ofNat 8 flags, BitVec.ofNat 8 (queue % 4)]

/-- A record enters the egress timestamp FIFO, or is lost. -/
def tsePush (r : List Byte) (s : State) : State :=
  if 16 ≤ s.tb.tse.length then count 0x54 6 s else { s with tb := { s.tb with tse := s.tb.tse ++ [r] } }

/-- TSE_CTL.POP. -/
def tsePopHead (s : State) : State := { s with tb := { s.tb with tse := s.tb.tse.tail } }

/-! ### Time transfer (R304, R305) -/

/-- A message in progress is aborted and counted. -/
def ttAbort (t : Trunk) (s : State) : State :=
  if (getDl s t).ttOn then count 0x54 7 (modDl t (fun d => { d with ttOn := false, tt := [] }) s) else s

/-- The first core cycle of a slot: a message whose first frame lands in this slot captures the bases here (R305). -/
def ttCapture (t : Trunk) (s : State) : State :=
  modDl t (fun d => if d.ttOn && d.ttFrom == s.pw.elapsed then { d with ttC1 := s.tb.t1, ttC3 := s.tb.t3 } else d) s

/-- One KIND 2 byte in landing slot `e` with slot number `n`. The first one holds the bases of the present slot's first core cycle,
until the landing slot starts where that is still to come. Two frames can land in the slot of a grid move (log entry 62). -/
def ttByte (t : Trunk) (b e n : Nat) (s : State) : State :=
  if regF s 0x54 0x040 1 1 = 0 then s
  else if !holds s t then (if b.testBit 5 then count 0x54 8 s else s)
  else if b.testBit 5 then
    let s := ttAbort t s
    modDl t (fun d => { d with ttOn := true, tt := [b % 32], ttAt := e + 1, ttFrom := e, ttC1 := s.tb.s1, ttC3 := s.tb.s3, ttSlot := n }) s
  else if !(getDl s t).ttOn ∨ 20 ≤ (getDl s t).tt.length then s
  else if (getDl s t).ttAt < e then ttAbort t s
  else modDl t (fun d => { d with tt := d.tt ++ [b % 32], ttAt := e + 1 }) s

/-- Value of the message bits, five a frame. -/
def ttBits : List Nat → Nat
  | [] => 0
  | b :: t => b % 32 + 32 * ttBits t

/-- A message in progress that no frame continues in its slot, or whose trunk lost ACTIVE, is aborted. -/
def ttGap (t : Trunk) (s : State) : State :=
  let d := getDl s t
  if d.ttOn && (!holds s t || (decide (d.tt.length < 20) && decide (d.ttAt < s.pw.elapsed))) then ttAbort t s else s

/-- TIME_TRANSFER_MESSAGE of trunk `t`: a complete message is checked and recorded, or aborted. -/
def ttMessage (t : Trunk) (s : State) : State :=
  let d := getDl s t
  if !d.ttOn then s
  else if !holds s t then ttAbort t s
  else if d.tt.length ≠ 20 then s
  else
    let v := ttBits d.tt
    if crc8 (leBytes 11 (fld v 0 88)) ≠ fld v 88 8 then ttAbort t s
    else
      let c := if v.testBit 80 then d.ttC3 else d.ttC1
      let s := modDl t (fun d => { d with ttOn := false, tt := [] }) s
      { s with tb := { s.tb with ttV := fld v 0 64, ttVf := fld v 64 16, ttC := nsOf c, ttCf := fld c 16 16,
                                 ttBase := fld v 80 1, ttCount := (s.tb.ttCount + 1) % 256, ttSlot := d.ttSlot } }

/-! ### Launches (R306–R308) -/

/-- Bytes that the bale being written of queue `q` holds. -/
def curBytes (s : State) (q : Nat) : Nat := match (getQ s q).cur with | some b => b.bytes.length | none => 0

/-- The bytes of the bale at the head of a queue that a reader may see, as they are delivered (R201): all of a closed bale, and the whole
read words of one that can be cut through (R191, R192). -/
def headBytes (s : State) (q : Nat) : List Byte :=
  let x := getQ s q
  match x.ready with
  | b :: _ => eccBytes s b.id 0 b.bytes
  | [] => match x.cur with
    | some b => if isCClass q && !x.discard then eccBytes s b.id 0 (b.bytes.take (b.bytes.length / 16 * 16)) else []
    | none => []

/-- Launch instant of an uplink bale: orbit and slot of its header. -/
def upLaunch (l : List Byte) : Nat × Nat := (leNat ((l.drop 9).take 4), leNat ((l.drop 7).take 2) % 4096)

/-- Slots from a launch instant to the present slot; negative before it. -/
def sinceLaunch (s : State) (o n : Nat) : Int :=
  sgn (s.orb.orbit + 2 ^ 32 - o % 2 ^ 32) 32 * (regF s 0x03 0x040 0 12 : Nat) + ((s.orb.slot : Int) - n)

def upOutOfReach (s : State) (o : Nat) : Bool := decide (1024 < sgn (o + 2 ^ 32 - s.orb.orbit % 2 ^ 32) 32)

/-- LAUNCH of the present slot's live entry. -/
def launchSlot (s : State) : Bool := (ramGet (0 : Word) s.orb.live s.orb.slot).getLsbD 6

/-- The base set for a launched egress queue (R307). -/
def launchBase (s : State) (q : Nat) : NetBase :=
  if regF s 0x54 0x074 (if q = 22 then 0 else 2) 2 = 3 then .tb3 else .tb1

def mgLaunch (l : List Byte) : Nat := leNat ((l.drop 8).take 8)

def mgOutOfReach (s : State) (q launch : Nat) : Bool :=
  let n := launchBase s q
  !isSet s n || inGap s n || decide (nsOf (tBase s n) + 2 ^ 32 < launch)

/-- Marks the head of queue `q` released. -/
def releaseHead (q : Nat) (s : State) : State := modQ q (fun x => { x with released := true }) s

/-- A head with bytes that is not released and of which nothing has been taken. -/
def headWaits (s : State) (q : Nat) : Bool :=
  let x := getQ s q
  !(headBytes s q).isEmpty && !x.released && decide (x.sent = 0) && (!x.ready.isEmpty || decide (x.curSent = 0))

/-- LAUNCH_WAIT: a closed head, or one that could be cut through, waits for its launch (R195, R192). -/
def waitsLaunch (s : State) (q : Nat) : Bool :=
  isTimed q && headWaits s q && (!(getQ s q).ready.isEmpty || decide (qReg s q 4 16 12 ≤ curBytes s q))

/-- The launch instant of the head of Q22 or Q23 has come for a timestamp point at position `m` of this core cycle (R307). -/
def mgReached (s : State) (q m : Nat) : Bool :=
  let l := headBytes s q
  decide (((mgLaunch l * 2 ^ 32 : Nat) : Int) ≤ pinAt s (launchBase s q) m)

/-- The head bale of a queue leaves it unsent; the rest of a bale still being written is discarded as it comes. -/
def removeHead (q : Nat) (s : State) : State :=
  match (getQ s q).ready with
  | _ :: t => seraiSync (modQ q (fun x => { x with ready := t, sent := 0, released := false, late := false, ctUnder := false }) s)
  | [] => modQ q (fun x => { x with discard := x.cur.isSome, released := false, late := false }) s

/-- The head of queue `q` is late, on Q22 and Q23 for a timestamp point at position `m` of this core cycle (R308). -/
def lateHead (s : State) (q m : Nat) : Bool :=
  let l := headBytes s q
  if q < 20 then
    let p := upLaunch l
    upOutOfReach s p.1 || decide ((regF s 0x54 0x078 0 8 : Nat) + 1 ≤ sinceLaunch s p.1 p.2)
  else
    decide (16 ≤ l.length) &&
      (mgOutOfReach s q (mgLaunch l)
        || decide ((((mgLaunch l + regF s 0x54 0x078 16 16) * 2 ^ 32 : Nat) : Int) < pinAt s (launchBase s q) m))

/-- The head of queue `q` is late: it is released at once or dropped. -/
def lateAct (q : Nat) (s : State) : State :=
  let drop := if q < 20 then regF s 0x54 0x074 8 1 = 1 else regF s 0x54 0x074 9 1 = 1
  if drop then
    let l := headBytes s q
    let s := if 20 ≤ q ∧ (l.getD 2 0).getLsbD 0 = true then
      tsePush (tsRecord s none (leNat ((l.drop 4).take 2)) true false true (q - 20)) s else s
    countD 0x54 5 q (removeHead q s)
  else countD 0x54 4 q (modQ q (fun x => { x with released := true, late := true }) s)

/-- LAUNCH_RELEASE (R306, R307): the head is released at its launch instant, on Q16–Q19 at the first core cycle of a slot whose live
entry has LAUNCH; one that is late already meets its policy. -/
def launchRelease (q : Nat) (s : State) : State :=
  let l := headBytes s q
  if !isTimed q ∨ !headWaits s q then s
  else if lateHead s q 0 then lateAct q s
  else if q < 20 then
    let p := upLaunch l
    if decide (s.pw.cyc = 0) && launchSlot s && decide (0 ≤ sinceLaunch s p.1 p.2) then releaseHead q s else s
  else if decide (16 ≤ l.length) && mgReached s q 0 then releaseHead q s
  else s

/-- LAUNCH_LATE: a late head is sent at once or dropped (R308). -/
def launchLate (q : Nat) (s : State) : State :=
  if !isTimed q ∨ !headWaits s q ∨ !lateHead s q 0 then s else lateAct q s

/-- The page soft reset of page 0x54 (R312); LATCH_SEQ is no word of the latch set and stays. -/
def tbReset (s : State) : State :=
  { s with tb := { s.tb with tse := [], latch := List.replicate 11 0, ttV := 0, ttC := 0, ttVf := 0, ttCf := 0,
                             ttBase := 0, ttCount := 0, ttSlot := 0 } }

end Sys2Proof.Machine
end

