-- ==== Sys2Proof/Machine/Flags.lean ====
section
/-! DEFINITION. Status: what the LV, RO and CP words read, the page header, the alarms of R469, capture pairs, and the plain read of
a word (R332, R334, R363). -/

namespace Sys2Proof.Machine

/-! ### The slot map as read (R23, R28) -/

/-- The oasis of a map under an orbit length: first slot and length of its span. -/
def oasisSpan (m : Ram Word) (len : Nat) : Option (Nat × Nat) :=
  match (m.filter (fun p => decide (p.1 < len) && p.2.getLsbD 0)).map (·.1) with
  | [] => none
  | n :: t => some (n, t.length + 1)

def orbLen (s : State) : Nat := regF s 0x03 0x040 0 12
def orbOfs (s : State) : Nat := regF s 0x03 0x044 0 12

def declOasis (s : State) : Option (Nat × Nat) := oasisSpan s.orb.live (orbLen s)

/-- Slot number that the window word at `o` of slot map page `p` shows. -/
def smapSlot (s : State) (p o : Nat) : Nat := 1024 * (p - 0x04) + 256 * regF s p 0x040 0 2 + (o - 0x400) / 4

/-- A shadow entry as a read shows it: while a copy runs, the entries it has passed hold the live value (R27). -/
def shadowRead (s : State) (n : Nat) : Word :=
  match ramFind s.orb.copies (n / 1024) with
  | some c => if n % 1024 < s.pw.cc - c.start ∧ !c.written.contains n then ramGet 0 s.orb.live n else ramGet 0 s.orb.shadow n
  | none => ramGet 0 s.orb.shadow n

/-- Pending buffered values of a page (R339). -/
def updPending (s : State) (p : Nat) : Bool :=
  s.fab.buf.any (fun e => e.1 / 0x1000 == p) || (pgIn p 0x04 0x07 && s.orb.dirty.any (fun n => n / 1024 == p - 0x04))

def bufGet (s : State) (p o : Nat) : Nat :=
  match ramFind s.fab.buf (p * 0x1000 + o) with
  | some t => (vote t).toNat
  | none => regAt s p o

/-! ### Largest quality figures -/

/-- Largest measured value and the lowest index that holds it; 0xFF when none is measured. -/
def maxMeasured (l : List Nat) : Nat × Nat :=
  let m := (l.filter (· != 0xFF)).foldl max 0
  match (l.zipIdx).find? (fun p => p.1 != 0xFF && p.1 == m) with
  | some p => (m, p.2)
  | none => (0xFF, 0)

/-- Four values as bytes of a word. -/
def word4 (f : Nat → Nat) : Nat := f 0 % 256 + 0x100 * (f 1 % 256) + 0x10000 * (f 2 % 256) + 0x1000000 * (f 3 % 256)

/-- Bits 0–31 of a predicate. -/
def bits32 (f : Nat → Bool) : Nat := maskOf ((List.range 32).filter f)

/-! ### Alarms (R469) -/

def pageAlarm (s : State) (p : Nat) : Bool :=
  if p = 0x00 then s.cal.fuseBad || s.cal.userBad || s.pw.xtalLost
  else if p = 0x02 then s.pll.hold || s.pll.phaseLost
  else if pgIn p 0x10 0x1B then (List.range 32).any (fun k => (getChan s (32 * (p - 0x10) + k)).held)
  else if pgIn p 0x20 0x25 then
    residHigh s (p - 0x20) || (List.range 64).any (fun k => (getConv s (64 * (p - 0x20) + k)).shownRet)
  else if p = 0x28 then s.pll.uncomp || trackLim s || phaseHigh s
  else if p = 0x30 then s.acq.wmHigh
  else if p = 0x40 then s.ser.memLow
  else if p = 0x44 then s.frm.unfit
  else if p = 0x48 then eyeLow s .a || s.lnA.capMis
  else if p = 0x49 then eyeLow s .b || s.lnB.capMis
  else if p = 0x4C then s.dlA.near
  else if p = 0x4D then s.dlB.near
  else if p = 0x50 then dark s || s.sup.xdown || decide (roleOf s .a = 7) || decide (roleOf s .b = 7)
  else if p = 0x54 then s.tb.hov1 || s.tb.hov3 || s.tb.gap1 || s.tb.gap3
  else if p = 0x58 then !s.mg.link
  else if p = 0x5C then !s.slow.hdrOk
  else if p = 0x60 then s.mon.ovr
  else if p = 0x64 then !(sitesIn s 2).isEmpty || anyBar s
  else if p = 0x70 then s.cal.saveFail || s.cal.lockIgn
  else if p = 0x7C then decide (s.fab.store.length = 32)
  else false

/-! ### The header (R332) -/

def enBit (s : State) (p : Nat) : Nat :=
  match enReset p with
  | some _ => bufGet s p 0x004 % 2
  | none => 1

def headerWord (s : State) (p o : Nat) : Nat :=
  let x := pageSt s p
  if o = 0x000 then pageId p
  else if o = 0x004 then enBit s p + 16 * regF s p 0x004 4 4
  else if o = 0x008 then
    b2n x.active + 2 * b2n x.draining + 4 * b2n x.posted.isSome + 8 * b2n (updPending s p) + 16 * b2n x.refused
      + 32 * b2n (pageAlarm s p)
  else if o = 0x00C then x.cause
  else if 0x010 ≤ o ∧ o ≤ 0x01C then word4 (fun k => tallyOf s p (o - 0x010 + k))
  else if o = 0x024 then x.gen
  else 0

/-! ### Live words by page -/

def live00 (s : State) (o : Nat) : Nat :=
  if o = 0x040 then 0x00020384
  else if o = 0x044 then 1 + 0x100 * factByte s 8
  else if o = 0x048 then factVal s 0 4
  else if o = 0x04C then factVal s 4 4
  else if o = 0x050 then 0x10384B47
  else if o = 0x054 then
    s.pw.stage % 8 + 0x100 * b2n s.cal.fuseBad + 0x200 * b2n s.cal.userBad + 0x400 * b2n s.pw.xtalLost + 0x800 * b2n s.pw.coreRun
  else 0

def live01 (s : State) (o : Nat) : Nat :=
  if o = 0x048 then s.fab.marked.toNat + 0x10000 * s.fab.next.toNat
  else if o = 0x04C then s.fab.applied.toNat + 0x10000 * s.fab.refused.toNat
  else if o = 0x054 then
    maskOf ((List.range 4).filter (fun m => (s.fab.masters.getD m {}).stale))
      + 16 * maskOf ((List.range 4).filter (fun m => !(s.fab.masters.getD m {}).guards.isEmpty))
  else 0

def live02 (s : State) (o : Nat) : Nat :=
  if o = 0x044 then b2n s.pll.lock + 2 * b2n s.pll.hold + 4 * tIdx s.pll.ref + 8 * b2n s.pll.phaseLost
  else if o = 0x048 then uns s.pll.skew 16 + 0x10000 * b2n s.pll.skewValid
  else 0

def orbCode (s : State) : Nat := match s.orb.st with | .idle => 0 | .locked => 1 | .seek => 2

/-- The present slot belongs to an oasis in which oasis work runs (R40). -/
def inOasis (s : State) : Bool :=
  s.orb.oasis.running && decide (s.orb.oasis.start ≤ s.pw.elapsed) && decide (s.pw.elapsed < s.orb.oasis.start + s.orb.oasis.len)

def live03 (s : State) (o : Nat) : Nat :=
  if o = 0x050 then orbCode s + 4 * b2n (inOasis s)
  else if o = 0x054 then s.orb.slot
  else if o = 0x058 then s.orb.orbit
  else if o = 0x05C then
    (match declOasis s with
     | some p => p.1 + 0x1000 * p.2
     | none => 0x1000000)
  else 0

def liveSmap (s : State) (p o : Nat) : Nat :=
  if o = 0x044 then b2n (ramHas s.orb.copies (p - 0x04))
  else if 0x400 ≤ o ∧ o < 0x800 then
    (if regF s p 0x040 2 1 = 1 then ramGet (0 : Word) s.orb.live (smapSlot s p o) else shadowRead s (smapSlot s p o)).toNat
  else 0

def liveSeam (s : State) (i o : Nat) : Nat :=
  let x := getSeam s i
  if o = 0x04C then (2 - bufUsed x) + 4 * b2n (!x.lifts.isEmpty) + 8 * b2n (primed s i)
  else if o = 0x050 then x.startSlot
  else if o = 0x054 then x.startOrb
  else 0

def liveChan (s : State) (p o : Nat) : Nat :=
  let k := (o - 0x040) / 0x80
  let c := 32 * (p - 0x10) + k
  let b := (o - 0x040) % 0x80 + 0x040
  if b = 0x048 then pedIn (getChan s c) s.pw.elapsed + 0x80000000 * b2n (getChan s c).held
  else if b = 0x078 then
    let f := getFlint s c
    b2n f.above + 2 * b2n f.stuck + 0x10000 * f.hits
  else if o = 0x07C ∧ p % 2 = 0 then 0x10000 * maskedCount s ((p - 0x10) / 2)
  else 0

/-- ROT_STAT.PARKED (R57). -/
def parkedShown (s : State) (i : Nat) : Nat :=
  ((List.range 64).find? (fun k => convEn s.fab.regs (64 * i + k) && !(getConv s (64 * i + k)).shownRet)).elim 10
    (fun k => (getConv s (64 * i + k)).shown)

/-- The present slot is one of the 16 rotation slots, offsets 0–15 of the oasis (R54). -/
def rotatingNow (s : State) : Bool := inOasis s && s.orb.oasis.rotating && decide (s.pw.elapsed < s.orb.oasis.start + 16)

/-- Live words of a converter page. ROTATING reads 1 in the rotation slots while a converter of the seam rotates (DEDUCED, log entry
45). -/
def liveConv (s : State) (i o : Nat) : Nat :=
  let cv (k : Nat) : Conv := getConv s (64 * i + k)
  if o = 0x054 then
    parkedShown s i + 16 * b2n ((List.range 64).any (fun k => (cv k).rotating) && rotatingNow s)
      + 32 * b2n (residHigh s i) + 64 * b2n ((List.range 64).any (fun k => (cv k).shownRet))
  else if o = 0x058 then
    let m := maxMeasured ((List.range 64).map (fun k => (cv k).resid))
    m.1 + 0x10000 * m.2
  else if o = 0x05C then bits32 (fun k => (cv k).retired)
  else if o = 0x060 then bits32 (fun k => (cv (32 + k)).retired)
  else if o = 0x064 then bits32 (fun k => (cv k).ovr)
  else if o = 0x068 then bits32 (fun k => (cv (32 + k)).ovr)
  else if 0x080 ≤ o ∧ o ≤ 0x0BC then word4 (fun k => (cv (o - 0x080 + k)).resid)
  else 0

def livePhase (s : State) (o : Nat) : Nat :=
  let c := regF s 0x28 0x054 0 9
  let x := getChan s c
  if o = 0x048 then
    b2n s.pll.hold + 2 * b2n s.pll.uncomp + 4 * b2n (trackLim s) + 8 * b2n (phaseHigh s) + 16 * b2n s.pll.sweptLast
  else if o = 0x04C then
    let m := maxMeasured (s.chan.map (fun x => phaseResid x.history))
    m.1 + 0x10000 * m.2
  else if o = 0x050 then s.pll.scale
  else if o = 0x058 then uns x.track 16 + 0x10000 * uns x.meas 16
  else if o = 0x05C then uns (codeWith s.fab.regs c x.trim x.track) 15 + 0x10000 * uns x.trim 16
  else if 0x380 ≤ o ∧ o ≤ 0x4FC then word4 (fun k => phaseResid (getChan s (o - 0x380 + k)).history)
  else 0

def liveAcq (s : State) (o : Nat) : Nat :=
  if o = 0x04C then s.acq.fifo.length + 0x80 * b2n s.acq.wmHigh
  else if o = 0x050 then s.acq.seq
  else 0

def armCode (s : State) : Nat := match s.acq.arm with | .disarmed => 0 | .priming => 1 | .armed => 2

def liveArm (s : State) (o : Nat) : Nat :=
  if o = 0x050 then armCode s + 4 * b2n (heldOff s) + 0x10000 * s.acq.taken
  else if o = 0x054 then s.acq.armSlot
  else if o = 0x058 then s.acq.armOrb
  else 0

def liveCmp (s : State) (i o : Nat) : Nat :=
  let x := getSeam s i
  if o = 0x044 then b2n x.flushing
  else if o = 0x080 then b2n x.tp.running
  else if o = 0x048 then
    b2n x.started + 2 * b2n ((getQ s i).held.isSome || (getQ s (6 + i)).held.isSome) + 0x100 * x.lastErr
  else if o = 0x094 then x.tp.ptr
  else if o = 0x098 then b2n x.tp.done + 2 * b2n x.tp.running + 4 * b2n x.tp.aborted + 0x100 * x.tp.err
  else if o = 0x09C then x.tp.outLen
  else if o = 0x0A0 then x.tp.outCrc
  else if o = 0x0A4 then x.tp.errPos
  else if o = 0x0A8 then x.tp.outPtr
  else 0

/-- Q12 is GATED, and LAUNCH_WAIT of a queue. -/
def liveQ (s : State) (q k : Nat) : Nat :=
  let x := getQ s q
  if k = 0x0C then
    uOf s q + 0x2000 * b2n x.wmHigh + 0x4000 * b2n x.atQuota + 0x8000 * b2n (decide (q = 12) && gated s)
      + 0x10000 * b2n (waitsLaunch s q) + 0x20000 * b2n (x.active || x.draining) + 0x40000 * b2n x.draining
  else if k = 0x10 then min 0xFFFF x.ready.length
  else if k = 0x14 then retCells x
  else if k = 0x18 then x.total
  else 0

/-- Age of the oldest retained bale in µs (R206). -/
def spanAge (s : State) : Nat := (oldestRetained s).elim 0 (fun p => min 511 ((s.pw.elapsed - p.2.sent) / 40))

def liveSerai (s : State) (o : Nat) : Nat :=
  let q := hostQ s
  if o = 0x048 then availCells s + 0x10000 * freeCells s
  else if o = 0x04C then retAll s + 0x10000 * b2n s.ser.memLow + 0x20000 * b2n s.ser.replaying
  else if o = 0x050 then spanAge s
  else if o = 0x0A4 then
    if s.ser.owner.isNone then 0
    else
      b2n (decide (0 < hostAvail s q)) + 2 * b2n s.ser.rdLast + 4 * s.ser.rdVb + 16 * b2n s.ser.rdAbort
        + 32 * b2n (hostWrites q && needsCell (getQ s q) && !cellOk s q) + 64 * b2n (hostWrites q && (getQ s q).cur.isSome)
  else if 0x400 ≤ o ∧ o < 0x800 then liveQ s ((o - 0x400) / 0x20) (o % 0x20)
  else 0

def liveFramer (s : State) (o : Nat) : Nat :=
  if o = 0x044 then frameNumber s
  else if o = 0x048 then s.frm.adv % 65536 + 0x10000 * (s.frm.x % 65536)
  else if o = 0x04C then (max 0 (poolNow s)).toNat % 0x2000 + 0x10000 * cvalOf s 3
  else if o = 0x050 then costAll s.frm.cost % 0x2000
  else if o = 0x054 then (s.frm.cost.t.foldl max 0) % 0x10000 + 0x10000 * uns s.frm.cost.h 16
  else if o = 0x058 then b2n s.frm.unfit + 0x100 * (promised s % 128)
  else 0

def liveLanes (s : State) (t : Trunk) (o : Nat) : Nat :=
  let l := getLn s t
  if o = 0x040 then b2n l.retrain
  else if o = 0x04C then
    l.st + 0x100 * b2n l.fwdPres + 0x200 * b2n l.fwdOk + 0x400 * b2n l.dlSignal + 0x800 * b2n l.dlLock
      + 0x1000 * b2n (vddlOk s t) + 0x2000 * b2n l.capMis + 0x10000 * l.detected.toNat + 0x1000000 * l.service.toNat
  else if o = 0x050 then l.port + 0x10000 * l.peer + 0x1000000 * l.proto
  else if o = 0x054 then l.eyeW + 0x100 * b2n (eyeLow s t)
  else if o = 0x058 then l.codeErr
  else if o = 0x05C then l.prbs.err + 0x10000 * b2n l.prbs.sync
  else if o = 0x060 then l.lb.err + 0x10000 * b2n l.lb.sync
  else if o = 0x064 then l.fwdCnt
  else 0

/-- Packets whose responses are not yet written (R272). -/
def heldPackets (d : Dl) : Nat := d.held.length + b2n d.asm.isSome

def liveDl (s : State) (t : Trunk) (o : Nat) : Nat :=
  let d := getDl s t
  if o = 0x044 then d.phase + 0x10000 * b2n d.near
  else if o = 0x048 then d.fc + 0x10000 * d.fcSlot
  else if o = 0x04C then d.frames
  else if o = 0x050 then d.crcErr
  else if o = 0x054 then heldPackets d + 8 * b2n d.asm.isSome
  else if o = 0x058 then d.acc
  else 0

def liveSv (s : State) (o : Nat) : Nat :=
  if o = 0x050 then
    token s + 4 * b2n (dark s) + 8 * b2n s.sup.xdown + 16 * b2n (s.sup.checking && (holder s).isSome) + 32 * b2n s.pw.coreStopped
      + 0x100 * roleOf s .a + 0x1000 * roleOf s .b + 0x10000 * b2n (evGood s .a) + 0x20000 * b2n (evGood s .b)
      + 0x40000 * b2n (hbSeen s .a) + 0x80000 * b2n (hbSeen s .b) + 0x100000 * b2n s.sup.ta.tpwr + 0x200000 * b2n s.sup.tb.tpwr
  else if o = 0x054 then s.sup.reason + 16 * s.sup.lastTo + 256 * s.sup.result
  else if o = 0x058 then s.sup.failL.toNat
  else if o = 0x05C then s.fab.passes
  else 0

def liveTb (s : State) (o : Nat) : Nat :=
  let b := s.tb
  if o = 0x044 then
    b2n b.set1 + 2 * b2n b.set3 + 4 * b2n b.hov1 + 8 * b2n b.hov3 + 16 * b2n b.gap1 + 32 * b2n b.gap3 + 0x100 * b.latchN
  else if o = 0x07C then b.ocapN
  else if o = 0x084 then b.tse.length
  else if 0x088 ≤ o ∧ o ≤ 0x09C then wordAt (b.tse.headD []) (o - 0x088)
  else if o = 0x0B0 then b.ttVf + 0x10000 * b.ttCf
  else if o = 0x0B4 then b.ttBase + 0x100 * b.ttCount + 0x10000 * b.ttSlot
  else if 0x0C0 ≤ o ∧ o ≤ 0x0E8 then (b.latch.getD ((o - 0x0C0) / 4) 0).toNat
  else if 0x400 ≤ o ∧ o < 0x800 then ((ramGet [] b.ocap ((o - 0x400) / 0x40)).getD (o % 0x40 / 4) 0).toNat
  else 0

/-- Requests not yet answered: those waiting and those whose response frame has not left. -/
def mgHeld (s : State) : Nat := s.mg.reqs.length + s.mg.resps.length

def liveMg (s : State) (o : Nat) : Nat :=
  if o = 0x04C then b2n s.mg.sync + 2 * b2n s.mg.anDone + 4 * b2n s.mg.link + 16 * mgHeld s
  else if o = 0x050 then s.mg.rx
  else if o = 0x054 then s.mg.tx
  else 0

def liveBoot (s : State) (o : Nat) : Nat :=
  let x := s.slow
  if o = 0x040 then s.pw.adr
  else if o = 0x04C then 0x100 * b2n x.spiBusy
  else if o = 0x050 then b2n x.spiBusy + 2 * b2n x.spiFail + 4 * b2n x.hdrOk + 0x100 * x.sr
  else if o = 0x054 then x.spiId
  else if o = 0x058 then x.usrBase
  else if 0x100 ≤ o ∧ o ≤ 0x1FC then leNat (ramBytes 0 x.spiBuf (o - 0x100) 4)
  else 0

def liveMon (s : State) (o : Nat) : Nat :=
  let m := s.mon
  if o = 0x048 then b2n m.running + 2 * b2n m.settling + 4 * b2n m.ready + 8 * b2n m.ovr
  else if o = 0x04C then m.code + 0x10000 * m.input + 0x200000 * b2n m.rovr + 0x1000000 * m.rseq
  else if o = 0x050 then m.seq
  else if 0x080 ≤ o ∧ o ≤ 0x0FC then ramGet 0 m.lasts ((o - 0x080) / 4)
  else 0

def livePls (s : State) (o : Nat) : Nat :=
  if o = 0x04C then
    b2n (closedRow s).isSome + 2 * b2n s.pls.diag + 4 * b2n (anyBar s) + 16 * s.pls.last + 0x100 * (sitesIn s 2).length
      + 0x10000 * (sitesIn s 3).length
  else if 0x280 ≤ o ∧ o ≤ 0x2FC then word4 (fun k => healthByte s (o - 0x280 + k))
  else 0

def liveHer (s : State) (o : Nat) : Nat := if o = 0x068 then b2n s.her.fmt + 2 * b2n s.her.lastErr else 0

def liveCs (s : State) (o : Nat) : Nat :=
  let c := s.cal
  if o = 0x040 then
    b2n c.fuseOk + 2 * b2n c.userOk + 4 * c.slotNo + 8 * b2n c.saving.isSome + 16 * b2n c.saveFail + 32 * b2n c.lockIgn
      + 0x100 * c.fuseFail.toNat + 0x10000 * (c.gen % 65536)
  else if 0x080 ≤ o ∧ o ≤ 0x17C then fuseView s ((o - 0x080) / 4)
  else if 0x180 ≤ o ∧ o ≤ 0x27C then userView s ((o - 0x180) / 4)
  else 0

/-! ### Capture pairs (R336, R363) -/

/-- The 64-bit value of the pair whose low word is at `lo`. -/
def pairValue (s : State) (p lo : Nat) : Nat :=
  if p = 0x00 then 50 * s.pw.sup % 2 ^ 64
  else if p = 0x02 then (probeShown s).1.toNat + 2 ^ 32 * (probeShown s).2.toNat
  else if p = 0x30 then s.acq.total
  else if pgIn p 0x34 0x39 then (if lo = 0x04C then codedNow s (p - 0x34) else (getSeam s (p - 0x34)).outBytes)
  else if p = 0x54 then
    if lo = 0x0A0 then s.tb.ttV else if lo = 0x0A8 then s.tb.ttC else if lo = 0x100 then tb0 s
    else if lo = 0x108 then nsOf s.tb.t1 else if lo = 0x110 then nsOf (tb2 s) else nsOf s.tb.t3
  else if p = 0x68 then s.her.cnt % 65536 + 2 ^ 32 * (s.her.cnt / 65536)
  else 0

/-! ### The plain read of a word -/

/-- The bits of a block word that the hub sets. -/
def liveWord (s : State) (p o : Nat) : Nat :=
  if p = 0x00 then live00 s o else if p = 0x01 then live01 s o else if p = 0x02 then live02 s o
  else if p = 0x03 then live03 s o else if pgIn p 0x04 0x07 then liveSmap s p o
  else if pgIn p 0x08 0x0D then liveSeam s (p - 0x08) o else if pgIn p 0x10 0x1B then liveChan s p o
  else if pgIn p 0x20 0x25 then liveConv s (p - 0x20) o else if p = 0x28 then livePhase s o
  else if p = 0x30 then liveAcq s o else if p = 0x31 then liveArm s o
  else if pgIn p 0x34 0x39 then liveCmp s (p - 0x34) o else if p = 0x40 then liveSerai s o
  else if p = 0x44 then liveFramer s o else if pgIn p 0x48 0x49 then liveLanes s (trunkOf (p - 0x48)) o
  else if pgIn p 0x4C 0x4D then liveDl s (trunkOf (p - 0x4C)) o else if p = 0x50 then liveSv s o
  else if p = 0x54 then liveTb s o else if p = 0x58 then liveMg s o else if p = 0x5C then liveBoot s o
  else if p = 0x60 then liveMon s o else if p = 0x64 then livePls s o else if p = 0x68 then liveHer s o
  else if p = 0x70 then liveCs s o else if p = 0x7C ∧ o = 0x044 then s.fab.store.length else 0

/-- What a read of a running page's word returns, but for capture pairs and the words whose read acts (R334). -/
def readPlain (s : State) (p o : Nat) : Nat :=
  if o < 0x040 then headerWord s p o
  else
    match regForm p o with
    | none => 0
    | some f =>
      if pgIn p 0x04 0x07 ∧ 0x400 ≤ o then liveSmap s p o
      else (regAt s p o &&& f.rw) ||| (bufGet s p o &&& (f.rb ||| f.gd)) ||| (f.reset - (f.reset &&& (f.rw ||| f.rb ||| f.gd)))
        ||| (liveWord s p o % 2 ^ 32)

end Sys2Proof.Machine
end

