-- ==== Sys2Proof/Machine/Update.lean ====
section
/-! DEFINITION. Update groups (R33–R39, R338–R341, R473): the pages' checks, the application of a group with its effects on the
blocks, soft resets (R347, R435), enables and drains (R351). -/

namespace Sys2Proof.Machine

/-! ### The pending values of a page -/

/-- The buffered words that an application takes: as they stood at the cutoff, or now (R33, R340). -/
def takenBuf (s : State) : Ram Tri := s.fab.frozen.getD s.fab.buf

def takenWords (s : State) (p : Nat) : Ram Tri := (takenBuf s).filter (fun e => e.1 / 0x1000 == p)

/-- Word of the candidate registers: buffered bits over the word in force. Bits that the table calls reserved are in neither mask: they
change nothing (DESIGN CHOICE, log entry 39). -/
def mergeWord (old v : Nat) (f : RegForm) : Nat := (old - (old &&& (f.rb ||| f.gd))) ||| (v &&& (f.rb ||| f.gd))

/-- The registers with the pending words of page `p` in force. -/
def candPage (s : State) (r : Ram Tri) (p : Nat) : Ram Tri :=
  (takenWords s p).foldl (fun r e =>
    let o := e.1 % 0x1000
    regPut r p o (mergeWord (regsGet r p o) (vote e.2).toNat ((regForm p o).getD {}))) r

def candRegs (s : State) (ps : List Nat) : Ram Tri := ps.foldl (candPage s) s.fab.regs

def grpPages (s : State) (g : Nat) : List Nat := assignedPages.filter (fun p => regF s p 0x004 4 4 == g)

/-- The pages that take part in an application of group `g` (R35). -/
def takesPart (s : State) (g : Nat) : List Nat :=
  (grpPages s g).filter (fun p => if s.fab.frozen.isSome then s.fab.frozenPg.contains p else updPending s p)

/-- The word at `o` of page `p` has a pending value. -/
def wordPending (s : State) (p o : Nat) : Bool := ramHas (takenBuf s) (p * 0x1000 + o)

/-! ### The slot map that would be live (R26) -/

/-- The shadow quarter as it stood at the cutoff. -/
def shadowTaken (s : State) (k : Nat) : Ram Word :=
  s.orb.lateMap.foldl (fun m e => ramPut 0 m e.1 e.2) s.orb.shadow |>.filter (fun e => e.1 / 1024 == k)

def mapUnder (s : State) (ps : List Nat) : Ram Word :=
  (List.range 4).flatMap (fun k =>
    if ps.contains (0x04 + k) then shadowTaken s k else s.orb.live.filter (fun e => e.1 / 1024 == k))

def consecutive : List Nat → Bool
  | a :: b :: t => decide (b = a + 1) && consecutive (b :: t)
  | _ => true

/-- R26 for the map `m` under orbit length and offset. -/
def mapValid (m : Ram Word) (len ofs : Nat) : Bool :=
  let span := m.filter (fun e => decide (e.1 < len) && e.2.getLsbD 0)
  let ns := span.map (·.1)
  consecutive ns && (ns.isEmpty || (decide (64 ≤ ns.length) && decide (ns.length + 64 ≤ len)))
    && span.all (fun e => !e.2.getLsbD 2 && !e.2.getLsbD 7) && decide (ofs < len)

/-! ### The checks of the pages (R35 and the rules cited) -/

def windowOk (r : Ram Tri) (her : Bool) : Bool :=
  let l := 2 * latOf r + 64
  decide (l + postOf r ≤ 2048) && decide (l + preOf r ≤ 2048)
    && (!her || (decide (l + 2 * herPre r ≤ 2048) && decide (l + 2 * (herLen r - herPre r) ≤ 2048)))

def herOnUnder (s : State) (r : Ram Tri) : Bool := s.her.on || (regsGet r 0x68 0x004).testBit 0

/-- Seams 0 and 1 are drained under the words `r0` in force before the boundary (R417). -/
def seamsDrained (s : State) (r0 : Ram Tri) : Bool :=
  [0, 1].all (fun i => decide (regsGet r0 (0x08 + i) 0x040 % 4 = 0) && decide (bufUsed (getSeam s i) = 0) && (nextLift s i).isNone)

def herCause (s : State) (r0 r : Ram Tri) : Option Nat :=
  let on := (regsGet r 0x68 0x004).testBit 0
  let was := (regsGet s.fab.regs 0x68 0x004).testBit 0
  if on && (!was || (pageSt s 0x68).draining) && (!seamsDrained s r0 || (pageSt s 0x68).draining) then some 0x0B
  else if herLen r ≤ herPre r then some 0x02
  else if herOnUnder s r && !windowOk r true then some 0x01
  else none

/-- QUOTA and RESERVE of every queue (R186). -/
def quotasOk (r : Ram Tri) : Bool :=
  let a (q : Nat) : Nat := regsGet r 0x40 (0x400 + 0x20 * q)
  (List.range 32).all (fun q =>
    let quota := fld (a q) 0 13
    decide (fld (a q) 16 13 ≤ quota) && decide ((if q ≤ 11 ∨ q = 26 then 129 else 4) ≤ quota))
    && decide (sumTo 32 (fun q => fld (a q) 16 13) ≤ 4096)

/-- SINK changes only on a disabled queue (R199). -/
def sinksOk (s : State) (r : Ram Tri) : Bool :=
  [27, 28, 29, 30, 31].all (fun q =>
    let o := 0x404 + 0x20 * q
    ((regsGet r 0x40 o).testBit 5 == (regsGet s.fab.regs 0x40 o).testBit 5) || !((getQ s q).active || (getQ s q).draining))

def seraiCause (s : State) (r : Ram Tri) : Option Nat :=
  if !quotasOk r || !seraiFits s r then some 0x02 else if !sinksOk s r then some 0x09 else none

/-- LANE_DIS and LN_TEST of a lane page (R247, R254), against the data lane count that the group itself would leave (R473). -/
def laneCause (s : State) (t : Trunk) (r : Ram Tri) : Option Nat :=
  let v := regsGet r (lnPage t) 0x048
  let cfg := regsGet r (lnPage t) 0x044
  let act := holds s t
  let n := lanesUnder r
  if wordPending s (lnPage t) 0x044 && act && (List.range n).any (fun j => cfg.testBit j) then some 0x09
  else if !wordPending s (lnPage t) 0x048 then none
  else if act && (v.testBit 16 || v.testBit 12 || v.testBit 13 || (List.range n).any (fun j => v.testBit (8 + j))) then some 0x09
  else if v.testBit 20 && (decide (6 ≤ fld v 17 3) || !v.testBit (8 + fld v 17 3)) then some 0x02
  else none

/-- A pending TCMD would be refused (R299). -/
def tcmdCause (s : State) (r : Ram Tri) : Option Nat :=
  if wordPending s 0x54 0x068
      && stepRefused s (regsGet r 0x54 0x068) (regsGet r 0x54 0x060 + 2 ^ 32 * regsGet r 0x54 0x064) (regF s 0x54 0x05C 0 31)
  then some 0x08 else none

def phaseCause (s : State) (r : Ram Tri) : Option Nat :=
  let zero := (regsGet r 0x28 0x040).testBit 8
  if codesOk s r (fun c => (getChan s c).trim) (fun c => if zero then 0 else (getChan s c).track) then none else some 0x0C

/-- The in-service set that LANE_DIS and LN_TEST of `r` leave a trunk (R247, R254). -/
def serviceUnder (s : State) (t : Trunk) (r : Ram Tri) : Nat :=
  let v := regsGet r (lnPage t) 0x048
  let tested (i : Nat) : Bool := decide (v % 4 ≠ 0) && v.testBit (8 + i)
  maskOf ((List.range 6).filter (fun i =>
    (getLn s t).wasIn.getLsbD i && !(regsGet r (lnPage t) 0x044).testBit i && !tested i))

/-- DLANES needs lanes of the holder's in-service set, as the group leaves it (R233, R473). -/
def dlanesCause (s : State) (r : Ram Tri) : Option Nat :=
  match coreHolder s with
  | some t => if (List.range (lanesUnder r)).all (fun j => (serviceUnder s t r).testBit j) then none else some 0x0A
  | none => none

/-- Cause for which page `p` refuses its pending values, under the candidate registers `r` of its group with pages `ps`; `r0` were
in force before the boundary. -/
def causeOf (s : State) (r0 r : Ram Tri) (ps : List Nat) (p : Nat) : Option Nat :=
  if pgIn p 0x03 0x07 then
    (if mapValid (mapUnder s ps) (fld (regsGet r 0x03 0x040) 0 12) (fld (regsGet r 0x03 0x044) 0 12) then none else some 0x02)
  else if p = 0x28 then phaseCause s r
  else if p = 0x30 then (if windowOk r (herOnUnder s r) then none else some 0x01)
  else if p = 0x40 then seraiCause s r
  else if p = 0x44 then dlanesCause s r
  else if p = 0x48 then laneCause s .a r
  else if p = 0x49 then laneCause s .b r
  else if p = 0x54 then tcmdCause s r
  else if p = 0x68 then herCause s r0 r
  else if p = 0x70 then (if wordPending s 0x70 0x044 then saveRefusal s (regsGet r 0x70 0x044 % 4) else none)
  else none

/-! ### Enables (R351) -/

/-- Tally REENABLE_DEFERRED of a page with an enable. -/
def deferTally (p : Nat) : Nat :=
  if pgIn p 0x08 0x0D then 5 else if pgIn p 0x10 0x1B then 3 else if pgIn p 0x20 0x25 then 4 else if p = 0x60 then 4 else 7

/-- The present instant. -/
def nowTick (s : State) : Nat := instTick s.pw.elapsed s.pw.cyc

/-- A converter powers up at instant `t`; what it delivered before stays known for the samples still in the pipeline (R59, R61). -/
def powerUp (t : Nat) (k : Conv) : Conv :=
  let k := if k.ready then { k with wasReady := true, wasT := k.readyT, wasOff := k.offT } else k
  { k with on := true, onT := t, ready := false, readyT := t }

/-- A converter powers down: the samples taken before complete their pipeline (R61). -/
def powerDown (s : State) (k : Conv) : Conv := if k.on then { k with on := false, offT := nowTick s } else k

/-- A converter is enabled: one powered up at the cutoff, 12 slots ago or more, is ready by now; another powers up (R59). -/
def enableConv (s : State) (k : Conv) : Conv :=
  if k.on then
    (if !k.ready && decide (k.onT / 1024 + 12 ≤ s.pw.elapsed) then { k with ready := true, readyT := nowTick s } else k)
  else powerUp (nowTick s) k

/-- A block starts from empty as its chapter says (R143, R114, R403, R387). -/
def restart (p : Nat) (s0 : State) : State :=
  let s := modPage p (fun x => { x with active := true, deferred := false, startAt := s0.pw.elapsed }) s0
  if pgIn p 0x08 0x0D then
    let e := s.pw.elapsed
    modSeam (p - 0x08) (fun x => { x with startN := 2 * e, startSlot := s.orb.slot, startOrb := s.orb.orbit }) s
  else if pgIn p 0x10 0x1B then
    { s with chan := mapIdxN (fun c x => if c / 32 = p - 0x10 then { x with flushes := s.pw.elapsed :: x.flushes } else x) s.chan }
  else if pgIn p 0x20 0x25 then
    { s with conv := mapIdxN (fun c k => if c / 64 = p - 0x20 ∧ convEn s.fab.regs c ∧ k.on = false then powerUp (nowTick s) k else k) s.conv }
  else if p = 0x64 then { s with pls := { s.pls with row := none, sinks := [], blankTo := 0, blanking := false } }
  else if p = 0x68 then { s with her := { s.her with on := true } }
  else s

/-- What stops at once when a block is disabled. -/
def haltBlock (p : Nat) (s : State) : State :=
  if p = 0x60 then monHalt s
  else if p = 0x68 then { s with her := { s.her with on := false } }
  else s

/-- PAGE_CTL.EN of page `p` as just applied. A further EN = 1 while one is deferred counts no REENABLE_DEFERRED: the restart is already
waiting (DESIGN CHOICE, log entry 74). -/
def enApplied (p : Nat) (s : State) : State :=
  let en := decide (regF s p 0x004 0 1 = 1)
  let x := pageSt s p
  if !en then
    if x.active then
      haltBlock p (modPage p (fun x => { x with active := false, draining := true, deferred := false, drainAt := s.pw.elapsed,
                                                drainCyc := s.pw.cyc }) s)
    else modPage p (fun x => { x with deferred := false }) s
  else if x.draining then
    (if x.deferred then s else count p (deferTally p) (modPage p (fun x => { x with deferred := true }) s))
  else if x.active then s
  else restart p s

/-- Blocks whose drain has ended since a deferred re-enable restart at the boundary (R351). -/
def restartDeferred (s : State) : State :=
  let s := assignedPages.foldl (fun s p =>
    let x := pageSt s p
    if x.deferred && !x.draining then restart p s else s) s
  (List.range 32).foldl (fun s q =>
    let x := getQ s q
    if x.deferred && !x.draining then modQ q (fun x => { x with active := true, deferred := false }) s else s) s

/-! ### Effects of an application, page by page -/

/-- The quarter's banks exchange roles and the copy starts (R27). -/
def swapQuarter (k : Nat) (s : State) : State :=
  let inK (n : Nat) : Bool := n / 1024 == k
  let isLate (n : Nat) : Bool := ramHas s.orb.lateMap n
  let live := ramDrop inK s.orb.live
  let newLive := (shadowTaken s k).foldl (fun m e => ramPut 0 m e.1 e.2) live
  let back := (s.orb.live.filter (fun e => inK e.1 && !isLate e.1)).foldl (fun m e => ramPut 0 m e.1 e.2)
    (ramDrop (fun n => inK n && !isLate n) s.orb.shadow)
  { s with orb := { s.orb with
    live := newLive, shadow := back, dirty := s.orb.dirty.filter (fun n => !inK n || isLate n),
    copies := ramSet s.orb.copies k { start := s.pw.cc, written := (s.orb.lateMap.map (·.1)).filter inK } } }

/-- PED_SET as applied (R95): the channels whose word was written load it. -/
def pedLoad (p : Nat) (words : Ram Tri) (s : State) : State :=
  (List.range 32).foldl (fun s k =>
    if ramHas words (p * 0x1000 + 0x80 * k + 0x044) then
      modChan (32 * (p - 0x10) + k) (setPed s.pw.elapsed (regF s p (0x80 * k + 0x044) 0 18)) s
    else s) s

/-- Converters of a seam enabled or disabled by the application (R59, R61). -/
def convApplied (i : Nat) (r0 : Ram Tri) (s : State) : State :=
  { s with conv := mapIdxN (fun c k =>
      if c / 64 = i then
        let now := convEn s.fab.regs c && (pageSt s (0x20 + i)).active
        if !now then powerDown s k else if convEn r0 c && k.on then k else enableConv s k
      else k) s.conv }

def trackZero (s : State) : State :=
  if (regAt s 0x28 0x040).testBit 8 then
    setReg 0x28 0x040 (setFld (regAt s 0x28 0x040) 8 1 0) (zeroTracks s)
  else s

/-- A grid move of `d` core cycles: UNCOMP, and no probe on its way stays valid (R69, R81). -/
def gridMoved (d : Nat) (s : State) : State := if d = 0 then s else spoilProbe (setUncomp s)

/-- Δ of a change of GRID_ORG from the words `r0` (R69). -/
def gridStep (r0 r1 : Ram Tri) : Nat := (fld (regsGet r1 0x02 0x040) 0 3 + 8 - fld (regsGet r0 0x02 0x040) 0 3) % 8

/-- LANE_DIS as applied: a lane set in it leaves the in-service set and stays in electrical idle until the next bring-up (R243). -/
def laneApplied (t : Trunk) (s : State) : State :=
  let keep : BitVec 6 := BitVec.ofNat 6 (63 - regF s (lnPage t) 0x044 0 6)
  modLn t (fun l => { l with service := l.service &&& keep, wasIn := l.wasIn &&& keep, idle := l.idle ||| ~~~keep }) s

/-- Effects of the pending words `words` of page `p`, now in force; `r0` were in force before. -/
def pageApplied (p : Nat) (r0 : Ram Tri) (words : Ram Tri) (s : State) : State :=
  let s := if (enReset p).isSome && ramHas words (p * 0x1000 + 0x004) then enApplied p s else s
  if p = 0x01 then setReg 0x01 0x050 0 s
  else if p = 0x02 then gridMoved (gridStep r0 s.fab.regs) s
  else if pgIn p 0x04 0x07 then (if s.orb.dirty.any (fun n => n / 1024 == p - 0x04) then swapQuarter (p - 0x04) s else s)
  else if pgIn p 0x10 0x1B then pedLoad p words s
  else if pgIn p 0x20 0x25 then convApplied (p - 0x20) r0 s
  else if p = 0x28 then trackZero s
  else if p = 0x40 then seraiSync ((List.range 32).foldl (fun s q => applyQen q s) s)
  else if pgIn p 0x48 0x49 then
    let t := trunkOf (p - 0x48)
    let s := laneApplied t s
    if ramHas words (p * 0x1000 + 0x048) then testApplied t s else s
  else if p = 0x50 then
    let s := roleSync s
    if ramHas words 0x5004C then forceCmd (regAt s 0x50 0x04C) s else s
  else if p = 0x54 then
    if ramHas words 0x54068 then
      let v := regAt s 0x54 0x068
      setReg 0x54 0x068 0 (stepApply v (regAt s 0x54 0x060 + 2 ^ 32 * regAt s 0x54 0x064) s)
    else s
  else if p = 0x70 then (if ramHas words 0x70044 then csCommand (regAt s 0x70 0x044 % 4) s else s)
  else s

/-- A page whose values are applied: PAGE_GEN advances, REFUSED clears (R333, R341). -/
def pageDone (p : Nat) (s : State) : State := modPage p (fun x => { x with gen := (x.gen + 1) % 256, refused := false }) s

/-- The applied words leave the buffer, but for those written after the cutoff. -/
def dropApplied (ps : List Nat) (s : State) : State :=
  { s with fab := { s.fab with
    buf := ramDrop (fun a => ps.contains (a / 0x1000) && !(s.fab.frozen.isSome && s.fab.late.contains a)) s.fab.buf } }

/-- Seams whose flint outputs the application of these pages' group admits (R119). -/
def flintApplied (ps : List Nat) (s : State) : State :=
  { s with flintOn := (List.range 6).foldl (fun m i => if ps.contains (0x10 + 2 * i) then m ||| (1 <<< i) else m) s.flintOn }

/-- The pages `ps` take their pending values. -/
def applyPages (ps : List Nat) (s : State) : State :=
  let r0 := s.fab.regs
  let words := ps.map (fun p => (p, takenWords s p))
  let s := { s with fab := { s.fab with regs := candRegs s ps } }
  let s := words.foldl (fun s e => pageDone e.1 (pageApplied e.1 r0 e.2 s)) s
  dropApplied ps s

/-- A group refused: every page that takes part says so (R35). -/
def refuseGroup (g : Nat) (causes : List (Nat × Option Nat)) (s : State) : State :=
  let s := causes.foldl (fun s e =>
    let s := if e.2 = some 0x08 then count 0x54 0 s else s
    refuse e.1 (e.2.getD 0x07) g s) s
  count 0x03 7 { s with fab := { s.fab with refused := s.fab.refused ||| BitVec.ofNat 16 (1 <<< g) } }

/-- UPDATE_GROUP_APPLY: a marked group is judged and applied whole, or refused whole; `r0` were in force before the boundary. -/
def applyGroup (r0 : Ram Tri) (s : State) (g : Nat) : State :=
  let ps := takesPart s g
  let r := candRegs s ps
  let causes := ps.map (fun p => (p, causeOf s r0 r ps p))
  if causes.any (fun e => e.2.isSome) then refuseGroup g causes s
  else
    let s := applyPages ps s
    let s := flintApplied (grpPages s g) s
    { s with fab := { s.fab with applied := s.fab.applied ||| BitVec.ofNat 16 (1 <<< g) } }

/-! ### Page soft resets (R347, R435) -/

/-- A channel page's soft reset (R115). The flush comes with the first sample of the present slot (R102). -/
def chanReset (p : Nat) (s : State) : State :=
  let s := (List.range 32).foldl (fun s k =>
    let b := 0x80 * k
    let s := [0x050, 0x054, 0x058, 0x060, 0x064, 0x068].foldl (fun s o => setReg p (b + o) 0 s) s
    let s := setReg p (b + 0x05C) 0x400 (setReg p (b + 0x04C) 0x400 s)
    setReg p (b + 0x040) (setFld (regAt s p (b + 0x040)) 3 4 10) s) s
  let e := s.pw.elapsed
  { s with chan := mapIdxN (fun c x =>
      if c / 32 = p - 0x10 then
        { setPed e 0x20000 x with held := false, pedNew := none, pedRej := false, pedTmp := none, pedTmpRej := false,
                                  flushes := e :: x.flushes }
      else x) s.chan }

/-- A downlink page's soft reset (R274). -/
def dlReset (t : Trunk) (s : State) : State :=
  modDl t (fun d =>
    let d := { d with frames := 0, crcErr := 0, acc := 0 }
    match d.asm with
    | some k => { d with asm := none, held := d.held ++ [{ k with short := true }] }
    | none => d) s

/-- The notice store is emptied and its notices count as lost (R355). -/
def noticeReset (s : State) : State :=
  { s with fab := { s.fab with lost := s.fab.lost + s.fab.store.length, store := [] } }

/-- The soft reset of page 0x5C's block (R331). -/
def bootReset (s : State) : State := { s with slow := { s.slow with spiFail := false, i2cPtr := 0, softRst := false } }

/-- What the owning chapter's reset does (R435). -/
def blockReset (p : Nat) (s : State) : State :=
  if pgIn p 0x10 0x1B then chanReset p s
  else if pgIn p 0x20 0x25 then convReset (p - 0x20) (seedOf s) s
  else if p = 0x28 then phaseReset s
  else if pgIn p 0x34 0x39 then cmpReset (p - 0x34) s
  else if p = 0x40 then seraiReset s
  else if pgIn p 0x48 0x49 then laneReset (trunkOf (p - 0x48)) s
  else if pgIn p 0x4C 0x4D then dlReset (trunkOf (p - 0x4C)) s
  else if p = 0x50 then supReset s
  else if p = 0x54 then tbReset s
  else if p = 0x5C then bootReset s
  else if p = 0x60 then monReset s
  else if p = 0x64 then plsReset s
  else if p = 0x68 then { s with her := { s.her with cnt := 0 } }
  else if p = 0x7C then noticeReset s
  else s

/-- A soft reset that acts: the page's tallies, PAGE_CAUSE and REFUSED clear as well. -/
def resetNow (p : Nat) (s : State) : State :=
  modPage p (fun x => { x with tally := [], cause := 0, refused := false }) (blockReset p s)

/-- PAGE_SOFT_RESET of page `p`; that of page 0x5C waits as a whole until no flash operation runs (R331). -/
def softReset (p : Nat) (s : State) : State :=
  if p = 0x5C ∧ s.slow.spiBusy = true then { s with slow := { s.slow with softRst := true } } else resetNow p s

/-! ### The groups of one application (R473) -/

/-- Target of a soft reset that the groups `gs` would apply. -/
def resetTarget (s : State) (gs : List Nat) (trial : State) : Option Nat :=
  let g := regF s 0x01 0x004 4 4
  let v := match ramFind (takenBuf s) 0x01050 with | some t => (vote t).toNat | none => 0
  if gs.contains g && (takesPart s g).contains 0x01 && v.testBit 8 && trial.fab.applied.getLsbD g then some (v % 256) else none

/-- What follows every application: outputs that are disabled go low, the discriminators are judged again, live causes are judged
again, the costs are recomputed. An output that comes to be enabled while a contribution stands stays low until a further one rises
(DESIGN CHOICE, log entry 67). -/
def afterApply (resid : List Bool) (ph : Bool) (s : State) : State :=
  let s := flintJudge (outsLow s)
  let s := resid.zipIdx.foldl (fun s p => onRise p.1 (residHigh s p.2) (0x20 + p.2) 1 0 s) s
  let s := onRise ph (phaseHigh s) 0x28 1 0 s
  recost (acqSync (seraiSync s))

/-- The groups `gs`, ascending, are applied one at a time; a soft reset among them acts before the values applied. -/
def applyGroups (gs : List Nat) (s : State) : State :=
  if gs.isEmpty then s
  else
    let r0 := s.fab.regs
    let resid := (List.range 6).map (residHigh s)
    let ph := phaseHigh s
    let s := { s with fab := { s.fab with
      applied := 0, refused := 0, hist := (s.pw.elapsed, s.pw.cyc, r0) :: s.fab.hist.filter (fun h => decide (s.pw.elapsed < h.1 + 2048)) } }
    let trial := gs.foldl (applyGroup r0) s
    let s := match resetTarget s gs trial with
      | some p => gs.foldl (applyGroup r0) (softReset p s)
      | none => trial
    afterApply resid ph s

/-! ### Drains (R351, R39) -/

/-- No entry created before the seam was disabled waits for it. -/
def seamDrained (s : State) (i : Nat) : Bool :=
  s.acq.fifo.all (fun e => (e.reps.getD i {}).done) && decide (bufUsed (getSeam s i) = 0)

/-- The 12 sample periods of the samples taken before the disabling have passed (R61, R114): as many slots and core cycles of the slot. -/
def pipelineOver (s : State) (p : Nat) : Bool :=
  decide (instTick ((pageSt s p).drainAt + 6) (pageSt s p).drainCyc ≤ instTick s.pw.elapsed s.pw.cyc)

/-- The work that the owning chapter names has ended. -/
def drained (s : State) (p : Nat) : Bool :=
  if pgIn p 0x08 0x0D then seamDrained s (p - 0x08)
  else if pgIn p 0x10 0x1B then
    pipelineOver s p && (List.range 32).all (fun k =>
      let x := getChan s (32 * (p - 0x10) + k)
      x.peaks.isEmpty && x.inq.all (fun q => decide ((pageSt s p).drainAt ≤ q.e)))
  else if pgIn p 0x20 0x25 then pipelineOver s p
  else if p = 0x60 then true
  else if p = 0x64 then plsDrained s
  else if p = 0x68 then s.acq.fifo.all (fun e => !e.her || e.hrep.done)
  else true

/-- DRAIN_END: DRAINING clears; in IDLE a deferred re-enable restarts the block at once. -/
def drainEnd (p : Nat) (s : State) : State :=
  let x := pageSt s p
  if !x.draining ∨ !drained s p then s
  else
    let s := modPage p (fun x => { x with draining := false }) s
    if x.deferred ∧ s.orb.st = .idle then restart p s else s

/-! ### Immediate application of CK_SUP pages (R290, R340) -/

/-- An application that takes the values as they are buffered now, also after a cutoff; what it leaves of the values of the cutoff
stays for the boundary (R27, R340). -/
def withNow (f : State → State) (s : State) : State :=
  let t := f { s with fab := { s.fab with frozen := none, frozenPg := [], late := [] }, orb := { s.orb with lateMap := [] } }
  { t with fab := { t.fab with frozen := s.fab.frozen.map (fun m => m.filter (fun e => ramHas t.fab.buf e.1)),
                               frozenPg := s.fab.frozenPg.filter (updPending t),
                               late := s.fab.late.filter (fun a => ramHas t.fab.buf a) },
           orb := { t.orb with lateMap := s.orb.lateMap.filter (fun e => t.orb.dirty.contains e.1) } }

/-- The pending values of one CK_SUP page are applied with no strobe, or the page refuses them. -/
def applyPage (p : Nat) (s : State) : State :=
  let ps := [p]
  match causeOf s s.fab.regs (candRegs s ps) ps p with
  | some c => refuse p c (grpOf s p) s
  | none => applyPages ps s

/-- The word at `a` of the page is applied alone; the page's other pending words wait on. -/
def applyWord (p a : Nat) (s : State) : State :=
  let waits (k : Nat) : Bool := k / 0x1000 == p && k != a
  let t := applyPage p { s with fab := { s.fab with buf := ramDrop waits s.fab.buf } }
  { t with fab := { t.fab with buf := (s.fab.buf.filter (fun e => waits e.1)).foldl (fun m e => ramSet m e.1 e.2) t.fab.buf } }

def applyNow (p a : Nat) (s : State) : State := withNow (applyWord p a) s

end Sys2Proof.Machine
end

