-- ==== Sys2Proof/Machine/Orbit.lean ====
section
/-! DEFINITION. Slots, orbits and the oasis (chapter 02): slot starts, the cutoff, the boundary, orbit marks and realignments, oasis
work, applications in IDLE, slot map copies. -/

namespace Sys2Proof.Machine

/-! ### Tags -/

/-- Offset of the present slot in the running oasis. -/
def oasisOfs (s : State) : Nat := s.pw.elapsed - s.orb.oasis.start

/-- The present slot is a pedestal-tracking slot (R30). -/
def pedSlot (s : State) : Bool :=
  inOasis s && decide (16 ≤ oasisOfs s) && decide (oasisOfs s + 17 ≤ s.orb.oasis.len)

/-- A rotation slot (R54). -/
def swapSlot (s : State) : Bool := inOasis s && s.orb.oasis.rotating && decide (oasisOfs s < 16)

/-- The fields of the present slot's tag that the counter, the live map and the oasis give. -/
def tagFields (s : State) (g : Tag) : Tag :=
  let e := liveEntry s s.orb.slot
  { g with slot := s.orb.slot, orbit := s.orb.orbit, idle := decide (s.orb.st = .idle), fir := e.testBit 1, self := e.testBit 7,
           user := fld e 24 8, oasis := inOasis s, ped := pedSlot s, swap := swapSlot s,
           late := swapSlot s && decide (8 ≤ oasisOfs s) }

/-- The present slot's tag follows the state. -/
def retag (s : State) : State := let f := tagFields s; modTag f s

/-- A new slot's tag. -/
def pushTag (flush : Bool) (s : State) : State :=
  let g := tagFields s { orb0 := flush, hold := s.pll.hold || s.pll.uncomp, stuck := stuckTowers s, cc0 := s.pw.cc }
  { s with orb := { s.orb with tags := (g :: s.orb.tags).take 4096 } }

/-! ### What a slot start does -/

/-- A write packet whose data word had no decoded frame in its slot ends early (R269). -/
def ctlGap (t : Trunk) (s : State) : State := if (getDl s t).asm.isSome ∧ (getDl s t).asmAt < s.pw.elapsed then ctlAbort t s else s

/-- The first core cycle of a slot whose number and tag are set. -/
def openSlot (s : State) : State :=
  let s := { s with tb := { s.tb with s1 := s.tb.t1, s3 := s.tb.t3 } }
  let s := towerSync (flintSample (groupSlot s))
  let s := ttGap .b (ttGap .a (ctlGap .b (ctlGap .a (dueSlot .b (dueSlot .a (ttCapture .b (ttCapture .a s)))))))
  upsetsPast (diagSlot s)

/-- The core cycles of the present slot that are left pass, and the next slot begins. -/
def passSlot (extra : Nat) (s : State) : State :=
  let n := s.pw.slotLen - s.pw.cyc + extra
  let s := tbAdvance n s
  { s with pw := { s.pw with cc := s.pw.cc + n, cyc := 0, slotLen := 8, elapsed := s.pw.elapsed + 1 } }

/-! ### What the end of a slot does -/

/-- Pedestal tracking ends, once (R94). -/
def pedFinish (s : State) : State :=
  if s.orb.oasis.pedDone then s
  else { pedEnd s with orb := { (pedEnd s).orb with oasis := { (pedEnd s).orb.oasis with pedDone := true } } }

/-- The oasis's last slot ends: its work has run whole, and its results wait for the boundary (R31). -/
def oasisEnd (s : State) : State :=
  if s.orb.oasis.running && decide (s.pw.elapsed + 1 = s.orb.oasis.start + s.orb.oasis.len) then
    let s := pedFinish (eyeEnd .b (eyeEnd .a s))
    let s := sweepKeep { s with chan := s.chan.map pedCommit }
    { s with orb := { s.orb with oasis := { s.orb.oasis with whole := true } } }
  else s

/-- The sweep's last slot ends (R70). -/
def sweepOver (s : State) : State :=
  if s.orb.oasis.sweeping && decide (s.orb.oasis.start + 31 ≤ s.pw.elapsed) then sweepEnd s else s

/-- No orbit mark took effect in slot ORB_OFS (R20). -/
def markMissed (s : State) : State :=
  if s.orb.st = .locked ∧ s.orb.slot = orbOfs s ∧ s.orb.markSeen = false then count 0x03 0 s else s

/-- The slot ends with what the hub's own circuits measured in it. -/
def closeSlot (obs : SlotObs) (s : State) : State :=
  let s := upsetsPast s
  let s := eyeSlot .b obs.eyeB (eyeSlot .a obs.eyeA (sweepSlot obs s))
  markMissed (rearmFlush (oasisEnd (sweepOver s)))

/-- SLOT_ADVANCE: the rest of the present slot passes and the next begins (R18). The last slot of an orbit ends with
ORBIT_BOUNDARY. -/
def slotAdvance (obs : SlotObs) (s : State) : State :=
  if !s.pw.coreRun then s
  else if s.orb.st = .idle then openSlot (pushTag false (passSlot 0 (closeSlot obs s)))
  else if orbLen s ≤ s.orb.slot + 1 then s
  else
    let s := passSlot 0 (closeSlot obs s)
    openSlot (pushTag false { s with orb := { s.orb with slot := s.orb.slot + 1 } })

/-! ### The cutoff (R33) -/

def takeCutoff (s : State) : State :=
  { s with fab := { s.fab with frozen := some s.fab.buf, frozenPg := assignedPages.filter (updPending s), late := [] },
           orb := { s.orb with pastCut := true, lateMap := [] } }

/-- Converters that the marked groups enable power up at the cutoff, which was at the start of slot `e` (R59). -/
def powerAhead (e : Nat) (s : State) : State :=
  let ps := ((List.range 16).filter (fun g => s.fab.marked.getLsbD g)).flatMap (takesPart s)
  let r := candRegs s (ps.filter (fun p => pgIn p 0x20 0x25))
  { s with conv := mapIdxN (fun c k =>
      if convEn r c && !k.on && !(pageSt s (convPage c)).draining then powerUp (instTick e 0) k else k) s.conv }

/-- CUTOFF: the first core cycle of slot ORB_LEN.LEN − 16. A later event of the orbit finds the cutoff passed. -/
def cutoffNow (s : State) : State :=
  if !s.pw.coreRun ∨ s.orb.st = .idle ∨ s.orb.pastCut ∨ s.orb.slot + 16 < orbLen s then s
  else powerAhead (s.pw.elapsed - (s.orb.slot + 16 - orbLen s)) (takeCutoff s)

/-- An orbit that starts at or past its cutoff slot has its cutoff at once (R33). -/
def cutoffAtStart (s : State) : State := if orbLen s ≤ s.orb.slot + 16 then powerAhead s.pw.elapsed (takeCutoff s) else s

/-! ### Strobes (R33, R338, R340) -/

/-- An update strobe marks groups. In IDLE each is applied 8 core cycles later. One that marks no group is never late (DESIGN CHOICE,
log entry 41). -/
def strobe (gs : BitVec 16) (s : State) : State :=
  if gs = 0 then s
  else if s.orb.st = .idle then
    { s with fab := { s.fab with marked := s.fab.marked ||| gs, idleAt := s.fab.idleAt ++ [(s.pw.cc + 9, gs)] } }
  else
    let s := cutoffNow s
    if s.orb.pastCut then count 0x03 6 { s with fab := { s.fab with next := s.fab.next ||| gs } }
    else { s with fab := { s.fab with marked := s.fab.marked ||| gs } }

/-! ### Slot map copies (R27) -/

/-- The copy of quarter `k` is complete: the shadow equals the live bank but for the entries written since. -/
def copyDone (k : Nat) (s : State) : State :=
  match ramFind s.orb.copies k with
  | none => s
  | some c =>
    let inK (n : Nat) : Bool := n / 1024 == k && !c.written.contains n
    let shadow := (s.orb.live.filter (fun e => inK e.1)).foldl (fun m e => ramPut 0 m e.1 e.2) (ramDrop inK s.orb.shadow)
    { s with orb := { s.orb with shadow := shadow, copies := ramDrop (· == k) s.orb.copies } }

/-- Groups of `gs` that hold a slot map page whose copy runs. -/
def heldBack (s : State) (gs : List Nat) : List Nat :=
  gs.filter (fun g => (List.range 4).any (fun k => ramHas s.orb.copies k && regF s (0x04 + k) 0x004 4 4 == g))

def groupsOfMask (v : BitVec 16) : List Nat := (List.range 16).filter (fun g => v.getLsbD g)

/-- The groups of `gs` that nothing holds back are applied within the present slot, which a grid move lengthens (R27, R69, R340). -/
def applyIdle (gs : List Nat) (s : State) : State :=
  let held := heldBack s gs
  let free := gs.filter (fun g => !held.contains g)
  let r0 := s.fab.regs
  let s := applyGroups free s
  let mask := BitVec.ofNat 16 (maskOf free)
  let wait := (s.fab.waiting &&& ~~~mask) ||| BitVec.ofNat 16 (maskOf held)
  let s := { s with fab := { s.fab with marked := s.fab.marked &&& ~~~mask, waiting := wait },
                    pw := { s.pw with slotLen := s.pw.slotLen + gridStep r0 s.fab.regs } }
  retag s

/-- SMAP_COPY_END of quarter `k`: groups held back for it are applied with the values buffered now (R27). -/
def copyEnd (k : Nat) (s : State) : State :=
  match ramFind s.orb.copies k with
  | none => s
  | some c =>
    if s.pw.cc < c.start + 1024 then s
    else
      let s := copyDone k s
      if s.fab.waiting = 0 then s else withNow (applyIdle (groupsOfMask s.fab.waiting)) s

/-- IDLE_GROUP_APPLY: 8 core cycles after its strobe a group is applied. -/
def idleApply (s : State) : State :=
  let due := s.fab.idleAt.filter (fun p => decide (p.1 ≤ s.pw.cc))
  if !s.pw.coreRun ∨ s.orb.st ≠ .idle ∨ due = [] then s
  else
    let s := (List.range 4).foldl (fun s k => copyEnd k s) s
    let gs := due.foldl (fun m p => m ||| p.2) 0 &&& s.fab.marked
    applyIdle (groupsOfMask gs) { s with fab := { s.fab with idleAt := s.fab.idleAt.filter (fun p => decide (s.pw.cc < p.1)) } }

/-- The copies whose 1,024 core cycles have passed are complete. -/
def copiesPast (s : State) : State :=
  (List.range 4).foldl (fun s k =>
    match ramFind s.orb.copies k with
    | some c => if c.start + 1024 ≤ s.pw.cc then copyDone k s else s
    | none => s) s

/-! ### The boundary (R34) -/

/-- The orbit ends: an oasis declared and not run through is counted (R31). -/
def oasisSkipped (s : State) : State := if (declOasis s).isSome && !s.orb.oasis.whole then count 0x03 4 s else s

/-- A rotation that has run its 16 slots and has not been reported stands (R31). -/
def rotationStands (s : State) : State :=
  if s.orb.oasis.rotating && decide (s.orb.oasis.start + 16 ≤ s.pw.elapsed) then rotateAll [] s else s

/-- The results of the oases completed since the last boundary take effect (step 4 of R34). -/
def oasisResults (s : State) : State :=
  let e := s.pw.elapsed
  let s := rotationStands s
  let s := { s with
    chan := s.chan.map (fun x =>
      let x := match x.pedNew with | some v => { setPed e v x with held := false } | none => if x.pedRej then { x with held := true } else x
      { x with pedNew := none, pedRej := false, pedN := 0, pedT := 0, pedSum := 0 }),
    conv := s.conv.map (fun k => { k with resid := k.residNew.getD k.resid, residNew := none, shown := k.parked, shownRet := k.retired,
                                          rotating := false }),
    pll := { s.pll with sweptLast := if s.orb.oasis.running then s.orb.oasis.swept else s.orb.sweptWait || s.pll.sweptLast } }
  let s := if s.orb.sweptWait then trackApply s else s
  eyeShow .b (eyeShow .a s)

/-- EYE_LOW of each trunk rises at the boundary (R252). -/
def eyeRise (la lb : Bool) (s : State) : State :=
  let s := onRise la (eyeLow s .a) 0x48 5 0 s
  onRise lb (eyeLow s .b) 0x49 5 1 s

/-- What the boundary leaves of the orbit's marks and cutoff: those for the following boundary now stand, beside those a copy holds
back. -/
def newOrbitMarks (s : State) : State :=
  { s with fab := { s.fab with marked := s.fab.next ||| s.fab.waiting, next := 0, frozen := none, frozenPg := [], late := [], idleAt := [] },
           orb := { s.orb with pastCut := false, lateMap := [], markSeen := false, realigned := false, firstSlot := 0, oasis := {} } }

/-- Converters powered up for a group that was refused power down again (R59). -/
def powerBack (s : State) : State :=
  { s with conv := mapIdxN (fun c k => if convEn s.fab.regs c && (pageSt s (convPage c)).active then k else powerDown s k) s.conv }

/-- The boundary from its first core cycle on, before the new slot's own work. A group whose slot map copy still runs waits for it
(R27). -/
def boundaryCore (s : State) : State :=
  let s := copiesPast s
  let la := eyeLow s .a
  let lb := eyeLow s .b
  let resid := (List.range 6).map (residHigh s)
  let ph := phaseHigh s
  let orbit := (s.orb.orbit + 1) % 2 ^ 32
  let s := orbitCapture orbit 0 false s
  let s := { s with orb := { s.orb with orbit := orbit, slot := 0 } }
  let s := applyEffect (oasisResults s)
  let s := resid.zipIdx.foldl (fun s p => onRise p.1 (residHigh s p.2) (0x20 + p.2) 1 0 s) s
  let s := onRise ph (phaseHigh s) 0x28 1 0 s
  let gs := groupsOfMask s.fab.marked
  let held := heldBack s gs
  let s := powerBack (applyGroups (gs.filter (fun g => !held.contains g)) s)
  let s := { s with fab := { s.fab with waiting := BitVec.ofNat 16 (maskOf held) } }
  recost (eyeRise la lb (restartDeferred s))

/-- Δ of the grid move that the next boundary applies: it makes the slot that ends longer (R69). -/
def boundaryStep (s : State) : Nat := gridStep s.fab.regs (boundaryCore (pushTag true (passSlot 0 s))).fab.regs

/-- ORBIT_BOUNDARY (R34). The new slot's tag stands from its first core cycle on and follows what the boundary changes. -/
def orbitBoundary (obs : SlotObs) (s : State) : State :=
  if !s.pw.coreRun ∨ s.orb.st = .idle ∨ s.orb.slot + 1 < orbLen s then s
  else
    let s := cutoffNow (oasisSkipped (closeSlot obs s))
    openSlot (retag (newOrbitMarks (boundaryCore (pushTag true (passSlot (boundaryStep s) s)))))

/-! ### Orbit marks (R19–R21) -/

/-- Oasis work that a realignment cuts short is discarded; a rotation that has run its 16 slots stands, as do the results of an oasis
that has run whole (R31). A sweep that is cut counts no SWEEP_SKIPPED, and SWEPT no longer reads 1 (DESIGN CHOICE, log entry 48). -/
def oasisCut (s : State) : State :=
  let s := rotationStands s
  if s.orb.oasis.running && !s.orb.oasis.whole then
    let s := { s with chan := s.chan.map (fun x =>
                        { x with raw := none, pedTmp := none, pedTmpRej := false, pedN := 0, pedT := 0, pedSum := 0 }),
                      pll := { s.pll with sweptLast := false } }
    let s := modLn .b (fun l => { l with eyeNow := [] }) (modLn .a (fun l => { l with eyeNow := [] }) s)
    diagClear true { s with orb := { s.orb with oasis := {} } }
  else
    { s with orb := { s.orb with oasis := {} },
             pll := { s.pll with sweptLast := s.pll.sweptLast && (!s.orb.oasis.running || s.orb.oasis.swept) } }

/-- REALIGNMENT (R21). -/
def realign (s : State) : State :=
  let s := oasisCut (oasisSkipped s)
  let orbit := (s.orb.orbit + 1) % 2 ^ 32
  let s := orbitCapture orbit (orbOfs s) true s
  let s := { s with
    orb := { s.orb with orbit := orbit, slot := orbOfs s, st := .locked, markSeen := true, realigned := true, firstSlot := orbOfs s,
                        pastCut := false, lateMap := [] },
    fab := { s.fab with frozen := none, frozenPg := [], late := [] } }
  let s := retag (modTag (fun g => { g with orb0 := true }) s)
  markerSync (cutoffAtStart (count 0x03 2 s))

/-- The mark that ends IDLE: no boundary actions. -/
def leaveIdle (s : State) : State :=
  let s := { s with
    orb := { s.orb with orbit := regAt s 0x03 0x048, slot := orbOfs s, st := .locked, markSeen := true, realigned := true,
                        firstSlot := orbOfs s, pastCut := false },
    fab := { s.fab with idleAt := [], waiting := 0 },
    pw := { s.pw with stage := max s.pw.stage 6 } }
  markerSync (cutoffAtStart (retag (modTag (fun g => { g with first := decide (s.orb.slot = 0) }) s)))

/-- An orbit mark takes effect in the present slot (R19). -/
def markAct (s : State) : State :=
  match s.orb.st with
  | .idle => leaveIdle s
  | .locked =>
    if s.orb.slot = orbOfs s then { s with orb := { s.orb with markSeen := true } } else count 0x03 1 s
  | .seek =>
    if s.orb.slot = orbOfs s then { s with orb := { s.orb with st := .locked, markSeen := true } } else realign s

/-- RESYNC by fast command or ORB_CTL (R19). -/
def resyncAct (s : State) : State :=
  if s.orb.st = .locked then { s with orb := { s.orb with st := .seek } } else s

/-! ### The oasis (R28–R30) -/

/-- The present slot is the first oasis slot of the live map. -/
def firstOasisSlot (s : State) : Bool := (declOasis s).elim false (fun p => p.1 == s.orb.slot)

/-- An oasis-begin command takes effect (R29). -/
def oasisBeginAct (s : State) : State :=
  if s.orb.st = .idle then s
  else if firstOasisSlot s then { s with orb := { s.orb with oasis := { s.orb.oasis with confirmed := true } } }
  else count 0x03 5 s

/-- Oasis work may begin in the present slot (R28). -/
def oasisMay (s : State) : Bool :=
  s.pw.coreRun && decide (s.orb.st ≠ .idle) && firstOasisSlot s && !s.orb.oasis.running && !s.orb.oasis.whole
    && !(s.orb.realigned && decide (s.orb.firstSlot = s.orb.slot))
    && (decide (regF s 0x03 0x04C 0 1 = 0) || s.orb.oasis.confirmed)

/-- OASIS_START: `est` holds the calibration's estimates of the errors of the parked slices, by which each converter is judged (R53,
R56). -/
def oasisStart (est : List SliceEst) (s : State) : State :=
  if !oasisMay s then s
  else
    let len := (declOasis s).elim 0 (·.2)
    let s := (List.range 384).foldl (fun s c => judgeConv (sliceOk s est c) c s) (parkedTrims s)
    let rot := s.conv.any (·.rotating)
    let s := { s with
      orb := { s.orb with oasis := { s.orb.oasis with running := true, start := s.pw.elapsed, len := len, rotating := rot, pedDone := false } },
      chan := s.chan.map (fun x => { x with pedN := 0, pedT := 0, pedSum := 0 }) }
    retag (diagClear false (eyeStart (sweepStart s)))

/-- ROTATION_END after the 16 rotation slots. -/
def rotationEnd (diffs : List (Nat × Nat)) (s : State) : State :=
  if !s.pw.coreRun ∨ !s.orb.oasis.running ∨ !s.orb.oasis.rotating ∨ s.pw.elapsed < s.orb.oasis.start + 16 then s
  else rotateAll diffs s

/-- PEDESTAL_TRACKING once the samples of its slots have been written. -/
def pedTracking (s : State) : State := if s.pw.coreRun && pedReady s then pedFinish s else s

/-! ### Trim apply outside a boundary (R376) -/

/-- TRIM_APPLY_EFFECT: in IDLE the crossed values take effect at once; else the boundary applies them. -/
def trimApply (s : State) : State := if s.pw.coreRun && decide (s.orb.st = .idle) then flintJudge (applyEffect s) else s

/-- CONVERTER_READY (R59, R429): a powered converter delivers valid samples from the next core cycle on. -/
def convReady (c : Nat) (s : State) : State :=
  let k := getConv s c
  if s.pw.coreRun && k.on && !k.ready then modConv c (fun k => { k with ready := true, readyT := instTick s.pw.elapsed (s.pw.cyc + 1) }) s
  else s

end Sys2Proof.Machine
end

