-- ==== Sys2Proof/Machine/Fabric.lean ====
section
/-! DEFINITION. The register fabric (chapter 16): word accesses of the four masters, guard pairs, capture shadows, posted writes,
command bits; and the notice block (R350, R470). -/

namespace Sys2Proof.Machine

/-! ### Counts on page 0x01 -/

/-- Tallies of page 0x01 count while the page runs (R16). -/
def count01 (i : Nat) (s : State) : State := if pageRuns s 0x01 then count 0x01 i s else s

def addrOf (p o : Nat) : Nat := p * 0x1000 + o

/-! ### Buffered writes (R334, R339) -/

/-- A buffered word is written; from the core cycle of the cutoff on it waits for a later boundary (R33, R338). -/
def bufWrite (p o v : Nat) (s : State) : State :=
  let a := addrOf p o
  let s := cutoffNow s
  { s with fab := { s.fab with buf := ramSet s.fab.buf a (triOf v),
                               late := if s.fab.frozen.isSome && !s.fab.late.contains a then a :: s.fab.late else s.fab.late } }

/-- A write to the slot map window goes to the shadow bank (R23, R27). -/
def smapWrite (p o v : Nat) (s : State) : State :=
  let s := cutoffNow s
  let n := smapSlot s p o
  let k := n / 1024
  let old := shadowRead s n
  { s with orb := { s.orb with
    shadow := ramPut 0 s.orb.shadow n (BitVec.ofNat 32 (v &&& 0xFF0000FF)),
    dirty := if s.orb.dirty.contains n then s.orb.dirty else n :: s.orb.dirty,
    lateMap := if s.orb.pastCut && !ramHas s.orb.lateMap n then ramSet s.orb.lateMap n old else s.orb.lateMap,
    copies := s.orb.copies.map (fun e => if e.1 = k then (e.1, { e.2 with written := n :: e.2.written }) else e) } }

/-! ### Flash operations (R326) -/

/-- Byte span that a flash operation changes: first address and length. -/
def spiSpan (op addr len : Nat) : Nat × Nat := if op = 3 then (addr / 0x1000 * 0x1000, 0x1000) else (addr, len)

def overlaps (a n b k : Nat) : Bool := decide (a < b + k) && decide (b < a + n)

/-- Cause for which SPI_CMD.GO is refused at the write. -/
def spiRefusal (s : State) (v : Nat) : Option Nat :=
  let op := v % 8
  let addr := regF s 0x5C 0x048 0 24
  let len := fld v 16 8 + 1
  if !v.testBit 8 then none
  else if op = 0 ∨ 6 ≤ op ∨ (op = 2 ∧ 256 < addr % 256 + len) then some 0x02
  else if op = 2 ∨ op = 3 then
    let sp := spiSpan op addr len
    if s.slow.hdrOk && overlaps sp.1 sp.2 s.slow.usrBase 0x4000 then some 0x02
    else if !(regAt s 0x5C 0x044).testBit 8 && decide (sp.1 < 0x1000) then some 0x02
    else if s.pw.stage < 3 ∨ s.cal.saving.isSome then some 0x09 else none
  else if s.pw.stage < 3 ∨ s.cal.saving.isSome then some 0x09 else none

/-- An operation starts; `id` and `sr` are what the flash will answer. -/
def spiGo (v id sr : Nat) (s : State) : State :=
  if s.slow.spiBusy then s
  else
    { s with slow := { s.slow with
      spiBusy := true, spiFail := false, spiOp := v % 8, spiAddr := regF s 0x5C 0x048 0 24, spiLen := fld v 16 8 + 1,
      spiAt := s.pw.sup, spiNewId := id + 2 ^ 24 * sr } }

/-- SPI_CMD without its GO bit. -/
def spiFields (v : Nat) (s : State) : State := setReg 0x5C 0x04C (v &&& 0xFF0007) s

/-- The flash's answer to an operation started by a plain register write is open: identification and status are free values. -/
def spiCmdWrite (v : Nat) (s : State) : State :=
  let s := spiFields v s
  if v.testBit 8 then
    let f := takeFree s
    let g := takeFree f.2
    let h := takeFree g.2
    spiGo v (f.1 % 4096 + 4096 * (g.1 % 4096)) (h.1 % 256) h.2
  else s

/-- Program: flash bits can only fall. -/
def programBytes (s : State) : Ram Byte :=
  let old := flashBytes s s.slow.spiAddr s.slow.spiLen
  let new := ramBytes 0 s.slow.spiBuf 0 s.slow.spiLen
  ramPutBytes 0xFF s.slow.flash s.slow.spiAddr (List.zipWith (· &&& ·) old new)

/-- The last status byte of the polling of a program or erase: its bits but WIP are free. -/
def pollStatus (wip : Nat) (s : State) : State :=
  let f := takeFree s
  { f.2 with slow := { f.2.slow with sr := f.1 % 256 / 2 * 2 + wip } }

/-- The operation is over; a soft reset that waited for it acts (R331). -/
def spiIdle (s : State) : State :=
  let s := { s with slow := { s.slow with spiBusy := false } }
  if s.slow.softRst then resetNow 0x5C s else s

/-- The operation `op` that has just started gets the flash's answer: identification and status (OP 4, OP 5). -/
def flashAnswer (was : Bool) (op id sr : Nat) (s : State) : State :=
  if !was && s.slow.spiBusy && decide (s.slow.spiOp = op) then { s with slow := { s.slow with spiNewId := id + 2 ^ 24 * sr } } else s

/-- CK_SUP cycles that a program (5 ms) or an erase (500 ms) may take. -/
def spiLimit (s : State) : Nat := if s.slow.spiOp = 2 then supMs 5 else supMs 500

/-- SPI_FAIL: a program past 5 ms or an erase past 500 ms. What it has left in the bytes
it was to change is open (log entry 22). -/
def spiTimeout (s : State) : State :=
  if !s.slow.spiBusy ∨ (s.slow.spiOp ≠ 2 ∧ s.slow.spiOp ≠ 3) ∨ s.pw.sup < s.slow.spiAt + spiLimit s then s
  else
    let sp := spiSpan s.slow.spiOp s.slow.spiAddr s.slow.spiLen
    let s := pollStatus 1 (spoilFlash sp.1 sp.2 s)
    spiIdle (count 0x5C 2 { s with slow := { s.slow with spiFail := true } })

/-- A program or an erase is past its time. -/
def spiLate (s : State) : Bool :=
  (decide (s.slow.spiOp = 2) || decide (s.slow.spiOp = 3)) && decide (s.slow.spiAt + spiLimit s < s.pw.sup)

/-- SPI_OP_DONE. A program or erase that has passed its time has ended with FAIL. -/
def spiDone (s : State) : State :=
  if !s.slow.spiBusy || !pinsOk s then s
  else if spiLate s then spiTimeout s
  else
    let op := s.slow.spiOp
    let s :=
      if op = 1 then { s with slow := { s.slow with
        spiBuf := ramPutBytes 0 s.slow.spiBuf 0 (flashBytes s s.slow.spiAddr s.slow.spiLen) } }
      else if op = 2 then pollStatus 0 { s with slow := { s.slow with flash := programBytes s } }
      else if op = 3 then pollStatus 0 { s with slow := { s.slow with
        flash := ramDrop (fun a => a / 0x1000 == s.slow.spiAddr / 0x1000) s.slow.flash } }
      else if op = 4 then { s with slow := { s.slow with spiId := s.slow.spiNewId % 2 ^ 24 } }
      else { s with slow := { s.slow with sr := s.slow.spiNewId / 2 ^ 24 } }
    spiIdle s

/-! ### Commands in their effect slot (R264–R266) -/

/-- The first frame of the active trunk whose effect slot has begun and that still has something to do. -/
def dueHead (s : State) : Option (Trunk × Due) :=
  match coreHolder s with
  | none => none
  | some t =>
    if !s.pw.coreRun then none
    else ((getDl s t).due.find? (fun d => decide (d.slot ≤ s.pw.elapsed) && dueLive d)).map (fun d => (t, d))

/-- Replaces the first record equal to `d`. -/
def putDue (d d' : Due) : List Due → List Due
  | [] => []
  | h :: t => if h = d then d' :: t else h :: putDue d d' t

def setDue (t : Trunk) (d d' : Due) (s : State) : State := modDl t (fun x => { x with due := putDue d d' x.due }) s

/-- TEST_PULSE counts as unknown in a slot of the live map's oasis (R265). -/
def pulseBarred (s : State) : Bool := (liveEntry s s.orb.slot).testBit 0

/-- The due code is one that acts as `want` says; the code acts before the orbit mark and the accept (R266). -/
def onCode (want : Nat → Bool) (act : Trunk → State → State) (s : State) : State :=
  match dueHead s with
  | some (t, d) =>
    (match d.code with
     | some c => if want c then act t (setDue t d { d with code := none } s) else s
     | none => s)
  | none => s

def oasisBeginCmd (s : State) : State := onCode (· == 1) (fun _ => oasisBeginAct) s
def updateCmd (s : State) : State := onCode (· == 2) (fun _ s => strobe (BitVec.ofNat 16 (regAt s 0x01 0x044)) s) s
def armFast (s : State) : State := onCode (· == 3) (fun _ => armEvent) s
def resyncCmd (s : State) : State := onCode (· == 4) (fun _ => resyncAct) s
def testPulseCmd (s : State) : State :=
  onCode (· == 5) (fun t s => if pulseBarred s then count (dlPage t) 1 s else testFiring s) s
def unknownCmd (s : State) : State := onCode (fun c => decide (6 ≤ c)) (fun t => count (dlPage t) 1) s

/-- ORBIT_MARK after the frame's code. -/
def orbitMarkCmd (s : State) : State :=
  match dueHead s with
  | some (t, d) => if d.code.isNone && d.orbit then markAct (setDue t d { d with orbit := false } s) else s
  | none => s

/-- ACCEPT after the frame's code and orbit mark. -/
def acceptCmd (s : State) : State :=
  match dueHead s with
  | some (t, d) => if d.code.isNone && !d.orbit && d.accept then acceptAt d.slot (setDue t d { d with accept := false } s) else s
  | none => s

/-- An external accept that takes effect in the present slot is handled before any local trigger that enters in it, with what its frame does
before it (R136, R266). -/
def acceptFirst (s : State) : State :=
  match dueHead s with
  | some (_, d) =>
    if d.accept then acceptCmd (orbitMarkCmd (unknownCmd (testPulseCmd (resyncCmd (armFast (updateCmd (oasisBeginCmd s))))))) else s
  | none => s

/-! ### Command bits -/

/-- The tallies of `v` that rose in the cycle of the clear: item and core cycle. -/
def metClear (p v : Nat) (s : State) : List (Nat × Nat) := (bumpedNow s p).filter (fun b => v.testBit b.1)

/-- The notice of an increment that meets the clear carries VALUE 1 (R472). -/
def metNotice (p : Nat) (met : List (Nat × Nat)) (n : Notice) : Notice :=
  if n.kind = 0xA1 ∧ n.page = p ∧ (n.item, n.cc) ∈ met then { n with value := 1 } else n

/-- TALLY_CLR (R332, R333). A tally that rose in the same cycle of the page's domain reads 1 (R348). -/
def tallyClr (p v : Nat) (s : State) : State :=
  let met := metClear p v s
  let s := modPage p (fun x =>
    let x := { x with tally := met.foldl (fun t b => ramPut 0 t b.1 1) (ramDrop (fun i => v.testBit i) x.tally),
                      held := x.held.map (metNotice p met) }
    if v.testBit 16 then { x with refused := false, cause := 0 } else x) s
  { s with fab := { s.fab with store := s.fab.store.map (metNotice p met) } }

/-- ARM_CMD. -/
def armCmd (v : Nat) (s : State) : State :=
  let s := if v.testBit 0 then armEvent s else s
  let s := if v.testBit 1 then disarmNow s else s
  if v.testBit 2 then softTrigger (acceptFirst s) else s

/-- A flush by a plain register write: how much of the image the coder has taken is open (log entry 4). -/
def flushWrite (i : Nat) (s : State) : State :=
  match (getSeam s i).raw with
  | j :: _ => let f := takeFree s; flushBale i (f.1 % (j.image.length + 1)) f.2
  | [] => s

/-- DL_CTL: CTL_EN at 0 ends a write packet that awaits data words (R269). -/
def dlCtl (t : Trunk) (v : Nat) (s : State) : State :=
  let s := setReg (dlPage t) 0x040 (v % 2) s
  if v % 2 = 0 then modDl t (fun d => { d with drop := 0 }) (ctlAbort t s) else s

/-- MG_STAT.LINK follows synchronisation and auto-negotiation; its falling edge counts LINK_LOSS (R313). -/
def linkSync (s : State) : State :=
  let up := s.mg.sync && (s.mg.anDone || !(regAt s 0x58 0x040).testBit 0)
  let was := s.mg.link
  let s := { s with mg := { s.mg with link := up } }
  if was && !up then count 0x58 2 s else s

/-- MG_CTL: REG_EN at 0 over the management port waits for the write's response; while it is 0, only another master sets it (R328). -/
def mgCtl (m : Master) (v : Nat) (s : State) : State :=
  if m = .mgmt ∧ !(regAt s 0x58 0x040).testBit 1 then linkSync (setReg 0x58 0x040 (v &&& 0x07FF0005) s)
  else if m = .mgmt ∧ !v.testBit 1 ∧ (regAt s 0x58 0x040).testBit 1 then
    linkSync (setReg 0x58 0x040 ((v &&& 0x07FF0007) ||| 2) { s with mg := { s.mg with regOff := true } })
  else linkSync (setReg 0x58 0x040 (v &&& 0x07FF0007) { s with mg := { s.mg with regOff := false } })

/-- The response has been queued: REG_EN falls. -/
def regOffDone (s : State) : State :=
  if s.mg.regOff then
    { (setReg 0x58 0x040 (setFld (regAt s 0x58 0x040) 1 1 0) s) with mg := { s.mg with regOff := false } }
  else s

/-- A write to the host port (R202–R204). -/
def hostWrite (m : Master) (o v : Nat) (s : State) : State :=
  let w := BitVec.ofNat 32 v
  if o = 0x080 then hostSel m (v % 32) s
  else if o = 0x084 then hostCtl m v s
  else if o = 0x088 then hostWord m w none s
  else if o = 0x08C then hostWord m w (some (regF s 0x40 0x084 0 2)) s
  else hostHdr m ((o - 0x090) / 4) w s

/-- Writes whose effect is their own: true when the word is one of them. -/
def ownWrite (p o : Nat) : Bool :=
  (p == 0x40 && pgIn o 0x080 0x09C) || (pgIn p 0x4C 0x4D && o == 0x040) || (p == 0x58 && o == 0x040) || (p == 0x60 && o == 0x040)
    || (p == 0x54 && (o == 0x04C || o == 0x054)) || (p == 0x5C && o == 0x04C) || (pgIn p 0x04 0x07 && pgIn o 0x400 0x7FF)

/-- The effect of a write to one of those words. -/
def ownEffect (m : Master) (p o v : Nat) (s : State) : State :=
  if p = 0x40 then hostWrite m o v s
  else if pgIn p 0x4C 0x4D then dlCtl (trunkOf (p - 0x4C)) v s
  else if p = 0x58 then mgCtl m v s
  else if p = 0x60 then monConfig v s
  else if p = 0x54 then incrCommit m (if o = 0x04C then .tb1 else .tb3) v s
  else if p = 0x5C then spiCmdWrite v s
  else smapWrite p o v s

/-- A completed SRST pair that names page 0x50 acts at once while the orbit counter is in IDLE, where no boundary applies it (R290, R292);
SRST then reads 0. -/
def supResetPair (v : Nat) (s : State) : State :=
  if s.orb.st = .idle ∧ v.testBit 8 = true ∧ v % 256 = 0x50 then
    softReset 0x50 { s with fab := { s.fab with buf := ramDrop (· == 0x01050) s.fab.buf } }
  else s

/-- A write of a shared pointer in the core cycle of the hardware's step: the written value stands, and the lost step is counted (R348). -/
def overridden (step : Option Nat) (s : State) : State := if step = some s.pw.cc then count01 3 s else s

/-- Command bits and effects of the other words, once their stored bits are in force. -/
def sideEffect (m : Master) (p o v : Nat) (s : State) : State :=
  if o = 0x020 then tallyClr p v s
  else if p = 0x01 ∧ o = 0x040 then strobe (BitVec.ofNat 16 v) s
  else if p = 0x01 ∧ o = 0x050 then supResetPair v s
  else if p = 0x03 ∧ o = 0x048 then (if s.orb.st = .idle then { s with orb := { s.orb with orbit := v } } else s)
  else if p = 0x03 ∧ o = 0x04C then (if v.testBit 1 then resyncAct s else s)
  else if p = 0x28 ∧ o = 0x040 then (if v.testBit 9 then ackUncomp s else s)
  else if p = 0x30 ∧ o = 0x048 then acqSync s
  else if p = 0x31 ∧ o = 0x040 then armCmd v s
  else if pgIn p 0x34 0x39 then
    let i := p - 0x34
    if o = 0x044 then (if v.testBit 0 then flushWrite i s else s)
    else if o = 0x080 then (if v.testBit 0 then tpStartJob i s else s)
    else if o = 0x090 then tpIn i (BitVec.ofNat 32 v) s
    else if o = 0x094 then modSeam i (fun x => { x with tp := { x.tp with ptr := v % 8192 } }) (overridden (getSeam s i).tp.stepI s)
    else if o = 0x0A8 then modSeam i (fun x => { x with tp := { x.tp with outPtr := v % 4096 } }) (overridden (getSeam s i).tp.stepO s)
    else s
  else if p = 0x40 ∧ o = 0x044 then seraiSync s
  else if pgIn p 0x48 0x49 ∧ o = 0x040 then (if v.testBit 0 then retrainTrunk m (trunkOf (p - 0x48)) s else s)
  else if p = 0x50 ∧ o = 0x050 then
    (if v.testBit 5 then { s with pw := { s.pw with coreStopped := false } } else s)
  else if p = 0x54 ∧ o = 0x040 then (if v.testBit 0 then latchBases s else s)
  else if p = 0x54 ∧ o = 0x080 then (if v.testBit 0 then tsePopHead s else s)
  else if p = 0x5C ∧ pgIn o 0x100 0x1FC then
    { s with slow := { s.slow with spiBuf := ramPutBytes 0 s.slow.spiBuf (o - 0x100) (leBytes 4 v) } }
  else if p = 0x60 ∧ o = 0x044 then monCommand (v.testBit 0) (v.testBit 1) s
  else if p = 0x70 ∧ pgIn o 0x180 0x27C then csWrite m ((o - 0x180) / 4) (BitVec.ofNat 32 v) s
  else s

/-- The effect of an accepted write: stored bits, buffered bits, commands (R334). What host software writes to reserved bits is ignored
(DESIGN CHOICE, log entry 39: R6 forbids it and R10 leaves it open). -/
def writeEffect (m : Master) (p o v : Nat) (s : State) : State :=
  if ownWrite p o then ownEffect m p o v s
  else
    let f := (regForm p o).getD {}
    let s := if f.rw = 0 then s else
      let old := regAt s p o
      setReg p o ((old - (old &&& f.rw)) ||| (v &&& f.rw)) s
    let s := if f.rb ||| f.gd = 0 then s else bufWrite p o (v &&& (f.rb ||| f.gd)) s
    sideEffect m p o v s

/-! ### Posted writes (R342, R343) and immediate application (R290, R340) -/

/-- A CK_SUP page applies the buffered word at `a` or the pair that has just posted while no boundary can do it. -/
def applySup (p a : Nat) (s : State) : State :=
  if isSup p && ramHas s.fab.buf a && (!s.pw.coreRun || (decide (p = 0x50) && decide (s.orb.st = .idle))) then applyNow p a s else s

/-- POSTED_WRITE_EFFECT of page `p`: the write takes effect in the slow domain, and BUSY clears. -/
def postedEffect (p : Nat) (s : State) : State :=
  match (pageSt s p).posted with
  | none => s
  | some w =>
    let s := modPage p (fun x => { x with posted := none }) s
    if isGuarded p (w.a % 0x1000) && (decide (p ≠ 0x50)) && (getMaster s w.m).guards.any (fun g => g.page == p) then s
    else applySup p w.a (writeEffect w.m p (w.a % 0x1000) w.v.toNat s)

/-- The master's own posted write to the page completes before its next access (R343). -/
def ownPosted (m : Master) (p : Nat) (s : State) : State :=
  if !isSup p then s
  else
    match (pageSt s p).posted with
    | some w => if w.m = m then postedEffect p s else s
    | none => s

/-- A write that its page accepts: at once, or posted. -/
def acceptWrite (m : Master) (p o v : Nat) (s : State) : State :=
  if isSup p then modPage p (fun x => { x with posted := some ⟨m, addrOf p o, BitVec.ofNat 32 v⟩ }) s
  else writeEffect m p o v s

/-- Another master's write to a PS page while BUSY is discarded (R343). -/
def overrun (s : State) (m : Master) (p : Nat) : Bool :=
  isSup p && (match (pageSt s p).posted with | some w => decide (w.m ≠ m) | none => false)

/-! ### Guard pairs (R344–R346) -/

def openGuard (s : State) (m : Master) (p : Nat) : Option Guard := (getMaster s m).guards.find? (fun g => g.page == p)

def dropGuard (m : Master) (p : Nat) (s : State) : State :=
  modMaster m (fun x => { x with guards := x.guards.filter (fun g => g.page != p) }) s

def guardBroken (m : Master) (a : Nat) (s : State) : State :=
  count01 1 (refuseAt m a 0x03 (dropGuard m (a / 0x1000) s))

/-- An access that is not the complement write breaks the master's open pair on the page. -/
def breakGuard (m : Master) (a : Nat) (s : State) : State :=
  if (openGuard s m (a / 0x1000)).isSome then guardBroken m a s else s

/-- Cause for which a write is refused, by range or by the present state. -/
def writeRefusal (s : State) (p o v : Nat) : Option Nat :=
  if !rangeOk p o v then some 0x02
  else if o = 0x004 ∧ updPending s p = true ∧ fld v 4 4 ≠ regF s p 0x004 4 4 then some 0x07
  else if p = 0x5C ∧ o = 0x04C then spiRefusal s v
  else none

/-- A write to a running page at an aligned address. -/
def servedWrite (m : Master) (p o v : Nat) (s : State) : State :=
  let a := addrOf p o
  if 0x800 ≤ o ∧ isGuarded p (o - 0x800) = true then
    match openGuard s m p with
    | some g =>
      if g.off = o - 0x800 ∧ v = 0xFFFFFFFF - g.v.toNat then
        let s := dropGuard m p s
        if overrun s m p then count01 2 (refuseAt m a 0x04 s)
        else
          match writeRefusal s p g.off g.v.toNat with
          | some c => refuseAt m a c s
          | none => acceptWrite m p g.off g.v.toNat s
      else guardBroken m a s
    | none => guardBroken m a s
  else
    let s := breakGuard m a s
    if (regForm p o).isNone then s
    else if overrun s m p then count01 2 (refuseAt m a 0x04 s)
    else if isGuarded p o then
      let s := modMaster m (fun x => { x with guards := x.guards ++ [⟨p, o, BitVec.ofNat 32 v⟩] }) s
      if isSup p ∧ p ≠ 0x50 then acceptWrite m p o v s else s
    else
      match writeRefusal s p o v with
      | some c => refuseAt m a c s
      | none => acceptWrite m p o v s

/-- The start of an access: the master's cause is none yet. -/
def beginAccess (m : Master) (s : State) : State := modMaster m (fun x => { x with cause := 0 }) s

/-- An access to an unassigned or a stopped page is counted and does nothing else (R16, R357). -/
def lostAccess (a : Nat) (s : State) : State :=
  let s := count 0x00 (if isAssigned (a / 0x1000) then 0 else 1) s
  if a % 4 = 0 then s else count01 0 s

def alignRefused (m : Master) (a : Nat) (s : State) : State := count01 0 (refuseAt m a 0x05 (breakGuard m a s))

/-- One word write of master `m` at byte address `a` (R335). -/
def fabWrite (m : Master) (a v : Nat) (s : State) : State :=
  let s := beginAccess m s
  let p := a / 0x1000
  if !pageRuns s p then lostAccess a s
  else
    let s := ownPosted m p s
    if a % 4 ≠ 0 then alignRefused m a s else servedWrite m p (a % 0x1000) v s

/-- A row of the command table that is a write: a posted write of the master takes effect in the same step. -/
def rowWrite (m : Master) (a v : Nat) (s : State) : State := ownPosted m (a / 0x1000) (fabWrite m a v s)

/-- The stored bits of the word at `a` as a read shows them, so that a command bit can be written without changing its word. -/
def keptBits (s : State) (a : Nat) : Nat :=
  let p := a / 0x1000
  let o := a % 0x1000
  match regForm p o with
  | some f => (regAt s p o &&& f.rw) ||| (bufGet s p o &&& (f.rb ||| f.gd))
  | none => 0

/-- A row of the command table that writes 1 to command bits of a word and keeps the rest of the word. -/
def cmdWrite (m : Master) (a bits : Nat) (s : State) : State := rowWrite m a (keptBits s a ||| bits) s

/-! ### Reads (R334, R336) -/

/-- A read of the low word of a capture pair. -/
def readLow (m : Master) (p o : Nat) (s : State) : Nat × State :=
  let v := pairValue s p o
  (v % 2 ^ 32, modMaster m (fun x => { x with shadow := BitVec.ofNat 64 v, fresh := true, stale := false, pair := addrOf p o }) s)

/-- A read of the high word. -/
def readHigh (m : Master) (p o : Nat) (s : State) : Nat × State :=
  let x := getMaster s m
  let hi := x.shadow.toNat / 2 ^ 32
  if x.fresh && decide (x.pair = addrOf p (o - 4)) then (hi, modMaster m (fun x => { x with fresh := false }) s)
  else (hi, count01 4 (modMaster m (fun x => { x with stale := true }) s))

/-- A read of a running page at an aligned address. -/
def servedRead (m : Master) (p o : Nat) (s : State) : Nat × State :=
  match pairLow p o with
  | some lo => if lo = o then readLow m p o s else readHigh m p o s
  | none =>
    if p = 0x40 ∧ o = 0x0A0 then hostRead m s
    else if pgIn p 0x34 0x39 ∧ o = 0x0AC then tpOut (p - 0x34) s
    else (readPlain s p o, s)

def setRdata (m : Master) (r : Nat × State) : State := modMaster m (fun x => { x with rdata := BitVec.ofNat 32 r.1 }) r.2

/-- One word read of master `m` at byte address `a`; the word is the master's `rdata`. -/
def fabRead (m : Master) (a : Nat) (s : State) : State :=
  let s := beginAccess m s
  let p := a / 0x1000
  if !pageRuns s p then setRdata m (0, lostAccess a s)
  else
    let s := ownPosted m p s
    if a % 4 ≠ 0 then setRdata m (0, alignRefused m a s)
    else setRdata m (servedRead m p (a % 0x1000) (breakGuard m a s))

/-! ### Sequential accesses of one request (R270, R319) -/

/-- What a request's accesses gave: words read, cause and index of the first refused access. -/
structure Served where
  words : List Word := []
  cause : Nat := 0
  idx   : Nat := 0
  deriving DecidableEq, Repr, Inhabited

/-- Writes the words at consecutive addresses. -/
def seqWrite (m : Master) : Nat → Nat → List Word → Served → State → Served × State
  | _, _, [], r, s => (r, s)
  | i, a, w :: t, r, s =>
    let s := fabWrite m a w.toNat s
    let c := (getMaster s m).cause
    seqWrite m (i + 1) (a + 4) t (if r.cause = 0 ∧ c ≠ 0 then { r with cause := c, idx := i } else r) s

/-- Reads `n` words at consecutive addresses. -/
def seqRead (m : Master) : Nat → Nat → Nat → Served → State → Served × State
  | 0, _, _, r, s => (r, s)
  | n + 1, i, a, r, s =>
    let s := fabRead m a s
    let x := getMaster s m
    let r := { r with words := r.words ++ [x.rdata] }
    seqRead m n (i + 1) (a + 4) (if r.cause = 0 ∧ x.cause ≠ 0 then { r with cause := x.cause, idx := i } else r) s

/-! ### The notice block (R350, R470) -/

def noticePayload (n : Notice) : List Byte :=
  [BitVec.ofNat 8 n.kind, BitVec.ofNat 8 n.page, BitVec.ofNat 8 n.item, BitVec.ofNat 8 n.value] ++ leBytes 4 n.detail
    ++ leBytes 2 (min 0xFFFF n.supp) ++ leBytes 2 (min 0xFFFF n.lost) ++ leBytes 2 (n.slot % 4096)
    ++ [BitVec.ofNat 8 (b2n n.stopped), 0] ++ leBytes 4 n.orbit

/-- A type-5 bale (R158). -/
def typeFive (s : State) (payload : List Byte) : List Byte :=
  mkBale 5 7 true s.acq.nNtc (s.orb.slot % 4096) s.orb.orbit payload

def bumpNtc (s : State) : State := { s with acq := { s.acq with nNtc := (s.acq.nNtc + 1) % 2 ^ 24 } }

/-- NOTICE_WRITE: the oldest stored notice is written to Q13, unless Q13 holds the block's write. -/
def noticeOut (s : State) : State :=
  match s.fab.store with
  | [] => s
  | n :: t =>
    if !s.pw.coreRun ∨ (getQ s 13).waiting ≠ [] then s
    else
      let l := typeFive s (noticePayload n)
      writeBale 13 l (bumpNtc { s with fab := { s.fab with store := t } })

end Sys2Proof.Machine
end

