-- ==== Sys2Proof/Machine/Downlink.lean ====
section
/-! DEFINITION. The downlinks (chapter 12): frames, landing and effect slots, fast commands, the control channel. -/

namespace Sys2Proof.Machine

/-! ### Landing (R262, R263) -/

/-- A grid move lengthens the present slot (R69): one applied within it, or one of the boundary that ends it. -/
def longSlot (s : State) : Bool :=
  decide (s.pw.slotLen ≠ 8) || (decide (s.orb.st ≠ .idle) && decide (orbLen s ≤ s.orb.slot + 1) && decide (boundaryStep (cutoffNow s) ≠ 0))

/-- Landing slot of a frame that arrives now: the present slot, or the one after the last frame's when that would be the same. In a slot
that a grid move lengthens two frames land (DEDUCED, log entry 62). -/
def landSlot (s : State) (t : Trunk) : Nat :=
  match (getDl s t).landed with
  | some e => if s.pw.elapsed ≤ e then (if longSlot s then e else e + 1) else s.pw.elapsed
  | none => s.pw.elapsed

/-- A frame lands in slot `e`; SLIP counts when it meets the last one. No slot passes while CK_CORE is stopped, so none is measured
then. -/
def landFrame (t : Trunk) (e : Nat) (s : State) : State :=
  if !s.pw.coreRun then s
  else
    let slip := decide (e ≠ s.pw.elapsed) && decide ((getDl s t).landed ≠ some e)
    let s := modDl t (fun d => { d with landed := some e }) s
    if slip then count (dlPage t) 3 s else s

/-- Slot number of elapsed slot `e`, the present slot or one to come. -/
def slotNumber (s : State) (e : Nat) : Nat :=
  if s.orb.st = .idle then s.orb.slot else (s.orb.slot + (e - s.pw.elapsed)) % max 1 (orbLen s)

/-- The arrival phase of a decoded frame. -/
def arrival (t : Trunk) (ph : Nat) (s : State) : State :=
  let near := decide (ph < 2048) || decide (63487 < ph)
  let was := (getDl s t).near
  onRise was near (dlPage t) 4 0 (modDl t (fun d => { d with phase := ph % 65536, near := near }) s)

/-! ### Decoding (R260, R261) -/

/-- A frame in service decodes: eight symbols without code error, CRC8 right. -/
def decodes (f : DlFrame) : Bool :=
  decide (f.syms.length = 8) && decide (codeErrs f = 0) && decide (crc8 (frameBytes f 1 6) = ((symAt f 7).b).toNat)

def frameByte (f : DlFrame) (i : Nat) : Nat := ((symAt f i).b).toNat

/-! ### Control words (R268, R269, R272) -/

def hdrAddr (h : Nat) : Nat := fld h 0 20
def hdrTag (h : Nat) : Nat := fld h 20 6
def hdrNm1 (h : Nat) : Nat := fld h 26 4
def hdrOp (h : Nat) : Nat := fld h 30 2

/-- A header opens a packet, which ends any run of words still to drop, or is discarded while four packets are held. -/
def ctlHeader (t : Trunk) (w e : Nat) (s : State) : State :=
  if hdrOp w = 0 then s
  else if 4 ≤ heldPackets (getDl s t) then
    count (dlPage t) 6 (if hdrOp w = 1 then modDl t (fun d => { d with drop := hdrNm1 w + 1, asmAt := e + 1 }) s else s)
  else
    let k : Packet := { hdr := BitVec.ofNat 32 w, ready := e + 3 }
    let s := modDl t (fun d => { d with drop := 0 }) s
    if hdrOp w = 1 then modDl t (fun d => { d with asm := some k, asmAt := e + 1 }) s
    else
      let s := modDl t (fun d => { d with held := d.held ++ [k] }) s
      if hdrOp w = 3 then count (dlPage t) 7 s else s

/-- A data word of the write packet in progress. -/
def ctlData (t : Trunk) (k : Packet) (w e : Nat) (s : State) : State :=
  let k := { k with data := k.data ++ [BitVec.ofNat 32 w], ready := e + 3 }
  if hdrNm1 k.hdr.toNat + 1 ≤ k.data.length then modDl t (fun d => { d with asm := none, held := d.held ++ [k] }) s
  else modDl t (fun d => { d with asm := some k, asmAt := e + 1 }) s

/-- Data words of a discarded header due before slot `e` had no frame. -/
def dropLeft (d : Dl) (e : Nat) : Nat := d.drop - (e - d.asmAt)

/-- The control word of a frame decoded in landing slot `e`. A packet whose data word was due before it has ended (R269). -/
def ctlWord (t : Trunk) (w e : Nat) (s : State) : State :=
  if !(regAt s (dlPage t) 0x040).testBit 0 ∨ (getLn s t).st ≠ 6 then ctlLost t s
  else
    let d := getDl s t
    if 0 < dropLeft d e then modDl t (fun d => { d with drop := dropLeft d e - 1, asmAt := e + 1 }) s
    else
      match d.asm with
      | some k => if d.asmAt < e then ctlHeader t w e (ctlAbort t s) else ctlData t k w e s
      | none => ctlHeader t w e s

/-! ### The probe byte (R77, R78) -/

/-- A byte of another KIND inside a time-transfer message aborts it (R305). -/
def ttOther (t : Trunk) (b : Nat) (s : State) : State :=
  if b / 64 ≠ 2 ∧ (getDl s t).tt.length < 20 then ttAbort t s else s

def probeByte (t : Trunk) (b ph e : Nat) (s : State) : State :=
  let s := ttOther t b s
  if !s.pw.coreRun then s
  else if b / 64 = 1 then (if holds s t then serveProbe t (b % 64) ph e s else count 0x02 3 s)
  else if b / 64 = 3 then count 0x02 4 s
  else if b / 64 = 2 then ttByte t b e (slotNumber s e) s
  else s

/-! ### Fast commands (R264, R267) -/

/-- Symbol 1 of a decoded frame: its commands wait for their effect slot. While CK_CORE is stopped there is none. -/
def fastByte (t : Trunk) (b e : Nat) (s : State) : State :=
  if b = 0 then s
  else
    let n := slotNumber s e
    let s := modDl t (fun d => { d with fc := b, fcSlot := n, acc := (d.acc + b % 2) % 2 ^ 32 }) s
    if s.pw.coreRun then
      let due : Due := { slot := e + 3, code := if b / 4 = 0 then none else some (b / 4), orbit := b.testBit 1, accept := b.testBit 0 }
      modDl t (fun d => { d with due := d.due ++ [due] }) s
    else if holds s t then s
    else count (dlPage t) 2 s

/-! ### One frame -/

/-- A frame that trains nothing ends the runs of good training frames (R243). -/
def endRuns (t : Trunk) (s : State) : State :=
  if 2 ≤ (getLn s t).st ∧ (getLn s t).st ≤ 5 then modLn t (fun l => { l with good := 0, runL := 0, runD := 0, runA := 0 }) s else s

/-- A decoded frame. -/
def decodedFrame (t : Trunk) (f : DlFrame) (e : Nat) (s : State) : State :=
  let s := modDl t (fun d => { d with frames := (d.frames + 1) % 2 ^ 32 }) s
  let s := if s.pw.coreRun then arrival t f.phase s else s
  let s := fastByte t (frameByte f 1) e s
  let s := probeByte t (frameByte f 6) f.phase e s
  ctlWord t (leNat (frameBytes f 2 4)) e s

/-- DOWNLINK_FRAME (R261): decoded and taken apart, or discarded whole. One that makes DL_LOCK fall is not decoded (log entry 60). -/
def downlinkFrame (t : Trunk) (f : DlFrame) (s : State) : State :=
  if !(getLn s t).dlLock then ctlLost t s
  else if isK283 (symAt f 1) then trainingFrame t f (ctlLost t s)
  else
    let e := if s.pw.coreRun then landSlot s t else s.pw.elapsed
    let s := landFrame t e (frameErrs t f (endRuns t s))
    let lock := (getLn s t).dlLock
    if decodes f then (if lock then decodedFrame t f e s else s)
    else count (dlPage t) 0 (modDl t (fun d => { d with crcErr := (d.crcErr + 1) % 65536 }) (if lock then ctlLost t s else s))

/-! ### Packets (R270, R271) -/

def dlMaster (t : Trunk) : Master := match t with | .a => .dlA | .b => .dlB

/-- A response payload. -/
def responsePayload (t : Trunk) (h status idx : Nat) (data : List Word) : List Byte :=
  [0xC1, BitVec.ofNat 8 (tIdx t + 2 * b2n (decide (hdrOp h = 1))), BitVec.ofNat 8 (hdrTag h), BitVec.ofNat 8 (hdrNm1 h),
   BitVec.ofNat 8 status, BitVec.ofNat 8 idx, 0, 0] ++ leBytes 4 (hdrAddr h) ++ data.flatMap (fun w => leBytes 4 w.toNat)

/-- Status with which a packet is refused whole, if any. -/
def packetRefusal (k : Packet) : Option Nat :=
  let h := k.hdr.toNat
  if k.short then some 0x06
  else if hdrOp h = 3 then some 0x02
  else if hdrAddr h % 4 ≠ 0 then some 0x05
  else if 0xFFFFC < hdrAddr h + 4 * hdrNm1 h then some 0x02
  else none

/-- The packet is checked and makes its accesses. -/
def servePacket (t : Trunk) (k : Packet) (s : State) : List Byte × State :=
  let h := k.hdr.toNat
  match packetRefusal k with
  | some c => (responsePayload t h c 0 [], s)
  | none =>
    if hdrOp h = 1 then
      let r := seqWrite (dlMaster t) 0 (hdrAddr h) k.data {} s
      (responsePayload t h r.1.cause r.1.idx [], r.2)
    else
      let r := seqRead (dlMaster t) (hdrNm1 h + 1) 0 (hdrAddr h) {} s
      (responsePayload t h r.1.cause r.1.idx r.1.words, r.2)

/-- The first held packet without a response is served. -/
def putResp (l : List Byte) : List Packet → List Packet
  | [] => []
  | k :: t => if k.resp.isNone then { k with resp := some l } :: t else k :: putResp l t

/-- The oldest packet of a downlink makes its accesses, once they are due (R264). -/
def packetStep (t : Trunk) (s : State) : State :=
  match (getDl s t).held.find? (fun k => k.resp.isNone) with
  | none => s
  | some k =>
    if s.pw.coreRun ∧ k.short = false ∧ s.pw.elapsed < k.ready then s
    else
      let r := servePacket t k s
      modDl t (fun d => { d with held := putResp r.1 d.held }) r.2

/-- The downlink whose accesses come first (R15). -/
def firstDl (s : State) : Trunk := (coreHolder s).getD .a

/-- The packets of a downlink that are due make their accesses. -/
def packetsDue (t : Trunk) (s : State) : State := Nat.iterate (packetStep t) 4 s

/-- The due accesses of the downlinks, which come before those of the management port and I2C (R15). -/
def downlinksFirst (s : State) : State := packetsDue (peer (firstDl s)) (packetsDue (firstDl s) s)

/-- CONTROL_PACKET: the due packets of the downlink that comes first are served before those of the other (R15). -/
def controlPacket (t : Trunk) (s : State) : State :=
  packetStep t (if t = firstDl s then s else packetsDue (firstDl s) s)

/-- CONTROL_RESPONSE: the oldest held packet's response bale is written to Q13 while Q13 accepts writes. -/
def controlResponse (t : Trunk) (s : State) : State :=
  match (getDl s t).held with
  | [] => s
  | k :: rest =>
    match k.resp with
    | none => s
    | some l =>
      if !s.pw.coreRun ∨ (getQ s 13).waiting ≠ [] then s
      else
        let bale := typeFive s l
        let s := releaseRetained 13 s
        if wordOk s 13 then writeBale 13 bale (bumpNtc (modDl t (fun d => { d with held := rest }) s))
        else seraiSync s

/-- TIME_TRANSFER_MESSAGE: the complete message of whichever downlink carries one. -/
def timeTransfer (s : State) : State := ttMessage .b (ttMessage .a s)

end Sys2Proof.Machine
end

