-- ==== Sys2Proof/Machine/Mgmt.lean ====
section
/-! DEFINITION. The management port, the I2C target and the test access port (chapter 15), with the frames of Q20–Q25 (R302, R303,
R307–R309). Octet times on the port are those of 1.25 Gbaud 8b/10b: 8 ns an octet, 8 octets of preamble and 12 of gap (PRESUMED, log entry 24). -/

namespace Sys2Proof.Machine

/-! ### Frames -/

/-- MG_MAC, byte 0 first (R328). -/
def mgMac (s : State) : List Byte := beBytes 2 (regAt s 0x58 0x048) ++ beBytes 4 (regAt s 0x58 0x044)

def maxLen (s : State) : Nat := regF s 0x58 0x040 16 11

def fcsOf (l : List Byte) : List Byte := leBytes 4 (crc32 l)

/-- The frame with its check sequence in its last four bytes is intact. -/
def fcsOk (l : List Byte) : Bool := decide (4 ≤ l.length) && decide (fcsOf (l.take (l.length - 4)) = l.drop (l.length - 4))

/-- Destinations that are accepted (R314). -/
def destOk (s : State) (l : List Byte) : Bool :=
  let d := l.take 6
  (regAt s 0x58 0x040).testBit 2 || d == mgMac s || d == List.replicate 6 0xFF
    || d == [0x01, 0x1B, 0x19, 0x00, 0x00, 0x00] || d == [0x01, 0x80, 0xC2, 0x00, 0x00, 0x0E]

def etherType (l : List Byte) : Nat := beNat ((l.drop 12).take 2)

/-- The port carries frames: the crystal runs and the link is up (R16, R313). -/
def portUp (s : State) : Bool := s.pw.xtal && s.mg.link && !s.pw.por

/-! ### Ingress (R314, R315) -/

/-- The 32-byte prefix and the frame. -/
def ingressItem (s : State) (q m : Nat) (l : List Byte) : List Byte :=
  tsRecord s (some (tsRx s .tb1 m, tsRx s .tb3 m)) s.mg.rxCount false false false (q - 24) ++ leBytes 2 l.length
    ++ List.replicate 6 0 ++ l

/-- Bytes that Serai does not hold yet: they wait in the receive buffer of 2,048 bytes. -/
def rxWaiting (s : State) : Nat := (((getQ s 24).waiting ++ (getQ s 25).waiting).map (fun b => b.bytes.length)).sum

/-- The item being received is given up: CANCEL when some of its words are in Serai (R189), else its bytes leave the buffer. -/
def dropItem (q : Nat) (s : State) : State :=
  match (getQ s q).waiting with
  | [b] => if b.ord ≠ 0 then cancelBale q s else seraiSync (modQ q (fun x => { x with waiting := [] }) s)
  | _ => seraiSync (modQ q (fun x => { x with waiting := x.waiting.dropLast }) s)

/-- An item goes to Serai word by word; what is held back waits in the receive buffer, and an overflow drops the item. -/
def ingress (q m : Nat) (l : List Byte) (s : State) : State :=
  if !s.pw.coreRun then count 0x58 1 s
  else
    let s := writeBale q (ingressItem s q m l) s
    if rxWaiting s ≤ 2048 then s else count 0x58 1 (dropItem q s)

/-- A frame for the register engine. -/
def toEngine (l : List Byte) (s : State) : State :=
  if 4 ≤ mgHeld s then count 0x58 4 s
  else { s with mg := { s.mg with reqs := s.mg.reqs ++ [{ src := (l.drop 6).take 6, body := (l.take (l.length - 4)).drop 14 }] } }

/-- MG_FRAME_RECEIVE: `l` is the frame with its FCS, `m` the interpolated position of its timestamp point. -/
def mgReceive (l : List Byte) (m : Nat) (s : State) : State :=
  if !portUp s then s
  else if !fcsOk l then count 0x58 0 s
  else if l.length < 64 ∨ maxLen s < l.length ∨ destOk s l = false then s
  else
    let s := { s with mg := { s.mg with rx := (s.mg.rx + 1) % 2 ^ 32, rxCount := (s.mg.rxCount + 1) % 65536 } }
    if l.take 6 = mgMac s ∧ etherType l = 0x88B5 ∧ (regAt s 0x58 0x040).testBit 1 = true then toEngine l s
    else if etherType l = 0x88F7 then ingress 24 m l s
    else ingress 25 m l s

/-! ### Register requests (R318–R320) -/

/-- ADDR of a request; its reserved bits [31:20] are ignored (DESIGN CHOICE, log entry 39). -/
def reqAddr (b : List Byte) : Nat := leNat ((b.drop 8).take 4) % 2 ^ 20
def reqCount (b : List Byte) : Nat := (b.getD 4 0).toNat + 1

/-- Status with which a request is refused whole, if any. -/
def requestRefusal (b : List Byte) : Option Nat :=
  let op := b.getD 1 0
  if op ≠ 1 ∧ op ≠ 2 then some 0x02
  else if op = 1 ∧ b.length < 12 + 4 * reqCount b then some 0x06
  else if reqAddr b % 4 ≠ 0 then some 0x05
  else if 0xFFFFC < reqAddr b + 4 * (reqCount b - 1) then some 0x02
  else none

/-- The data words of a write request. -/
def reqWords (b : List Byte) : List Word := (List.range (reqCount b)).map (fun i => BitVec.ofNat 32 (wordAt b (12 + 4 * i)))

/-- Response payload of R320. -/
def requestPayload (b : List Byte) (status idx : Nat) (words : List Word) : List Byte :=
  [b.getD 0 0, b.getD 1 0 ||| 0x80, b.getD 2 0, b.getD 3 0, b.getD 4 0, BitVec.ofNat 8 status, BitVec.ofNat 8 idx, b.getD 7 0]
    ++ (b.drop 8).take 4 ++ words.flatMap (fun w => leBytes 4 w.toNat)

def queueResponse (r : MgReq) (payload : List Byte) (s : State) : State :=
  regOffDone { s with mg := { s.mg with resps := s.mg.resps ++ [r.src ++ mgMac s ++ [0x88, 0xB5] ++ payload] } }

/-- One request is served. -/
def serveRequest (r : MgReq) (s : State) : State :=
  if r.body.getD 0 0 ≠ 1 then count 0x58 3 s
  else
    match requestRefusal r.body with
    | some c => queueResponse r (requestPayload r.body c 0 []) (count 0x58 3 s)
    | none =>
      if r.body.getD 1 0 = 1 then
        let x := seqWrite .mgmt 0 (reqAddr r.body) (reqWords r.body) {} s
        queueResponse r (requestPayload r.body x.1.cause x.1.idx []) x.2
      else
        let x := seqRead .mgmt (reqCount r.body) 0 (reqAddr r.body) {} s
        queueResponse r (requestPayload r.body x.1.cause x.1.idx x.1.words) x.2

/-- The oldest request is served. -/
def requestStep (s : State) : State :=
  match s.mg.reqs with
  | [] => s
  | r :: t => if s.pw.xtal then serveRequest r { s with mg := { s.mg with reqs := t } } else s

/-- REGISTER_REQUEST: the oldest request, after the due accesses of the downlinks (R15). -/
def registerRequest (s : State) : State := requestStep (downlinksFirst s)

/-- The accesses of the other masters that come before those of I2C (R15). -/
def mastersFirst (s : State) : State := Nat.iterate requestStep 4 (downlinksFirst s)

/-! ### Egress (R307–R309, R316, R317) -/

def padded (l : List Byte) : List Byte := l ++ List.replicate (60 - l.length) 0

/-- A frame leaves whole. -/
def frameOut (l : List Byte) (s : State) : State :=
  let p := padded l
  { s with mg := { s.mg with tx := (s.mg.tx + 1) % 2 ^ 32, sent := p ++ fcsOf p, errored := false } }

/-- A frame ends early with /V/ after the octets `l`. -/
def frameCut (l : List Byte) (s : State) : State := { s with mg := { s.mg with sent := l, errored := true, prog := none } }

/-- Fields of an egress descriptor; reserved bits beside them are ignored (DESIGN CHOICE, log entry 39). -/
def itemLen (l : List Byte) : Nat := leNat (l.take 2) % 2048
def itemTs (l : List Byte) : Bool := (l.getD 2 0).getLsbD 0
def itemOne (l : List Byte) : Bool := (l.getD 2 0).getLsbD 1
def itemId (l : List Byte) : Nat := leNat ((l.drop 4).take 2)
def itemOfs (l : List Byte) : Nat := leNat ((l.drop 6).take 2) % 2048

/-- The head item of an egress queue: its bytes so far, and whether it is closed. -/
def egressHead (s : State) (q : Nat) : Option (List Byte × Bool) :=
  let x := getQ s q
  match x.ready with
  | _ :: _ => some (headBytes s q, true)
  | [] =>
    let l := headBytes s q
    if 16 ≤ l.length ∧ qReg s q 4 16 12 ≤ curBytes s q then some (l, false) else none

/-- An item of a launched queue may be begun with its timestamp point at position `m` of this core cycle: its launch instant has come,
it is late, or it is too short to hold a launch instant (R307, R308). -/
def launched (s : State) (q m : Nat) : Bool :=
  match egressHead s q with
  | some (l, fin) =>
    if l.length < 16 then fin else (getQ s q).late || lateHead s q m || mgReached s q m
  | none => false

/-- ns that a frame of `n` bytes takes from its timestamp point to the end of its gap. -/
def frameNs (n : Nat) : Nat := 8 * (max 60 n + 4 + 12)

/-- The frame of `n` bytes with its timestamp point at position `m` ends, with its gap, before the launch instant that waits at the head
of queue `q` (R307). -/
def beforeLaunch (s : State) (n q m : Nat) : Bool :=
  let l := headBytes s q
  l.length < 16 || mgOutOfReach s q (mgLaunch l)
    || decide (pinAt s (launchBase s q) m + (frameNs n * 2 ^ 32 : Nat) < (mgLaunch l * 2 ^ 32 : Nat))

def fitsLaunches (s : State) (n m : Nat) : Bool := beforeLaunch s n 22 m && beforeLaunch s n 23 m

/-- A launched queue is due, and its frame does not run into the other's launch instant. -/
def dueNow (s : State) (q m : Nat) : Bool :=
  launched s q m && (launched s (45 - q) m || beforeLaunch s (itemLen (headBytes s q)) (45 - q) m)

/-- Increment per core cycle of a base. -/
def baseIncr (s : State) (n : NetBase) : Nat := match n with | .tb1 => s.tb.incr1 | .tb3 => s.tb.incr3

/-- What the base of a launched queue has yet to advance to the launch instant at its head, in units of 2^−32 ns. -/
def toLaunch (s : State) (q m : Nat) : Int := ((mgLaunch (headBytes s q) * 2 ^ 32 : Nat) : Int) - pinAt s (launchBase s q) m

/-- The launch instant of Q23 comes before that of Q22; on different bases each is measured at its own rate (R307). -/
def launch23First (s : State) (m : Nat) : Bool :=
  if launchBase s 22 = launchBase s 23 then decide (mgLaunch (headBytes s 23) < mgLaunch (headBytes s 22))
  else decide (toLaunch s 23 m * (baseIncr s (launchBase s 22) : Int) < toLaunch s 22 m * (baseIncr s (launchBase s 23) : Int))

/-- The next queue of the launched pair: the earlier launch instant, Q22 on a tie (R307). -/
def dueQueue (s : State) (m : Nat) : Option Nat :=
  if dueNow s 22 m then
    (if dueNow s 23 m && launch23First s m then some 23 else some 22)
  else if dueNow s 23 m then some 23 else none

/-- Q20 and Q21 in turn (R317). -/
def plainQueue (s : State) (m : Nat) : Option Nat :=
  let order := if s.mg.lastRR then [20, 21] else [21, 20]
  order.find? (fun q => match egressHead s q with
    | some (l, _) => fitsLaunches s (itemLen l) m
    | none => false)

/-- The item's descriptor is wrong (R316). An item that is not closed yet is judged on what it holds: more bytes than FLEN allows are
wrong already. -/
def itemBad (l : List Byte) (fin : Bool) : Bool :=
  decide (l.length < 16) || decide (itemLen l < 14) || decide (1996 < itemLen l)
    || (fin && decide (l.length ≠ itemLen l + 16)) || decide (itemLen l + 16 < l.length) || (itemOne l && decide (itemLen l < itemOfs l + 8))

/-- The item is discarded unsent. -/
def discardItem (q : Nat) (l : List Byte) (s : State) : State :=
  let s := if itemTs l then tsePush (tsRecord s none (itemId l) true false false (q - 20)) s else s
  count 0x58 7 (removeHead q s)

/-- Adds the one-step correction to the big-endian field (R309). -/
def correctFrame (l : List Byte) (ofs adj : Nat) : List Byte :=
  l.take ofs ++ beBytes 8 ((beNat ((l.drop ofs).take 8) + adj) % 2 ^ 64) ++ l.drop (ofs + 8)

/-- t_tx minus the launch instant, in units of 2^−16 ns, as a 64-bit code. -/
def oneStepAdj (s : State) (q m : Nat) (l : List Byte) : Nat :=
  uns (((tsTx s (launchBase s q) m : Int) - (mgLaunch l * 2 ^ 32 : Nat)) / 2 ^ 16) 64

/-- The record and counts of a frame at its timestamp point. -/
def stampFrame (q m : Nat) (l : List Byte) (s : State) : State :=
  let one := itemOne l && decide (22 ≤ q)
  let s := if itemTs l || itemOne l then
    tsePush (tsRecord s (some (tsTx s .tb1 m, tsTx s .tb3 m)) (itemId l) true one (getQ s q).late (q - 20)) s else s
  if itemOne l && !one then count 0x54 9 s else s

/-- The frame bytes of an item, corrected when it is one-step. Of a frame still being written the octets from the correctionField on
follow once the whole field is there. -/
def itemFrame (q adj : Nat) (l : List Byte) : List Byte :=
  let f := l.drop 16
  if itemOne l && decide (22 ≤ q) then (if f.length < itemOfs l + 8 then f.take (itemOfs l) else correctFrame f (itemOfs l) adj) else f

/-- The port reads the bytes of the head item from byte `a` on (R201). -/
def readItem (q a : Nat) (s : State) : State :=
  let x := getQ s q
  match x.ready, x.cur with
  | b :: _, _ => eccRead q b a (b.bytes.length - a) s
  | [], some b => eccRead q b a (b.bytes.length / 16 * 16 - a) s
  | [], none => s

/-- An item begins: it leaves whole, or its frame goes on while its item is written. -/
def beginItem (q m : Nat) (l : List Byte) (fin : Bool) (s : State) : State :=
  let adj := oneStepAdj s q m l
  let s := readItem q 0 (stampFrame q m l s)
  let s := if q < 22 then { s with mg := { s.mg with lastRR := decide (q = 21) } } else s
  if fin then headSent q (frameOut (itemFrame q adj l) s)
  else
    modQ q (fun x => { x with curSent := l.length, released := true })
      { s with mg := { s.mg with prog := some q, progAdj := adj, sent := itemFrame q adj l } }

/-- A late launched frame meets its policy, once (R308). -/
def lateNow (s : State) (q m : Nat) : Bool := decide (22 ≤ q) && !(getQ s q).late && lateHead s q m

/-- The item chosen at a frame boundary. -/
def startItem (q m : Nat) (s : State) : State :=
  match egressHead s q with
  | none => s
  | some (l, fin) =>
    if itemBad l fin then discardItem q l s
    else if lateNow s q m then
      let s := lateAct q s
      if (getQ s q).late then beginItem q m l fin s else s
    else beginItem q m l fin s

/-- A frame in progress of queue `q` meets an abort mark, its END, a wait, or more bytes. -/
def goOn (q : Nat) (starved : Option Nat) (s : State) : State :=
  let x := getQ s q
  if x.abort then
    count 0x58 5 (frameCut s.mg.sent (modQ q (fun x => { x with abort := false }) s))
  else
    match x.ready with
    | _ :: _ =>
      let l := headBytes s q
      let s := readItem q x.sent { s with mg := { s.mg with prog := none } }
      if l.length ≠ itemLen l + 16 then count 0x58 7 (headSent q (frameCut (itemFrame q s.mg.progAdj l) s))
      else headSent q (frameOut (itemFrame q s.mg.progAdj l) s)
    | [] =>
      let l := headBytes s q
      match x.cur, starved with
      | some _, some n =>
        let s := count 0x58 6 (frameCut ((itemFrame q s.mg.progAdj l).take n) s)
        let s := if x.ctUnder then s else countD 0x40 7 q s
        modQ q (fun x => { x with discard := true, released := false, late := false, curSent := 0 }) s
      | some _, none =>
        modQ q (fun x => { x with curSent := l.length })
          { (readItem q x.curSent s) with mg := { (readItem q x.curSent s).mg with sent := itemFrame q s.mg.progAdj l } }
      | none, _ => { s with mg := { s.mg with prog := none } }

/-- A frame in progress while CK_CORE is stopped: Serai gives no byte, so the frame ends with /V/ after what has left, and the rest of
its item is discarded (R192, R317). -/
def cutStopped (q : Nat) (starved : Option Nat) (s : State) : State :=
  removeHead q (count 0x58 6 (frameCut (match starved with | some n => s.mg.sent.take n | none => s.mg.sent) s))

/-- The frame chosen from the queues at a frame boundary. -/
def sendQueued (m : Nat) (s : State) : State :=
  if !s.pw.coreRun then s
  else
    match dueQueue s m with
    | some q => startItem q m s
    | none =>
      match plainQueue s m with
      | some q => startItem q m s
      | none => s

/-- MG_FRAME_SEND at a frame boundary, or within a frame whose item is still being written. -/
def mgSend (m : Nat) (starved : Option Nat) (s : State) : State :=
  if !portUp s then s
  else
    match s.mg.prog with
    | some q => if s.pw.coreRun then goOn q starved s else cutStopped q starved s
    | none =>
      match s.mg.resps with
      | r :: t =>
        if s.pw.coreRun = false ∨ fitsLaunches s r.length m = true then frameOut r { s with mg := { s.mg with resps := t } }
        else sendQueued m s
      | [] => sendQueued m s

/-- MG_LINK_CHANGE. -/
def linkChange (sync an : Bool) (s : State) : State :=
  if s.pw.xtal then linkSync { s with mg := { s.mg with sync := sync, anDone := sync && an } } else s

/-! ### I2C (R321–R323, R335) -/

/-- A discarded part of a word or pointer. -/
def partialWord (s : State) : State := count 0x5C 0 (refuse 0x5C 0x06 0 s)

def ptrStep (s : State) : State := { s with slow := { s.slow with i2cPtr := (s.slow.i2cPtr + 4) % 2 ^ 20 } }

/-- Bytes of a word after which it is committed: two on page 0x68, else four. -/
def commitAt (s : State) : Nat := if s.slow.i2cPtr / 0x1000 = 0x68 then 2 else 4

/-- The target answers its 7-bit address, 0b110 and the ADR[3:0] of the supervisor's start, and no other: not the general call (R321). -/
def i2cMine (addr : BitVec 7) (s : State) : Bool := pinsOk s && decide (addr.toNat = 0x60 + s.pw.adr % 16)

/-- A transaction begins: no word access of it has been made. -/
def i2cBegin (rd : Bool) (s : State) : State := { (mastersFirst s) with slow := { (mastersFirst s).slow with i2cWords := 0, i2cRd := rd } }

/-- One more word access of the transaction. -/
def i2cCount (s : State) : State := { s with slow := { s.slow with i2cWords := s.slow.i2cWords + 1 } }

/-- The data bytes of a write transaction, word by word. -/
def i2cData : Nat → List Byte → State → State
  | 0, _, s => s
  | fuel + 1, l, s =>
    if l.isEmpty then s
    else if l.length < commitAt s then partialWord s
    else
      let s := i2cCount (fabWrite .i2c s.slow.i2cPtr (leNat (l.take (commitAt s))) s)
      if l.length < 4 then s else i2cData fuel (l.drop 4) (ptrStep s)

/-- I2C_WRITE_TRANSACTION: the address byte and the bytes after it. -/
def i2cWrite (addr : BitVec 7) (l : List Byte) (s : State) : State :=
  if !i2cMine addr s then s
  else
    let s := i2cBegin false s
    if l.isEmpty then s
    else if l.length < 3 then partialWord s
    else i2cData l.length (l.drop 3) { s with slow := { s.slow with i2cPtr := leNat (l.take 3) % 2 ^ 20 } }

/-- Bytes of a read transaction: the word is read before its first byte, and again after every fourth byte (R323). -/
def i2cBytes : Nat → Nat → List Byte → State → List Byte × State
  | 0, _, out, s => (out, s)
  | fuel + 1, n, out, s =>
    let s := i2cCount (fabRead .i2c s.slow.i2cPtr s)
    let w := leBytes 4 (getMaster s .i2c).rdata.toNat
    if n < 4 then (out ++ w.take n, s) else i2cBytes fuel (n - 4) (out ++ w) (ptrStep s)

/-- I2C_READ_TRANSACTION of `n` bytes. -/
def i2cRead (addr : BitVec 7) (n : Nat) (s : State) : State :=
  if !i2cMine addr s then s
  else
    let r := i2cBytes (n + 1) n [] (i2cBegin true s)
    { r.2 with slow := { r.2.slow with i2cOut := r.1 } }

/-- I2C_STRETCH_LIMIT: word access `k` of the transaction took more than 200 µs. SCL is released and the limit counts: a write is still
made, and the bytes of a word read are 0xFF (R321). -/
def stretchLimit (k : Nat) (s : State) : State :=
  if s.slow.i2cWords ≤ k then s
  else
    let out := if s.slow.i2cRd then mapIdxN (fun j b => if j / 4 = k then 0xFF else b) s.slow.i2cOut else s.slow.i2cOut
    count 0x5C 1 { s with slow := { s.slow with i2cOut := out } }

/-! ### The test access port (R327, R425) -/

/-- The port can be driven: it is powered, and TRST_N does not hold it in Test-Logic-Reset. -/
def tapOpen (s : State) : Bool := !s.pw.por && s.pw.vddio && !s.jtag.trst

/-- An instruction is loaded. -/
def loadIr (code : Nat) (taken : Bool) (tdo : Word) (s : State) : State :=
  if tapOpen s then { s with jtag := { s.jtag with ir := code, tlr := false, taken := taken, tdo := tdo } } else s

/-- TEST_LOGIC_RESET, by TRST_N low, which holds the port there, or with TRST_N high. -/
def tapReset (low : Bool) (s : State) : State :=
  { s with jtag := { s.jtag with ir := 1, tlr := true, taken := false, tdo := 0, trst := low } }

/-- What the hub drives on the covered pin of boundary cell `k`, where the state holds a level for it: in HIGHZ nothing, in EXTEST the
cell on a pin that is an output, else the hub's own level on TRIG_OUT, TPWR_A and TPWR_B (R327; cells in the order of log entry 63).
Under the POR TRIG_OUT is low and every other output is at high impedance (R425). -/
def pinOut (s : State) (k : Nat) : Option Bool :=
  if !s.pw.vddio then none
  else if s.pw.por then (if k = 1 then some false else none)
  else if s.jtag.taken then
    (if decide (s.jtag.ir = 0) && [1, 7, 8, 9, 10, 11, 13, 14].contains k then some (s.jtag.boundary.getLsbD k) else none)
  else if k = 1 then some s.acq.trigOut
  else if k = 13 then some s.sup.ta.tpwr
  else if k = 14 then some s.sup.tb.tpwr
  else none

/-- The management transmitter is driven: in electrical idle under the POR, and undefined without VDDA (R425, R432). -/
def mgTxDriven (s : State) : Bool := !s.pw.por && s.pw.vdda

/-- The levels on the covered pins, cell by cell: where the state holds none, a level from outside the hub, which is free (log entry 4). -/
def pinLevels (s : State) : Word × State :=
  let f := takeFree s
  (BitVec.ofNat 32 (maskOf ((List.range 15).filter (fun k => (pinOut s k).getD (f.1.testBit k)))), f.2)

/-- SAMPLE/PRELOAD: the levels on the covered pins are captured and leave on TDO while the cells are shifted in (R327). -/
def samplePreload (bits : BitVec 15) (s : State) : State :=
  if tapOpen s then
    let s := loadIr 2 false 0 s
    let x := pinLevels s
    { x.2 with jtag := { x.2.jtag with boundary := bits, tdo := x.1 } }
  else s

end Sys2Proof.Machine
end

