-- ==== Sys2Proof/Machine/Power.lean ====
section
/-! DEFINITION. Power, reset, start-up and clocks (chapter 22, R17, R283): the POR, the rails, the crystal, the first lock of the core
PLL and CK_CORE's return. -/

namespace Sys2Proof.Machine

/-! ### The power-on reset (R424–R426) -/

/-- The hub under the POR: everything at reset but what the POR does not reach: the queue of commands, the rails and pins, the SPI
flash and the fuse bank, the free-value counter, and whether a release has happened. -/
def heldState (s : State) : State :=
  { State.reset with
    pending := s.pending,
    pw := { State.reset.pw with vdd := s.pw.vdd, vddioPor := s.pw.vddioPor, resetN := s.pw.resetN, vdda := s.pw.vdda,
                                vddio := s.pw.vddio, vddp := s.pw.vddp, released := s.pw.released, freeCtr := s.pw.freeCtr },
    slow := { State.reset.slow with flash := s.slow.flash }, cal := { State.reset.cal with bank := s.cal.bank } }

/-- POR_ASSERT: VDD at any time; VDDIO and RESET_N only before the first release. -/
def porAssert (cause : PorCause) (s : State) : State :=
  let h := heldState s
  match cause with
  | .vdd => { h with pw := { h.pw with vdd := false } }
  | .vddio => if s.pw.released then s else { h with pw := { h.pw with vddioPor := false, vddio := false } }
  | .resetN => if s.pw.released then s else { h with pw := { h.pw with resetN := false } }

/-- No condition of R424 holds the POR any more. -/
def porEnds (s : State) : Bool := s.pw.vdd && (s.pw.released || (s.pw.vddioPor && s.pw.resetN))

/-- POR_RELEASE, with the level of RESET_N as the POR samples it: the supervisor starts in stage 1, samples ADR[3:0] and reads the fuse
bank (R321, R424, R426, R370). -/
def porRelease (adr : Nat) (resetN : Bool) (s : State) : State :=
  if !s.pw.por then s
  else
    let s := { s with pw := { s.pw with resetN := resetN } }
    if !porEnds s then s
    else fuseLoad { s with pw := { s.pw with por := false, released := true, stage := 1, sup := 0, adr := adr } }

/-! ### Frames that can leave again (R198) -/

/-- Serai starts a replay when a caravan frame can leave again after none could. -/
def leaveAgain (before : Option Trunk) (s : State) : State :=
  if before.isNone && (canSend s).isSome && !s.sup.checking then startReplay s else s

/-! ### The crystal (R17) -/

/-- XTAL_LOSS: no frame leaves, a caravan frame in progress is cut off, the management link falls, XTAL_LOST is raised. A management
frame that has begun stays begun, and goes on once the crystal and the link are back (DESIGN CHOICE, log entry 40). -/
def xtalLoss (s : State) : State :=
  if !s.pw.xtal then s
  else
    let s := linkSync { (unsend s) with mg := { (unsend s).mg with sync := false, anDone := false } }
    txBoth (count 0x00 2 { s with pw := { s.pw with xtal := false, xtalLost := true } })

/-- XTAL_RETURN. -/
def xtalReturn (s : State) : State :=
  if s.pw.xtal || !s.pw.vdda then s
  else
    let c := canSend s
    txBoth (leaveAgain c (detectJudge .b (detectJudge .a { s with pw := { s.pw with xtal := true, xtalLost := false } })))

/-! ### Rails (R432, R433) -/

/-- VDDA is lost: CK_CORE stops at once, the crystal oscillator stops, and the flint outputs are undefined. -/
def vddaLoss (s : State) : State :=
  let s := { s with pw := { s.pw with vdda := false } }
  let s := if s.pw.coreRun then coreStop s else s
  let f := takeFree s
  let s := { f.2 with fout := mapIdxN (fun o x => { x with high := f.1.testBit o }) f.2.fout,
                      conv := f.2.conv.map (fun k => { k with ready := false }) }
  xtalLoss s

/-- VDDA returns: the discriminators start with no level. -/
def vddaReturn (s : State) : State :=
  if s.pw.vdda then s
  else
    { s with pw := { s.pw with vdda := true }, fout := s.fout.map (fun x => { x with high := false, t0 := none }),
             flint := s.flint.map (fun x => { x with uv := 0, on := false, contrib := false, above := false }) }

/-- VDDIO is lost: the digital pins cease, the flint outputs among them, TPWR floats and both trunks lose their supply; a save fails. -/
def vddioLoss (s : State) : State :=
  let s := outsLow { s with pw := { s.pw with vddio := false } }
  saveStop (supplyLoss .b (supplyLoss .a s))

/-- A command that may change what the trunks' lanes send: their training sets and capability blocks follow (R244, R246). -/
def lanesAfter (f : State → State) (s : State) : State := running (fun s => txBoth (f s)) s

/-- A POR detector on a rail at `mv` mV: set at `rise`, cleared below `fall` (R440). -/
def porLevel (was : Bool) (rise fall mv : Nat) : Bool := if was then decide (fall ≤ mv) else decide (rise ≤ mv)

/-- VDD stands at `mv` mV: only its POR detector acts (R424, R432). -/
def vddTo (mv : Nat) (s : State) : State :=
  if porLevel s.pw.vdd 800 740 mv then { s with pw := { s.pw with vdd := true } }
  else if s.pw.vdd then porAssert .vdd s else s

/-- VDDA goes into or out of its range. -/
def vddaTo (up : Bool) (s : State) : State :=
  if s.pw.por then { s with pw := { s.pw with vdda := up } }
  else if up then vddaReturn s
  else if s.pw.vdda then vddaLoss s else s

/-- VDDIO stands at `mv` mV: its POR detector, whose clearing counts before the first release only, and its range. -/
def vddioTo (mv : Nat) (s : State) : State :=
  let s := { s with pw := { s.pw with vddioPor := porLevel s.pw.vddioPor 1550 1450 mv } }
  let up := railInRange .vddio mv
  if s.pw.vddio && !up && !s.pw.por then txBoth (vddioLoss s) else { s with pw := { s.pw with vddio := up } }

/-- The rail stands at `mv` mV. A glitch shorter than 1 µs is no event: the level has stood that long (R440; log entry 84). -/
def railTo (r : Rail) (mv : Nat) (s : State) : State :=
  match r with
  | .vdd => vddTo mv s
  | .vdda => vddaTo (railInRange .vdda mv) s
  | .vddlA => lanesAfter (vddlTo .a mv) s
  | .vddlB => lanesAfter (vddlTo .b mv) s
  | .vddio => vddioTo mv s
  | .vddp => { s with pw := { s.pw with vddp := railInRange .vddp mv } }

/-! ### CK_CORE starts (R428, R429) -/

/-- The trunk whose forwarded clock the PLL takes while CK_CORE does not run. -/
def lockRef (s : State) : Option Trunk :=
  if fwdOk s s.pll.start then some s.pll.start else if fwdOk s (peer s.pll.start) then some (peer s.pll.start) else none

/-- The pages of CK_CORE. -/
def corePages : List Nat := assignedPages.filter (fun p => !isSup p && !([0x58, 0x4C, 0x4D].contains p))

/-- In the first core cycle every page of CK_CORE shows its reset values: what its trunk events counted before is gone (R359, R429). -/
def corePagesReset (s : State) : State :=
  let s := corePages.foldl (fun s p => modPage p (fun x => { x with tally := [], bumped := [], cause := 0, refused := false }) s) s
  modLn .b (fun l => { l with codeErr := 0 }) (modLn .a (fun l => { l with codeErr := 0 }) s)

/-- A trunk that waited for CK_CORE in LOCK goes on (R243). -/
def coreFollows (s : State) : State := deskewJudge .b (deskewJudge .a s)

/-- The state of R429 in the first core cycle. -/
def coreInit (t : Trunk) (s : State) : State :=
  let s := corePagesReset s
  let s := { s with
    pw := { s.pw with coreRun := true, coreEver := true },
    pll := { s.pll with ref := t, lock := true, lockFrom := s.pw.elapsed },
    orb := { s.orb with orbit := regAt s 0x03 0x048, slot := 0, st := .idle },
    conv := mapIdxN (fun c k => { k with on := convEn s.fab.regs c, ready := false, slices := List.replicate 11 (seedOf s c) }) s.conv,
    seams := s.seams.map (fun x => { x with startN := 2 * s.pw.elapsed, startSlot := 0, startOrb := regAt s 0x03 0x048 }) }
  coreFollows (releaseHeld (flintJudge (applyEffect (recost (retag (loadCorr (loadTrims (setPhase false s.pll.uncomp s))))))))

/-- CORE_PLL_FIRST_LOCK, in stage 4. -/
def coreFirstLock (s : State) : State :=
  if s.pw.coreEver || decide (s.pw.stage < 4) || !s.pw.vdda then s
  else
    match lockRef s with
    | some t => coreInit t s
    | none => s

/-! ### CK_CORE returns (R283) -/

/-- The present slot is the last of its orbit. -/
def lastSlot (s : State) : Bool := decide (s.orb.st ≠ .idle) && decide (orbLen s ≤ s.orb.slot + 1)

/-- The next slot begins, with the boundary where the present one is the last of its orbit. -/
def nextSlot (s : State) : State := if lastSlot s then orbitBoundary {} s else slotAdvance {} s

/-- No core cycle of the present slot is left. -/
def slotOver (s : State) : State := { s with pw := { s.pw with cyc := s.pw.slotLen } }

/-- The interrupted slot is over: it counts as one slot, and none of its remaining core cycles occur. -/
def endInterrupted (s : State) : State := nextSlot (slotOver s)

/-- The PLL has locked to trunk `t` again: the GAP bits rise before a boundary at the return applies a step or load (R296), and effective values
that waited take effect (R376). -/
def coreReturn (t : Trunk) (s : State) : State :=
  let same := decide (s.pll.ref = t)
  let s := { s with
    pw := { s.pw with coreRun := true },
    pll := { s.pll with ref := t, lock := true, phaseLost := false, lockFrom := s.pw.elapsed,
                        ofs := if same then s.pll.ofs else 0, skewValid := s.pll.skewValid && same,
                        skewDone := if same then s.pll.skewDone else none },
    dlA := { s.dlA with landed := none }, dlB := { s.dlB with landed := none } }
  coreFollows (releaseHeld (endInterrupted (flintJudge (applyEffect (gapSet (setPhase false true (flintResume s)))))))

/-- CORE_RESUME. -/
def coreResume (s : State) : State :=
  if s.pw.coreRun || !s.pw.coreEver || !s.pw.vdda then s
  else
    match lockRef s with
    | some t => leaveAgain (canSend s) (coreReturn t s)
    | none => s

end Sys2Proof.Machine
end

