-- ==== Sys2Proof/Machine/AcquireCmds.lean ====
section
/-! DEFINITION. Commands of acquisition (chapter 07). -/

namespace Sys2Proof.Machine

/-- SELF_TRIGGER (R144). -/
def execSelfTrigger (s : State) : Host.Outcome State Fault Refusal := .next (coreOnly (fun s => selfTrig (acceptFirst s)) s)

/-- TRIG_IN_EDGE (R145, R443). -/
def execTrigInEdge (s : State) (ps : Nat := 0) (late : Bool := false) : Host.Outcome State Fault Refusal :=
  .next (coreOnly (fun s => if pinsOk s then trigInEdge ps late (acceptFirst s) else s) s)

/-- SOFT_TRIG (R146). -/
def execSoftTrig (m : Master) (s : State) : Host.Outcome State Fault Refusal := .next (running (cmdWrite m 0x31040 4) s)

/-- ARM_CMD_ARM (R147). -/
def execArmCmdArm (m : Master) (s : State) : Host.Outcome State Fault Refusal := .next (running (cmdWrite m 0x31040 1) s)

/-- DISARM (R147). -/
def execDisarm (m : Master) (s : State) : Host.Outcome State Fault Refusal := .next (running (cmdWrite m 0x31040 2) s)

/-- PRIMING_END (R147). -/
def execPrimingEnd (s : State) : Host.Outcome State Fault Refusal := .next (coreOnly primingOver s)

/-- HOLDOFF_END (R148). -/
def execHoldoffEnd (s : State) : Host.Outcome State Fault Refusal := .next (coreOnly holdoffOver s)

/-- TRIG_OUT_FALL (R145). -/
def execTrigOutFall (s : State) : Host.Outcome State Fault Refusal := .next (coreOnly trigOutFall s)

/-- LIFT_START (R139, R141, R142). -/
def execLiftStart (i : Fin 6) (s : State) : Host.Outcome State Fault Refusal := .next (coreOnly (liftBegin i.val) s)

/-- LIFT_END (R140). -/
def execLiftEnd (i : Fin 6) (s : State) : Host.Outcome State Fault Refusal := .next (coreOnly (liftEnd i.val) s)

end Sys2Proof.Machine
end

