-- ==== Sys2Proof/Machine/BoardCmds.lean ====
section
/-! DEFINITION. Commands of the calibration store, the monitor converter, the light pulser and the heritage readout (chapters 18–21). -/

namespace Sys2Proof.Machine

/-- CS_USER_VIEW_WRITE (R373). -/
def execCsUserViewWrite (m : Master) (i : Fin 64) (w : Word) (s : State) : Host.Outcome State Fault Refusal :=
  .next (running (rowWrite m (0x70180 + 4 * i.val) w.toNat) s)

/-- SAVE_DONE (R375). -/
def execSaveDone (ok : Bool) (s : State) : Host.Outcome State Fault Refusal := .next (running (saveEnd ok) s)

/-- TRIM_APPLY_EFFECT (R376). -/
def execTrimApplyEffect (s : State) : Host.Outcome State Fault Refusal := .next (coreOnly trimApply s)

/-- MON_START (R385). -/
def execMonStart (m : Master) (s : State) : Host.Outcome State Fault Refusal := .next (running (rowWrite m 0x60044 1) s)

/-- MON_STOP (R385). -/
def execMonStop (m : Master) (s : State) : Host.Outcome State Fault Refusal := .next (running (rowWrite m 0x60044 2) s)

/-- MON_CFG_WRITE (R386). -/
def execMonCfgWrite (m : Master) (v : Word) (s : State) : Host.Outcome State Fault Refusal :=
  .next (running (rowWrite m 0x60040 v.toNat) s)

/-- MONITOR_RESULT (R388). -/
def execMonitorResult (level : Int) (s : State) : Host.Outcome State Fault Refusal := .next (running (monResult level) s)

/-- PULSER_FIRING (R395). -/
def execPulserFiring (s : State) : Host.Outcome State Fault Refusal := .next (coreOnly slotFiring s)

/-- ROW_SWITCH_OPEN (R394). -/
def execRowSwitchOpen (s : State) : Host.Outcome State Fault Refusal := .next (coreOnly rowOpen s)

/-- BLANKING_END (R394). -/
def execBlankingEnd (s : State) : Host.Outcome State Fault Refusal := .next (coreOnly blankEnd s)

/-- SITE_VERDICT (R400). -/
def execSiteVerdict (k : Fin 16) (inRegulation : Bool) (s : State) : Host.Outcome State Fault Refusal :=
  .next (coreOnly (verdict k.val inRegulation) s)

/-- HERITAGE_FORMAT_START (R409–R414). -/
def execHeritageFormatStart (s : State) : Host.Outcome State Fault Refusal := .next (coreOnly herFormat s)

end Sys2Proof.Machine
end

