-- ==== Sys2Proof/Machine/CompressCmds.lean ====
section
/-! DEFINITION. Commands of the compression engines and the decoder test port (chapter 08). -/

namespace Sys2Proof.Machine

/-- VERIFY_ERROR (R173). -/
def execVerifyError (i : Fin 6) (code : Byte) (s : State) : Host.Outcome State Fault Refusal :=
  .next (coreOnly (verifyFail i.val code.toNat) s)

/-- BALE_CLOSE (R172). -/
def execBaleClose (i : Fin 6) (kind : BaleKind) (s : State) : Host.Outcome State Fault Refusal :=
  .next (coreOnly (engineClose i.val kind) s)

/-- A write of FLUSH that its page accepts ends the block in progress; `taken` says where the coder stands. -/
def flushCmd (m : Master) (i taken : Nat) (s : State) : State :=
  let runs := pageRuns s (0x34 + i)
  let s := rowWrite m (addrOf (0x34 + i) 0x044) 0 s
  if runs && decide ((getMaster s m).cause = 0) then flushBale i taken s else s

/-- CMP_FLUSH (R168), with the image bytes taken so far. -/
def execCmpFlush (m : Master) (i : Fin 6) (taken : Nat) (s : State) : Host.Outcome State Fault Refusal :=
  .next (running (flushCmd m i.val taken) s)

/-- TP_START (R176). -/
def execTpStart (m : Master) (i : Fin 6) (cmpEn : Bool) (s : State) : Host.Outcome State Fault Refusal :=
  .next (running (rowWrite m (addrOf (0x34 + i.val) 0x080) (1 + 2 * b2n cmpEn)) s)

/-- TP_JOB_DONE (R176). -/
def execTpJobDone (i : Fin 6) (s : State) : Host.Outcome State Fault Refusal := .next (coreOnly (tpDone i.val) s)

/-- TP_IN_WRITE (R176). -/
def execTpInWrite (m : Master) (i : Fin 6) (w : Word) (s : State) : Host.Outcome State Fault Refusal :=
  .next (running (rowWrite m (addrOf (0x34 + i.val) 0x090) w.toNat) s)

/-- TP_OUT_READ (R178). -/
def execTpOutRead (m : Master) (i : Fin 6) (s : State) : Host.Outcome State Fault Refusal :=
  .next (running (fabRead m (addrOf (0x34 + i.val) 0x0AC)) s)

end Sys2Proof.Machine
end

