-- ==== Sys2Proof/Machine/DownlinkCmds.lean ====
section
/-! DEFINITION. Commands of the downlinks (chapter 12). -/

namespace Sys2Proof.Machine

/-- DOWNLINK_FRAME (R261, R262); what the lanes send follows (R244). -/
def execDownlinkFrame (t : Trunk) (f : DlFrame) (s : State) : Host.Outcome State Fault Refusal :=
  .next (running (fun s => txBoth (downlinkFrame t f s)) s)

/-- ACCEPT (R131, R266). -/
def execAccept (s : State) : Host.Outcome State Fault Refusal := .next (coreOnly acceptCmd s)

/-- UPDATE (R338). -/
def execUpdate (s : State) : Host.Outcome State Fault Refusal := .next (coreOnly updateCmd s)

/-- ARM (R147). -/
def execArm (s : State) : Host.Outcome State Fault Refusal := .next (coreOnly armFast s)

/-- TEST_PULSE (R396, R265). -/
def execTestPulse (s : State) : Host.Outcome State Fault Refusal := .next (coreOnly testPulseCmd s)

/-- NOP: fast command code 0x00 has no effect (R265). -/
def execNop (s : State) : Host.Outcome State Fault Refusal := .next (s)

/-- CMD_UNKNOWN (R265). -/
def execCmdUnknown (s : State) : Host.Outcome State Fault Refusal := .next (coreOnly unknownCmd s)

/-- PROBE_ECHO (R80, R81). -/
def execProbeEcho (frac : Nat) (s : State) : Host.Outcome State Fault Refusal := .next (coreOnly (sendEcho frac) s)

/-- CONTROL_PACKET (R270). -/
def execControlPacket (t : Trunk) (s : State) : Host.Outcome State Fault Refusal := .next (running (controlPacket t) s)

/-- CONTROL_RESPONSE (R271). -/
def execControlResponse (t : Trunk) (s : State) : Host.Outcome State Fault Refusal := .next (coreOnly (controlResponse t) s)

/-- DL_CTL_WRITE (R273). -/
def execDlCtlWrite (m : Master) (t : Trunk) (v : Word) (s : State) : Host.Outcome State Fault Refusal :=
  .next (running (rowWrite m (addrOf (dlPage t) 0x040) v.toNat) s)

/-- TIME_TRANSFER_MESSAGE (R305). -/
def execTimeTransferMessage (s : State) : Host.Outcome State Fault Refusal := .next (coreOnly timeTransfer s)

end Sys2Proof.Machine
end

