-- ==== Sys2Proof/Machine/FabricCmds.lean ====
section
/-! DEFINITION. Commands of the register fabric and the notice block (chapters 16, 25). -/

namespace Sys2Proof.Machine

/-- REGISTER_WRITE (R334, R335). -/
def execRegisterWrite (m : Master) (a : Addr) (v : Word) (s : State) : Host.Outcome State Fault Refusal :=
  .next (running (fabWrite m a.toNat v.toNat) s)

/-- POSTED_WRITE_EFFECT (R342). -/
def execPostedWriteEffect (page : Byte) (s : State) : Host.Outcome State Fault Refusal :=
  .next (running (postedEffect page.toNat) s)

/-- GUARD_COMPLEMENT_WRITE (R344, R345). -/
def execGuardComplementWrite (m : Master) (a : Addr) (v : Word) (s : State) : Host.Outcome State Fault Refusal :=
  .next (running (rowWrite m a.toNat v.toNat) s)

/-- CAPTURE_LOW_READ (R336). -/
def execCaptureLowRead (m : Master) (a : Addr) (s : State) : Host.Outcome State Fault Refusal :=
  .next (running (fabRead m a.toNat) s)

/-- CAPTURE_HIGH_READ (R336). -/
def execCaptureHighRead (m : Master) (a : Addr) (s : State) : Host.Outcome State Fault Refusal :=
  .next (running (fabRead m a.toNat) s)

/-- UPD_STROBE (R338). -/
def execUpdStrobe (m : Master) (groups : BitVec 16) (s : State) : Host.Outcome State Fault Refusal :=
  .next (running (rowWrite m 0x01040 groups.toNat) s)

/-- TALLY_CLEAR (R332, R349). -/
def execTallyClear (m : Master) (page : Byte) (mask : BitVec 16) (s : State) : Host.Outcome State Fault Refusal :=
  .next (running (rowWrite m (addrOf page.toNat 0x020) mask.toNat) s)

/-- CAUSE_CLEAR (R332, R333). -/
def execCauseClear (m : Master) (page : Byte) (s : State) : Host.Outcome State Fault Refusal :=
  .next (running (rowWrite m (addrOf page.toNat 0x020) 0x10000) s)

/-- NOTICE_WRITE (R350, R470). -/
def execNoticeWrite (s : State) : Host.Outcome State Fault Refusal := .next (coreOnly noticeOut s)

/-- DRAIN_END (R351). -/
def execDrainEnd (page : Byte) (s : State) : Host.Outcome State Fault Refusal := .next (running (drainEnd page.toNat) s)

end Sys2Proof.Machine
end

