-- ==== Sys2Proof/Machine/LaneCmds.lean ====
section
/-! DEFINITION. Commands of the lanes (chapter 11). -/

namespace Sys2Proof.Machine

/-- TRUNK_SUPPLY_UP: the trunk's rail rises to its nominal 1.0 V (R243, R440). -/
def execTrunkSupplyUp (t : Trunk) (s : State) : Host.Outcome State Fault Refusal := .next (lanesAfter (vddlTo t 1000) s)

/-- TRUNK_SUPPLY_LOSS: the trunk's rail falls to 0 V (R433, R440). -/
def execTrunkSupplyLoss (t : Trunk) (s : State) : Host.Outcome State Fault Refusal := .next (lanesAfter (vddlTo t 0) s)

/-- RECEIVER_DETECT_PULSE (R243). -/
def execReceiverDetectPulse (t : Trunk) (terminated : BitVec 6) (s : State) : Host.Outcome State Fault Refusal :=
  .next (lanesAfter (detectPulse t terminated) s)

/-- TRAINING_FRAME (R243, R245). -/
def execTrainingFrame (t : Trunk) (f : DlFrame) (s : State) : Host.Outcome State Fault Refusal :=
  .next (lanesAfter (trainingFrame t f) s)

/-- TRAIN_TIMEOUT (R243). -/
def execTrainTimeout (t : Trunk) (s : State) : Host.Outcome State Fault Refusal := .next (lanesAfter (trainTimeout t) s)

/-- FWD_CLOCK_LOSS (R238). -/
def execFwdClockLoss (t : Trunk) (s : State) : Host.Outcome State Fault Refusal := .next (lanesAfter (fwdLoss t) s)

/-- FWD_CLOCK_RETURN (R238). -/
def execFwdClockReturn (t : Trunk) (s : State) : Host.Outcome State Fault Refusal := .next (lanesAfter (fwdReturn t) s)

/-- FWD_COUNT_WINDOW (R238). -/
def execFwdCountWindow (t : Trunk) (n : BitVec 12) (s : State) : Host.Outcome State Fault Refusal :=
  .next (lanesAfter (fwdWindow t n.toNat) s)

/-- DL_SIGNAL_CHANGE (R239, R449). -/
def execDlSignalChange (t : Trunk) (mv : Nat) (s : State) : Host.Outcome State Fault Refusal :=
  .next (lanesAfter (signalLevel t mv) s)

/-- DL_LOCK_ACQUIRE (R239). -/
def execDlLockAcquire (t : Trunk) (s : State) : Host.Outcome State Fault Refusal := .next (lanesAfter (lockAcquire t) s)

/-- DL_LOCK_LOSS (R240). -/
def execDlLockLoss (t : Trunk) (why : LockLoss) (s : State) : Host.Outcome State Fault Refusal :=
  .next (lanesAfter (lockLose t why) s)

/-- RETRAIN (R249). -/
def execRetrain (m : Master) (t : Trunk) (s : State) : Host.Outcome State Fault Refusal :=
  .next (lanesAfter (rowWrite m (addrOf (lnPage t) 0x040) 1) s)

/-- PRBS_SYNC (R255). -/
def execPrbsSync (t : Trunk) (loopback : Bool) (errs : Nat) (s : State) : Host.Outcome State Fault Refusal :=
  .next (running (prbsSync t loopback errs) s)

/-- PRBS_SYNC_LOSS (R255). -/
def execPrbsSyncLoss (t : Trunk) (loopback : Bool) (errs : Nat) (s : State) : Host.Outcome State Fault Refusal :=
  .next (running (prbsLoss t loopback errs) s)

end Sys2Proof.Machine
end

