-- ==== Sys2Proof/Machine/MgmtCmds.lean ====
section
/-! DEFINITION. Commands of the management port, I2C, SPI and JTAG (chapter 15). -/

namespace Sys2Proof.Machine

/-- MG_FRAME_RECEIVE (R314, R315). -/
def execMgFrameReceive (frame : List Byte) (m64 : Fin 64) (s : State) : Host.Outcome State Fault Refusal :=
  .next (running (mgReceive frame m64.val) s)

/-- REGISTER_REQUEST (R319, R320). -/
def execRegisterRequest (s : State) : Host.Outcome State Fault Refusal := .next (running registerRequest s)

/-- MG_FRAME_SEND (R316, R317). -/
def execMgFrameSend (m64 : Fin 64) (starved : Option Nat) (s : State) : Host.Outcome State Fault Refusal :=
  .next (running (mgSend m64.val starved) s)

/-- MG_LINK_CHANGE (R313). -/
def execMgLinkChange (sync an : Bool) (s : State) : Host.Outcome State Fault Refusal := .next (running (linkChange sync an) s)

/-- I2C_WRITE_TRANSACTION (R322). -/
def execI2cWriteTransaction (bytes : List Byte) (s : State) (addr : BitVec 7 := 0x60) : Host.Outcome State Fault Refusal :=
  .next (running (i2cWrite addr bytes) s)

/-- I2C_READ_TRANSACTION (R323). -/
def execI2cReadTransaction (n : Nat) (s : State) (addr : BitVec 7 := 0x60) : Host.Outcome State Fault Refusal :=
  .next (running (i2cRead addr n) s)

/-- I2C_STRETCH_LIMIT (R321). -/
def execI2cStretchLimit (s : State) (k : Nat := 0) : Host.Outcome State Fault Refusal := .next (running (stretchLimit k) s)

/-- SPI_READ: GO with OP 1 (R326). -/
def execSpiRead (m : Master) (lenM1 : Byte) (s : State) : Host.Outcome State Fault Refusal :=
  .next (running (rowWrite m 0x5C04C (0x101 + 0x10000 * lenM1.toNat)) s)

/-- SPI_PROGRAM: GO with OP 2 (R326). -/
def execSpiProgram (m : Master) (lenM1 : Byte) (s : State) : Host.Outcome State Fault Refusal :=
  .next (running (rowWrite m 0x5C04C (0x102 + 0x10000 * lenM1.toNat)) s)

/-- SPI_SECTOR_ERASE: GO with OP 3 (R326). -/
def execSpiSectorErase (m : Master) (s : State) : Host.Outcome State Fault Refusal :=
  .next (running (rowWrite m 0x5C04C (keptBits s 0x5C04C / 8 * 8 + 0x103)) s)

/-- SPI_READ_ID: GO with OP 4 and what the flash answers (R326). -/
def execSpiReadId (m : Master) (flashId : BitVec 24) (s : State) : Host.Outcome State Fault Refusal :=
  .next (running (fun s =>
    flashAnswer s.slow.spiBusy 4 flashId.toNat 0 (rowWrite m 0x5C04C (keptBits s 0x5C04C / 8 * 8 + 0x104) s)) s)

/-- SPI_READ_STATUS: GO with OP 5 and what the flash answers (R326). -/
def execSpiReadStatus (m : Master) (sr : Byte) (s : State) : Host.Outcome State Fault Refusal :=
  .next (running (fun s =>
    flashAnswer s.slow.spiBusy 5 0 sr.toNat (rowWrite m 0x5C04C (keptBits s 0x5C04C / 8 * 8 + 0x105) s)) s)

/-- SPI_OP_DONE (R326). -/
def execSpiOpDone (s : State) : Host.Outcome State Fault Refusal := .next (running spiDone s)

/-- SPI_FAIL (R326). -/
def execSpiFail (s : State) : Host.Outcome State Fault Refusal := .next (running spiTimeout s)

/-- EXTEST (R327). -/
def execExtest (s : State) : Host.Outcome State Fault Refusal := .next (loadIr 0 true 0 s)

/-- IDCODE (R327). -/
def execIdcode (s : State) : Host.Outcome State Fault Refusal := .next (loadIr 1 false 0x10384B47 s)

/-- SAMPLE_PRELOAD (R327). -/
def execSamplePreload (bits : BitVec 15) (s : State) : Host.Outcome State Fault Refusal := .next (samplePreload bits s)

/-- HIGHZ (R327). -/
def execHighz (s : State) : Host.Outcome State Fault Refusal := .next (loadIr 3 true 0 s)

/-- BYPASS (R327). -/
def execBypass (s : State) : Host.Outcome State Fault Refusal := .next (loadIr 15 false 0 s)

/-- TEST_LOGIC_RESET (R327). -/
def execTestLogicReset (s : State) (low : Bool := true) : Host.Outcome State Fault Refusal := .next (tapReset low s)

end Sys2Proof.Machine
end

