-- ==== Sys2Proof/Machine/OrbitCmds.lean ====
section
/-! DEFINITION. Commands of the orbit, the slot map and the oasis (chapter 02). -/

namespace Sys2Proof.Machine

/-- A slot that has begun sees the TRIG_IN edges that wait for it (R443), after an external accept of its own (R136). -/
def pinsSeen (e : Nat) (s : State) : State :=
  if s.pw.elapsed = e ∨ s.acq.pinNext = 0 then s
  else Nat.iterate trigInSeen s.acq.pinNext (acceptFirst { s with acq := { s.acq with pinNext := 0 } })

/-- SLOT_ADVANCE (R18). -/
def execSlotAdvance (obs : SlotObs) (s : State) : Host.Outcome State Fault Refusal :=
  .next (coreOnly (fun s => pinsSeen s.pw.elapsed (slotAdvance obs s)) s)

/-- CUTOFF (R33). -/
def execCutoff (s : State) : Host.Outcome State Fault Refusal := .next (coreOnly cutoffNow s)

/-- ORBIT_BOUNDARY (R34). -/
def execOrbitBoundary (obs : SlotObs) (s : State) : Host.Outcome State Fault Refusal :=
  .next (coreOnly (fun s => pinsSeen s.pw.elapsed (orbitBoundary obs s)) s)

/-- IDLE_GROUP_APPLY (R340). -/
def execIdleGroupApply (s : State) : Host.Outcome State Fault Refusal := .next (coreOnly idleApply s)

/-- SMAP_COPY_END (R27). -/
def execSmapCopyEnd (k : Fin 4) (s : State) : Host.Outcome State Fault Refusal := .next (coreOnly (copyEnd k.val) s)

/-- ORBIT_MARK (R19). -/
def execOrbitMark (s : State) : Host.Outcome State Fault Refusal := .next (coreOnly orbitMarkCmd s)

/-- RESYNC (R19, R265). -/
def execResync (s : State) : Host.Outcome State Fault Refusal := .next (coreOnly resyncCmd s)

/-- ORB_CTL_RESYNC (R19, R40). -/
def execOrbCtlResync (m : Master) (s : State) : Host.Outcome State Fault Refusal := .next (running (cmdWrite m 0x0304C 2) s)

/-- OASIS_BEGIN (R29). -/
def execOasisBegin (s : State) : Host.Outcome State Fault Refusal := .next (coreOnly oasisBeginCmd s)

/-- OASIS_START (R28). -/
def execOasisStart (slices : List SliceEst) (s : State) : Host.Outcome State Fault Refusal :=
  .next (coreOnly (oasisStart slices) s)

/-- ROTATION_END (R54, R55). -/
def execRotationEnd (diffs : List (Nat × Nat)) (s : State) : Host.Outcome State Fault Refusal :=
  .next (coreOnly (rotationEnd diffs) s)

/-- PEDESTAL_TRACKING (R30, R94). -/
def execPedestalTracking (s : State) : Host.Outcome State Fault Refusal := .next (coreOnly pedTracking s)

/-- PULSER_DIAGNOSTICS (R398). -/
def execPulserDiagnostics (cols rows : List Nat) (s : State) : Host.Outcome State Fault Refusal :=
  .next (coreOnly (diagStart cols rows) s)

/-- DIAG_VERDICTS (R399, R400). -/
def execDiagVerdicts (s : State) : Host.Outcome State Fault Refusal := .next (coreOnly diagRecord s)

end Sys2Proof.Machine
end

