-- ==== Sys2Proof/Machine/PowerCmds.lean ====
section
/-! DEFINITION. Commands of power, reset and start-up (chapter 22). -/

namespace Sys2Proof.Machine

/-- POR_ASSERT (R424). -/
def execPorAssert (cause : PorCause) (s : State) : Host.Outcome State Fault Refusal := .next (porAssert cause s)

/-- POR_RELEASE, with RESET_N as the hub samples it (R424, R426). -/
def execPorRelease (adr : Fin 16) (s : State) (resetN : Bool := true) : Host.Outcome State Fault Refusal :=
  .next (porRelease adr.val resetN s)

/-- USER_STORE_LOAD (R370, R372). -/
def execUserStoreLoad (flashId : BitVec 24) (s : State) : Host.Outcome State Fault Refusal :=
  .next (running (loadStores flashId.toNat) s)

/-- CORE_PLL_FIRST_LOCK (R428, R429). -/
def execCorePllFirstLock (s : State) : Host.Outcome State Fault Refusal := .next (running coreFirstLock s)

/-- RAIL_LOSS: the rail leaves its operating range and stands at `mv` mV (R432, R440). -/
def execRailLoss (r : Rail) (s : State) (mv : Nat := 0) : Host.Outcome State Fault Refusal := .next (railTo r mv s)

/-- RAIL_RETURN: the rail is back in its operating range, at `mv` mV (R432, R440). -/
def execRailReturn (r : Rail) (s : State) (mv : Nat := r.nominal) : Host.Outcome State Fault Refusal := .next (railTo r mv s)

/-- XTAL_LOSS (R17). -/
def execXtalLoss (s : State) : Host.Outcome State Fault Refusal := .next (running xtalLoss s)

/-- XTAL_RETURN (R17, R198). -/
def execXtalReturn (s : State) : Host.Outcome State Fault Refusal := .next (running xtalReturn s)

end Sys2Proof.Machine
end

