-- ==== Sys2Proof/Machine/SampleCmds.lean ====
section
/-! DEFINITION. Commands of sampling, channel processing and the flint path (chapters 03, 05, 06). -/

namespace Sys2Proof.Machine

/-- SAMPLE_CONVERSION (R45); an input beyond the absolute maximum ends the model (R49). -/
def execSampleConversion (c : Fin 384) (j : Fin 2) (level : Int) (peak : Nat) (onEdge cmBad : Bool) (s : State) : Host.Outcome State Fault Refusal :=
  if !s.pw.por && s.pw.coreRun && beyondMax s c.val level then .fault .beyondAbsoluteMaximum
  else .next (coreOnly (sampleOut c.val j.val level peak onEdge cmBad) s)

/-- CONVERTER_READY (R59, R429). -/
def execConverterReady (c : Fin 384) (s : State) : Host.Outcome State Fault Refusal := .next (coreOnly (convReady c.val) s)

/-- FILTER_OUTPUT (R96). -/
def execFilterOutput (c : Fin 384) (s : State) : Host.Outcome State Fault Refusal := .next (coreOnly (filterNext c.val) s)

/-- PEAK_FINAL (R100, R103). -/
def execPeakFinal (c : Fin 384) (s : State) : Host.Outcome State Fault Refusal := .next (coreOnly (peakStore c.val) s)

/-- FLINT_LEADING_EDGE (R117). The path is untimed: it acts also while CK_CORE is stopped (R17). -/
def execFlintLeadingEdge (c : Fin 384) (uv : Int) (ps tot : Nat) (s : State) (rest : Int := 0) : Host.Outcome State Fault Refusal :=
  .next (running (inputPulse c.val uv ps tot rest) s)

/-- FLINT_OUTPUT_FALL (R120). -/
def execFlintOutputFall (o : Fin 7) (ps : Nat) (s : State) : Host.Outcome State Fault Refusal :=
  .next (running (outputFall o.val ps) s)

/-- STUCK_MASK (R122). -/
def execStuckMask (c : Fin 384) (s : State) : Host.Outcome State Fault Refusal := .next (coreOnly (stuckSet c.val) s)

/-- STUCK_RELEASE (R122). -/
def execStuckRelease (c : Fin 384) (s : State) : Host.Outcome State Fault Refusal := .next (coreOnly (stuckClear c.val) s)

/-- HOLDOFF_LATCH_CLEAR (R123). -/
def execHoldoffLatchClear (i : Fin 6) (s : State) : Host.Outcome State Fault Refusal := .next (coreOnly (latchClear i.val) s)

end Sys2Proof.Machine
end

