-- ==== Sys2Proof/Machine/SeraiCmds.lean ====
section
/-! DEFINITION. Commands of Serai (chapter 09). Q0–Q11 are written by the engines and Q26 by the heritage formatter, whose words are their
own. -/

namespace Sys2Proof.Machine

/-- The writer of queue `q` presents a DATA word. -/
def serData (q : Nat) (w : Word) (s : State) : State :=
  if q ≤ 11 then engineWord q s else if q = 26 then herNext s else wrData q w s

/-- SERAI_DATA_WORD (R187). -/
def execSeraiDataWord (q : Fin 32) (w : Word) (s : State) : Host.Outcome State Fault Refusal := .next (coreOnly (serData q.val w) s)

/-- The writer of queue `q` writes HDR word `i`. -/
def serHdr (q i : Nat) (w : Word) (s : State) : State :=
  if q ≤ 11 then engineHdr q i s else if q = 26 then herHdr i s else wrHdr q i w s

/-- SERAI_HDR_WORD (R187). -/
def execSeraiHdrWord (q : Fin 32) (i : Fin 4) (w : Word) (s : State) : Host.Outcome State Fault Refusal :=
  .next (coreOnly (serHdr q.val i.val w) s)

/-- The writer of queue `q` presents its END word. -/
def serEnd (q : Nat) (w : Word) (v : Nat) (s : State) : State :=
  if q ≤ 11 then engineClose (jobOf q).1 (jobOf q).2 s else if q = 26 then herEnd s else wrEnd q w v s

/-- SERAI_END_WORD (R188). -/
def execSeraiEndWord (q : Fin 32) (w : Word) (v : Fin 4) (s : State) : Host.Outcome State Fault Refusal :=
  .next (coreOnly (serEnd q.val w v.val) s)

/-- CANCEL by the writer of queue `q`. -/
def serCancel (q : Nat) (s : State) : State :=
  if q ≤ 11 then engineCancel q s else if q ≤ 15 then writerCancel q s else if q = 26 then herRewind s else cancelBale q s

/-- SERAI_CANCEL (R189). -/
def execSeraiCancel (q : Fin 32) (s : State) : Host.Outcome State Fault Refusal :=
  .next (coreOnly (serCancel q.val) s)

/-- The held write of queue `q` completes, with what its writer does then. -/
def heldDone (q : Nat) (s : State) : State :=
  if q ≤ 11 then engineHeld q s else if q = 12 then manifestHeld s else if q = 26 then herHeld s else heldComplete q s

/-- HELD_WRITE_COMPLETE (R185, R190). -/
def execHeldWriteComplete (q : Fin 32) (s : State) : Host.Outcome State Fault Refusal := .next (coreOnly (heldDone q.val) s)

/-- RETENTION_END (R196). -/
def execRetentionEnd (q : Fin 32) (s : State) : Host.Outcome State Fault Refusal := .next (coreOnly (retentionEnd q.val) s)

/-- REPLAY_END (R198, R223). -/
def execReplayEnd (s : State) : Host.Outcome State Fault Refusal := .next (coreOnly replayOver s)

/-- QUEUE_DISABLED (R199). -/
def execQueueDisabled (q : Fin 32) (s : State) : Host.Outcome State Fault Refusal := .next (coreOnly (queueDrained q.val) s)

/-- QH_SEL (R202). -/
def execQhSel (m : Master) (q : Fin 32) (s : State) : Host.Outcome State Fault Refusal :=
  .next (running (rowWrite m 0x40080 q.val) s)

/-- QH_WR (R203). -/
def execQhWr (m : Master) (w : Word) (s : State) : Host.Outcome State Fault Refusal :=
  .next (running (rowWrite m 0x40088 w.toNat) s)

/-- QH_WR_LAST (R203). -/
def execQhWrLast (m : Master) (w : Word) (s : State) : Host.Outcome State Fault Refusal :=
  .next (running (rowWrite m 0x4008C w.toNat) s)

/-- QH_WR_HDR (R203). -/
def execQhWrHdr (m : Master) (i : Fin 4) (w : Word) (s : State) : Host.Outcome State Fault Refusal :=
  .next (running (rowWrite m (0x40090 + 4 * i.val) w.toNat) s)

/-- QH_CANCEL (R203). -/
def execQhCancel (m : Master) (wb : Fin 4) (s : State) : Host.Outcome State Fault Refusal :=
  .next (running (rowWrite m 0x40084 (0x100 + wb.val)) s)

/-- QH_RD (R204). -/
def execQhRd (m : Master) (s : State) : Host.Outcome State Fault Refusal := .next (running (fabRead m 0x400A0) s)

/-- LAUNCH_RELEASE (R306, R307). -/
def execLaunchRelease (q : Fin 32) (s : State) : Host.Outcome State Fault Refusal := .next (coreOnly (launchRelease q.val) s)

/-- LAUNCH_LATE (R308). -/
def execLaunchLate (q : Fin 32) (s : State) : Host.Outcome State Fault Refusal := .next (coreOnly (launchLate q.val) s)

end Sys2Proof.Machine
end

