-- ==== Sys2Proof/Machine/SupervisorCmds.lean ====
section
/-! DEFINITION. Commands of the core PLL and the supervisor (chapters 04, 13). -/

namespace Sys2Proof.Machine

/-- PLL_PHASE_LOCK (R86). -/
def execPllPhaseLock (s : State) : Host.Outcome State Fault Refusal := .next (coreOnly phaseLock s)

/-- PLL_HOLD_TIMEOUT (R86, R283). -/
def execPllHoldTimeout (s : State) : Host.Outcome State Fault Refusal := .next (coreOnly holdTimeout s)

/-- CORE_RESUME (R283, R428). -/
def execCoreResume (s : State) : Host.Outcome State Fault Refusal := .next (running coreResume s)

/-- UNCOMP_ACK (R88). -/
def execUncompAck (m : Master) (s : State) : Host.Outcome State Fault Refusal := .next (running (cmdWrite m 0x28040 0x200) s)

/-- EVIDENCE_CHANGE (R276). -/
def execEvidenceChange (t : Trunk) (s : State) : Host.Outcome State Fault Refusal := .next (running (evidenceChange t) s)

/-- HEARTBEAT_TOGGLE (R277). -/
def execHeartbeatToggle (t : Trunk) (s : State) : Host.Outcome State Fault Refusal := .next (running (heartToggle t) s)

/-- HEARTBEAT_TIMEOUT (R277). -/
def execHeartbeatTimeout (t : Trunk) (s : State) : Host.Outcome State Fault Refusal := .next (running (heartTimeout t) s)

/-- SUPERVISOR_DECISION: one CK_SUP cycle of the supervisor (R279). -/
def execSupervisorDecision (s : State) : Host.Outcome State Fault Refusal := .next (running supCycle s)

/-- PREF_WAIT_EXPIRY (R284). -/
def execPrefWaitExpiry (s : State) : Host.Outcome State Fault Refusal := .next (running prefWait s)

/-- MOVE_START (R280). -/
def execMoveStart (s : State) : Host.Outcome State Fault Refusal := .next (coreOnly moveStart s)

/-- TAKEOVER_CHECK_END (R281, R282). -/
def execTakeoverCheckEnd (fails : BitVec 6) (s : State) : Host.Outcome State Fault Refusal := .next (running (checkEnd fails) s)

/-- PCYCLE_OFF_END (R286). -/
def execPcycleOffEnd (t : Trunk) (s : State) : Host.Outcome State Fault Refusal := .next (running (pcycleEnd t) s)

/-- REPAIR_TIMEOUT (R286). -/
def execRepairTimeout (t : Trunk) (s : State) : Host.Outcome State Fault Refusal := .next (running (repairTimeout t) s)

/-- AUTO_REPAIR (R287). -/
def execAutoRepair (t : Trunk) (s : State) : Host.Outcome State Fault Refusal := .next (running (autoRepair t) s)

/-- SCRUB_PASS (R288). -/
def execScrubPass (s : State) : Host.Outcome State Fault Refusal := .next (running scrubPass s)

/-- SV_STAT_WRITE (R290). -/
def execSvStatWrite (m : Master) (v : Word) (s : State) : Host.Outcome State Fault Refusal :=
  .next (running (rowWrite m 0x50050 v.toNat) s)

end Sys2Proof.Machine
end

