-- ==== Sys2Proof/Machine/TimeCmds.lean ====
section
/-! DEFINITION. Commands of the time bases (chapter 14). -/

namespace Sys2Proof.Machine

/-- INCR_COMMIT (R297). -/
def execIncrCommit (m : Master) (n : NetBase) (v : Word) (s : State) : Host.Outcome State Fault Refusal :=
  .next (running (rowWrite m (addrOf 0x54 (incrReg n + 4)) v.toNat) s)

/-- HOLDOVER (R298). -/
def execHoldover (n : NetBase) (s : State) : Host.Outcome State Fault Refusal := .next (running (holdoverSet n) s)

/-- TB_LATCH (R301). -/
def execTbLatch (m : Master) (s : State) : Host.Outcome State Fault Refusal := .next (running (cmdWrite m 0x54040 1) s)

/-- TSE_POP (R303). -/
def execTsePop (m : Master) (s : State) : Host.Outcome State Fault Refusal := .next (running (cmdWrite m 0x54080 1) s)

end Sys2Proof.Machine
end

