-- ==== Sys2Proof/Machine/UplinkCmds.lean ====
section
/-! DEFINITION. Commands of uplink framing (chapter 10). -/

namespace Sys2Proof.Machine

/-- CARAVAN_FRAME_SEND (R211–R214). -/
def execCaravanFrameSend (s : State) : Host.Outcome State Fault Refusal := .next (coreOnly sendCaravan s)

/-- TOWER_FRAME_SEND (R216, R217). -/
def execTowerFrameSend (s : State) : Host.Outcome State Fault Refusal := .next (coreOnly sendTowers s)

/-- MANIFEST_WRITE (R221, R222). -/
def execManifestWrite (s : State) : Host.Outcome State Fault Refusal := .next (coreOnly manifestNext s)

/-- CREDIT_ADVANCE (R226). -/
def execCreditAdvance (s : State) : Host.Outcome State Fault Refusal := .next (coreOnly creditStep s)

end Sys2Proof.Machine
end

