-- ==== Sys2Proof/Machine/Dispatch.lean ====
section
/-! DEFINITION. One arm per command: each is one call of its meaning. -/

namespace Sys2Proof.Machine

/-- The effect of one command on everything but the queue. -/
def exec (i : Instr) (s : State) : Host.Outcome State Fault Refusal :=
  match i with
  | .porAssert cause => Sys2Proof.Machine.execPorAssert cause s
  | .porRelease adr resetN => Sys2Proof.Machine.execPorRelease adr s resetN
  | .userStoreLoad flashId => Sys2Proof.Machine.execUserStoreLoad flashId s
  | .corePllFirstLock => Sys2Proof.Machine.execCorePllFirstLock s
  | .railLoss r mv => Sys2Proof.Machine.execRailLoss r s mv
  | .railReturn r mv => Sys2Proof.Machine.execRailReturn r s mv
  | .xtalLoss => Sys2Proof.Machine.execXtalLoss s
  | .xtalReturn => Sys2Proof.Machine.execXtalReturn s
  | .slotAdvance obs => Sys2Proof.Machine.execSlotAdvance obs s
  | .cutoff => Sys2Proof.Machine.execCutoff s
  | .orbitBoundary obs => Sys2Proof.Machine.execOrbitBoundary obs s
  | .idleGroupApply => Sys2Proof.Machine.execIdleGroupApply s
  | .smapCopyEnd k => Sys2Proof.Machine.execSmapCopyEnd k s
  | .orbitMark => Sys2Proof.Machine.execOrbitMark s
  | .resync => Sys2Proof.Machine.execResync s
  | .orbCtlResync m => Sys2Proof.Machine.execOrbCtlResync m s
  | .oasisBegin => Sys2Proof.Machine.execOasisBegin s
  | .oasisStart slices => Sys2Proof.Machine.execOasisStart slices s
  | .rotationEnd diffs => Sys2Proof.Machine.execRotationEnd diffs s
  | .pedestalTracking => Sys2Proof.Machine.execPedestalTracking s
  | .pulserDiagnostics cols rows => Sys2Proof.Machine.execPulserDiagnostics cols rows s
  | .diagVerdicts => Sys2Proof.Machine.execDiagVerdicts s
  | .sampleConversion c j level peak onEdge cmBad => Sys2Proof.Machine.execSampleConversion c j level peak onEdge cmBad s
  | .converterReady c => Sys2Proof.Machine.execConverterReady c s
  | .filterOutput c => Sys2Proof.Machine.execFilterOutput c s
  | .peakFinal c => Sys2Proof.Machine.execPeakFinal c s
  | .flintLeadingEdge c uv ps tot rest => Sys2Proof.Machine.execFlintLeadingEdge c uv ps tot s rest
  | .flintOutputFall o ps => Sys2Proof.Machine.execFlintOutputFall o ps s
  | .stuckMask c => Sys2Proof.Machine.execStuckMask c s
  | .stuckRelease c => Sys2Proof.Machine.execStuckRelease c s
  | .holdoffLatchClear n => Sys2Proof.Machine.execHoldoffLatchClear n s
  | .downlinkFrame t f => Sys2Proof.Machine.execDownlinkFrame t f s
  | .accept => Sys2Proof.Machine.execAccept s
  | .update => Sys2Proof.Machine.execUpdate s
  | .arm => Sys2Proof.Machine.execArm s
  | .testPulse => Sys2Proof.Machine.execTestPulse s
  | .nop => Sys2Proof.Machine.execNop s
  | .cmdUnknown => Sys2Proof.Machine.execCmdUnknown s
  | .probeEcho frac => Sys2Proof.Machine.execProbeEcho frac s
  | .controlPacket t => Sys2Proof.Machine.execControlPacket t s
  | .controlResponse t => Sys2Proof.Machine.execControlResponse t s
  | .dlCtlWrite m t v => Sys2Proof.Machine.execDlCtlWrite m t v s
  | .timeTransferMessage => Sys2Proof.Machine.execTimeTransferMessage s
  | .selfTrigger => Sys2Proof.Machine.execSelfTrigger s
  | .trigInEdge ps late => Sys2Proof.Machine.execTrigInEdge s ps late
  | .softTrig m => Sys2Proof.Machine.execSoftTrig m s
  | .armCmdArm m => Sys2Proof.Machine.execArmCmdArm m s
  | .disarm m => Sys2Proof.Machine.execDisarm m s
  | .primingEnd => Sys2Proof.Machine.execPrimingEnd s
  | .holdoffEnd => Sys2Proof.Machine.execHoldoffEnd s
  | .trigOutFall => Sys2Proof.Machine.execTrigOutFall s
  | .liftStart n => Sys2Proof.Machine.execLiftStart n s
  | .liftEnd n => Sys2Proof.Machine.execLiftEnd n s
  | .verifyError n code => Sys2Proof.Machine.execVerifyError n code s
  | .baleClose n kind => Sys2Proof.Machine.execBaleClose n kind s
  | .cmpFlush m n taken => Sys2Proof.Machine.execCmpFlush m n taken s
  | .tpStart m n cmpEn => Sys2Proof.Machine.execTpStart m n cmpEn s
  | .tpJobDone n => Sys2Proof.Machine.execTpJobDone n s
  | .tpInWrite m n w => Sys2Proof.Machine.execTpInWrite m n w s
  | .tpOutRead m n => Sys2Proof.Machine.execTpOutRead m n s
  | .seraiDataWord q w => Sys2Proof.Machine.execSeraiDataWord q w s
  | .seraiHdrWord q n w => Sys2Proof.Machine.execSeraiHdrWord q n w s
  | .seraiEndWord q w v => Sys2Proof.Machine.execSeraiEndWord q w v s
  | .seraiCancel q => Sys2Proof.Machine.execSeraiCancel q s
  | .heldWriteComplete q => Sys2Proof.Machine.execHeldWriteComplete q s
  | .retentionEnd q => Sys2Proof.Machine.execRetentionEnd q s
  | .replayEnd => Sys2Proof.Machine.execReplayEnd s
  | .queueDisabled q => Sys2Proof.Machine.execQueueDisabled q s
  | .qhSel m q => Sys2Proof.Machine.execQhSel m q s
  | .qhWr m w => Sys2Proof.Machine.execQhWr m w s
  | .qhWrLast m w => Sys2Proof.Machine.execQhWrLast m w s
  | .qhWrHdr m n w => Sys2Proof.Machine.execQhWrHdr m n w s
  | .qhCancel m wb => Sys2Proof.Machine.execQhCancel m wb s
  | .qhRd m => Sys2Proof.Machine.execQhRd m s
  | .launchRelease q => Sys2Proof.Machine.execLaunchRelease q s
  | .launchLate q => Sys2Proof.Machine.execLaunchLate q s
  | .caravanFrameSend => Sys2Proof.Machine.execCaravanFrameSend s
  | .towerFrameSend => Sys2Proof.Machine.execTowerFrameSend s
  | .manifestWrite => Sys2Proof.Machine.execManifestWrite s
  | .creditAdvance => Sys2Proof.Machine.execCreditAdvance s
  | .trunkSupplyUp t => Sys2Proof.Machine.execTrunkSupplyUp t s
  | .trunkSupplyLoss t => Sys2Proof.Machine.execTrunkSupplyLoss t s
  | .receiverDetectPulse t terminated => Sys2Proof.Machine.execReceiverDetectPulse t terminated s
  | .trainingFrame t f => Sys2Proof.Machine.execTrainingFrame t f s
  | .trainTimeout t => Sys2Proof.Machine.execTrainTimeout t s
  | .fwdClockLoss t => Sys2Proof.Machine.execFwdClockLoss t s
  | .fwdClockReturn t => Sys2Proof.Machine.execFwdClockReturn t s
  | .fwdCountWindow t n => Sys2Proof.Machine.execFwdCountWindow t n s
  | .dlSignalChange t mv => Sys2Proof.Machine.execDlSignalChange t mv s
  | .dlLockAcquire t => Sys2Proof.Machine.execDlLockAcquire t s
  | .dlLockLoss t why => Sys2Proof.Machine.execDlLockLoss t why s
  | .retrain m t => Sys2Proof.Machine.execRetrain m t s
  | .pllPhaseLock => Sys2Proof.Machine.execPllPhaseLock s
  | .pllHoldTimeout => Sys2Proof.Machine.execPllHoldTimeout s
  | .coreResume => Sys2Proof.Machine.execCoreResume s
  | .uncompAck m => Sys2Proof.Machine.execUncompAck m s
  | .evidenceChange t => Sys2Proof.Machine.execEvidenceChange t s
  | .heartbeatToggle t => Sys2Proof.Machine.execHeartbeatToggle t s
  | .heartbeatTimeout t => Sys2Proof.Machine.execHeartbeatTimeout t s
  | .supervisorDecision => Sys2Proof.Machine.execSupervisorDecision s
  | .prefWaitExpiry => Sys2Proof.Machine.execPrefWaitExpiry s
  | .moveStart => Sys2Proof.Machine.execMoveStart s
  | .takeoverCheckEnd fails => Sys2Proof.Machine.execTakeoverCheckEnd fails s
  | .pcycleOffEnd t => Sys2Proof.Machine.execPcycleOffEnd t s
  | .repairTimeout t => Sys2Proof.Machine.execRepairTimeout t s
  | .autoRepair t => Sys2Proof.Machine.execAutoRepair t s
  | .scrubPass => Sys2Proof.Machine.execScrubPass s
  | .svStatWrite m v => Sys2Proof.Machine.execSvStatWrite m v s
  | .incrCommit m n v => Sys2Proof.Machine.execIncrCommit m n v s
  | .holdover n => Sys2Proof.Machine.execHoldover n s
  | .tbLatch m => Sys2Proof.Machine.execTbLatch m s
  | .tsePop m => Sys2Proof.Machine.execTsePop m s
  | .mgFrameReceive frame m64 => Sys2Proof.Machine.execMgFrameReceive frame m64 s
  | .registerRequest => Sys2Proof.Machine.execRegisterRequest s
  | .mgFrameSend m64 starved => Sys2Proof.Machine.execMgFrameSend m64 starved s
  | .mgLinkChange sync an => Sys2Proof.Machine.execMgLinkChange sync an s
  | .i2cWriteTransaction bytes addr => Sys2Proof.Machine.execI2cWriteTransaction bytes s addr
  | .i2cReadTransaction n addr => Sys2Proof.Machine.execI2cReadTransaction n s addr
  | .i2cStretchLimit k => Sys2Proof.Machine.execI2cStretchLimit s k
  | .spiRead m lenM1 => Sys2Proof.Machine.execSpiRead m lenM1 s
  | .spiProgram m lenM1 => Sys2Proof.Machine.execSpiProgram m lenM1 s
  | .spiSectorErase m => Sys2Proof.Machine.execSpiSectorErase m s
  | .spiReadId m flashId => Sys2Proof.Machine.execSpiReadId m flashId s
  | .spiReadStatus m sr => Sys2Proof.Machine.execSpiReadStatus m sr s
  | .spiOpDone => Sys2Proof.Machine.execSpiOpDone s
  | .spiFail => Sys2Proof.Machine.execSpiFail s
  | .extest => Sys2Proof.Machine.execExtest s
  | .idcode => Sys2Proof.Machine.execIdcode s
  | .samplePreload bits => Sys2Proof.Machine.execSamplePreload bits s
  | .highz => Sys2Proof.Machine.execHighz s
  | .bypass => Sys2Proof.Machine.execBypass s
  | .registerWrite m a v => Sys2Proof.Machine.execRegisterWrite m a v s
  | .postedWriteEffect page => Sys2Proof.Machine.execPostedWriteEffect page s
  | .guardComplementWrite m a v => Sys2Proof.Machine.execGuardComplementWrite m a v s
  | .captureLowRead m a => Sys2Proof.Machine.execCaptureLowRead m a s
  | .captureHighRead m a => Sys2Proof.Machine.execCaptureHighRead m a s
  | .updStrobe m groups => Sys2Proof.Machine.execUpdStrobe m groups s
  | .tallyClear m page mask => Sys2Proof.Machine.execTallyClear m page mask s
  | .causeClear m page => Sys2Proof.Machine.execCauseClear m page s
  | .noticeWrite => Sys2Proof.Machine.execNoticeWrite s
  | .drainEnd page => Sys2Proof.Machine.execDrainEnd page s
  | .csUserViewWrite m n w => Sys2Proof.Machine.execCsUserViewWrite m n w s
  | .saveDone ok => Sys2Proof.Machine.execSaveDone ok s
  | .trimApplyEffect => Sys2Proof.Machine.execTrimApplyEffect s
  | .monStart m => Sys2Proof.Machine.execMonStart m s
  | .monStop m => Sys2Proof.Machine.execMonStop m s
  | .monCfgWrite m v => Sys2Proof.Machine.execMonCfgWrite m v s
  | .monitorResult level => Sys2Proof.Machine.execMonitorResult level s
  | .pulserFiring => Sys2Proof.Machine.execPulserFiring s
  | .rowSwitchOpen => Sys2Proof.Machine.execRowSwitchOpen s
  | .blankingEnd => Sys2Proof.Machine.execBlankingEnd s
  | .siteVerdict k inRegulation => Sys2Proof.Machine.execSiteVerdict k inRegulation s
  | .heritageFormatStart => Sys2Proof.Machine.execHeritageFormatStart s
  | .prbsSync t loopback errs => Sys2Proof.Machine.execPrbsSync t loopback errs s
  | .prbsSyncLoss t loopback errs => Sys2Proof.Machine.execPrbsSyncLoss t loopback errs s
  | .testLogicReset low => Sys2Proof.Machine.execTestLogicReset s low

end Sys2Proof.Machine
end

