-- ==== Sys2Proof/Machine/Step.lean ====
section
/-! DEFINITION. One step: the command at the front of the queue, or one core cycle when the queue is empty. -/

namespace Sys2Proof.Machine

/-- The step of the hub: the front command acts on the state with the queue's rest. On an empty queue no command acts and one
core cycle of the slot passes where CK_CORE runs (`idleCycle`; DESIGN CHOICE, log entry 6). -/
def step (s : State) : Host.Outcome State Fault Refusal :=
  match s.pending with
  | [] => .next (idleCycle s)
  | c :: rest => exec c { s with pending := rest }

/-- The state with the command that a table word spells at the front of its queue. The table gives no row any bits, so no word
spells a command and the state stays as it is. -/
def State.withFetchWord (s : State) (nbits w : Nat) : State :=
  match Sys2Proof.decodeTableWord nbits w with
  | some c => { s with pending := c :: s.pending }
  | none => s

end Sys2Proof.Machine
end

