-- ==== Sys2Proof/Safety.lean ====
section
/-! DEFINITION. What counts as a safe run and a sound state, in the terms the statements use. -/

namespace Sys2Proof.Machine

/-- The next step does not stop. -/
def StepSafe (s : State) : Prop := ∃ t, step s = .next t

/-- `n` steps run without a stop. -/
def RunSafe : Nat → State → Prop
  | 0, _ => True
  | n + 1, s => ∃ t, step s = .next t ∧ RunSafe n t

/-- Clocks and supplies agree (R17, R424, R428, R432): under the POR neither CK_CORE nor the crystal runs, CK_CORE needs VDDA and has
then run since the POR, the crystal needs VDDA, and a hub out of the POR has been released. -/
structure Clocked (s : State) : Prop where
  held     : s.pw.por = true → s.pw.coreRun = false ∧ s.pw.xtal = false
  core     : s.pw.coreRun = true → s.pw.vdda = true ∧ s.pw.coreEver = true
  crystal  : s.pw.xtal = true → s.pw.vdda = true
  released : s.pw.por = false → s.pw.released = true

/-- The hub has the units the manual gives it: 384 channels with their converters and discriminators and six seams (chapters 00, 01),
seven flint outputs (R119), 32 queues (chapter 09) and four register masters (R15). -/
structure Shaped (s : State) : Prop where
  conv    : s.conv.length = 384
  chan    : s.chan.length = 384
  flint   : s.flint.length = 384
  fout    : s.fout.length = 7
  seams   : s.seams.length = 6
  queues  : s.ser.qs.length = 32
  masters : s.fab.masters.length = 4

/-- The sparse memories are in canonical form: register words and page headers by rising address, with their tallies; both banks of
the slot map, the ring and the flash also list nothing that an unlisted key reads as. -/
structure Canonical (s : State) : Prop where
  regs    : keysFrom 0 s.fab.regs = true
  pages   : keysFrom 0 s.fab.pages = true
  tallies : ∀ e ∈ s.fab.pages, keysFrom 0 e.2.tally = true
  live    : ramWf 0 s.orb.live = true
  shadow  : ramWf 0 s.orb.shadow = true
  ring    : ramWf 0 s.ring = true
  flash   : ramWf 0xFF s.slow.flash = true

/-- Page `p` serves a write of master `m` at once (R335, R343, R345): it runs, the master has no guard pair open on it, and no posted
write waits on it. -/
structure Serves (s : State) (m : Master) (p : Nat) : Prop where
  runs  : pageRuns s p = true
  guard : openGuard s m p = none
  idle  : (pageSt s p).posted = none

/-- What an access that nothing refuses does beside its effect: the master's record and page headers may be rewritten with what they
held; no register, tally or flag changes. -/
structure Access (s u : State) : Prop where
  rest  : u = { s with fab := { s.fab with pages := u.fab.pages, masters := u.fab.masters } }
  pages : ∀ q, pageSt u q = pageSt s q

/-- The parts of the state. -/
inductive Part where
  | pending | pw | jtag | fab | orb | pll | conv | chan | ring | ringErr | feat | featErr | flint | fout | flintOn
  | seams | acq | ser | frm | lnA | lnB | dlA | dlB | sup | tb | mg | slow | cal | mon | pls | her
  deriving DecidableEq, Repr

/-- Two states agree in a part. -/
def agree (p : Part) (s t : State) : Prop :=
  match p with
  | .pending => t.pending = s.pending
  | .pw => t.pw = s.pw
  | .jtag => t.jtag = s.jtag
  | .fab => t.fab = s.fab
  | .orb => t.orb = s.orb
  | .pll => t.pll = s.pll
  | .conv => t.conv = s.conv
  | .chan => t.chan = s.chan
  | .ring => t.ring = s.ring
  | .ringErr => t.ringErr = s.ringErr
  | .feat => t.feat = s.feat
  | .featErr => t.featErr = s.featErr
  | .flint => t.flint = s.flint
  | .fout => t.fout = s.fout
  | .flintOn => t.flintOn = s.flintOn
  | .seams => t.seams = s.seams
  | .acq => t.acq = s.acq
  | .ser => t.ser = s.ser
  | .frm => t.frm = s.frm
  | .lnA => t.lnA = s.lnA
  | .lnB => t.lnB = s.lnB
  | .dlA => t.dlA = s.dlA
  | .dlB => t.dlB = s.dlB
  | .sup => t.sup = s.sup
  | .tb => t.tb = s.tb
  | .mg => t.mg = s.mg
  | .slow => t.slow = s.slow
  | .cal => t.cal = s.cal
  | .mon => t.mon = s.mon
  | .pls => t.pls = s.pls
  | .her => t.her = s.her

/-- `t` differs from `s` in the listed parts only. -/
def Only (M : List Part) (s t : State) : Prop := ∀ p, p ∉ M → agree p s t

/-- Nothing but page headers and the notice store may have changed: what counting a tally or posting a notice does (R349, R350). -/
def Counted (s t : State) : Prop :=
  t = { s with fab := { s.fab with pages := t.fab.pages, store := t.fab.store, lost := t.fab.lost } }

end Sys2Proof.Machine
end

