-- ==== Sys2Proof/WellFormed.lean ====
section
/-! DEFINITION. The operand values a command may carry: what the rules of the rows say an event can bring. The meanings are total;
a command that is not well-formed is no event of this hub. -/

namespace Sys2Proof

/-- Eight symbols (R260), with a phase inside one slot of 65,536 phase steps (R262). -/
def DlFrame.wf (f : DlFrame) : Bool := f.syms.length == 8 && decide (f.phase < 65536)

/-- The taps belong to channels 0–383 (R1, R70), and a slot carries at most 80 downlink bits to compare (R250). -/
def SlotObs.wf (o : SlotObs) : Bool :=
  o.taps.all (fun t => decide (t.ch < 384)) && decide (o.eyeA ≤ 80) && decide (o.eyeB ≤ 80)

/-- A list of channels, each of 0–383 and named once. -/
def channelList (l : List Nat) : Bool := l.all (fun c => decide (c < 384)) && decide l.Nodup

/-- A command's operands lie within what its rule lets an event carry. -/
def Instr.wf (i : Instr) : Bool :=
  match i with
  | .slotAdvance obs => obs.wf
  | .orbitBoundary obs => obs.wf
  | .oasisStart slices => channelList (slices.map (·.ch))
  | .rotationEnd diffs => channelList (diffs.map (·.1))
  | .pulserDiagnostics cols rows => cols.all (fun x => decide (x < 15)) && rows.all (fun x => decide (x < 7))
  | .railLoss r mv => !Machine.railInRange r mv
  | .railReturn r mv => Machine.railInRange r mv
  | .flintLeadingEdge _ _ ps tot _ => decide (tot = 0 ∨ ps + tot < 25000)
  | .trigInEdge ps _ => decide (ps < 46875)
  | .downlinkFrame _ f => f.wf
  | .trainingFrame _ f => f.wf
  | .probeEcho frac => decide (frac < 65536)
  | .i2cWriteTransaction bytes _ => !bytes.isEmpty
  | .i2cReadTransaction n _ => decide (0 < n)
  | .verifyError _ code => decide (0x20 ≤ code.toNat) && decide (code.toNat ≤ 0x25)
  | .mgFrameReceive frame _ => !frame.isEmpty
  | .porAssert _ | .porRelease _ _ | .userStoreLoad _ | .corePllFirstLock | .xtalLoss | .xtalReturn
  | .cutoff | .idleGroupApply | .smapCopyEnd _ | .orbitMark | .resync | .orbCtlResync _ | .oasisBegin | .pedestalTracking
  | .diagVerdicts | .sampleConversion _ _ _ _ _ _ | .converterReady _ | .filterOutput _ | .peakFinal _ | .stuckMask _ | .flintOutputFall _ _
  | .stuckRelease _ | .holdoffLatchClear _ | .accept | .update | .arm | .testPulse | .nop | .cmdUnknown | .controlPacket _
  | .controlResponse _ | .dlCtlWrite _ _ _ | .timeTransferMessage | .selfTrigger | .softTrig _ | .armCmdArm _
  | .disarm _ | .primingEnd | .holdoffEnd | .trigOutFall | .liftStart _ | .liftEnd _ | .baleClose _ _
  | .cmpFlush _ _ _ | .tpStart _ _ _ | .tpJobDone _ | .tpInWrite _ _ _ | .tpOutRead _ _ | .seraiDataWord _ _
  | .seraiHdrWord _ _ _ | .seraiEndWord _ _ _ | .seraiCancel _ | .heldWriteComplete _ | .retentionEnd _ | .replayEnd
  | .queueDisabled _ | .qhSel _ _ | .qhWr _ _ | .qhWrLast _ _ | .qhWrHdr _ _ _ | .qhCancel _ _ | .qhRd _ | .launchRelease _
  | .launchLate _ | .caravanFrameSend | .towerFrameSend | .manifestWrite | .creditAdvance | .trunkSupplyUp _ | .trunkSupplyLoss _
  | .receiverDetectPulse _ _ | .trainTimeout _ | .fwdClockLoss _ | .fwdClockReturn _ | .fwdCountWindow _ _ | .dlSignalChange _ _
  | .dlLockAcquire _ | .dlLockLoss _ _ | .retrain _ _ | .pllPhaseLock | .pllHoldTimeout | .coreResume | .uncompAck _
  | .evidenceChange _ | .heartbeatToggle _ | .heartbeatTimeout _ | .supervisorDecision | .prefWaitExpiry | .moveStart
  | .takeoverCheckEnd _ | .pcycleOffEnd _ | .repairTimeout _ | .autoRepair _ | .scrubPass | .svStatWrite _ _ | .incrCommit _ _ _
  | .holdover _ | .tbLatch _ | .tsePop _ | .registerRequest | .mgFrameSend _ _ | .mgLinkChange _ _ | .i2cStretchLimit _
  | .spiRead _ _ | .spiProgram _ _ | .spiSectorErase _ | .spiReadId _ _ | .spiReadStatus _ _ | .spiOpDone | .spiFail | .extest
  | .idcode | .samplePreload _ | .highz | .bypass | .registerWrite _ _ _ | .postedWriteEffect _ | .guardComplementWrite _ _ _
  | .captureLowRead _ _ | .captureHighRead _ _ | .updStrobe _ _ | .tallyClear _ _ _ | .causeClear _ _ | .noticeWrite | .drainEnd _
  | .csUserViewWrite _ _ _ | .saveDone _ | .trimApplyEffect | .monStart _ | .monStop _ | .monCfgWrite _ _ | .monitorResult _
  | .pulserFiring | .rowSwitchOpen | .blankingEnd | .siteVerdict _ _ | .heritageFormatStart | .prbsSync _ _ _
  | .prbsSyncLoss _ _ _ | .testLogicReset _ => true

end Sys2Proof
end

