-- ==== Sys2Proof/Certificates/Slice0/Obligations.lean ====
section
/-! DEFINITION. What is stated of the model, for the provers. -/

open Sys2Proof Sys2Proof.Machine

/-- The front command of a non-empty queue acts, through exec, on the state whose queue is the rest (the form the model gives a
block, log entry 1). (00_scope, 01_architecture) -/
def Obligations.StepRunsTheFrontCommand : Prop :=
  ∀ (c : Instr) (rest : List Instr) (s : State), s.pending = c :: rest → step s = exec c { s with pending := rest }

/-- The model's choice for an empty queue (log entry 6): where CK_CORE runs and the slot has a further core cycle, one core cycle
passes, and TBASE1 and TBASE3 advance by their increments as in every core cycle; else the state stays as it is. (R3, R297) -/
def Obligations.EmptyQueueLetsOneCoreCyclePass : Prop :=
  ∀ s : State, s.pending = [] →
    (s.pw.coreRun = true → s.pw.cyc + 1 < s.pw.slotLen →
      step s = .next { s with pw := { s.pw with cc := s.pw.cc + 1, cyc := s.pw.cyc + 1 },
                              tb := { s.tb with
                                t1 := (s.tb.nx1.getD s.tb.t1 + s.tb.incr1) % 2 ^ 96, t3 := (s.tb.nx3.getD s.tb.t3 + s.tb.incr3) % 2 ^ 96
                                incr1 := s.tb.ni1.getD s.tb.incr1, incr3 := s.tb.ni3.getD s.tb.incr3
                                nx1 := none, nx3 := none, ni1 := none, ni3 := none } }) ∧
    (s.pw.coreRun = false ∨ s.pw.slotLen ≤ s.pw.cyc + 1 → step s = .next s)

/-- Whatever command acts, in whatever state, when it answers a next state the queue of waiting commands is the one it found. The
queue and its being the sender's alone are the model's choice (log entry 1): the spec knows no such queue. (00_scope, 01_architecture) -/
def Obligations.QueueIsTheSendersAlone : Prop :=
  ∀ (c : Instr) (s t : State), exec c s = .next t → t.pending = s.pending

/-- exec answers a next state for every command other than SAMPLE_CONVERSION in every state. SAMPLE_CONVERSION completes in every
state in which the hub is held in the power-on reset, CK_CORE does not run or the input is within the absolute maximum, and stops
with its fault in every other. No command is refused. (R49, 00_scope) -/
def Obligations.OnlySampleConversionStops : Prop :=
  ∀ s : State,
    (∀ c : Instr, (∀ ch j level peak onEdge cmBad, c ≠ .sampleConversion ch j level peak onEdge cmBad) → ∃ t, exec c s = .next t) ∧
    ∀ (ch : Fin 384) (j : Fin 2) (level : Int) (peak : Nat) (onEdge cmBad : Bool),
      (s.pw.por = true ∨ s.pw.coreRun = false ∨ beyondMax s ch level = false →
        ∃ t, exec (.sampleConversion ch j level peak onEdge cmBad) s = .next t) ∧
      (s.pw.por = false → s.pw.coreRun = true → beyondMax s ch level = true →
        exec (.sampleConversion ch j level peak onEdge cmBad) s = .fault .beyondAbsoluteMaximum)

/-- From every state in which clocks and supplies agree (under the POR neither CK_CORE nor the crystal runs; CK_CORE needs VDDA and
has then run since the POR; the crystal needs VDDA; a hub out of the POR has been released), every step that answers a next state
gives such a state again. (R17, R424, R428, R432) -/
def Obligations.ClocksAndSuppliesAgree : Prop :=
  ∀ s t : State, Clocked s → step s = .next t → Clocked t

/-- From every state that has the 384 converters, channels and discriminators, the seven flint outputs, the six seams, the 32 queues
and the four register masters, every step that answers a next state gives a state that has them. (R15, R119, 01_architecture, 09_serai_queues) -/
def Obligations.EveryUnitStaysInPlace : Prop :=
  ∀ s t : State, Shaped s → step s = .next t → Shaped t

/-- From every state whose register words, page headers and tallies are listed by rising key and whose slot map banks, sample ring
and flash also list nothing that an unlisted key reads as, every step that answers a next state gives such a state, so that equal
contents of these memories are equal data. Of the other sparse memories nothing is stated here. (R9, R23, R127, 17_register_index) -/
def Obligations.MemoriesStayCanonical : Prop :=
  ∀ s t : State, Canonical s → step s = .next t → Canonical t

/-- In State.reset clocks and supplies agree, every unit is in place and every sparse memory is canonical. (R359, R424) -/
def Obligations.ResetIsASoundState : Prop :=
  Clocked State.reset ∧ Shaped State.reset ∧ Canonical State.reset

/-- For every canonical memory, a write followed by a read of the same key gives the value written, a read of another key gives what
it gave before the write, and the written memory is canonical again. (R23, 17_register_index) -/
def Obligations.SparseMemoryReadAfterWrite : Prop :=
  ∀ (d x : Byte) (m : Ram Byte) (a b : Nat), ramWf d m = true →
    ramGet d (ramPut d m a x) a = x ∧ (b ≠ a → ramGet d (ramPut d m a x) b = ramGet d m b) ∧ ramWf d (ramPut d m a x) = true

/-- What stays when the POR holds the hub: everything else is at its reset value. -/
def porHeld (s : State) (vdd vddioPor resetN vddio : Bool) : State :=
  { State.reset with
    pending := s.pending
    pw := { State.reset.pw with
      vdd := vdd, vddioPor := vddioPor, resetN := resetN, vdda := s.pw.vdda, vddio := vddio, vddp := s.pw.vddp
      released := s.pw.released, freeCtr := s.pw.freeCtr }
    slow := { State.reset.slow with flash := s.slow.flash }
    cal := { State.reset.cal with bank := s.cal.bank } }

/-- Every record of the fuse bank passes its check. -/
def bankOk (s : State) : Bool := (List.range 8).all (fun r => fuseRecOk s.cal.bank r)

/-- POR_ASSERT by VDD gives, in every state, the hub at reset but for what the POR does not reach: the waiting commands, the rail
levels and what the POR samples of VDD, VDDIO and RESET_N, whether it has been released, the SPI flash, the fuse bank, and the
model's free-value counter. By VDDIO or RESET_N it does the same before the first release and nothing after it. POR_RELEASE samples
RESET_N and does nothing out of the POR. Under it, with VDD above its threshold and, before the first release, VDDIO too and RESET_N
high, it answers the state with the POR gone, the first release noted, STAGE 1, TBASE2 at 0, ADR[3:0] as the pins read and the fuse
bank read: FUSE_FAIL names every record that fails its check, FUSE_BAD and FUSE_OK follow, and beside power, fabric and calibration
store nothing changes. While one of these conditions stands only RESET_N's level is noted. (R321, R370, R424, R426, R440) -/
def Obligations.PowerOnResetHoldsAndReleases : Prop :=
  ∀ s : State,
    exec (.porAssert .vdd) s = .next (porHeld s false s.pw.vddioPor s.pw.resetN s.pw.vddio) ∧
    (s.pw.released = false → exec (.porAssert .vddio) s = .next (porHeld s s.pw.vdd false s.pw.resetN false)) ∧
    (s.pw.released = false → exec (.porAssert .resetN) s = .next (porHeld s s.pw.vdd s.pw.vddioPor false s.pw.vddio)) ∧
    (s.pw.released = true → exec (.porAssert .vddio) s = .next s ∧ exec (.porAssert .resetN) s = .next s) ∧
    ∀ (adr : Fin 16) (r : Bool),
      (s.pw.por = false → exec (.porRelease adr r) s = .next s) ∧
      (s.pw.por = true → (s.pw.vdd = false ∨ (s.pw.released = false ∧ (s.pw.vddioPor = false ∨ r = false))) →
        exec (.porRelease adr r) s = .next { s with pw := { s.pw with resetN := r } }) ∧
      (s.pw.por = true → s.pw.vdd = true → (s.pw.released = true ∨ (s.pw.vddioPor = true ∧ r = true)) →
        ∃ t, exec (.porRelease adr r) s = .next t ∧ Only [.pw, .fab, .cal] s t ∧
          t.pw = { s.pw with por := false, released := true, stage := 1, sup := 0, adr := adr.val, resetN := r } ∧
          t.cal = { s.cal with read := s.cal.bank, fuseFail := t.cal.fuseFail, fuseBad := !bankOk s, fuseOk := bankOk s, useFuse := bankOk s } ∧
          (∀ k : Fin 8, t.cal.fuseFail.getLsbD k = !fuseRecOk s.cal.bank k))

/-- Out of the POR in stage 1 or 2, USER_STORE_LOAD completes: without the SPI's pins, a valid boot header or a valid slot USER_BAD
is raised and the held and effective user images are empty; with them, USER_OK is raised and image, slot number and GEN are those of
the slot of R372. The user store then counts as loaded, what the fuse load found stays, and STAGE becomes 4 when some FWD_OK reads
1, else 3. Only power, fabric, flash port and calibration store change, and of the flash port not the flash. (R325, R327, R359, R361, R372, R427) -/
def Obligations.StartupLoadReportsTheStores : Prop :=
  ∀ (s : State) (id : BitVec 24), s.pw.por = false → s.pw.stage < 3 →
    ∃ t, exec (.userStoreLoad id) s = .next t ∧ Only [.pw, .fab, .slow, .cal] s t ∧
      t.pw.stage = (if s.lnA.fwdOk || s.lnB.fwdOk then 4 else 3) ∧ t.cal.loaded = true ∧
      t.cal.read = s.cal.read ∧ t.cal.fuseFail = s.cal.fuseFail ∧ t.cal.fuseBad = s.cal.fuseBad ∧ t.cal.fuseOk = s.cal.fuseOk ∧
      t.slow.spiId = id.toNat ∧ t.slow.flash = s.slow.flash ∧ t.slow.hdrOk = (pinsOk s && bootHdrOk s id.toNat) ∧
      ((pinsOk s && bootHdrOk s id.toNat) = false → t.cal.userBad = true ∧ t.cal.user = [] ∧ t.cal.eff = []) ∧
      ((pinsOk s && bootHdrOk s id.toNat) = true → t.slow.usrBase = leNat (flashBytes s 6 3) ∧
        (pickSlot { s with slow := { s.slow with usrBase := leNat (flashBytes s 6 3) } } = none →
          t.cal.userBad = true ∧ t.cal.user = [] ∧ t.cal.eff = []) ∧
        (∀ i g, pickSlot { s with slow := { s.slow with usrBase := leNat (flashBytes s 6 3) } } = some (i, g) →
          t.cal.userOk = true ∧ t.cal.slotNo = i ∧ t.cal.gen = g ∧ t.cal.eff = t.cal.user ∧
          t.cal.user = unlockedOnly (slotImage { s with slow := { s.slow with usrBase := leNat (flashBytes s 6 3) } } i)))

/-- Out of the POR, in stage 4 or later with VDDA present, CK_CORE never having run and a trunk's forwarded clock good,
CORE_PLL_FIRST_LOCK completes: CK_CORE runs, the PLL is locked to the trunk it waited for (the other one where that one's clock is
not good), the orbit counter is in IDLE with slot 0 and orbit ORB_PRESET.NUM, every converter is powered as its enable says and
delivers no valid sample yet, every seam starts at the present slot, and what the lane pages had counted before, tallies and code
errors, is gone. Downlinks, time bases, management port, Serai and supervisor do not change. (R142, R359, R428, R429) -/
def Obligations.FirstLockOfTheCorePll : Prop :=
  ∀ s : State, s.pw.por = false → s.pw.coreEver = false → 4 ≤ s.pw.stage → s.pw.vdda = true → Canonical s →
    fwdOk s s.pll.start = true ∨ fwdOk s (peer s.pll.start) = true →
    ∃ t, exec .corePllFirstLock s = .next t ∧ Only [.pw, .fab, .orb, .pll, .conv, .chan, .flint, .fout, .seams, .frm, .lnA, .lnB, .cal] s t ∧
      t.pw = { s.pw with coreRun := true, coreEver := true } ∧
      t.pll.ref = (if fwdOk s s.pll.start then s.pll.start else peer s.pll.start) ∧ t.pll.lock = true ∧ t.pll.hold = false ∧
      t.orb.st = .idle ∧ t.orb.slot = 0 ∧ t.orb.orbit = regAt s 0x03 0x048 ∧
      (∀ c : Fin 384, s.conv.length = 384 → (getConv t c).on = convEn s.fab.regs c ∧ (getConv t c).ready = false) ∧
      (∀ i : Fin 6, s.seams.length = 6 → (getSeam t i).startN = 2 * s.pw.elapsed) ∧
      (∀ i, tallyOf t 0x48 i = 0 ∧ tallyOf t 0x49 i = 0) ∧ t.lnA.codeErr = 0 ∧ t.lnB.codeErr = 0

/-- Out of the POR a rail that stands at a level out of its limits acts by its detector or range: VDD below 0.74 V is the POR, and
at or above it does nothing; VDDA out of its range stops CK_CORE and the crystal oscillator at once, leaves no converter with valid
samples, and leaves supervisor time and TBASE2 running on; VDDIO out of its range leaves every flint output low, takes both trunks'
supplies and brings both lane controllers to OFF with no lane in service, and a user-store save in progress fails; VDDL_A or VDDL_B
below 0.90 V or above 1.10 V is the loss of that trunk's supply, and between these values VDDL_OK and the lane controller's state
stay; VDDP out of its range is noted. TRUNK_SUPPLY_LOSS leaves VDDL_OK at 0, the lane controller in OFF with no lane in service, no
forwarded clock, downlink signal, bit lock or DL_LOCK, and the role OFF unless the trunk is REPAIRING. That the crystal stops with
VDDA is read from R422 (log entry 27). (R275, R283, R375, R422, R432, R433, R439, R440) -/
def Obligations.RailLossOutOfThePor : Prop :=
  ∀ s : State, s.pw.por = false →
    (∀ mv, s.pw.vdd = true → (mv < 740 → exec (.railLoss .vdd mv) s = exec (.porAssert .vdd) s) ∧
      (740 ≤ mv → exec (.railLoss .vdd mv) s = .next s)) ∧
    (∀ mv, s.pw.vdda = true → railInRange .vdda mv = false →
      ∃ t, exec (.railLoss .vdda mv) s = .next t ∧ t.pw.vdda = false ∧ t.pw.coreRun = false ∧ t.pw.xtal = false ∧
        t.pw.sup = s.pw.sup ∧ (s.pw.coreRun = true → t.pw.coreStopped = true) ∧ (∀ k ∈ t.conv, k.ready = false) ∧
        Only [.pw, .fab, .orb, .pll, .conv, .fout, .acq, .ser, .frm, .lnA, .lnB, .mg] s t) ∧
    (∀ mv, s.pw.vddio = true → railInRange .vddio mv = false →
      ∃ t, exec (.railLoss .vddio mv) s = .next t ∧ t.pw.vddio = false ∧ (∀ f ∈ t.fout, f.high = false) ∧
        (∀ x, vddlOk t x = false ∧ (getLn t x).st = 0 ∧ (getLn t x).service = 0) ∧
        t.cal.saving = none ∧ (s.cal.saving.isSome → t.cal.saveFail = true) ∧
        Only [.pw, .fab, .orb, .pll, .fout, .ser, .frm, .lnA, .lnB, .dlA, .dlB, .sup, .slow, .cal] s t) ∧
    (∀ mv, mv < 900 ∨ 1100 < mv → exec (.railLoss .vddlA mv) s = exec (.trunkSupplyLoss .a) s ∧
      exec (.railLoss .vddlB mv) s = exec (.trunkSupplyLoss .b) s) ∧
    (∀ mv, 900 ≤ mv → mv ≤ 1100 →
      (vddlOk s .a = true → ∃ t, exec (.railLoss .vddlA mv) s = .next t ∧ t.pw = s.pw ∧ t.lnA.st = s.lnA.st ∧ Only [.lnA, .lnB] s t) ∧
      (vddlOk s .b = true → ∃ t, exec (.railLoss .vddlB mv) s = .next t ∧ t.pw = s.pw ∧ t.lnB.st = s.lnB.st ∧ Only [.lnA, .lnB] s t)) ∧
    (∀ mv, railInRange .vddp mv = false → exec (.railLoss .vddp mv) s = .next { s with pw := { s.pw with vddp := false } }) ∧
    ∀ x, vddlOk s x = true →
      ∃ t, exec (.trunkSupplyLoss x) s = .next t ∧ vddlOk t x = false ∧ (getLn t x).st = 0 ∧ (getLn t x).service = 0 ∧
        (getLn t x).fwdOk = false ∧ (getLn t x).dlSignal = false ∧ (getLn t x).bitLock = false ∧ (getLn t x).dlLock = false ∧
        ((getTs s x).repair = false → (getTs t x).role = 0) ∧ t.fab.regs = s.fab.regs ∧
        Only [.pw, .fab, .orb, .pll, .ser, .frm, .lnA, .lnB, .dlA, .dlB, .sup] s t

/-- Out of the POR: VDDA's return leaves every flint output low and every discriminator without a level (log entry 27, the model's
reading), VDDIO's and VDDP's returns are noted, VDDL_A or VDDL_B at 0.93 V or more and below 1.08 V is the rise of that trunk's
supply. TRUNK_SUPPLY_UP of a trunk that is OFF without its supply leaves VDDL_OK at 1 and the lane controller in DETECT, entered
now, with no lane in service and CAP_MISMATCH and RETRAIN clear. Under the POR the loss or return of VDDA, VDDIO or VDDP changes
whether it is in its range, VDDIO's level also its POR detector, which sets at 1.55 V and clears below 1.45 V; VDD's detector sets
at 0.80 V; VDDL_A and VDDL_B change nothing. (R243, R424, R432, R433, R439, R440) -/
def Obligations.RailReturnAndRailsUnderThePor : Prop :=
  ∀ s : State,
    (s.pw.por = false →
      (∀ mv, s.pw.vdda = false → railInRange .vdda mv = true → exec (.railReturn .vdda mv) s = .next { s with
        pw := { s.pw with vdda := true }
        fout := s.fout.map (fun x => { x with high := false, t0 := none })
        flint := s.flint.map (fun x => { x with uv := 0, on := false, contrib := false, above := false }) }) ∧
      (∀ mv, railInRange .vddio mv = true →
        exec (.railReturn .vddio mv) s = .next { s with pw := { s.pw with vddioPor := true, vddio := true } }) ∧
      (∀ mv, railInRange .vddp mv = true → exec (.railReturn .vddp mv) s = .next { s with pw := { s.pw with vddp := true } }) ∧
      (∀ mv, 930 ≤ mv → mv < 1080 → exec (.railReturn .vddlA mv) s = exec (.trunkSupplyUp .a) s ∧
        exec (.railReturn .vddlB mv) s = exec (.trunkSupplyUp .b) s) ∧
      ∀ x, vddlOk s x = false → (getLn s x).st = 0 →
        ∃ t, exec (.trunkSupplyUp x) s = .next t ∧ vddlOk t x = true ∧ (getLn t x).st = 1 ∧ (getLn t x).since = s.pw.sup ∧
          (getLn t x).service = 0 ∧ (getLn t x).capMis = false ∧ (getLn t x).retrain = false ∧ t.fab.regs = s.fab.regs ∧
          Only [.pw, .fab, .lnA, .lnB, .sup] s t) ∧
    (s.pw.por = true → ∀ mv,
      exec (.railLoss .vdda mv) s = .next { s with pw := { s.pw with vdda := railInRange .vdda mv } } ∧
      exec (.railReturn .vdda mv) s = .next { s with pw := { s.pw with vdda := railInRange .vdda mv } } ∧
      exec (.railLoss .vddio mv) s = .next { s with pw := { s.pw with
        vddioPor := decide (1550 ≤ mv ∨ (s.pw.vddioPor = true ∧ 1450 ≤ mv)), vddio := railInRange .vddio mv } } ∧
      exec (.railReturn .vddio mv) s = exec (.railLoss .vddio mv) s ∧
      exec (.railLoss .vddp mv) s = .next { s with pw := { s.pw with vddp := railInRange .vddp mv } } ∧
      exec (.railReturn .vddp mv) s = exec (.railLoss .vddp mv) s ∧
      (800 ≤ mv → exec (.railReturn .vdd mv) s = .next { s with pw := { s.pw with vdd := true } }) ∧
      (s.pw.vdd = false → mv < 800 → exec (.railLoss .vdd mv) s = .next s) ∧
      exec (.railLoss .vddlA mv) s = .next s ∧ exec (.railLoss .vddlB mv) s = .next s ∧
      exec (.railReturn .vddlA mv) s = .next s ∧ exec (.railReturn .vddlB mv) s = .next s)

/-- Out of the POR with the crystal running, XTAL_LOSS completes: XTAL_LOST reads 1, tally 2 of page 0x00 counts once (saturating),
the management link, its synchronisation and its negotiation are down, and a link that was up counts LINK_LOSS. With VDDA present
and the crystal stopped, XTAL_RETURN completes: the crystal runs and XTAL_LOST reads 0. Neither changes a register in force. (R17, R198, R313, R349, R360) -/
def Obligations.CrystalLossAndReturn : Prop :=
  ∀ s : State, s.pw.por = false → Canonical s →
    (s.pw.xtal = true → ∃ t, exec .xtalLoss s = .next t ∧ t.pw = { s.pw with xtal := false, xtalLost := true } ∧
      t.mg = { s.mg with sync := false, anDone := false, link := false } ∧ tallyOf t 0x00 2 = min 0xFF (tallyOf s 0x00 2 + 1) ∧
      (s.mg.link = true → tallyOf t 0x58 2 = min 0xFF (tallyOf s 0x58 2 + 1)) ∧
      t.fab.regs = s.fab.regs ∧ Only [.pw, .fab, .ser, .frm, .lnA, .lnB, .mg] s t) ∧
    (s.pw.xtal = false → s.pw.vdda = true → ∃ t, exec .xtalReturn s = .next t ∧
      t.pw = { s.pw with xtal := true, xtalLost := false } ∧ t.fab.regs = s.fab.regs ∧ Only [.pw, .fab, .ser, .lnA, .lnB] s t)

/-- With CK_CORE running, and in IDLE or before the last slot of the orbit, SLOT_ADVANCE completes: one slot more has elapsed. Where
no TRIG_IN edge waits for the slot, all core cycles left in the slot have passed for the two network time bases, which advance by
their increments where no step, load or commit of this core cycle is to show first, the new slot is 8 core cycles long, the slot
number stays in IDLE and is one more otherwise, and neither the orbit number nor the counter's state changes; converters, rings,
feature store, seams, supervisor, stores, monitor and heritage do not change. Where edges wait, none waits any more. After slot
ORB_LEN.LEN − 1, outside IDLE, ORBIT_BOUNDARY completes: one slot more has elapsed, and, where no edge waits, the slot number is 0
and the orbit number one more, 0xFFFF_FFFF being followed by 0. That the command lets the slot's remaining core cycles pass, each
with its advance of the bases, is the model's choice (log entry 6). (R3, R18, R297, R443) -/
def Obligations.SlotsAndOrbitsAdvance : Prop :=
  ∀ (s : State) (obs : SlotObs), s.pw.por = false → s.pw.coreRun = true →
    ((s.orb.st = .idle ∨ s.orb.slot + 1 < orbLen s) →
      ∃ t, exec (.slotAdvance obs) s = .next t ∧ t.pw.elapsed = s.pw.elapsed + 1 ∧ t.acq.pinNext = 0 ∧
        (s.acq.pinNext = 0 → t.pw.cc = s.pw.cc + (s.pw.slotLen - s.pw.cyc) ∧ t.pw.cyc = 0 ∧ t.pw.slotLen = 8 ∧
        t.orb.slot = (if s.orb.st = .idle then s.orb.slot else s.orb.slot + 1) ∧ t.orb.orbit = s.orb.orbit ∧ t.orb.st = s.orb.st ∧
        (s.pw.cyc < s.pw.slotLen → s.tb.nx1 = none → s.tb.ni1 = none → t.tb.t1 = (s.tb.t1 + (s.pw.slotLen - s.pw.cyc) * s.tb.incr1) % 2 ^ 96) ∧
        (s.pw.cyc < s.pw.slotLen → s.tb.nx3 = none → s.tb.ni3 = none → t.tb.t3 = (s.tb.t3 + (s.pw.slotLen - s.pw.cyc) * s.tb.incr3) % 2 ^ 96) ∧
        Only [.pw, .fab, .orb, .pll, .chan, .flint, .fout, .acq, .ser, .frm, .lnA, .lnB, .dlA, .dlB, .tb, .pls] s t)) ∧
    (s.orb.st ≠ .idle → orbLen s ≤ s.orb.slot + 1 →
      ∃ t, exec (.orbitBoundary obs) s = .next t ∧ t.pw.elapsed = s.pw.elapsed + 1 ∧ t.acq.pinNext = 0 ∧
        (s.acq.pinNext = 0 → t.orb.slot = 0 ∧ t.orb.orbit = (s.orb.orbit + 1) % 2 ^ 32))

/-- With CK_CORE running outside IDLE, from slot ORB_LEN.LEN − 16 on and before the cutoff of this orbit has passed, CUTOFF
completes: the buffered words are kept as they stand, no word counts as late yet, the cutoff has passed, and a converter that was
powered stays powered. No register in force, mark or waiting command changes. (R33, R59) -/
def Obligations.CutoffFreezesWhatIsPending : Prop :=
  ∀ s : State, s.pw.por = false → s.pw.coreRun = true → s.orb.st ≠ .idle → s.orb.pastCut = false → orbLen s ≤ s.orb.slot + 16 →
    ∃ t, exec .cutoff s = .next t ∧ t.fab.frozen = some s.fab.buf ∧ t.fab.late = [] ∧ t.orb.pastCut = true ∧
      t.fab.buf = s.fab.buf ∧ t.fab.regs = s.fab.regs ∧ t.fab.marked = s.fab.marked ∧ t.orb.slot = s.orb.slot ∧
      (∀ c, s.conv.length = 384 → c < 384 → (getConv s c).on = true → (getConv t c).on = true) ∧ Only [.fab, .orb, .conv] s t

/-- With CK_CORE running outside IDLE in the last slot of the orbit, and no TRIG_IN edge waiting for the next slot (R443),
ORBIT_BOUNDARY completes: the slot number is 0, the orbit number is one more (modulo 2^32), the counter stays in its state, one slot
more has elapsed, the cutoff is open again, no mark has been seen in the new orbit, its oasis has not begun, no group waits for the
boundary after the next, and, when no slot map copy runs, the groups marked for the next boundary are those that stood for the
following one. (R18, R33, R34, R443) -/
def Obligations.OrbitBoundaryStartsTheNextOrbit : Prop :=
  ∀ (s : State) (obs : SlotObs), s.pw.por = false → s.pw.coreRun = true → s.orb.st ≠ .idle → orbLen s ≤ s.orb.slot + 1 → s.acq.pinNext = 0 →
    ∃ t, exec (.orbitBoundary obs) s = .next t ∧
      t.orb.slot = 0 ∧ t.orb.orbit = (s.orb.orbit + 1) % 2 ^ 32 ∧ t.orb.st = s.orb.st ∧ t.pw.elapsed = s.pw.elapsed + 1 ∧ t.pw.cyc = 0 ∧
      t.orb.pastCut = false ∧ t.orb.markSeen = false ∧ t.orb.oasis = {} ∧ t.fab.frozen = none ∧ t.fab.late = [] ∧
      (s.orb.copies = [] → t.fab.marked = s.fab.next) ∧ t.fab.next = 0

/-- No page that takes part in the application of group `g` has a cause to refuse its pending values. -/
def nothingRefuses (s : State) (g : Nat) : Bool :=
  (takesPart s g).all (fun p => (causeOf s s.fab.regs (candRegs s (takesPart s g)) (takesPart s g) p).isNone)

/-- The values as they are buffered now, without those that a cutoff keeps. -/
def buffersOfNow (s : State) : State :=
  { s with fab := { s.fab with frozen := none, frozenPg := [], late := [] }, orb := { s.orb with lateMap := [] } }

/-- The group `g` alone. -/
def groupBit (g : Fin 16) : BitVec 16 := BitVec.ofNat 16 (1 <<< g.val)

/-- Buffered words that read 0 once their command has acted: SRST (R347), TRACK_ZERO (R74), SV_FORCE (R285), TCMD (R299), CS_SAVE
(R374). -/
def selfClearing (a : Nat) : Prop := a ∈ [0x01050, 0x28040, 0x5004C, 0x54068, 0x70044]

/-- In `t` the group `g` has been applied whole to the registers of `v`, or refused whole: UPD_LAST shows which (R341), and the words in
force and the buffered words are as R34 and R35 leave them. -/
def GroupDone (v t : State) (g : Fin 16) : Prop :=
  (nothingRefuses v g = true → t.fab.applied = groupBit g ∧ t.fab.refused = 0 ∧
    (∀ p o, o < 0x1000 → ¬ selfClearing (p * 0x1000 + o) → regAt t p o = regsGet (candRegs v (takesPart v g)) p o) ∧
    (v.fab.frozen = none → ∀ a, takesPart v g |>.contains (a / 0x1000) → ramHas t.fab.buf a = false)) ∧
  (nothingRefuses v g = false → t.fab.applied = 0 ∧ t.fab.refused = groupBit g ∧ t.fab.regs = v.fab.regs ∧ t.fab.buf = v.fab.buf)

/-- In IDLE with CK_CORE running, when the only marked group falls due, no copy is over that SMAP_COPY_END has not ended, the group
holds no slot map page whose copy runs, and no page soft reset is pending, IDLE_GROUP_APPLY completes: the mark is gone, the group
shows in UPD_LAST as applied when no page that takes part has a cause to refuse and as refused when one has, and nothing else shows
there. Applied, the words in force are the candidate words of the pages that take part, but for the words whose command reads 0 once
it has acted, and nothing of those pages is buffered any more; refused, the words in force and the buffered words are what they
were. The counter stays in IDLE at its slot. A group that holds a page whose copy runs stays marked and waits, and nothing is
applied. SMAP_COPY_END completes once the 1,024 core cycles of the copy have passed, in IDLE or not: the copy is over, nothing else
changes where no group waits for it, and a group that waited for this copy alone is applied or refused in the same way, with the
values buffered by then. (R27, R34, R35, R340, R341) -/
def Obligations.IdleApplicationIsWholeOrNot : Prop :=
  ∀ (s : State) (g : Fin 16), s.pw.por = false → s.pw.coreRun = true → Canonical s →
    (∀ due, s.orb.st = .idle → s.fab.idleAt = [(due, groupBit g)] → due ≤ s.pw.cc → s.fab.marked = groupBit g →
      (∀ k c, k < 4 → ramFind s.orb.copies k = some c → s.pw.cc < c.start + 1024) →
      (heldBack s [g.val] = [] → ramFind (takenBuf s) 0x01050 = none →
        ∃ t, exec .idleGroupApply s = .next t ∧ t.fab.idleAt = [] ∧ t.fab.marked = 0 ∧ t.fab.waiting = s.fab.waiting &&& ~~~groupBit g ∧
          t.orb.st = .idle ∧ t.orb.slot = s.orb.slot ∧ t.pw.elapsed = s.pw.elapsed ∧
          GroupDone { s with fab := { s.fab with idleAt := [] } } t g) ∧
      (heldBack s [g.val] = [g.val] →
        ∃ t, exec .idleGroupApply s = .next t ∧ Only [.fab, .orb] s t ∧ t.fab.marked = groupBit g ∧ t.fab.idleAt = [] ∧
          t.fab.waiting = s.fab.waiting ||| groupBit g ∧ t.fab.regs = s.fab.regs ∧ t.fab.applied = s.fab.applied)) ∧
    (∀ (k : Fin 4) (c : SmapCopy), ramFind s.orb.copies k = some c → c.start + 1024 ≤ s.pw.cc →
      ∃ t, exec (.smapCopyEnd k) s = .next t ∧ t.orb.st = s.orb.st ∧ t.orb.slot = s.orb.slot ∧ t.pw.elapsed = s.pw.elapsed ∧
        (s.fab.waiting = 0 → t.orb.copies = ramDrop (· == k.val) s.orb.copies ∧ Only [.orb] s t) ∧
        (s.fab.waiting = groupBit g → ∀ v, v = buffersOfNow (copyDone k s) → heldBack v [g.val] = [] → ramFind v.fab.buf 0x01050 = none →
          t.fab.waiting = 0 ∧ t.fab.marked = s.fab.marked &&& ~~~groupBit g ∧ GroupDone v t g))

/-- When the oldest due frame of the active trunk has no code left and carries ORBIT, ORBIT_MARK completes. In IDLE the counter
becomes LOCKED at slot ORB_OFS.OFS of orbit ORB_PRESET.NUM and STAGE is at least 6. In LOCKED a mark in slot ORB_OFS.OFS is noted
and any other counts MARK_MISMATCH, the slot count staying as it is. In SEEK a mark in slot ORB_OFS.OFS locks the counter; any other
is a realignment: the slot number becomes ORB_OFS.OFS, the orbit number advances by one, REALIGN counts, and no group is applied. (R19, R20, R21, R349) -/
def Obligations.OrbitMarkFollowsTheTable : Prop :=
  ∀ (s : State) (t : Trunk) (d : Due), s.pw.por = false → s.pw.coreRun = true → Canonical s →
    dueHead s = some (t, d) → d.code = none → d.orbit = true →
    ∃ u, exec .orbitMark s = .next u ∧ u.fab.regs = s.fab.regs ∧ u.fab.marked = s.fab.marked ∧
      (s.orb.st = .idle → u.orb.st = .locked ∧ u.orb.slot = orbOfs s ∧ u.orb.orbit = regAt s 0x03 0x048 ∧ 6 ≤ u.pw.stage) ∧
      (s.orb.st = .locked → u.orb.slot = s.orb.slot ∧ u.orb.orbit = s.orb.orbit ∧ u.orb.st = .locked ∧
        (s.orb.slot = orbOfs s → u.orb.markSeen = true ∧ u.fab = s.fab) ∧
        (s.orb.slot ≠ orbOfs s → tallyOf u 0x03 1 = min 0xFF (tallyOf s 0x03 1 + 1) ∧ u.orb = s.orb)) ∧
      (s.orb.st = .seek → u.orb.st = .locked ∧ u.orb.slot = orbOfs s ∧
        u.orb.orbit = (if s.orb.slot = orbOfs s then s.orb.orbit else (s.orb.orbit + 1) % 2 ^ 32) ∧
        (s.orb.slot ≠ orbOfs s → tallyOf u 0x03 2 = min 0xFF (tallyOf s 0x03 2 + 1)))

/-- RESYNC completes when the oldest due frame of the active trunk carries code 4, and ORB_CTL's RESYNC completes when page 0x03
serves the write; either way the counter in LOCKED becomes SEEK and in IDLE or SEEK stays as it is. The write is served after the
cutoff where that is due. The slot and orbit numbers, every register in force and everything outside the fabric, the counter, the
converters and the downlinks stay. (R19, R40, R264, R265) -/
def Obligations.ResyncSeeksAMark : Prop :=
  ∀ s : State, s.pw.por = false → s.pw.coreRun = true →
    (∀ (t : Trunk) (d : Due), dueHead s = some (t, d) → d.code = some 4 →
      ∃ u, exec .resync s = .next u ∧ Only [.orb, .dlA, .dlB] s u ∧
        u.orb = { s.orb with st := if s.orb.st = .locked then .seek else s.orb.st }) ∧
    (∀ m : Master, Serves s m 0x03 →
      ∃ u, exec (.orbCtlResync m) s = .next u ∧ Only [.fab, .orb, .conv] s u ∧ u.fab.regs = s.fab.regs ∧
        u.orb = { (cutoffNow s).orb with st := if s.orb.st = .locked then .seek else s.orb.st })

/-- When the oldest due frame of the active trunk carries code 1, OASIS_BEGIN completes: in the first slot of the declared oasis it
is confirmed, in any other slot OASIS_MISMATCH counts and the oasis stays as it is, and in IDLE nothing happens. (R29, R264, R349) -/
def Obligations.OasisBeginsOnlyInItsFirstSlot : Prop :=
  ∀ s : State, s.pw.por = false → s.pw.coreRun = true → Canonical s →
    (∀ (t : Trunk) (d : Due), dueHead s = some (t, d) → d.code = some 1 →
      ∃ u, exec .oasisBegin s = .next u ∧ Only [.fab, .orb, .dlA, .dlB] s u ∧ u.fab.regs = s.fab.regs ∧
        (s.orb.st = .idle → u.orb = s.orb ∧ u.fab = s.fab) ∧
        (s.orb.st ≠ .idle → firstOasisSlot s = true →
          u.orb = { s.orb with oasis := { s.orb.oasis with confirmed := true } } ∧ u.fab = s.fab) ∧
        (s.orb.st ≠ .idle → firstOasisSlot s = false → u.orb = s.orb ∧ tallyOf u 0x03 5 = min 0xFF (tallyOf s 0x03 5 + 1)))

/-- OASIS_START completes where oasis work may begin (R28): work runs from the present slot over the declared length, without
touching Serai, the framer or the supervisor. ROTATION_END completes 16 slots later: a converter in rotation goes on to the next
parked number of R52 and keeps the judged RESID for the boundary, and every other converter stays as it is. PEDESTAL_TRACKING
completes once the samples of its slots are written: tracking has ended for this oasis and every pedestal in force stays until the
boundary. (R28, R30, R31, R52, R54, R55, R94) -/
def Obligations.OasisWorkOfTheConverters : Prop :=
  ∀ s : State, s.pw.por = false → s.pw.coreRun = true →
    (∀ est, oasisMay s = true →
      ∃ u, exec (.oasisStart est) s = .next u ∧ u.orb.oasis.running = true ∧ u.orb.oasis.start = s.pw.elapsed ∧
        u.orb.oasis.len = (declOasis s).elim 0 (·.2) ∧ u.orb.oasis.pedDone = false ∧ u.orb.slot = s.orb.slot ∧ u.fab.regs = s.fab.regs ∧
        Only [.pw, .fab, .orb, .pll, .conv, .chan, .lnA, .lnB, .pls] s u) ∧
    (∀ diffs, s.orb.oasis.running = true → s.orb.oasis.rotating = true → s.orb.oasis.start + 16 ≤ s.pw.elapsed →
      ∃ u, exec (.rotationEnd diffs) s = .next u ∧ Only [.orb, .conv] s u ∧
        u.orb = { s.orb with oasis := { s.orb.oasis with rotating := false } } ∧
        (∀ c, s.conv.length = 384 → c < 384 →
          getConv u c = if (getConv s c).rotating then
              { parkStep (getConv s c) with
                residNew := (diffs.find? (fun d => d.1 == c)).elim (getConv s c).residNew (fun d => some (residOf d.2)) }
            else getConv s c)) ∧
    (pedReady s = true →
      ∃ u, exec .pedestalTracking s = .next u ∧ u.orb.oasis = { s.orb.oasis with pedDone := true } ∧ u.fab.regs = s.fab.regs ∧
        (∀ c, (getChan u c).ped = (getChan s c).ped) ∧ Only [.fab, .orb, .chan] s u)

/-- PULSER_DIAGNOSTICS completes at offset L − 16 of a running oasis with the pulser active and diagnostics enabled, once per oasis:
behind an open row switch or blanking it is skipped, counted and has recorded nothing; else the sensed shorts of columns 0–14 and
rows 0–6 are kept and the row to test is chosen. DIAG_VERDICTS completes at offset L − 9: the record is done, and the bars of
columns and rows are those that the sensed shorts and the clean tests give. (R398, R399, R400) -/
def Obligations.OasisWorkOfThePulser : Prop :=
  ∀ s : State, s.pw.por = false → s.pw.coreRun = true → Canonical s →
    (∀ cols rows, s.orb.oasis.running = true → s.pls.diagRan = false → (regAt s 0x64 0x040).testBit 0 = true → plsActive s = true →
      s.orb.oasis.start + s.orb.oasis.len ≤ s.pw.elapsed + 16 →
      ∃ u, exec (.pulserDiagnostics cols rows) s = .next u ∧ Only [.fab, .pls] s u ∧ u.fab.regs = s.fab.regs ∧ u.pls.diagRan = true ∧
        (if (s.pls.row.isSome && decide (slotStartCc s < s.pls.openAt)) || decide (slotStartCc s < s.pls.blankTo) then
          u.pls = { s.pls with diagRan := true, diagDone := true } ∧ tallyOf u 0x64 2 = min 0xFF (tallyOf s 0x64 2 + 1)
        else u.pls.diag = true ∧ u.pls.diagRow = diagRowOf s ∧ u.pls.colHit = (cols.filter (· < 15)).dedup ∧
          u.pls.rowHit = (rows.filter (· < 7)).dedup)) ∧
    (s.pls.diagRan = true → s.pls.diagDone = false → s.orb.oasis.start + s.orb.oasis.len ≤ s.pw.elapsed + 9 →
      ∃ u, exec .diagVerdicts s = .next u ∧ Only [.fab, .acq, .ser, .frm, .pls] s u ∧ u.fab.regs = s.fab.regs ∧ u.pls.diagDone = true ∧
        u.pls.colClean = newBars s.pls.colHit s.pls.colClean ∧ u.pls.rowClean = newBars s.pls.rowHit s.pls.rowClean)

/-- Converter `c` before sample `j` of slot `e`: after a slot that was cut no recovery is left (log entry 43). -/
def convBefore (s : State) (c e j : Nat) : Conv :=
  if j = 0 ∧ (tagOf s (e - 1)).cut.isSome then { getConv s c with recov := 0 } else getConv s c

/-- With CK_CORE running since 12 sample periods or more, and an input within the absolute maximum, SAMPLE_CONVERSION completes. The
word is 0x0000 where the converter delivers no valid sample for that instant; else (the common mode being in range) it holds the
converted code with OVR and SWAP. It is the only ring word that changes, and only where the seam's ring is written; the same word
joins the channel's filter input. The input is the pins', or, with IN_CTL.INSEL 1 or 2, the internal short or the reference DAC with
the converter's own free error (log entry 42). SWAP is set in the slots of the converter's own rotation. With the common mode out of
range the word of a valid sample is free (log entry 4) and the command completes all the same. An input beyond the absolute maximum
stops the model, as R49 leaves it outside the manual. (R44, R45, R46, R49, R60, R128) -/
def Obligations.SampleReachesRingAndFilter : Prop :=
  ∀ (s : State) (c : Fin 384) (j : Fin 2) (level : Int) (peak : Nat) (onEdge cmBad : Bool),
    s.pw.por = false → s.pw.coreRun = true → Canonical s → Shaped s → 2054 ≤ s.pw.elapsed →
    (beyondMax s c level = true → exec (.sampleConversion c j level peak onEdge cmBad) s = .fault .beyondAbsoluteMaximum) ∧
    (beyondMax s c level = false → (inSel s c (s.pw.elapsed - 6) = 0 → cmBad = false) → ∀ w live v p,
      (convLive s c (s.pw.elapsed - 6) j && !instMissing s c (s.pw.elapsed - 6) j) = live →
      v = inputAt s c (s.pw.elapsed - 6) level (sgn (takeFree s).1 14) →
      p = (if inSel s c (s.pw.elapsed - 6) = 0 then peak else v.natAbs) →
      w = (if live then
            sampleWord (convert (convBefore s c (s.pw.elapsed - 6) j) v p onEdge).1
              (convert (convBefore s c (s.pw.elapsed - 6) j) v p onEdge).2.1
              ((tagOf s (s.pw.elapsed - 6)).swap && rotatedIn (getConv s c) (s.pw.elapsed - 6))
          else 0) →
      ∃ t, exec (.sampleConversion c j level peak onEdge cmBad) s = .next t ∧
        (getChan t c).inq = (getChan s c).inq ++ [⟨s.pw.elapsed - 6, j, w, live⟩] ∧
        (ringOn s (c / 64) (s.pw.elapsed - 6) = true → ringRead t (2 * (s.pw.elapsed - 6) + j) c = w) ∧
        (ringOn s (c / 64) (s.pw.elapsed - 6) = false → t.ring = s.ring) ∧
        (∀ k, k ≠ ringKey (2 * (s.pw.elapsed - 6) + j) c → ramGet 0 t.ring k = ramGet 0 s.ring k) ∧
        t.fab.regs = s.fab.regs ∧ Only [.pw, .fab, .conv, .chan, .ring, .ringErr] s t ∧
        (inSel s c (s.pw.elapsed - 6) = 0 → t.pw = s.pw)) ∧
    (beyondMax s c level = false → inSel s c (s.pw.elapsed - 6) = 0 → cmBad = true →
      ∃ t w live, exec (.sampleConversion c j level peak onEdge cmBad) s = .next t ∧
        (getChan t c).inq = (getChan s c).inq ++ [⟨s.pw.elapsed - 6, j, w, live⟩] ∧ (live = false → w = 0) ∧
        live = (convLive s c (s.pw.elapsed - 6) j && !instMissing s c (s.pw.elapsed - 6) j) ∧
        t.fab.regs = s.fab.regs ∧ Only [.pw, .fab, .conv, .chan, .ring, .ringErr] s t)

/-- An input above 8,192 LSB gives 0x3FFF with OVR and one below −8,192 LSB gives 0x0000 with OVR; within range and out of a
recovery the code is the input plus 0x2000, at most 0x3FFF, without OVR, and the converter's state stays; within range during a
recovery the code stays at the rail last exceeded, with OVR, and one sample of the recovery is over. How long a recovery lasts is
not stated here (log entry 12). (R43, R46, R48, R49) -/
def Obligations.ConverterClampsAndRecovers : Prop :=
  ∀ (k : Conv) (v : Int) (peak : Nat) (onEdge : Bool),
    (8192 < v → (convert k v peak onEdge).1 = 0x3FFF ∧ (convert k v peak onEdge).2.1 = true) ∧
    (v < -8192 → (convert k v peak onEdge).1 = 0 ∧ (convert k v peak onEdge).2.1 = true) ∧
    (-8192 ≤ v → v ≤ 8192 →
      (k.recov = 0 → convert k v peak onEdge = ((min 0x3FFF (v + 0x2000)).toNat, false, k)) ∧
      (∀ n, k.recov = n + 1 → convert k v peak onEdge = (if k.high then 0x3FFF else 0, true, { k with recov := n })))

/-- FILTER_OUTPUT completes when a sample waits: the sample leaves the queue and heads the delay line of at most ten taps (empty
before it in the first sample of an orbit or after the channel's flush), the output is R96's sum, shifted, rounded and saturated,
and at the slot's first sample the feature record kept for it is removed, every other record staying, while at its second all stay.
PEAK_FINAL completes when the oldest peak is final: it leaves the channel and is the feature record of its slot, no other record
changing. CONVERTER_READY completes for a powered converter that is not ready: it delivers valid samples from the next core cycle
on. (R59, R96, R98, R102, R103, R429) -/
def Obligations.FilterPeakAndReadyConverter : Prop :=
  ∀ (s : State) (c : Fin 384), s.pw.por = false → s.pw.coreRun = true → Shaped s →
    (∀ p rest, (getChan s c).inq = p :: rest →
      ∀ xv : Int, xv = (if p.en then 16 * ((p.w % 0x4000 : Nat) : Int) - (pedIn (getChan s c) p.e : Nat) else 0) →
      ∀ old, old = (if p.j = 0 ∧ ((tagOf s p.e).orb0 = true ∨ (getChan s c).flushes.any (fun e => decide (e ≤ p.e)) = true) then []
          else (getChan s c).taps) →
      ∃ t, exec (.filterOutput c) s = .next t ∧ Only [.chan, .feat, .featErr] s t ∧ (getChan t c).inq = rest ∧
        t.feat = (if p.j = 0 then ramDrop (· == featKey p.e c) s.feat else s.feat) ∧
        (getChan t c).taps = (⟨2 * p.e + p.j, xv, p.w.testBit 14, p.w.testBit 15, p.en⟩ :: old).take 10 ∧
        ((getChan t c).ys.head?).map (fun y => (y.n, y.y, y.sat)) =
          some (2 * p.e + p.j,
            satY (firShift (firAcc (coef s c p.e (tagOf s p.e).fir) (getChan t c).taps 0) (chanReg s p.e c 0x040 3 4))) ∧
        (∀ k, k ≠ c.val → getChan t k = getChan s k)) ∧
    (∀ p rest, (getChan s c).peaks = p :: rest → peakDone s c p = true →
      ∃ t, exec (.peakFinal c) s = .next t ∧ Only [.chan, .feat] s t ∧ getChan t c = { getChan s c with peaks := rest } ∧
        t.feat = ramSet s.feat (featKey (p.n / 2) c) p ∧ (∀ k, k ≠ c.val → getChan t k = getChan s k)) ∧
    ((getConv s c).on = true → (getConv s c).ready = false →
      exec (.converterReady c) s = .next (modConv c (fun k => { k with
        ready := true, readyT := instTick s.pw.elapsed (s.pw.cyc + 1) }) s))

/-- A contribution that rises at instant `x` raises output `o` (R119, R120, R123). -/
def mayRise (s : State) (o x : Nat) : Prop :=
  outEn s o s.pw.elapsed = true ∧ (getFout s o).high = false ∧ (∀ t0, (getFout s o).t0 = some t0 → t0 + 4000 ≤ x) ∧
    (o < 6 → (getFout s o).latch = false)

/-- Output `o` once a contribution has raised it at instant `x`: a seam's hold-off latch is set where HOLDOFF is not 0 (R123). -/
def risen (s : State) (o x : Nat) : FlintOut :=
  if o < 6 ∧ fld (flSeam s o s.pw.elapsed) 0 8 ≠ 0 then
    { getFout s o with high := true, t0 := some x, latch := true, slot := s.pw.elapsed + fld (flSeam s o s.pw.elapsed) 0 8 + 1 }
  else { getFout s o with high := true, t0 := some x }

/-- With VDDA, CK_CORE running or not, FLINT_LEADING_EDGE completes for any input: the comparator, with its hysteresis, is judged at
the level given, which stands until the next one, and the channel contributes exactly while it is above, OR_EN is 1 and it is not
stuck-masked. Only a change from not above to above is an edge; one less than 4.0 ns after the last counted edge changes nothing
else of the channel and no low output, any other is counted while CK_CORE runs, and marks its tower in the slot's flint map where
the channel may contribute. A counted edge of such a channel raises its seam's output and the ALL output: one that is enabled, low,
4.0 ns past its last edge and, of a seam, without a hold-off latch becomes high with its instant, and a seam's latch is set for
HOLDOFF + 1 slots where HOLDOFF is not 0; one that may not rise stays low, and one that is high and still has a contribution, or is
not yet 2.0 ns high, stays as it is. No other output changes. A pulse given with its length acts as its level and, that much later,
as the level after it. FLINT_OUTPUT_FALL completes for an output high for 2.0 ns to which nothing contributes: it is low and nothing
else changes. How the outputs act while CK_CORE is stopped is read from R17 (log entry 51). (R17, R116, R117, R119, R120, R123, R124) -/
def Obligations.FlintEdgesAndOutputs : Prop :=
  ∀ s : State, s.pw.por = false → Shaped s → s.pw.vdda = true →
    (∀ (c : Fin 384) (uv rest : Int) (ps x : Nat) (was now : Bool), x = flintAt s ps → was = (getFlint s c).on →
      now = comparator (flCtl s c s.pw.elapsed) (flThr s c s.pw.elapsed) was uv →
      ∃ t, exec (.flintLeadingEdge c uv ps 0 rest) s = .next t ∧ Only [.orb, .flint, .fout] s t ∧
        (getFlint t c).on = now ∧ (getFlint t c).uv = uv ∧ (getFlint t c).contrib = (now && mayContribute s c s.pw.elapsed) ∧
        (getFlint t c).stuck = (getFlint s c).stuck ∧ (∀ k, k ≠ c.val → getFlint t k = getFlint s k) ∧
        ((was = true ∨ now = false) → (getFlint t c).last = (getFlint s c).last ∧ (getFlint t c).hits = (getFlint s c).hits ∧ t.orb = s.orb) ∧
        (was = false → now = true → ∀ l, (getFlint s c).last = some l → x < l + 4000 →
          (getFlint t c).last = some l ∧ (getFlint t c).hits = (getFlint s c).hits ∧ t.orb = s.orb ∧
          ∀ o : Fin 7, (getFout s o).high = false → getFout t o = getFout s o) ∧
        (was = false → now = true → (∀ l, (getFlint s c).last = some l → l + 4000 ≤ x) →
          (getFlint t c).last = some x ∧
          (getFlint t c).hits = (if s.pw.coreRun then ((getFlint s c).hits + 1) % 65536 else (getFlint s c).hits) ∧
          (s.pw.coreRun = true → mayContribute s c s.pw.elapsed = true → s.orb.tags ≠ [] →
            (tagHead t).flint = (tagHead s).flint ||| (1 <<< (c.val / 16))) ∧
          (mayContribute s c s.pw.elapsed = true → ∀ o : Nat, o = c.val / 64 ∨ o = 6 →
            (mayRise s o x → getFout t o = risen s o x) ∧
            ((getFout s o).high = false → ¬ mayRise s o x → getFout t o = getFout s o))) ∧
        (∀ o : Nat, (getFout s o).high = true →
          (contribution s o = true ∨ ∃ t0, (getFout s o).t0 = some t0 ∧ x < t0 + 2000) → getFout t o = getFout s o) ∧
        (∀ o : Nat, o ≠ c.val / 64 → o ≠ 6 → getFout t o = getFout s o)) ∧
    (∀ (c : Fin 384) (uv rest : Int) (ps tot : Nat), 0 < tot →
      ∃ u t, exec (.flintLeadingEdge c uv ps 0 0) s = .next u ∧ exec (.flintLeadingEdge c rest (ps + tot) 0 0) u = .next t ∧
        exec (.flintLeadingEdge c uv ps tot rest) s = .next t) ∧
    (∀ (o : Fin 7) (ps : Nat), (getFout s o).high = true →
      (∀ t0, (getFout s o).t0 = some t0 → t0 + 2000 ≤ flintAt s ps) → contribution s o = false →
      exec (.flintOutputFall o ps) s = .next (modFout o (fun f => { f with high := false }) s))

/-- STUCK_MASK completes for an unmasked channel sampled above more than STUCK_LIMIT times in a row: it is masked, contributes no
more, and tally 8 of its page counts. STUCK_RELEASE completes for a masked channel sampled not above 16 times in a row: it is not
masked, and contributes again exactly where it is above with OR_EN at 1. A rise that an enabled seam output takes sets its latch
where HOLDOFF is not 0, and fixes slot n + HOLDOFF + 1 for it, n being the present slot; from that slot on HOLDOFF_LATCH_CLEAR
completes: the output's latch is clear and nothing else changes. (R119, R122, R123, R349) -/
def Obligations.StuckMaskingAndHoldoffLatch : Prop :=
  ∀ s : State, s.pw.por = false → s.pw.coreRun = true → Shaped s → Canonical s →
    (∀ c : Fin 384, (getFlint s c).stuck = false → fld (flCtl s c s.pw.elapsed) 16 8 < (getFlint s c).cnt →
      ∃ t, exec (.stuckMask c) s = .next t ∧ getFlint t c = { getFlint s c with stuck := true, contrib := false } ∧
        (∀ k, k ≠ c.val → getFlint t k = getFlint s k) ∧ tallyOf t (chPage c) 8 = min 0xFF (tallyOf s (chPage c) 8 + 1) ∧
        t.fab.regs = s.fab.regs ∧ Only [.fab, .orb, .flint] s t) ∧
    (∀ c : Fin 384, (getFlint s c).stuck = true → 16 ≤ (getFlint s c).clr → ∀ now,
      now = comparator (flCtl s c s.pw.elapsed) (flThr s c s.pw.elapsed) (getFlint s c).on (getFlint s c).uv →
      ∃ t, exec (.stuckRelease c) s = .next t ∧ (getFlint t c).stuck = false ∧ (getFlint t c).on = now ∧
        (getFlint t c).contrib = (now && (flCtl s c s.pw.elapsed).testBit 9) ∧
        (((getFlint s c).on = true ∨ now = false) → (getFlint t c).hits = (getFlint s c).hits ∧ (getFlint t c).last = (getFlint s c).last) ∧
        (∀ k, k ≠ c.val → getFlint t k = getFlint s k) ∧ Only [.orb, .flint, .fout] s t) ∧
    (∀ (i : Fin 6) (x : Nat), outEn s i s.pw.elapsed = true → (getFout s i).high = false → (getFout s i).latch = false →
      (∀ t0, (getFout s i).t0 = some t0 → t0 + 4000 ≤ x) → ∀ h, h = fld (flSeam s i s.pw.elapsed) 0 8 →
      outRise i x s = modFout i (fun f => { f with
        high := true, t0 := some x, latch := decide (h ≠ 0), slot := if h ≠ 0 then s.pw.elapsed + h + 1 else f.slot }) s) ∧
    (∀ i : Fin 6, (getFout s i).latch = true → (getFout s i).slot ≤ s.pw.elapsed →
      exec (.holdoffLatchClear i) s = .next (modFout i (fun f => { f with latch := false }) s))

/-- ACCEPT completes when the oldest due frame of the active trunk has only its ACCEPT bit left. In IDLE nothing enters the FIFO and
IDLE_ACCEPT counts. In LOCKED or SEEK, with no entry to merge with and fewer than 64 entries, one entry enters the FIFO at its end:
it names the effect slot less LAT, carries the EXT cause and the sequence number, which advances, as does the accept count. With 64
entries no entry enters, the sequence advances and the FIFO keeps its entries that the refused manifest does not touch. (R22, R131, R134, R135) -/
def Obligations.AcceptsEnterTheFifo : Prop :=
  ∀ (s : State) (t : Trunk) (d : Due), s.pw.por = false → s.pw.coreRun = true → Canonical s → dueHead s = some (t, d) →
    d.code = none → d.orbit = false → d.accept = true →
    ∃ u, exec .accept s = .next u ∧ u.fab.regs = s.fab.regs ∧ Only [.fab, .acq, .ser, .frm, .dlA, .dlB] s u ∧
      (s.orb.st = .idle → u.acq = s.acq ∧ u.frm = s.frm ∧ u.ser = s.ser ∧ tallyOf u 0x03 3 = min 0xFF (tallyOf s 0x03 3 + 1)) ∧
      (s.orb.st ≠ .idle → sameNamed s (d.slot - latOf (regsIn s d.slot)) = none → s.acq.fifo.length < 64 →
        ∃ e, u.acq.fifo = s.acq.fifo ++ [e] ∧ e.named = d.slot - latOf (regsIn s d.slot) ∧ e.seq = s.acq.seq ∧ e.ext = true ∧
          e.self = false ∧ e.pin = false ∧ e.host = false ∧ e.created = s.pw.elapsed ∧
          u.acq.seq = (s.acq.seq + 1) % 2 ^ 24 ∧ u.acq.total = (s.acq.total + 1) % 2 ^ 64 ∧ u.ser = s.ser) ∧
      (s.orb.st ≠ .idle → sameNamed s (d.slot - latOf (regsIn s d.slot)) = none → 64 ≤ s.acq.fifo.length →
        u.acq.fifo = s.acq.fifo ∧ u.acq.seq = (s.acq.seq + 1) % 2 ^ 24 ∧ u.acq.total = (s.acq.total + 1) % 2 ^ 64)

/-- No external accept of the present slot is still to be taken. -/
def NoAccept (s : State) : Prop := ∀ t d, dueHead s = some (t, d) → d.accept = false

/-- A local trigger that names slot `named` is ready, is not held off, joins no entry and no local trigger of its slot, and has credit
(R136, R147, R148, R226); no external accept of the present slot is still to be taken before it. -/
def FreshLocal (s : State) (named : Nat) : Prop :=
  s.orb.st ≠ .idle ∧ s.acq.arm = .armed ∧ readyFrom s ≤ named ∧ (∀ t, s.acq.hoTo = some t → t < named) ∧ s.acq.hoN = 0 ∧
    localOf s named = none ∧ extEntry s = none ∧ NoAccept s ∧
    sameNamed s named = none ∧ creditOk s = true

/-- One entry with the given causes has entered the FIFO, and the accept sequence has advanced (R135). -/
def EntryMade (s t : State) (named : Nat) (self pin host : Bool) : Prop :=
  Only [.fab, .acq] s t ∧ t.fab.regs = s.fab.regs ∧
    (∃ e, t.acq.fifo = s.acq.fifo ++ [e] ∧ e.named = named ∧ e.seq = s.acq.seq ∧ e.ext = false ∧ e.self = self ∧ e.pin = pin ∧
      e.host = host ∧ e.created = s.pw.elapsed) ∧
    t.acq.seq = (s.acq.seq + 1) % 2 ^ 24 ∧ t.acq.total = (s.acq.total + 1) % 2 ^ 64 ∧
    t.acq.taken = (s.acq.taken + 1) % 65536

/-- SELF_TRIGGER, TRIG_IN_EDGE (mode 1) and SOFT_TRIG complete. When the counter runs, no accept of the present slot is still to be
taken, the hub is armed since PRE before the named slot, no holdoff holds it off, no entry of the slot, accept of the present slot
or other local trigger of it that names the same slot takes it in, and the credits allow an accept, one entry enters the FIFO at its
end: it names the slot (eight back for SELF, the pin's delay back for TRIG_IN, the present one for the soft trigger), carries that
cause alone and the sequence number, which advances, and TAKEN advances modulo 65,536 (the model's choice, log entry 53). A TRIG_IN
edge that is seen only after the present slot waits for the next slot (R443), and nothing else changes. When DISARMED, none of the
three changes anything but the master's record of its write. (R135, R136, R144, R145, R146, R147, R148, R443) -/
def Obligations.LocalTriggersMakeAnEntry : Prop :=
  ∀ s : State, s.pw.por = false → s.pw.coreRun = true →
    ((tagOf s (s.pw.elapsed - 8)).idle = false → (tagOf s (s.pw.elapsed - 8)).self = true →
      (∃ i < 6, selfFires s i (s.pw.elapsed - 8) = true) → FreshLocal s (s.pw.elapsed - 8) →
      ∃ t, exec .selfTrigger s = .next t ∧ EntryMade s t (s.pw.elapsed - 8) true false false) ∧
    (∀ ps late, pinsOk s = true → regF s 0x31 0x04C 0 2 = 1 → FreshLocal s (s.pw.elapsed - regF s 0x31 0x04C 4 4) →
      seenCycle ps late < s.pw.slotLen →
      ∃ t, exec (.trigInEdge ps late) s = .next t ∧ EntryMade s t (s.pw.elapsed - regF s 0x31 0x04C 4 4) false true false) ∧
    (∀ ps late, pinsOk s = true → NoAccept s → s.pw.slotLen ≤ seenCycle ps late →
      exec (.trigInEdge ps late) s = .next { s with acq := { s.acq with pinNext := s.acq.pinNext + 1 } }) ∧
    (∀ m, Serves s m 0x31 → FreshLocal s s.pw.elapsed →
      ∃ t, exec (.softTrig m) s = .next t ∧ EntryMade s t s.pw.elapsed false false true) ∧
    (s.acq.arm = .disarmed → s.orb.st ≠ .idle → (∀ x, localOf s x = none) → NoAccept s →
      exec .selfTrigger s = .next s ∧
      (∀ ps late, regF s 0x31 0x04C 0 2 = 1 → seenCycle ps late < s.pw.slotLen → exec (.trigInEdge ps late) s = .next s) ∧
      (∀ m, Serves s m 0x31 → ∃ t, exec (.softTrig m) s = .next t ∧ Only [.fab] s t ∧ t.fab.regs = s.fab.regs))

/-- ARM, carried by the oldest due frame of the active trunk, and ARM_CMD's ARM, written while page 0x31 serves the write, each
complete: from DISARMED, in a slot without a disarm event, the hub is PRIMING from the present slot with no triggers taken and no
holdoff; otherwise the arming state stays. DISARM completes and leaves the hub DISARMED; what an arm event from DISARMED has changed
in the same slot it takes back (so R147's one outcome for a slot with both is read, log entry 15). PRIMING_END completes once PRE of
the window has passed: the hub is ARMED and nothing else changes. HOLDOFF_END completes 16 slots after the held slots end and
TRIG_OUT_FALL when the width has passed; each changes nothing else. (R145, R147, R148, R264, R265) -/
def Obligations.ArmingStates : Prop :=
  ∀ s : State, s.pw.por = false → s.pw.coreRun = true →
    (∀ (t : Trunk) (d : Due), dueHead s = some (t, d) → d.code = some 3 →
      ∃ u, exec .arm s = .next u ∧ Only [.acq, .dlA, .dlB] s u ∧ u.acq.fifo = s.acq.fifo ∧ u.acq.seq = s.acq.seq ∧
        (s.acq.disIn = some s.pw.elapsed → u.acq = s.acq) ∧
        (s.acq.disIn ≠ some s.pw.elapsed → s.acq.arm = .disarmed → u.acq.arm = .priming ∧ u.acq.armAt = s.pw.elapsed ∧
          u.acq.armSlot = s.orb.slot ∧ u.acq.armOrb = s.orb.orbit ∧ u.acq.taken = 0 ∧ u.acq.hoTo = none ∧ u.acq.hoN = 0) ∧
        (s.acq.arm ≠ .disarmed → u.acq.arm = s.acq.arm ∧ u.acq.taken = s.acq.taken)) ∧
    (∀ m, Serves s m 0x31 →
      (∃ u, exec (.armCmdArm m) s = .next u ∧ Only [.fab, .acq] s u ∧ u.fab.regs = s.fab.regs ∧ u.acq.fifo = s.acq.fifo ∧
        (s.acq.disIn = some s.pw.elapsed → u.acq = s.acq) ∧
        (s.acq.disIn ≠ some s.pw.elapsed → s.acq.arm = .disarmed → u.acq.arm = .priming ∧ u.acq.armAt = s.pw.elapsed ∧
          u.acq.taken = 0 ∧ u.acq.hoTo = none ∧ u.acq.hoN = 0) ∧
        (s.acq.arm ≠ .disarmed → u.acq.arm = s.acq.arm ∧ u.acq.taken = s.acq.taken)) ∧
      (∃ u, exec (.disarm m) s = .next u ∧ Only [.fab, .acq] s u ∧ u.fab.regs = s.fab.regs ∧
        ((s.acq.armUndo = none ∨ s.acq.armAt ≠ s.pw.elapsed) →
          u.acq = { s.acq with arm := .disarmed, disIn := some s.pw.elapsed, reArms := 0, armUndo := none }) ∧
        (∀ x, s.acq.armUndo = some x → s.acq.armAt = s.pw.elapsed →
          u.acq = { s.acq with arm := .disarmed, disIn := some s.pw.elapsed, reArms := 0, armUndo := none, armAt := x.armAt
                               armSlot := x.armSlot, armOrb := x.armOrb, taken := x.taken, hoTo := x.hoTo, hoN := x.hoN }))) ∧
    (s.acq.arm = .priming → s.acq.armAt + (preOf s.fab.regs + 1) / 2 ≤ s.pw.elapsed →
      exec .primingEnd s = .next { s with acq := { s.acq with arm := .armed } }) ∧
    (∀ n, s.acq.hoTo = some n → n + 16 ≤ s.pw.elapsed →
      exec .holdoffEnd s = .next { s with acq := { s.acq with hoTo := none } }) ∧
    (s.acq.trigOut = true → s.acq.trigEnd ≤ s.pw.elapsed →
      exec .trigOutFall s = .next { s with acq := { s.acq with trigOut := false } })

/-- LIFT_START completes on a seam whose next entry's window is complete, with a free buffer, whether or not an earlier lift still
runs: where the window is neither rewritten nor older than the rings, a lift of the seam holds what R140 copies of the ring and the
feature store as they then stand, for as many core cycles as the window has samples, and the ring and the feature store keep what
they hold; a rewritten window reports MISSED and one from before the rings ran reports NOT_PRIMED, with no lift of its own. LIFT_END
completes W core cycles after the start of the oldest lift: that lift is over, and the window joins the seam's buffers before the
engine looks for work. (R139, R140, R141, R142, R143) -/
def Obligations.LiftsCopyTheWindow : Prop :=
  ∀ (s : State) (i : Fin 6), s.pw.por = false → s.pw.coreRun = true → Shaped s →
    (∀ e, nextLift s i = some e → e.created < s.pw.elapsed → bufUsed (getSeam s i) < 2 →
      winComplete s e i = true →
      ∃ t, exec (.liftStart i) s = .next t ∧ Only [.pw, .fab, .seams, .acq] s t ∧ t.fab.regs = s.fab.regs ∧
        t.pw = { s.pw with freeCtr := t.pw.freeCtr } ∧
        (∀ k, k ≠ i.val → getSeam t k = getSeam s k) ∧
        (rewritten s i (winStart e i) = false → (getSeam s i).startN ≤ winStart e i →
          getSeam t i = { getSeam s i with
            lifts := (getSeam s i).lifts ++ [{ seq := e.seq, start := s.pw.cc, len := winLen e i, win := liftWindow s e i }] }) ∧
        (rewritten s i (winStart e i) = true → getSeam t i = getSeam s i ∧
          t.acq.fifo = (modRep e.seq i (fun r => { r with started := true, done := true, status := 0x43 }) s).acq.fifo) ∧
        (rewritten s i (winStart e i) = false → winStart e i < (getSeam s i).startN → getSeam t i = getSeam s i ∧
          t.acq.fifo = (modRep e.seq i (fun r => { r with started := true, done := true, status := 0x41 }) s).acq.fifo)) ∧
    (∀ l rest, (getSeam s i).lifts = l :: rest → l.start + l.len ≤ s.pw.cc →
      ∃ t v, exec (.liftEnd i) s = .next t ∧ t = engineStart i v ∧ Only [.seams] s v ∧
        (∀ k, k ≠ i.val → getSeam v k = getSeam s k) ∧
        getSeam v i = { getSeam s i with lifts := rest, bufs := (getSeam s i).bufs ++ [l.win] })

/-- Only the listed parts differ, and of the framer at most the live cause UNFIT, which follows the cells that the queues hold (R231). -/
def OnlyAndUnfit (M : List Part) (s t : State) : Prop := Only (.frm :: M) s t ∧ t.frm = { s.frm with unfit := t.frm.unfit }

/-- A queue but for its live causes WM_HIGH and AT_QUOTA, which follow every change of Serai (R184, R200). -/
def bareQ (s : State) (q : Nat) : Queue := { getQ s q with wmHigh := false, atQuota := false }

/-- Only queue `q` has changed, but for live causes. -/
def OtherQueues (s t : State) (q : Nat) : Prop := ∀ k, k ≠ q → bareQ t k = bareQ s k

/-- Bytes of the bale in progress of a queue. -/
def progBytes (s : State) (q : Nat) : List Byte := (getQ s q).cur.elim [] (·.bytes)

/-- For a queue above Q11 that holds no write, SERAI_DATA_WORD completes: an admitted word joins the bale in progress with its four
bytes, or starts one, and a word that is not admitted is held and the bale stays. SERAI_END_WORD completes: admitted, the bale
closes with the valid bytes of the word, joins the readable bales with the sequence and type its header gives, and none is in
progress; otherwise the END word is held. SERAI_HDR_WORD completes: the four bytes of that header word are replaced once 16 bytes
are in, and nothing else of the bale changes. SERAI_CANCEL completes: no bale is in progress and no write is held, and the readable
bales stay; the fixed writer of whole bales on Q12–Q15 presents its bale again from its first word, which is the model's reading
(log entry 58); with no bale in progress it has no effect. Q26, whose words are the heritage formatter's, is stated beside the
engines' queues. No other queue changes but for its two live causes. (R183, R184, R187, R188, R189, R190) -/
def Obligations.WordsReachTheBale : Prop :=
  ∀ (s : State) (q : Fin 32), s.pw.por = false → s.pw.coreRun = true → Shaped s → 11 < q.val → q.val ≠ 26 →
    ((getQ s q).held = none →
      (∀ w, ∃ t, exec (.seraiDataWord q w) s = .next t ∧ OnlyAndUnfit [.fab, .ser] s t ∧ t.fab.regs = s.fab.regs ∧ OtherQueues s t q ∧
        (getQ t q).ready = (getQ s q).ready ∧
        (wordOk s q = true → progBytes t q = progBytes s q ++ leBytes 4 w.toNat ∧ (getQ t q).cur.isSome = true ∧ (getQ t q).held = none) ∧
        (wordOk s q = false → (getQ t q).cur = (getQ s q).cur ∧ (getQ t q).held = some ⟨w, none⟩)) ∧
      (∀ w v, ∃ t, exec (.seraiEndWord q w v) s = .next t ∧ OnlyAndUnfit [.fab, .ser] s t ∧ t.fab.regs = s.fab.regs ∧ OtherQueues s t q ∧
        (wordOk s q = true → (getQ s q).discard = false → ∃ b,
          (getQ t q).ready = (getQ s q).ready ++ [b] ∧ (getQ t q).cur = none ∧ (getQ t q).held = none ∧
          b.bytes = progBytes s q ++ (leBytes 4 w.toNat).take (if v = 0 then 4 else v) ∧ b.seq = baleSeq b.bytes ∧ b.typ = baleTyp b.bytes ∧
          (getQ t q).total = ((getQ s q).total + 1) % 2 ^ 32) ∧
        (wordOk s q = false → (getQ t q).cur = (getQ s q).cur ∧ (getQ t q).ready = (getQ s q).ready ∧
          (getQ t q).held = some ⟨w, some v⟩))) ∧
    (∀ i w b, (getQ s q).cur = some b → 16 ≤ b.bytes.length →
      ∃ t, exec (.seraiHdrWord q i w) s = .next t ∧ Only [.ser] s t ∧ OtherQueues s t q ∧
        getQ t q = { getQ s q with cur := some { b with
          bytes := b.bytes.take (4 * i) ++ leBytes 4 w.toNat ++ b.bytes.drop (4 * i + 4) } }) ∧
    ((getQ s q).cur.isSome = true →
      ∃ t, exec (.seraiCancel q) s = .next t ∧ OnlyAndUnfit [.fab, .ser] s t ∧ t.fab.regs = s.fab.regs ∧ OtherQueues s t q ∧
        (getQ t q).held = none ∧ (getQ t q).cur = none ∧ (getQ t q).ready = (getQ s q).ready ∧
        (getQ t q).retained = (getQ s q).retained ∧
        (∀ b rest c, q.val ≤ 15 → (getQ s q).waiting = b :: rest → b.ord ≠ 0 → (getQ s q).cur = some c →
          (getQ t q).waiting = { b with bytes := c.bytes ++ b.bytes, ord := 0 } :: rest)) ∧
    ((getQ s q).cur = none → exec (.seraiCancel q) s = .next s)

/-- The bytes `c` of a bale in progress once the final header words of the bale `l` have replaced its first ones (R188). -/
def finalBytes (l c : List Byte) : List Byte := if 16 ≤ c.length then l.take 16 ++ c.drop 16 else c

/-- What the words of Q26 do while the heritage formatter has a bale in progress (R187–R190, R409, R414). -/
def FormatterWrites (s : State) : Prop :=
  ((getQ s 26).held = none →
    (∀ w, s.her.sent < dataBytes s.her.bale.length →
      ∃ t, exec (.seraiDataWord 26 w) s = .next t ∧ OnlyAndUnfit [.fab, .acq, .ser, .her] s t ∧ OtherQueues s t 26 ∧ t.fab.regs = s.fab.regs ∧
        t.her = { s.her with sent := s.her.sent + 4, formed := t.her.formed, cnt := t.her.cnt, bale := t.her.bale } ∧
        (s.her.formed = true ∨ s.her.sent + 8 ≠ s.her.bale.length →
          t.her.formed = s.her.formed ∧ t.her.cnt = s.her.cnt ∧ t.her.bale = s.her.bale) ∧
        (s.her.formed = false → s.her.sent + 8 = s.her.bale.length →
          t.her.formed = true ∧ t.her.cnt = (s.her.cnt + 1) % 2 ^ 30 ∧ t.her.bale = herSealed t.her.cnt s.her.bale) ∧
        (wordOk s 26 = true → progBytes t 26 = progBytes s 26 ++ leBytes 4 (wordAt t.her.bale s.her.sent) ∧ (getQ t 26).held = none) ∧
        (wordOk s 26 = false → (getQ t 26).cur = (getQ s 26).cur ∧ ((getQ t 26).held).isSome = true)) ∧
    (∀ w v, dataBytes s.her.bale.length ≤ s.her.sent → wordOk s 26 = true → (getQ s 26).discard = false →
      ∃ t b, exec (.seraiEndWord 26 w v) s = .next t ∧ OnlyAndUnfit [.fab, .seams, .acq, .ser, .her] s t ∧ OtherQueues s t 26 ∧
        t.fab.regs = s.fab.regs ∧ (getQ t 26).cur = none ∧ (getQ t 26).ready = (getQ s 26).ready ++ [b] ∧
        b.bytes = finalBytes s.her.bale (progBytes s 26) ++
          (leBytes 4 (wordAt s.her.bale s.her.sent)).take (endBytes ((s.her.bale.length - s.her.sent) % 4)) ∧
        t.her = { s.her with fmt := false, bale := [], sent := 0, formed := false })) ∧
  (∀ h w b, (getQ s 26).cur = some b → 16 ≤ b.bytes.length →
    ∃ t, exec (.seraiHdrWord 26 h w) s = .next t ∧ Only [.ser] s t ∧ OtherQueues s t 26 ∧
      progBytes t 26 = b.bytes.take (4 * h) ++ leBytes 4 (wordAt s.her.bale (4 * h)) ++ b.bytes.drop (4 * h + 4)) ∧
  ((getQ s 26).cur.isSome = true → ∃ t, exec (.seraiCancel 26) s = .next t ∧ OnlyAndUnfit [.fab, .acq, .ser, .her] s t ∧ OtherQueues s t 26 ∧
    (getQ t 26).cur = none ∧ (getQ t 26).held = none ∧ t.her = { s.her with sent := 0 })

/-- While an engine has a bale in progress on its queue and the queue holds no write, SERAI_DATA_WORD completes, and whatever word
the command carries (the words of these queues are their writers' own: the model's reading, log entry 32) the job's next word is
presented and the bale in progress grows by it where it is admitted. BALE_CLOSE, and SERAI_END_WORD on the queue, complete once all
DATA words are in and the END word is admitted: the final header words are in place, the bale is readable, with the rest of its
bytes, and none is in progress. SERAI_HDR_WORD completes with the engine's own header word. SERAI_CANCEL completes: the queue has no
bale in progress and the engine starts the bale anew; with none in progress nothing changes. VERIFY_ERROR completes with each of the
codes of R174: the bale in progress is cancelled, and the job is coded in stored blocks and marked as a fallback. On Q26 the same
holds of the heritage formatter while it has a bale: DATA presents its next word, and with the bale's end word the accept counter
advances once; END closes the bale with its final header and the formatter is free; CANCEL makes it start the bale anew (log entry
58); without a bale of its own the formatter writes nothing. (R156, R170, R172, R173, R174, R187, R188, R189, R190, R409, R414) -/
def Obligations.EnginesWriteTheirOwnWords : Prop :=
  (∀ s : State, s.pw.por = false → s.pw.coreRun = true → Shaped s →
    (s.her.fmt = true → FormatterWrites s) ∧
    (s.her.fmt = false → ∀ w v h, exec (.seraiDataWord 26 w) s = .next s ∧ exec (.seraiEndWord 26 w v) s = .next s ∧
      exec (.seraiHdrWord 26 h w) s = .next s) ∧
    ((getQ s 26).cur = none → exec (.seraiCancel 26) s = .next s)) ∧
  ∀ (s : State) (i : Fin 6) (k : BaleKind) (q : Fin 32) (e : Entry) (j : Job) (l : List Byte), s.pw.por = false → s.pw.coreRun = true →
    Shaped s → q.val = jobQ i k → engineBale s i k = some (e, j, l) →
    ((getQ s q).held = none →
      (∀ w, j.sent < dataBytes l.length →
        ∃ t, exec (.seraiDataWord q w) s = .next t ∧ OnlyAndUnfit [.fab, .seams, .acq, .ser] s t ∧ OtherQueues s t q ∧
          t.fab.regs = s.fab.regs ∧ ((jobsOf (getSeam t i) k).head?).map (·.sent) = some (j.sent + 4) ∧
          (wordOk s q = true → progBytes t q = progBytes s q ++ leBytes 4 (wordAt l j.sent) ∧ (getQ t q).held = none) ∧
          (wordOk s q = false → (getQ t q).cur = (getQ s q).cur ∧ ((getQ t q).held).isSome = true)) ∧
      (dataBytes l.length ≤ j.sent → wordOk s q = true → (getQ s q).discard = false → ∃ t,
        exec (.baleClose i k) s = .next t ∧ (∀ w v, exec (.seraiEndWord q w v) s = .next t) ∧
        OnlyAndUnfit [.fab, .seams, .acq, .ser] s t ∧ OtherQueues s t q ∧ t.fab.regs = s.fab.regs ∧ (getQ t q).cur = none ∧
        ∃ b, (getQ t q).ready = (getQ s q).ready ++ [b] ∧
          b.bytes = finalBytes l (progBytes s q) ++ (leBytes 4 (wordAt l j.sent)).take (endBytes ((l.length - j.sent) % 4)))) ∧
    (∀ h w b, (getQ s q).cur = some b → 16 ≤ b.bytes.length →
      ∃ t, exec (.seraiHdrWord q h w) s = .next t ∧ Only [.ser] s t ∧ OtherQueues s t q ∧
        progBytes t q = b.bytes.take (4 * h) ++ leBytes 4 (wordAt l (4 * h)) ++ b.bytes.drop (4 * h + 4)) ∧
    ((getQ s q).cur.isSome = true → ∃ t, exec (.seraiCancel q) s = .next t ∧ OnlyAndUnfit [.fab, .seams, .acq, .ser] s t ∧ OtherQueues s t q ∧
      (getQ t q).cur = none ∧ (getQ t q).held = none ∧ ((jobsOf (getSeam t i) k).head?).map (·.sent) = some 0) ∧
    ((getQ s q).cur = none → exec (.seraiCancel q) s = .next s) ∧
    (k = .raw → ∀ code, (j.fallback = true ∨ code.toNat < 0x20 ∨ 0x25 < code.toNat) → exec (.verifyError i code) s = .next s) ∧
    (k = .raw → j.fallback = false → ∀ code, 0x20 ≤ code.toNat → code.toNat ≤ 0x25 →
      ∃ t, exec (.verifyError i code) s = .next t ∧ OnlyAndUnfit [.fab, .seams, .acq, .ser] s t ∧ OtherQueues s t q ∧ (getQ t q).cur = none ∧
        (getSeam t i).lastErr = code.toNat ∧ (getSeam t i).raw.head? =
          some { j with sent := 0, taken := 0, coded := deflateStored j.image, fallback := true, flushes := [] })

/-- CMP_FLUSH completes while its page serves the write: where the raw bale in progress is not a fallback and has image bytes left,
the block in progress ends at a count of taken bytes between what the presented words need and what the accumulator may hold, from
the one given on, under which the words already presented stand, or else at the least (log entry 55); without a bale in progress no
job changes. TP_START completes while the page serves it: with no job running the job runs from a cleared result; a start while one
runs leaves it. TP_IN_WRITE completes while no job runs: the word enters the input buffer at TP_PTR, which advances by 4.
TP_JOB_DONE completes while the engine is idle: the result is that of decoding the TP_LEN input bytes. TP_OUT_READ completes: the
master reads the output word at TP_OUT_PTR, which advances by 4. Other seams stay. (R165, R168, R176, R177, R178) -/
def Obligations.FlushesAndTheTestPort : Prop :=
  ∀ (s : State) (i : Fin 6), s.pw.por = false → Shaped s → Canonical s →
    (∀ m, Serves s m (0x34 + i.val) →
      (∀ taken, ∃ t, exec (.cmpFlush m i taken) s = .next t ∧ Only [.fab, .seams] s t ∧ t.fab.regs = s.fab.regs ∧
        (∀ k, k ≠ i.val → getSeam t k = getSeam s k) ∧
        (engineBale s i .raw = none → getSeam t i = getSeam s i) ∧
        (∀ e j l n, engineBale s i .raw = some (e, j, l) → n = takenAt e i j taken →
          takenLow e i j ≤ n ∧ n ≤ takenHigh e i j ∧ (n = takenLow e i j ∨ flushFits e i j n = true) ∧
          ((j.fallback = true ∨ j.image.length ≤ n) → getSeam t i = getSeam s i) ∧
          (j.fallback = false → n < j.image.length →
            (getSeam t i).raw = flushJob e i j n :: (getSeam s i).raw.tail ∧ (getSeam t i).flushing = flushAtEnd e i j n))) ∧
      (∀ cmpEn, ∃ t, exec (.tpStart m i cmpEn) s = .next t ∧ Only [.fab, .seams] s t ∧ regF t (0x34 + i) 0x080 1 1 = b2n cmpEn ∧
        (∀ k, k ≠ i.val → getSeam t k = getSeam s k) ∧
        getSeam t i = (if (getSeam s i).tp.running then getSeam s i else
          { getSeam s i with tp := { (getSeam s i).tp with running := true, done := false, aborted := false, err := 0, ptr := 0 } })) ∧
      (∀ w, (getSeam s i).tp.running = false → ∃ t, exec (.tpInWrite m i w) s = .next t ∧ Only [.fab, .seams] s t ∧
        t.fab.regs = s.fab.regs ∧ (∀ k, k ≠ i.val → getSeam t k = getSeam s k) ∧
        getSeam t i = { getSeam s i with tp := { (getSeam s i).tp with
          inp := ramPutBytes 0 (getSeam s i).tp.inp (getSeam s i).tp.ptr (leBytes 4 w.toNat), ptr := ((getSeam s i).tp.ptr + 4) % 8192, stepI := some s.pw.cc } }) ∧
      (∃ t, exec (.tpOutRead m i) s = .next t ∧ Only [.fab, .seams] s t ∧ t.fab.regs = s.fab.regs ∧
        (getMaster t m).rdata = BitVec.ofNat 32 (wordAt (getSeam s i).tp.out (getSeam s i).tp.outPtr) ∧
        (∀ k, k ≠ i.val → getSeam t k = getSeam s k) ∧
        getSeam t i = { getSeam s i with tp := { (getSeam s i).tp with outPtr := ((getSeam s i).tp.outPtr + 4) % 4096, stepO := some s.pw.cc } })) ∧
    (s.pw.coreRun = true → (getSeam s i).tp.running = true → (getSeam s i).started = false → ∀ r,
      r = inflateJob (ramBytes 0 (getSeam s i).tp.inp 0 (regF s (0x34 + i) 0x084 0 14))
        (if regF s (0x34 + i) 0x080 1 1 = 1 then some (regF s (0x34 + i) 0x088 0 16, regAt s (0x34 + i) 0x08C) else none) →
      exec (.tpJobDone i) s = .next (modSeam i (fun x => { x with tp := { x.tp with
        running := false, done := true, err := r.err, outLen := r.out.length, outCrc := crc32 r.out, errPos := r.pos,
        out := r.out.take 4096 } }) s))

/-- HELD_WRITE_COMPLETE completes on a host queue (Q13–Q25, Q27–Q31) whose held DATA word is admitted: its four bytes join the bale
in progress and no write is held. RETENTION_END completes: of the retained bales those stay whose span has not passed or which a
replay still has to send. QUEUE_DISABLED completes on a draining queue with nothing left: it is disabled, or runs again in IDLE when
its enable was deferred. REPLAY_END completes with no bale left to replay: no replay runs and its manifest, with its bales and
bytes, has been handed to the manifest writer. (R185, R190, R196, R198, R199, R223, R351) -/
def Obligations.QueuesReleaseAndRetain : Prop :=
  ∀ s : State, s.pw.por = false → s.pw.coreRun = true → Shaped s →
    (∀ (q : Fin 32) (w : Word), 12 < q.val → q.val ≠ 26 → (getQ s q).held = some ⟨w, none⟩ → wordOk s q = true →
      ∃ t, exec (.heldWriteComplete q) s = .next t ∧ OnlyAndUnfit [.fab, .ser] s t ∧ t.fab.regs = s.fab.regs ∧ (getQ t q).held = none ∧
        (getQ t q).ready = (getQ s q).ready ∧
        progBytes t q = progBytes s q ++ leBytes 4 w.toNat ∧ OtherQueues s t q) ∧
    (∀ q : Fin 32, ∃ t, exec (.retentionEnd q) s = .next t ∧ OnlyAndUnfit [.fab, .ser] s t ∧ t.fab.regs = s.fab.regs ∧ OtherQueues s t q ∧
      bareQ t q = { bareQ s q with retained := (getQ s q).retained.filter (fun r =>
        decide (s.pw.elapsed < r.till) || (s.ser.replaying && s.ser.rlist.contains r.bale.id)) }) ∧
    (∀ q : Fin 32, (getQ s q).draining = true → (getQ s q).ready = [] → (getQ s q).cur = none →
      ∃ t, exec (.queueDisabled q) s = .next t ∧ Only [.ser] s t ∧ (∀ k, k ≠ q.val → getQ t k = getQ s k) ∧
        (((getQ s q).deferred = true ∧ s.orb.st = .idle) →
          getQ t q = { getQ s q with draining := false, deferred := false, active := true }) ∧
        (¬ ((getQ s q).deferred = true ∧ s.orb.st = .idle) → getQ t q = { getQ s q with draining := false, active := false })) ∧
    (s.ser.replaying = true → s.ser.rlist = [] →
      ∃ t v, exec .replayEnd s = .next t ∧ OnlyAndUnfit [.fab, .acq, .ser] s t ∧ t.fab.regs = s.fab.regs ∧ t.ser.replaying = false ∧
        t = manifestNext v ∧ v.acq = { s.acq with replay := s.acq.replay ++ [(s.ser.rBales, s.ser.rBytes)] })

/-- While page 0x40 serves the write, QH_SEL of a legal queue completes: its writer owns the port and the queue is selected; a queue
below 16 or 26 is refused and changes nothing of Serai. For the owner, with a write queue selected that holds no write, QH_WR,
QH_WR_LAST and QH_WR_HDR complete: an admitted word joins the bale in progress, QH_WR_LAST closes it with QH_CTL's valid bytes,
QH_WR_HDR replaces a header word. QH_CANCEL keeps the given valid-byte count and leaves no bale in progress. QH_RD completes on a
read queue with a closed bale: it reads the next up to four bytes, as a stored error leaves them, and takes them. Another master's
word is discarded and changes no queue. (R187, R188, R189, R201, R202, R203, R204) -/
def Obligations.HostPortMovesWords : Prop :=
  ∀ (s : State) (m : Master), s.pw.por = false → Shaped s → Canonical s → Serves s m 0x40 →
    (∀ q : Fin 32, ∃ t, exec (.qhSel m q) s = .next t ∧ OnlyAndUnfit [.fab, .ser] s t ∧
      (16 ≤ q.val → q.val ≠ 26 → t.ser.owner = some m ∧ hostQ t = q.val) ∧
      ((q.val < 16 ∨ q.val = 26) → t.ser = s.ser ∧ t.fab.regs = s.fab.regs ∧ (getMaster t m).cause = 0x02)) ∧
    (s.ser.owner = some m → hostWrites (hostQ s) = true → (getQ s (hostQ s)).held = none →
      (∀ w, wordOk s (hostQ s) = true →
        (∃ t, exec (.qhWr m w) s = .next t ∧ OnlyAndUnfit [.fab, .ser] s t ∧ t.fab.regs = s.fab.regs ∧ OtherQueues s t (hostQ s) ∧
          progBytes t (hostQ s) = progBytes s (hostQ s) ++ leBytes 4 w.toNat ∧ (getQ t (hostQ s)).ready = (getQ s (hostQ s)).ready) ∧
        ((getQ s (hostQ s)).discard = false → ∃ t b, exec (.qhWrLast m w) s = .next t ∧ OnlyAndUnfit [.fab, .ser] s t ∧
          t.fab.regs = s.fab.regs ∧ OtherQueues s t (hostQ s) ∧ (getQ t (hostQ s)).cur = none ∧
          (getQ t (hostQ s)).ready = (getQ s (hostQ s)).ready ++ [b] ∧
          b.bytes = progBytes s (hostQ s) ++ (leBytes 4 w.toNat).take (endBytes (regF s 0x40 0x084 0 2)))) ∧
      (∀ (i : Fin 4) w b, (getQ s (hostQ s)).cur = some b → 16 ≤ b.bytes.length →
        ∃ t, exec (.qhWrHdr m i w) s = .next t ∧ OnlyAndUnfit [.fab, .ser] s t ∧ t.fab.regs = s.fab.regs ∧ OtherQueues s t (hostQ s) ∧
          progBytes t (hostQ s) = b.bytes.take (4 * i) ++ leBytes 4 w.toNat ++ b.bytes.drop (4 * i + 4)) ∧
      (∀ wb : Fin 4, (getQ s (hostQ s)).cur.isSome = true →
        ∃ t, exec (.qhCancel m wb) s = .next t ∧ OnlyAndUnfit [.fab, .ser] s t ∧ OtherQueues s t (hostQ s) ∧ (getQ t (hostQ s)).cur = none ∧
          (getQ t (hostQ s)).ready = (getQ s (hostQ s)).ready ∧ regF t 0x40 0x084 0 2 = wb.val)) ∧
    (∀ b rest, s.ser.owner = some m → hostReads s (hostQ s) = true → (getQ s (hostQ s)).abort = false →
      (getQ s (hostQ s)).ready = b :: rest → (getQ s (hostQ s)).sent < b.bytes.length →
      ∃ t, exec (.qhRd m) s = .next t ∧ OnlyAndUnfit [.fab, .ser] s t ∧ t.fab.regs = s.fab.regs ∧ OtherQueues s t (hostQ s) ∧
        (getMaster t m).rdata = BitVec.ofNat 32 (wordAt (eccBytes s b.id 0 b.bytes) (getQ s (hostQ s)).sent) ∧
        (if b.bytes.length ≤ (getQ s (hostQ s)).sent + 4 then (getQ t (hostQ s)).ready = rest ∧ t.ser.rdLast = true
         else (getQ t (hostQ s)).ready = b :: rest ∧ (getQ t (hostQ s)).sent = (getQ s (hostQ s)).sent + 4)) ∧
    (s.ser.owner ≠ some m → ∀ w, ∃ t, exec (.qhWr m w) s = .next t ∧ Only [.fab] s t ∧ t.fab.regs = s.fab.regs)

/-- LAUNCH_RELEASE completes on an uplink launch queue (Q16–Q19) whose head waits and is not late, in the first core cycle of a slot
whose entry allows launches, at or after the head's launch slot, and on an egress launch queue (Q22, Q23) once the instant at the
pins of a timestamp point of this core cycle is at or after the head's launch instant: the head is marked released and nothing else
changes; before that nothing changes at all. On a late head that waits LAUNCH_LATE and LAUNCH_RELEASE complete alike: under the
policy to send, it is released as late and LATE_SENT counts; under the policy to drop, LATE_DROP counts, a closed head leaves the
queue, and the rest of one still being written is discarded as it comes. On a head that is not late LAUNCH_LATE changes nothing.
That a head is judged in the core cycle of the command is the model's reading (log entry 37). (R195, R306, R307, R308, R311) -/
def Obligations.LaunchedHeadsLeaveInTheirTime : Prop :=
  ∀ (s : State) (q : Fin 32), s.pw.por = false → s.pw.coreRun = true → Shaped s → headWaits s q = true → isTimed q = true →
    ∀ l, headBytes s q = l →
    (lateHead s q 0 = false → q.val < 20 → s.pw.cyc = 0 → launchSlot s = true → 0 ≤ sinceLaunch s (upLaunch l).1 (upLaunch l).2 →
      exec (.launchRelease q) s = .next (modQ q (fun x => { x with released := true }) s)) ∧
    (lateHead s q 0 = false → q.val < 20 → (s.pw.cyc ≠ 0 ∨ launchSlot s = false ∨ sinceLaunch s (upLaunch l).1 (upLaunch l).2 < 0) →
      exec (.launchRelease q) s = .next s) ∧
    (lateHead s q 0 = false → 20 ≤ q.val → 16 ≤ l.length → ((mgLaunch l * 2 ^ 32 : Nat) : Int) ≤ pinAt s (launchBase s q) 0 →
      exec (.launchRelease q) s = .next (modQ q (fun x => { x with released := true }) s)) ∧
    (lateHead s q 0 = false → 20 ≤ q.val → (l.length < 16 ∨ pinAt s (launchBase s q) 0 < ((mgLaunch l * 2 ^ 32 : Nat) : Int)) →
      exec (.launchRelease q) s = .next s) ∧
    (lateHead s q 0 = false → exec (.launchLate q) s = .next s) ∧
    (lateHead s q 0 = true →
      ∃ t, exec (.launchLate q) s = .next t ∧ exec (.launchRelease q) s = .next t ∧ OnlyAndUnfit [.fab, .ser, .tb] s t ∧
        t.fab.regs = s.fab.regs ∧ OtherQueues s t q ∧
        ((if q.val < 20 then regF s 0x54 0x074 8 1 else regF s 0x54 0x074 9 1) ≠ 1 →
          getQ t q = { getQ s q with released := true, late := true } ∧ t.tb = s.tb ∧
          (Canonical s → tallyOf t 0x54 4 = min 0xFF (tallyOf s 0x54 4 + 1))) ∧
        ((if q.val < 20 then regF s 0x54 0x074 8 1 else regF s 0x54 0x074 9 1) = 1 →
          (Canonical s → tallyOf t 0x54 5 = min 0xFF (tallyOf s 0x54 5 + 1))) ∧
        ((if q.val < 20 then regF s 0x54 0x074 8 1 else regF s 0x54 0x074 9 1) = 1 → ∀ b rest, (getQ s q).ready = b :: rest →
          (getQ t q).ready = rest ∧ (getQ t q).sent = 0 ∧ (getQ t q).cur = (getQ s q).cur) ∧
        ((if q.val < 20 then regF s 0x54 0x074 8 1 else regF s 0x54 0x074 9 1) = 1 → (getQ s q).ready = [] →
          (getQ t q).cur = (getQ s q).cur ∧ (getQ t q).discard = (getQ s q).cur.isSome))

/-- CARAVAN_FRAME_SEND completes at a frame start of the trunk that holds ACTIVE: the frame sent is the header with the trunk's
frame number's credit value, the granted bytes padded to 88, and its CRC; its words are dealt out to the data lanes in turn, each
lane's share going in groups of 24 bytes; the frame number advances by one and the next frame starts after the slots its lanes need.
TOWER_FRAME_SEND completes and sends both lanes' frames of slot n − 8, leaving the rest. Without a trunk that frames can leave on,
neither changes anything. CREDIT_ADVANCE completes: the credit count advances by one when R226's conditions allow a further accept
and stays otherwise. (R211, R212, R213, R214, R216, R217, R226) -/
def Obligations.FramesLeaveOnTheActiveTrunk : Prop :=
  ∀ s : State, s.pw.por = false → s.pw.coreRun = true →
    (∀ t, canSend s = some t → s.frm.busyTo ≤ s.pw.elapsed →
      ∃ u, exec .caravanFrameSend s = .next u ∧ Only [.fab, .ser, .frm] s u ∧ u.fab.regs = s.fab.regs ∧
        u.frm.caravan = caravanBytes (takeGrant s).1 (fOf s t % 4) (cvalOf s (fOf s t % 4)) ∧ u.frm.lanes = dataLanes s ∧
        u.frm.shares = laneShares (dataLanes s) u.frm.caravan ∧ u.frm.laneGrp = shareGroups u.frm.shares 0 ∧
        u.frm.busyTo = s.pw.elapsed + 4 / dataLanes s ∧ fOf u t = (fOf s t + 1) % 2 ^ 32 ∧ fOf u (peer t) = fOf s (peer t) ∧
        u.frm.x = s.frm.x ∧ u.frm.adv = s.frm.adv ∧ u.ser = (takeGrant s).2.ser ∧ (takeGrant s).1.l.length ≤ 88) ∧
    (∀ t, canSend s = some t →
      exec .towerFrameSend s = .next { s with frm := { s.frm with tower0 := towerBytes s t 0, tower1 := towerBytes s t 1 } }) ∧
    (canSend s = none → exec .caravanFrameSend s = .next s ∧ exec .towerFrameSend s = .next s) ∧
    (creditOk s = true → exec .creditAdvance s = .next { s with frm := { s.frm with adv := s.frm.adv + 1 } }) ∧
    (creditOk s = false → exec .creditAdvance s = .next s)

/-- Queue `q` takes a bale of `n` cells whole now: no write of it is held, no bale is in progress, it runs, and Serai accepts each of
the bale's cells (R184, R190). -/
def TakesWhole (s : State) (q n : Nat) : Prop :=
  (getQ s q).held = none ∧ (getQ s q).cur = none ∧ (getQ s q).waiting = [] ∧ (getQ s q).discard = false ∧ startOk (getQ s q) = true ∧
    ∀ k, k < n → uOf s q + k < quotaOf s q ∧ cellFree s q (uOf s q + k) (freeCells s - k) = true

/-- MANIFEST_WRITE completes while the writer is free, and takes in this order the oldest refused trigger's manifest, the oldest
replay manifest, and the manifest of the FIFO's head entry once every seam and its heritage output have reported. When Q12 admits
the manifest whole, it is the bale that becomes readable in Q12; a refused or replay manifest leaves its store and every entry in
the FIFO, and the head entry's manifest, which never carries REFUSED_FULL (R220), frees that entry. Where none waits nothing
changes. (R134, R220, R221, R222, R223) -/
def Obligations.ManifestsLeaveInOrder : Prop :=
  ∀ s : State, s.pw.por = false → s.pw.coreRun = true → Shaped s → writerFree s = true →
    (∀ r rest, s.acq.refused = r :: rest → TakesWhole s 12 1 →
      ∃ t b, exec .manifestWrite s = .next t ∧ OnlyAndUnfit [.fab, .acq, .ser] s t ∧ t.fab.regs = s.fab.regs ∧ t.acq.refused = rest ∧
        t.acq.fifo = s.acq.fifo ∧ t.acq.replay = s.acq.replay ∧ OtherQueues s t 12 ∧ (getQ t 12).ready = (getQ s 12).ready ++ [b] ∧
        b.bytes = refusedManifest s.her.on r) ∧
    (∀ n c rest, s.acq.refused = [] → s.acq.replay = (n, c) :: rest → TakesWhole s 12 1 →
      ∃ t b, exec .manifestWrite s = .next t ∧ OnlyAndUnfit [.fab, .acq, .ser] s t ∧ t.fab.regs = s.fab.regs ∧ t.acq.replay = rest ∧
        t.acq.fifo = s.acq.fifo ∧ OtherQueues s t 12 ∧ (getQ t 12).ready = (getQ s 12).ready ++ [b] ∧
        b.bytes = replayManifest s n c) ∧
    (∀ e rest, s.acq.refused = [] → s.acq.replay = [] → s.acq.fifo = e :: rest → entryDone e = true →
      accOf (entryManifest e s.her.on) ≠ 0x42 → TakesWhole s 12 1 →
      ∃ t b, exec .manifestWrite s = .next t ∧ OnlyAndUnfit [.fab, .acq, .ser] s t ∧ t.fab.regs = s.fab.regs ∧
        t.acq.fifo = s.acq.fifo.filter (fun x => x.seq != e.seq % 2 ^ 24) ∧ OtherQueues s t 12 ∧ (getQ t 12).ready = (getQ s 12).ready ++ [b] ∧
        b.bytes = entryManifest e s.her.on) ∧
    (s.acq.refused = [] → s.acq.replay = [] → s.acq.fifo = [] → exec .manifestWrite s = .next s)

/-- The lanes of trunk `t` are the same in both states, but for the training sets and capability blocks they send. -/
def SameLane (s u : State) (t : Trunk) : Prop :=
  { getLn u t with sets := [], caps := [] } = { getLn s t with sets := [], caps := [] }

/-- DOWNLINK_FRAME completes on a locked downlink for a frame that trains nothing, with CK_CORE running. A frame that decodes lands
in the present slot, or the one after the last landing slot; where the errors of the frames so far leave the lock, it counts under
DL_FRAMES, and its fast byte, when not zero, is shown and falls due in the third slot after the landing slot with the code, ORBIT
and ACCEPT of its bits; a zero byte makes nothing due. A frame with which the lock falls is taken as not decoded (the model's
reading, log entry 60). A frame that does not decode counts under CRC_ERR and makes nothing due. The other downlink, its lanes but
for what they send, the registers and everything outside the links, the counters and the probe stay; on a downlink without lock the
command changes at most the training sets and capability blocks that the lanes send. (R240, R244, R260, R261, R262, R263, R264) -/
def Obligations.DownlinkFramesAreTakenApart : Prop :=
  ∀ (s : State) (t : Trunk) (f : DlFrame), s.pw.por = false → s.pw.coreRun = true → isK283 (symAt f 1) = false →
    ((getLn s t).dlLock = false → ∃ u, exec (.downlinkFrame t f) s = .next u ∧ Only [.lnA, .lnB] s u ∧ SameLane s u t ∧
      SameLane s u (peer t)) ∧
    ((getLn s t).dlLock = true → ∀ kept, kept = (getLn (frameErrs t f (endRuns t s)) t).dlLock →
      ∃ u, exec (.downlinkFrame t f) s = .next u ∧ Only [.fab, .frm, .lnA, .lnB, .dlA, .dlB] s u ∧ u.fab.regs = s.fab.regs ∧
        getDl u (peer t) = getDl s (peer t) ∧ SameLane s u (peer t) ∧ (getDl u t).landed = some (landSlot s t) ∧
        (getLn u t).dlLock = kept ∧
        (decodes f = true → kept = false → (getDl u t).frames = (getDl s t).frames ∧ (getDl u t).due = (getDl s t).due ∧
          (getDl u t).crcErr = (getDl s t).crcErr) ∧
        (decodes f = true → kept = true → (getDl u t).frames = ((getDl s t).frames + 1) % 2 ^ 32 ∧ (getDl u t).crcErr = (getDl s t).crcErr ∧
          (frameByte f 1 = 0 → (getDl u t).due = (getDl s t).due ∧ (getDl u t).fc = (getDl s t).fc) ∧
          (frameByte f 1 ≠ 0 → (getDl u t).fc = frameByte f 1 ∧ (getDl u t).due = (getDl s t).due ++
            [{ slot := landSlot s t + 3, code := if frameByte f 1 / 4 = 0 then none else some (frameByte f 1 / 4),
               orbit := (frameByte f 1).testBit 1, accept := (frameByte f 1).testBit 0 }])) ∧
        (decodes f = false → (getDl u t).frames = (getDl s t).frames ∧ (getDl u t).due = (getDl s t).due ∧
          (getDl u t).crcErr = ((getDl s t).crcErr + 1) % 65536))

/-- The cutoff of the present orbit is past: its slot has begun (R33). -/
def cutoffPassed (s : State) : Bool := s.orb.pastCut || decide (orbLen s ≤ s.orb.slot + 16)

/-- A TEST_PULSE outside the oasis fires nothing: the pulser is not enabled, the slot holds a firing, the width or the current of the
test site is zero, its row or column is barred, or the row is not clear (R396). -/
def testSkipped (s : State) : Bool :=
  !plsActive s || firingSlot s || decide (regF s 0x64 0x048 8 7 = 0) || decide (regF s 0x64 0x048 16 8 = 0)
    || rowBarred s (regAt s 0x64 0x048 % 128 / 16) || colBarred s (regAt s 0x64 0x048 % 128 % 16)
    || !firingClear s (regAt s 0x64 0x048 % 128 / 16) (slotStartCc s)

/-- NOP completes in every state and changes nothing. With CK_CORE running and a due frame of the active trunk at the front: with
code 2 UPDATE completes: in IDLE the groups of UPD_DL_MASK join the marked ones and are to be applied in the ninth core cycle from
then on; before the cutoff they join the marked ones; from the cutoff on they wait for a later boundary and count LATE_STROBE; a
mask of zero marks nothing and counts nothing at any time, which is the model's choice (log entry 41); nothing is applied. With code
5 TEST_PULSE completes: in an oasis slot of the live map it counts as unknown and fires nothing; where R396 or a bar stops it, the
skip is counted; else the row of the site in PLS_TEST is fired and counted. With a code of 6 or more CMD_UNKNOWN completes and is
counted. In each the command has been consumed. On a due frame with another code the three complete and change nothing. (R33, R264, R265, R338, R340, R396) -/
def Obligations.FastCommandsAct : Prop :=
  (∀ s : State, exec .nop s = .next s) ∧
  ∀ s : State, s.pw.por = false → s.pw.coreRun = true → Canonical s → ∀ (t : Trunk) (d : Due), dueHead s = some (t, d) →
    (d.code = some 2 → ∀ g, g = BitVec.ofNat 16 (regAt s 0x01 0x044) →
      ∃ u, exec .update s = .next u ∧ Only [.fab, .orb, .conv, .dlA, .dlB] s u ∧ u.fab.regs = s.fab.regs ∧
        getDl u t = { getDl s t with due := putDue d { d with code := none } (getDl s t).due } ∧ getDl u (peer t) = getDl s (peer t) ∧
        (g = 0 → u.fab = s.fab ∧ u.orb = s.orb) ∧
        (g ≠ 0 → s.orb.st = .idle → u.orb = s.orb ∧ u.fab.marked = s.fab.marked ||| g ∧
          u.fab.idleAt = s.fab.idleAt ++ [(s.pw.cc + 9, g)] ∧ u.fab.next = s.fab.next) ∧
        (g ≠ 0 → s.orb.st ≠ .idle → cutoffPassed s = false →
          u.orb = s.orb ∧ u.fab.marked = s.fab.marked ||| g ∧ u.fab.next = s.fab.next) ∧
        (g ≠ 0 → s.orb.st ≠ .idle → cutoffPassed s = true → u.fab.next = s.fab.next ||| g ∧ u.fab.marked = s.fab.marked ∧
          tallyOf u 0x03 6 = min 0xFF (tallyOf s 0x03 6 + 1))) ∧
    (d.code = some 5 →
      ∃ u, exec .testPulse s = .next u ∧ Only [.fab, .pls, .dlA, .dlB] s u ∧ u.fab.regs = s.fab.regs ∧
        getDl u t = { getDl s t with due := putDue d { d with code := none } (getDl s t).due } ∧ getDl u (peer t) = getDl s (peer t) ∧
        (pulseBarred s = true → u.pls = s.pls ∧ tallyOf u (dlPage t) 1 = min 0xFF (tallyOf s (dlPage t) 1 + 1)) ∧
        (pulseBarred s = false → testSkipped s = true → u.pls = { s.pls with skips := min 0xFFFF (s.pls.skips + 1) } ∧
          tallyOf u 0x64 1 = min 0xFF (tallyOf s 0x64 1 + 1)) ∧
        (pulseBarred s = false → testSkipped s = false →
          u.pls.row = some (regAt s 0x64 0x048 % 128 / 16) ∧ u.pls.last = regAt s 0x64 0x048 % 128 / 16 ∧
          u.pls.firings = min 0xFFFF (s.pls.firings + 1) ∧ u.pls.skips = s.pls.skips)) ∧
    (∀ c, d.code = some c → 6 ≤ c →
      ∃ u, exec .cmdUnknown s = .next u ∧ Only [.fab, .dlA, .dlB] s u ∧ u.fab.regs = s.fab.regs ∧
        getDl u t = { getDl s t with due := putDue d { d with code := none } (getDl s t).due } ∧ getDl u (peer t) = getDl s (peer t) ∧
        tallyOf u (dlPage t) 1 = min 0xFF (tallyOf s (dlPage t) 1 + 1)) ∧
    ((∀ c, d.code = some c → c ≠ 2 ∧ c ≠ 5 ∧ c < 6) →
      exec .update s = .next s ∧ exec .testPulse s = .next s ∧ exec .cmdUnknown s = .next s)

/-- PROBE_ECHO completes with a probe waiting since 16 slots: the probe is gone and the record holds its corrected receive place and
the turnaround in phase steps, valid only if it was echoed in its slot on the trunk that can still send, unspoilt and outside a
hold; it reads from the core cycle after the one in which the echo's K character leaves, and until then the record shown before
stays. TIME_TRANSFER_MESSAGE completes with a complete message on a trunk that holds ACTIVE: with a right CRC the transferred value
and the base chosen, as captured in the message's first slot, are recorded and the count advances by one; with a wrong CRC, or on a
trunk that does not hold ACTIVE, the message is dropped and the time bases stay. (R80, R81, R304, R305) -/
def Obligations.ProbesAndTimeMessages : Prop :=
  ∀ s : State, s.pw.por = false → s.pw.coreRun = true →
    (∀ (p : Probe) (frac : Nat), s.frm.probe = some p → p.slot + 16 ≤ s.pw.elapsed → ∀ w,
      w = probeRecord p (placeOf s p.t2c)
        (8192 * ((tagHead s).cc0 : Int) + frac + sgn (regAt s 0x02 0x04C >>> 16) 16 - p.t2c)
        (decide (p.slot + 16 = s.pw.elapsed) && decide (canSend s = some p.trunk) && !p.bad && !s.pll.hold) →
      ∃ u, exec (.probeEcho frac) s = .next u ∧ Only [.frm] s u ∧ u.frm = { s.frm with
        probe := none, recLo := w.1, recHi := w.2, recAt := (tagHead s).cc0 + frac / 8192 + 1,
        wasLo := (probeShown s).1, wasHi := (probeShown s).2,
        echoAt := if p.slot + 16 = s.pw.elapsed ∧ canSend s = some p.trunk then some s.pw.elapsed else s.frm.echoAt }) ∧
    (∀ t : Trunk, (getDl s t).ttOn = true → (getDl s (peer t)).ttOn = false → (getDl s t).tt.length = 20 → ∀ v,
      v = ttBits (getDl s t).tt →
      ∃ u, exec .timeTransferMessage s = .next u ∧ Only [.fab, .dlA, .dlB, .tb] s u ∧ u.fab.regs = s.fab.regs ∧
        getDl u t = { getDl s t with ttOn := false, tt := [] } ∧ getDl u (peer t) = getDl s (peer t) ∧
        (holds s t = true → crc8 (leBytes 11 (fld v 0 88)) = fld v 88 8 → u.tb = { s.tb with
          ttV := fld v 0 64, ttVf := fld v 64 16, ttBase := fld v 80 1,
          ttC := nsOf (if v.testBit 80 then (getDl s t).ttC3 else (getDl s t).ttC1),
          ttCf := fld (if v.testBit 80 then (getDl s t).ttC3 else (getDl s t).ttC1) 16 16,
          ttCount := (s.tb.ttCount + 1) % 256, ttSlot := (getDl s t).ttSlot }) ∧
        ((holds s t = false ∨ crc8 (leBytes 11 (fld v 0 88)) ≠ fld v 88 8) → u.tb = s.tb))

/-- CONTROL_PACKET completes with a complete packet that has no response yet, once the packets due of the downlink that comes first
are served (that packets already due in the hub come before those of the other downlink is the model's choice, log entry 64; R15
orders the accesses of one core cycle): a packet refused whole (ended early, an undefined operation, an unaligned or overlong
address range) gets a response with its status and no data and makes no access; any other makes its accesses through its trunk's
master and gets their words and first refusal. The packet stays held with its response. CONTROL_RESPONSE completes while Q13 admits
the response of the oldest packet: it leaves as a type-5 bale in Q13 and the notice sequence advances by one. A DL_CTL write served
by its page sets CTL_EN, and CTL_EN 0 leaves no packet in assembly. (R15, R158, R269, R270, R271, R272, R273) -/
def Obligations.ControlChannelAnswersInOrder : Prop :=
  ∀ (s : State) (t : Trunk), s.pw.por = false → Shaped s → Canonical s →
    (∀ v k, v = (if t = firstDl s then s else packetsDue (firstDl s) s) → (getDl v t).held.find? (fun k => k.resp.isNone) = some k →
      (v.pw.coreRun = true → k.short = true ∨ k.ready ≤ v.pw.elapsed) →
      (∀ c, packetRefusal k = some c → ∃ u, exec (.controlPacket t) s = .next u ∧ Only [.dlA, .dlB] v u ∧
        getDl u (peer t) = getDl v (peer t) ∧
        getDl u t = { getDl v t with held := putResp (responsePayload t k.hdr.toNat c 0 []) (getDl v t).held }) ∧
      (packetRefusal k = none → hdrOp k.hdr.toNat ≠ 1 → ∀ r,
        r = seqRead (dlMaster t) (hdrNm1 k.hdr.toNat + 1) 0 (hdrAddr k.hdr.toNat) {} v →
        ∃ u, exec (.controlPacket t) s = .next u ∧ Only [.dlA, .dlB] r.2 u ∧ (getDl u t).held =
          putResp (responsePayload t k.hdr.toNat r.1.cause r.1.idx r.1.words) (getDl r.2 t).held) ∧
      (packetRefusal k = none → hdrOp k.hdr.toNat = 1 → ∀ r,
        r = seqWrite (dlMaster t) 0 (hdrAddr k.hdr.toNat) k.data {} v →
        ∃ u, exec (.controlPacket t) s = .next u ∧ Only [.dlA, .dlB] r.2 u ∧ (getDl u t).held =
          putResp (responsePayload t k.hdr.toNat r.1.cause r.1.idx []) (getDl r.2 t).held)) ∧
    (∀ k rest l, s.pw.coreRun = true → (getDl s t).held = k :: rest → k.resp = some l → l.length ≤ 76 → TakesWhole s 13 1 →
      ∃ u b, exec (.controlResponse t) s = .next u ∧ OnlyAndUnfit [.fab, .acq, .ser, .dlA, .dlB] s u ∧ u.fab.regs = s.fab.regs ∧
        (getDl u t).held = rest ∧ getDl u (peer t) = getDl s (peer t) ∧ OtherQueues s u 13 ∧
        (getQ u 13).ready = (getQ s 13).ready ++ [b] ∧ b.bytes = typeFive s l ∧ u.acq.nNtc = (s.acq.nNtc + 1) % 2 ^ 24) ∧
    (∀ m v, Serves s m (dlPage t) →
      ∃ u, exec (.dlCtlWrite m t v) s = .next u ∧ Only [.fab, .dlA, .dlB] s u ∧ regAt u (dlPage t) 0x040 = v.toNat % 2 ∧
        getDl u (peer t) = getDl s (peer t) ∧ (v.toNat % 2 = 1 → getDl u t = getDl s t) ∧
        (v.toNat % 2 = 0 → (getDl u t).asm = none ∧ (getDl u t).drop = 0))

/-- RECEIVER_DETECT_PULSE completes in DETECT 100 µs after the last pulse with the crystal running: the terminated lanes are kept,
and with clock, signal and lanes 0, 4 and 5 the trunk is in TRAIN, else it stays. TRAINING_FRAME completes on a downlink whose lock
holds: 64 good frames lead from TRAIN to LOCK, 16 that report LOCKED on to DESKEW while CK_CORE runs, 16 that report DESKEWED to
EXCHANGE, and 16 equal acknowledged frames with a valid capability to SERVICE; a frame that is not good ends the runs and the state
stays. TRAIN_TIMEOUT completes once the state's time is over and leaves DETECT. RETRAIN completes while its page serves the write: a
powered trunk that does not hold the token goes to DETECT, one without supply keeps RETRAIN and its state until it can (the model's
reading, log entry 33), and the holder refuses it. Of the other trunk's lanes only what they send may change. (R243, R244, R245, R247, R249) -/
def Obligations.TrainingMovesForward : Prop :=
  ∀ (s : State) (t : Trunk), s.pw.por = false →
    (∀ term : BitVec 6, (getLn s t).st = 1 → s.pw.xtal = true → (getLn s t).lastPulse + 2000 ≤ s.pw.sup →
      ∃ u, exec (.receiverDetectPulse t term) s = .next u ∧ Only [.lnA, .lnB] s u ∧ SameLane s u (peer t) ∧
        (getLn u t).detected = term ∧ (getLn u t).lastPulse = s.pw.sup ∧
        (getLn u t).st = (if (getLn s t).fwdOk && (getLn s t).dlSignal && term.getLsbD 0 && term.getLsbD 4 && term.getLsbD 5
          then 2 else 1)) ∧
    (∀ f : DlFrame, (getLn s t).dlLock = true → 2 ≤ (getLn s t).st → (getLn s t).st ≤ 5 →
      ∃ u, exec (.trainingFrame t f) s = .next u ∧ Only [.fab, .frm, .lnA, .lnB, .dlA, .dlB, .sup] s u ∧ u.fab.regs = s.fab.regs ∧
        SameLane s u (peer t) ∧
        (goodTraining f = false → (getLn u t).st = (getLn s t).st ∧ (getLn u t).good = 0 ∧ (getLn u t).runL = 0 ∧
          (getLn u t).runD = 0 ∧ (getLn u t).runA = 0) ∧
        (goodTraining f = true → (getLn (frameErrs t f s) t).dlLock = true → ∀ r, r = runStep (frameBytes f 2 5) (getLn s t) →
          ((getLn s t).st = 2 → (getLn u t).st = if 64 ≤ r.good then 3 else 2) ∧
          ((getLn s t).st = 3 → (getLn u t).st = if 16 ≤ r.runL ∧ s.pw.coreRun = true then 4 else 3) ∧
          ((getLn s t).st = 4 → (getLn u t).st = if 16 ≤ r.runD then 5 else 4) ∧
          ((getLn s t).st = 5 → (getLn u t).st = if 16 ≤ r.runA ∧ capValid (frameBytes f 2 5) = true then 6 else 5))) ∧
    ((2 ≤ (getLn s t).st ∧ (getLn s t).st ≤ 5) →
      (getLn s t).since + (if (getLn s t).st = 2 then supMs 2 else supMs 20) ≤ s.pw.sup →
      ∃ u, exec (.trainTimeout t) s = .next u ∧ Only [.fab, .lnA, .lnB, .sup] s u ∧ (getLn u t).st = 1 ∧ (getLn u t).service = 0 ∧
        SameLane s u (peer t)) ∧
    (∀ m, Serves s m (lnPage t) →
      (holder s = some t ∨ holds s t = true → ∃ u, exec (.retrain m t) s = .next u ∧ Only [.fab, .lnA, .lnB] s u ∧
        u.fab.regs = s.fab.regs ∧ SameLane s u t ∧ SameLane s u (peer t) ∧ (getMaster u m).cause = 0x09) ∧
      (holder s ≠ some t → holds s t = false → vddlOk s t = false →
        ∃ u, exec (.retrain m t) s = .next u ∧ Only [.fab, .lnA, .lnB] s u ∧ (getLn u t).retrain = true ∧
          (getLn u t).st = (getLn s t).st ∧ SameLane s u (peer t)) ∧
      (holder s ≠ some t → holds s t = false → vddlOk s t = true →
        ∃ u, exec (.retrain m t) s = .next u ∧ Only [.fab, .lnA, .lnB, .sup] s u ∧ (getLn u t).st = 1 ∧
          (getLn u t).retrain = false ∧ SameLane s u (peer t)))

/-- A trunk in DETECT that only waits for FWD_OK: crystal, signal, and lanes 0, 4 and 5 terminated at the last pulse (R243). -/
def trainable (s : State) (t : Trunk) : Bool :=
  decide ((getLn s t).st = 1) && s.pw.xtal && (getLn s t).dlSignal && (getLn s t).pulsed.getLsbD 0 && (getLn s t).pulsed.getLsbD 4
    && (getLn s t).pulsed.getLsbD 5

/-- FWD_CLOCK_LOSS, FWD_CLOCK_RETURN (on a powered trunk) and FWD_COUNT_WINDOW complete: afterwards FWD_OK holds exactly while the
clock is present and the last count lies in 1,480 to 1,720; where it rises in DETECT after a pulse that found lanes 0, 4 and 5, with
a signal and the crystal, the trunk is in TRAIN. DL_SIGNAL_CHANGE completes: a powered trunk shows a signal at or above 75 mV and
none at or below 35 mV (in between the value is free, log entry 4), and the signal's loss clears DL_LOCK. DL_LOCK_ACQUIRE completes:
with a signal and outside the downlink check the lock is set. DL_LOCK_LOSS completes and leaves no lock where the signal or bit lock
is lost, or 4 frames in a row lacked K28.5 or 8 of 64 symbols were in error; where the frames say otherwise the lanes stay. A loss
of clock or signal during training returns the trunk to DETECT. PRBS_SYNC completes on a checker whose test function is in force:
SYNC is reported and the bit errors since then join the count, which saturates at 0xFFFF. PRBS_SYNC_LOSS completes on a checker in
SYNC: SYNC clears and the errors up to the loss join the count. The other trunk's lanes and the other checker stay as they are. (R238, R239, R240, R243, R255, R256, R449) -/
def Obligations.ClockSignalLockAndCheckers : Prop :=
  ∀ (s : State) (t : Trunk), s.pw.por = false →
    ((∃ u, exec (.fwdClockLoss t) s = .next u ∧ Only [.pw, .fab, .orb, .pll, .lnA, .lnB, .sup] s u ∧ (getLn u t).fwdPres = false ∧ (getLn u t).fwdOk = false ∧
        SameLane s u (peer t) ∧ (2 ≤ (getLn s t).st → (getLn s t).st ≤ 5 → (getLn s t).fwdOk = true → (getLn u t).st = 1)) ∧
      (vddlOk s t = true → ∃ u, exec (.fwdClockReturn t) s = .next u ∧ Only [.pw, .fab, .orb, .pll, .lnA, .lnB, .sup] s u ∧
        (getLn u t).fwdPres = true ∧
        (getLn u t).fwdOk = decide (1480 ≤ (getLn s t).fwdCnt ∧ (getLn s t).fwdCnt ≤ 1720) ∧ SameLane s u (peer t) ∧
        ((getLn s t).fwdOk = false → (getLn u t).st = if (getLn u t).fwdOk && trainable s t then 2 else (getLn s t).st)) ∧
      (∀ n, ∃ u, exec (.fwdCountWindow t n) s = .next u ∧ Only [.pw, .fab, .orb, .pll, .lnA, .lnB, .sup] s u ∧
        (getLn u t).fwdCnt = n.toNat ∧
        (getLn u t).fwdOk = ((getLn s t).fwdPres && decide (1480 ≤ n.toNat ∧ n.toNat ≤ 1720)) ∧
        SameLane s u (peer t) ∧
        ((getLn s t).fwdOk = false → (getLn u t).st = if (getLn u t).fwdOk && trainable s t then 2 else (getLn s t).st))) ∧
    (∀ mv : Nat, vddlOk s t = true → ∃ u on, exec (.dlSignalChange t mv) s = .next u ∧
      Only [.pw, .fab, .lnA, .lnB, .dlA, .dlB, .sup] s u ∧ (75 ≤ mv → on = true) ∧ (mv ≤ 35 → on = false) ∧
      ((75 ≤ mv ∨ mv ≤ 35) → u.pw = s.pw) ∧ (getLn u t).dlSignal = on ∧
      (getLn u t).dlLock = ((getLn s t).dlLock && on) ∧ SameLane s u (peer t) ∧
      (on = false → 2 ≤ (getLn s t).st → (getLn s t).st ≤ 5 → (getLn u t).st = 1)) ∧
    ((getLn s t).dlSignal = true → dlChk s t = false →
      ∃ u, exec (.dlLockAcquire t) s = .next u ∧ Only [.lnA, .lnB] s u ∧
        SameLane (modLn t (fun l => { l with dlLock := true, bitLock := true, badSym0 := 0, errBits := [] }) s) u t ∧
        SameLane s u (peer t)) ∧
    (∀ why, (why = .commas → badCommas (getLn s t) = true) → (why = .codeErrors → badSymbols (getLn s t) = true) →
      ∃ u, exec (.dlLockLoss t why) s = .next u ∧ Only [.fab, .lnA, .lnB, .dlA, .dlB, .sup] s u ∧ (getLn u t).dlLock = false ∧
        SameLane s u (peer t)) ∧
    (∀ why, (why = .commas ∧ badCommas (getLn s t) = false) ∨ (why = .codeErrors ∧ badSymbols (getLn s t) = false) →
      ∃ u, exec (.dlLockLoss t why) s = .next u ∧ Only [.lnA, .lnB] s u ∧ SameLane s u t ∧ SameLane s u (peer t)) ∧
    (∀ errs : Nat,
      (lbOn s t = true → exec (.prbsSync t true errs) s = .next (modLn t (fun l => { l with
        lb := { l.lb with sync := true, err := min 0xFFFF (l.lb.err + errs) } }) s)) ∧
      (dlChk s t = true → exec (.prbsSync t false errs) s = .next (modLn t (fun l => { l with
        prbs := { l.prbs with sync := true, err := min 0xFFFF (l.prbs.err + errs) }, bitLock := true }) s)) ∧
      ((getLn s t).lb.sync = true → ∃ u, exec (.prbsSyncLoss t true errs) s = .next u ∧ Only [.lnA, .lnB] s u ∧
        getLn u t = { getLn s t with lb := { (getLn s t).lb with sync := false, err := min 0xFFFF ((getLn s t).lb.err + errs) } } ∧
        getLn u (peer t) = getLn s (peer t)) ∧
      ((getLn s t).prbs.sync = true → ∃ u, exec (.prbsSyncLoss t false errs) s = .next u ∧ Only [.lnA, .lnB] s u ∧
        getLn u t = { getLn s t with prbs := { (getLn s t).prbs with sync := false, err := min 0xFFFF ((getLn s t).prbs.err + errs) } } ∧
        getLn u (peer t) = getLn s (peer t)))

/-- The PLL without the record of when HOLD or UNCOMP was 1. -/
def forgetLevels (p : Pll) : Pll := { p with lvlAt := 0, lvls := [] }

/-- State, slot and orbit number, slot maps and oasis of the orbit counter are the same; the marks of recent slots may differ. -/
def SameCounter (s u : State) : Prop :=
  u.orb.st = s.orb.st ∧ u.orb.slot = s.orb.slot ∧ u.orb.orbit = s.orb.orbit ∧ u.orb.live = s.orb.live ∧ u.orb.shadow = s.orb.shadow ∧
    u.orb.oasis = s.orb.oasis ∧ u.orb.pastCut = s.orb.pastCut

/-- PLL_PHASE_LOCK completes in a hold whose reference has FWD_OK, 64 slots after the hold or the change of reference began: the
hold ends and the PLL is locked; before that it changes nothing. PLL_HOLD_TIMEOUT completes 32,000 core cycles into a hold: with the
reference still good the PLL stays on it, else with the other trunk good and no move under way the reference is that trunk, else
CK_CORE stops. CORE_RESUME completes when a stopped CK_CORE finds a good forwarded clock with VDDA: CK_CORE runs, the PLL is locked
on that trunk outside a hold, UNCOMP is 1 (the model's reading, log entry 14) and the interrupted slot is over. UNCOMP_ACK completes
while page 0x28 serves the write: UNCOMP is 0 when HOLD is 0 and stays when HOLD is 1; the write is served after the cutoff where
that is due. (R86, R88, R283, R428) -/
def Obligations.HoldsOfTheCorePll : Prop :=
  ∀ s : State, s.pw.por = false →
    (s.pw.coreRun = true → s.pll.hold = true → fwdOk s s.pll.ref = true →
      (s.pll.lockFrom + 64 ≤ s.pw.elapsed → ∃ u, exec .pllPhaseLock s = .next u ∧ Only [.orb, .pll] s u ∧ SameCounter s u ∧
        forgetLevels u.pll = forgetLevels { s.pll with hold := false, lock := true, phaseLost := false }) ∧
      (s.pw.elapsed < s.pll.lockFrom + 64 → exec .pllPhaseLock s = .next s)) ∧
    (s.pw.coreRun = true → s.pll.hold = true → s.pll.holdAt + 32000 ≤ s.pw.cc →
      ∃ u, exec .pllHoldTimeout s = .next u ∧ Only [.pw, .fab, .orb, .pll, .acq, .ser, .frm] s u ∧ u.fab.regs = s.fab.regs ∧
        (fwdOk s s.pll.ref = true → u.pw = s.pw ∧ u.pll.ref = s.pll.ref) ∧
        (fwdOk s s.pll.ref = false → s.sup.moving = false → fwdOk s (peer s.pll.ref) = true →
          u.pw = s.pw ∧ u.pll.ref = peer s.pll.ref ∧ u.pll.hold = true) ∧
        (fwdOk s s.pll.ref = false → s.sup.moving = false → fwdOk s (peer s.pll.ref) = false →
          u.pw = { s.pw with coreRun := false, coreStopped := true } ∧ u.pll.lock = false)) ∧
    (s.pw.coreRun = false → s.pw.coreEver = true → s.pw.vdda = true → ∀ t, lockRef s = some t →
      ∃ u, exec .coreResume s = .next u ∧ u.pw.coreRun = true ∧ u.pw.elapsed = s.pw.elapsed + 1 ∧ u.pll.ref = t ∧
        u.pll.lock = true ∧ u.pll.hold = false ∧ u.pll.uncomp = true) ∧
    (∀ m, Serves s m 0x28 → ∃ u, exec (.uncompAck m) s = .next u ∧ Only [.fab, .orb, .conv, .pll] s u ∧ u.fab.regs = s.fab.regs ∧
      SameCounter (cutoffNow s) u ∧
      (s.pll.hold = false → forgetLevels u.pll = forgetLevels { s.pll with uncomp := false }) ∧ (s.pll.hold = true → u.pll = s.pll))

/-- The role kept for each trunk is the one R275 gives it. -/
def RolesFollow (s : State) : Prop := ∀ t, (getTs s t).role = roleOf s t

/-- EVIDENCE_CHANGE completes once one of the three observations has read 0 for DEBOUNCE consecutive cycles, or all have read 1 for
as long: the evidence is bad, or good. HEARTBEAT_TOGGLE completes on a powered trunk whose peer is not quiet, and HEARTBEAT_TIMEOUT
once the time without a toggle is over: the heartbeat is seen from the fourth toggle on, and no more after the timeout.
SUPERVISOR_DECISION completes: one CK_SUP cycle passes; a holder with good evidence, or one that is being checked, keeps the token;
a holder with bad evidence loses it to a qualifying other trunk, which is being checked, or to nobody. In each the roles are those
of R275 in the state reached. (R275, R276, R277, R279, R280) -/
def Obligations.EvidenceHeartbeatsAndDecisions : Prop :=
  ∀ s : State, s.pw.por = false →
    (∀ t : Trunk, (getTs s t).ev = true →
      (debounce s ≤ (getTs s t).badF ∨ debounce s ≤ (getTs s t).badD ∨ debounce s ≤ (getTs s t).badV) →
      ∃ u, exec (.evidenceChange t) s = .next u ∧ Only [.fab, .sup] s u ∧ u.fab.regs = s.fab.regs ∧ (getTs u t).ev = false ∧
        (getTs u (peer t)).ev = (getTs s (peer t)).ev ∧ token u = token s ∧ RolesFollow u) ∧
    (∀ t : Trunk, (getTs s t).ev = false → debounce s ≤ (getTs s t).goodRun →
      ∃ u, exec (.evidenceChange t) s = .next u ∧ Only [.fab, .sup] s u ∧ u.fab.regs = s.fab.regs ∧ (getTs u t).ev = true ∧
        (getTs u (peer t)).ev = (getTs s (peer t)).ev ∧ token u = token s ∧ RolesFollow u) ∧
    (∀ t : Trunk, vddlOk s t = true → s.pw.xtal = true → quiet s (peer t) = false →
      ∃ u, exec (.heartbeatToggle t) s = .next u ∧ Only [.fab, .sup] s u ∧ (getTs u t).toggles = (getTs s t).toggles + 1 ∧
        (getTs u t).seen = ((getTs s t).seen || decide (4 ≤ (getTs s t).toggles + 1)) ∧ (getTs u t).hbAt = s.pw.sup ∧
        token u = token s ∧ RolesFollow u) ∧
    (∀ t : Trunk, (getTs s t).hbAt + 20 * regF s 0x50 0x040 8 4 ≤ s.pw.sup →
      ∃ u, exec (.heartbeatTimeout t) s = .next u ∧ Only [.fab, .sup] s u ∧ (getTs u t).toggles = 0 ∧ (getTs u t).seen = false ∧
        token u = token s ∧ RolesFollow u) ∧
    (∃ u, exec .supervisorDecision s = .next u ∧ Only [.pw, .fab, .ser, .frm, .sup] s u ∧ u.fab.regs = s.fab.regs ∧ u.pw.sup = s.pw.sup + 1 ∧
      RolesFollow u ∧
      (∀ h, holder s = some h → (s.sup.checking = true ∨ evGood s h = true) → holder u = some h) ∧
      (∀ h, holder s = some h → s.sup.checking = false → evGood s h = false → (getTs u h).latched =
          ((getTs s h).latched || qualifies s (peer h)) ∧
        (qualifies s (peer h) = true → holder u = some (peer h) ∧ u.sup.checking = true ∧ u.sup.prev = some h) ∧
        (qualifies s (peer h) = false → token u = 0)) ∧
      (token s = 0 → qualifies s (preferred s) = true → holder u = some (preferred s) ∧ u.sup.checking = true) ∧
      (token s = 0 → qualifies s .a = false → qualifies s .b = false → token u = 0))

/-- The bitwise majority of the three copies of a control state machine's word is its code, whatever upsets stand (how the model
holds them is log entry 66). SCRUB_PASS completes: every register in force reads as before the pass, the pass count advances by one,
a token whose copies vote for no legal value becomes the empty one and any other vote stays, all three copies of the token agree,
and so do those of every register word, every buffered word and every control word of a running domain; the upsets of stopped
domains stay. SV_STAT_WRITE completes while page 0x50 serves the write and has no update pending: bit 5 of the word written clears
CORE_STOPPED, which otherwise stays, and nothing outside the fabric and that flag changes. (R278, R288, R289, R290, R359) -/
def Obligations.ScrubbingKeepsVotedWords : Prop :=
  ∀ s : State, s.pw.por = false → Canonical s →
    (∀ p w, ctlVote s p w = ctlCode s p w) ∧
    (∃ u, exec .scrubPass s = .next u ∧ Only [.fab, .sup] s u ∧ (∀ p o, regAt u p o = regAt s p o) ∧
      u.fab.passes = (s.fab.passes + 1) % 65536 ∧ token u = token s % 3 ∧ u.sup.tok0 = u.sup.tok1 ∧
      u.sup.tok1 = u.sup.tok2 ∧ u.fab.upsets = s.fab.upsets.filter (fun x => !pageRuns s x.page) ∧
      (∀ e : Nat × Tri, (e ∈ u.fab.regs ∨ e ∈ u.fab.buf ∨ ∃ m, u.fab.frozen = some m ∧ e ∈ m) → pageRuns s (e.1 / 0x1000) = true →
        e.2.a = e.2.b ∧ e.2.b = e.2.c) ∧
      ∀ p w, pageRuns s p = true → ctlCopy u p w 0 = ctlCopy u p w 1 ∧ ctlCopy u p w 1 = ctlCopy u p w 2) ∧
    (∀ m v, Serves s m 0x50 → updPending s 0x50 = false →
      ∃ u, exec (.svStatWrite m v) s = .next u ∧ Only [.pw, .fab] s u ∧ u.fab.regs = s.fab.regs ∧
        u.pw = { s.pw with coreStopped := s.pw.coreStopped && !v.getLsbD 5 })

/-- PREF_WAIT_EXPIRY completes when the other trunk alone has qualified for the wait before the first grant: that trunk holds the
token and is being checked. MOVE_START completes once the token has crossed: no move is under way, the PLL refers to the new holder
and its check ends after its frames. TAKEOVER_CHECK_END completes: with every checked lane good the holder is no longer being
checked and a replay has started; with a failed lane, or with bad evidence, the holder is latched and loses the token; FAIL_LANES
names the checked lanes that failed. PCYCLE_OFF_END completes after the off time: TPWR is high. REPAIR_TIMEOUT completes after the
repair time: the trunk is latched, its failures grow by one. AUTO_REPAIR completes after the delay on a trunk latched by the hub: it
is repairing with TPWR low. (R280, R281, R282, R284, R286, R287) -/
def Obligations.MovesChecksAndRepairs : Prop :=
  ∀ s : State, s.pw.por = false →
    (∀ q, s.sup.granted = false → token s = 0 → qualifies s (preferred s) = false → qualifies s (peer (preferred s)) = true →
      (getTs s (peer (preferred s))).qualAt = some q → q + supMs (regF s 0x50 0x040 16 8) ≤ s.pw.sup →
      ∃ u, exec .prefWaitExpiry s = .next u ∧ Only [.fab, .sup] s u ∧ holder u = some (peer (preferred s)) ∧
        u.sup.checking = true ∧ u.sup.granted = true ∧ u.sup.reason = 1) ∧
    (s.pw.coreRun = true → s.sup.moving = true → holder s = some s.sup.moveTo → Canonical s →
      ∃ u, exec .moveStart s = .next u ∧ u.sup = { s.sup with
          moving := false, passed := false, startUp := false, moveAt := s.pw.elapsed + 4 * (dataLanes s + 2) } ∧
        u.pll.ref = s.sup.moveTo ∧ coreHolder u = some s.sup.moveTo) ∧
    (∀ h (fails : BitVec 6), holder s = some h → s.sup.checking = true →
      (evGood s h = true → s.sup.moving = false → s.sup.moveAt ≤ s.pw.elapsed → fails.toNat &&& checkedLanes s = 0 →
        ∃ u, exec (.takeoverCheckEnd fails) s = .next u ∧ Only [.pw, .fab, .ser, .sup] s u ∧
          u.pw = { s.pw with stage := max s.pw.stage 5 } ∧ holder u = some h ∧ u.sup.checking = false ∧ u.ser.replaying = true ∧
          u.sup.failL = 0 ∧ u.fab.regs = s.fab.regs) ∧
      ((evGood s h = false ∨ (s.sup.moving = false ∧ s.sup.moveAt ≤ s.pw.elapsed ∧ fails.toNat &&& checkedLanes s ≠ 0)) →
        s.sup.prev ≠ some h →
        ∃ u, exec (.takeoverCheckEnd fails) s = .next u ∧ Only [.fab, .ser, .frm, .sup] s u ∧ holder u ≠ some h ∧
          (getTs u h).latched = true ∧ u.sup.failL = BitVec.ofNat 6 (fails.toNat &&& checkedLanes s) ∧ u.fab.regs = s.fab.regs)) ∧
    (∀ t : Trunk, (getTs s t).tpwr = false →
      (getTs s t).lowAt + supMs (regF s 0x50 0x040 24 8) ≤ s.pw.sup →
      ∃ u, exec (.pcycleOffEnd t) s = .next u ∧ Only [.fab, .sup] s u ∧ (getTs u t).tpwr = true ∧ (getTs u t).highAt = s.pw.sup ∧
        token u = token s) ∧
    (∀ t : Trunk, (getTs s t).repair = true → (getTs s t).tpwr = true →
      (getTs s t).highAt + supMs (regF s 0x50 0x044 0 16) ≤ s.pw.sup →
      ∃ u, exec (.repairTimeout t) s = .next u ∧ Only [.fab, .sup] s u ∧ (getTs u t).repair = false ∧ (getTs u t).latched = true ∧
        (getTs u t).fails = (getTs s t).fails + 1 ∧ token u = token s) ∧
    (∀ t : Trunk, (getTs s t).latched = true → (getTs s t).repair = false → (getTs s t).byCmd = false →
      (getTs s t).fails < regF s 0x50 0x044 16 4 → holder s ≠ some t →
      (getTs s t).latchAt + supMs (100 * regF s 0x50 0x044 24 8) ≤ s.pw.sup →
      ∃ u, exec (.autoRepair t) s = .next u ∧ Only [.fab, .sup] s u ∧ (getTs u t).repair = true ∧ (getTs u t).tpwr = false ∧
        (getTs u t).lowAt = s.pw.sup ∧ token u = token s)

/-- INCR_COMMIT completes while page 0x54 serves the write: an increment of 0x02_00000000 to 0x04_00000000, made of the value
written and the fraction held, is the base's from the next core cycle on, its holdover ends, and the time of the write is noted; any
other is refused and no base, increment or register changes. HOLDOVER completes once the limit has passed without a write: the base
is in holdover and nothing else of the time bases changes. TB_LATCH completes: the latched words are those of TBASE0, TBASE1, TBASE2
and TBASE3 in this core cycle, and their count advances. TSE_POP completes: the oldest timestamp record is gone, the others stay in
order. (R297, R298, R301, R303) -/
def Obligations.TimeBaseCommands : Prop :=
  ∀ s : State, s.pw.por = false →
    (∀ (m : Master) (n : NetBase) (v : Word), Serves s m 0x54 →
      ∃ u, exec (.incrCommit m n v) s = .next u ∧
        (∀ x, x = v.toNat % 256 * 2 ^ 32 + regAt s 0x54 (incrReg n) →
          (0x0200000000 ≤ x ∧ x ≤ 0x0400000000 → Only [.fab, .tb] s u ∧
            u.tb = (match n with
              | .tb1 => { s.tb with ni1 := some x, wr1 := s.pw.sup, hov1 := false }
              | .tb3 => { s.tb with ni3 := some x, wr3 := s.pw.sup, hov3 := false })) ∧
          (x < 0x0200000000 ∨ 0x0400000000 < x → Only [.fab] s u ∧ u.fab.regs = s.fab.regs))) ∧
    ((s.tb.hov1 = false → regF s 0x54 0x058 0 16 ≠ 0 → s.tb.wr1 + supMs (regF s 0x54 0x058 0 16) ≤ s.pw.sup →
        ∃ u, exec (.holdover .tb1) s = .next u ∧ Only [.fab, .tb] s u ∧ u.fab.regs = s.fab.regs ∧ u.tb = { s.tb with hov1 := true }) ∧
      (s.tb.hov3 = false → regF s 0x54 0x058 16 16 ≠ 0 → s.tb.wr3 + supMs (regF s 0x54 0x058 16 16) ≤ s.pw.sup →
        ∃ u, exec (.holdover .tb3) s = .next u ∧ Only [.fab, .tb] s u ∧ u.fab.regs = s.fab.regs ∧ u.tb = { s.tb with hov3 := true })) ∧
    (∀ m : Master, Serves s m 0x54 →
      (∃ u, exec (.tbLatch m) s = .next u ∧ Only [.fab, .tb] s u ∧
        u.tb = { s.tb with
          latch := [BitVec.ofNat 32 (tb0 s), BitVec.ofNat 32 (tb0 s / 2 ^ 32),
            BitVec.ofNat 32 s.tb.t1, BitVec.ofNat 32 (s.tb.t1 / 2 ^ 32), BitVec.ofNat 32 (s.tb.t1 / 2 ^ 64),
            BitVec.ofNat 32 (tb2 s), BitVec.ofNat 32 (tb2 s / 2 ^ 32), BitVec.ofNat 32 (tb2 s / 2 ^ 64),
            BitVec.ofNat 32 s.tb.t3, BitVec.ofNat 32 (s.tb.t3 / 2 ^ 32), BitVec.ofNat 32 (s.tb.t3 / 2 ^ 64)],
          latchN := (s.tb.latchN + 1) % 256 }) ∧
      (∃ u, exec (.tsePop m) s = .next u ∧ Only [.fab, .tb] s u ∧ u.tb = { s.tb with tse := s.tb.tse.tail }))

/-- With the port up, MG_FRAME_RECEIVE completes: a bad check sequence is counted and does nothing else; a frame too short, too long
or for another address changes nothing; an accepted one is counted, and joins the register engine's requests (four are held at most)
or goes to Q24 or Q25 behind its prefix, where it is the newest readable bale if Serai takes it whole, and is counted as dropped
while CK_CORE is stopped. REGISTER_REQUEST completes on the oldest request, once the due packets of the downlinks have made their
accesses (which of several masters' accesses due in the hub comes first is the model's choice, log entry 64): another version is
dropped and counted; a request refused whole is answered with its status and accesses nothing. MG_FRAME_SEND completes at a frame
boundary: the oldest response leaves padded and with its check sequence where it fits before the launches; without one, the whole
item of a plain queue does. MG_LINK_CHANGE completes: LINK is 1 with synchronisation and, unless AN_EN is 0, auto-negotiation. (R15, R302, R313, R314, R315, R316, R317, R318, R320) -/
def Obligations.ManagementFramesComeAndGo : Prop :=
  ∀ s : State, s.pw.por = false → s.pw.xtal = true →
    (s.mg.link = true → ∀ (f : List Byte) (m64 : Fin 64),
      (fcsOk f = false → exec (.mgFrameReceive f m64) s = .next (count 0x58 0 s)) ∧
      (fcsOk f = true → (f.length < 64 ∨ maxLen s < f.length ∨ destOk s f = false) → exec (.mgFrameReceive f m64) s = .next s) ∧
      (fcsOk f = true → 64 ≤ f.length → f.length ≤ maxLen s → destOk s f = true →
        ∃ u, exec (.mgFrameReceive f m64) s = .next u ∧ OnlyAndUnfit [.fab, .ser, .mg] s u ∧ u.fab.regs = s.fab.regs ∧
          u.mg.rx = (s.mg.rx + 1) % 2 ^ 32 ∧ u.mg.rxCount = (s.mg.rxCount + 1) % 65536 ∧ u.mg.resps = s.mg.resps ∧
          (f.take 6 = mgMac s ∧ etherType f = 0x88B5 ∧ (regAt s 0x58 0x040).testBit 1 = true → u.ser = s.ser ∧
            u.mg.reqs = if 4 ≤ s.mg.reqs.length + s.mg.resps.length then s.mg.reqs
              else s.mg.reqs ++ [{ src := (f.drop 6).take 6, body := (f.take (f.length - 4)).drop 14 }]) ∧
          (¬ (f.take 6 = mgMac s ∧ etherType f = 0x88B5 ∧ (regAt s 0x58 0x040).testBit 1 = true) → u.mg.reqs = s.mg.reqs ∧
            ∀ q item, q = (if etherType f = 0x88F7 then 24 else 25) →
              item = ingressItem { s with mg := { s.mg with rxCount := (s.mg.rxCount + 1) % 65536 } } q m64.val f →
              (s.pw.coreRun = false → u.ser = s.ser ∧ (Canonical s → tallyOf u 0x58 1 = min 0xFF (tallyOf s 0x58 1 + 1))) ∧
              (s.pw.coreRun = true → Shaped s → TakesWhole s q (cellsOf item.length) →
              (getQ u q).ready.map (·.bytes) = (getQ s q).ready.map (·.bytes) ++ [item] ∧ (getQ u q).waiting = [] ∧ OtherQueues s u q)))) ∧
    (∀ (v : State) (r : MgReq) (rest : List MgReq), v = downlinksFirst s → v.pw.xtal = true → v.mg.reqs = r :: rest →
      (r.body.getD 0 0 ≠ 1 → exec .registerRequest s = .next (count 0x58 3 { v with mg := { v.mg with reqs := rest } })) ∧
      (r.body.getD 0 0 = 1 → ∀ c, requestRefusal r.body = some c →
        ∃ u, exec .registerRequest s = .next u ∧ Only [.fab, .mg] v u ∧ u.mg.reqs = rest ∧
          u.mg.resps = v.mg.resps ++ [r.src ++ mgMac v ++ [0x88, 0xB5] ++ requestPayload r.body c 0 []]) ∧
      (r.body.getD 0 0 = 1 → requestRefusal r.body = none → ∀ x : Served × State,
        x = (if r.body.getD 1 0 = 1 then seqWrite .mgmt 0 (reqAddr r.body) (reqWords r.body) {} { v with mg := { v.mg with reqs := rest } }
          else seqRead .mgmt (reqCount r.body) 0 (reqAddr r.body) {} { v with mg := { v.mg with reqs := rest } }) →
        ∃ u, exec .registerRequest s = .next u ∧ Only [.fab, .mg] x.2 u ∧
          u.mg.resps = x.2.mg.resps ++ [r.src ++ mgMac x.2 ++ [0x88, 0xB5] ++
            requestPayload r.body x.1.cause x.1.idx (if r.body.getD 1 0 = 1 then [] else x.1.words)])) ∧
    (s.mg.link = true → s.mg.prog = none → ∀ (m64 : Fin 64) (starved : Option Nat),
      (∀ (r : List Byte) (rest : List (List Byte)), s.mg.resps = r :: rest → (s.pw.coreRun = false ∨ fitsLaunches s r.length m64.val = true) →
        exec (.mgFrameSend m64 starved) s = .next { s with mg := { s.mg with
          resps := rest, tx := (s.mg.tx + 1) % 2 ^ 32, sent := padded r ++ fcsOf (padded r), errored := false } }) ∧
      (∀ q l, s.mg.resps = [] → s.pw.coreRun = true → dueQueue s m64.val = none → plainQueue s m64.val = some q → q < 22 →
        egressHead s q = some (l, true) → itemBad l true = false → itemOne l = false →
        ∃ u, exec (.mgFrameSend m64 starved) s = .next u ∧ OnlyAndUnfit [.fab, .ser, .tb, .mg] s u ∧ u.fab.regs = s.fab.regs ∧
          u.mg.sent = padded (l.drop 16) ++ fcsOf (padded (l.drop 16)) ∧ u.mg.errored = false ∧ u.mg.tx = (s.mg.tx + 1) % 2 ^ 32 ∧
          (itemTs l = false → u.tb = s.tb) ∧
          (itemTs l = true → s.tb.tse.length < 16 → u.tb = { s.tb with tse := s.tb.tse ++
            [tsRecord s (some (tsTx s .tb1 m64.val, tsTx s .tb3 m64.val)) (itemId l) true false (getQ s q).late (q - 20)] }))) ∧
    (∀ sync an : Bool, ∃ u, exec (.mgLinkChange sync an) s = .next u ∧ Only [.fab, .mg] s u ∧ u.fab.regs = s.fab.regs ∧
      u.mg = { s.mg with sync := sync, anDone := sync && an, link := sync && (an || !(regAt s 0x58 0x040).testBit 0) })

/-- I2C_WRITE_TRANSACTION completes. At another address it changes nothing. At the target's own, once the accesses due of the other
masters are made (the model's choice, log entry 64): three bytes set the pointer; four further bytes write a word at it (on page
0x68 its first two bytes), after which the pointer advances by four; a part of the pointer is discarded and counted.
I2C_READ_TRANSACTION completes: up to three bytes are the first bytes of the word read at the pointer; four are the whole word,
after which the pointer has advanced and the next word is read too. I2C_STRETCH_LIMIT completes: for an access the transaction has
made the limit counts, and the bytes of a word read are 0xFF; else nothing changes. While the test port is open EXTEST, IDCODE,
SAMPLE_PRELOAD, HIGHZ and BYPASS complete: the instruction register holds the code, the pins are taken by EXTEST, which drives the
cells on the outputs, and by HIGHZ, which drives nothing; IDCODE shifts out 0x10384B47, SAMPLE_PRELOAD shifts out the levels on the
covered pins, which are the hub's own where it drives a pin and free elsewhere (log entry 4), and keeps its bits. While it is not
open they change nothing. TEST_LOGIC_RESET completes always, frees the pins, and holds the port while TRST_N is low; that it loads
IDCODE is the model's choice (log entry 28), and so is the order of the cells (log entry 63). Nothing else of the hub changes. (R15, R321, R322, R323, R327) -/
def Obligations.SlowPortsAndTestAccess : Prop :=
  ∀ s : State,
    (s.pw.por = false →
      (∀ addr l n, i2cMine addr s = false → exec (.i2cWriteTransaction l addr) s = .next s ∧ exec (.i2cReadTransaction n addr) s = .next s) ∧
      (∀ addr v, i2cMine addr s = true → v = i2cBegin false s →
        exec (.i2cWriteTransaction [] addr) s = .next v ∧
        (∀ l : List Byte, l.length = 3 → exec (.i2cWriteTransaction l addr) s =
          .next { v with slow := { v.slow with i2cPtr := leNat l % 2 ^ 20 } }) ∧
        (∀ l : List Byte, 0 < l.length → l.length < 3 → exec (.i2cWriteTransaction l addr) s = .next (count 0x5C 0 (refuse 0x5C 0x06 0 v))) ∧
        (∀ (p : List Byte) (w : Word) (a : Nat) (u : State), p.length = 3 → a = leNat p % 2 ^ 20 →
          u = fabWrite .i2c a (leNat ((leBytes 4 w.toNat).take (if a / 0x1000 = 0x68 then 2 else 4)))
            { v with slow := { v.slow with i2cPtr := a } } →
          exec (.i2cWriteTransaction (p ++ leBytes 4 w.toNat) addr) s =
            .next { u with slow := { u.slow with i2cPtr := (u.slow.i2cPtr + 4) % 2 ^ 20, i2cWords := u.slow.i2cWords + 1 } })) ∧
      (∀ addr v u x, i2cMine addr s = true → v = i2cBegin true s → u = i2cCount (fabRead .i2c v.slow.i2cPtr v) →
        x = i2cCount (fabRead .i2c ((u.slow.i2cPtr + 4) % 2 ^ 20) { u with slow := { u.slow with i2cPtr := (u.slow.i2cPtr + 4) % 2 ^ 20 } }) →
        (∀ n, n < 4 → exec (.i2cReadTransaction n addr) s = .next { u with slow := { u.slow with
          i2cOut := (leBytes 4 (getMaster u .i2c).rdata.toNat).take n } }) ∧
        exec (.i2cReadTransaction 4 addr) s = .next { x with slow := { x.slow with i2cOut := leBytes 4 (getMaster u .i2c).rdata.toNat } }) ∧
      (∀ k, s.slow.i2cWords ≤ k → exec (.i2cStretchLimit k) s = .next s) ∧
      (∀ k, k < s.slow.i2cWords →
        ∃ u, exec (.i2cStretchLimit k) s = .next u ∧ Only [.fab, .slow] s u ∧ u.fab.regs = s.fab.regs ∧
          u.slow = { s.slow with i2cOut := u.slow.i2cOut } ∧ (s.slow.i2cRd = false → u.slow = s.slow) ∧
          (s.slow.i2cRd = true → u.slow.i2cOut.length = s.slow.i2cOut.length ∧
            ∀ j, j < s.slow.i2cOut.length → u.slow.i2cOut.getD j 0 = if j / 4 = k then 0xFF else s.slow.i2cOut.getD j 0) ∧
          (Canonical s → tallyOf u 0x5C 1 = min 0xFF (tallyOf s 0x5C 1 + 1)))) ∧
    (tapOpen s = true →
      (∃ u, exec .extest s = .next u ∧ u = { s with jtag := { s.jtag with ir := 0, tlr := false, taken := true, tdo := 0 } } ∧
        ∀ k, pinOut u k = if k ∈ [1, 7, 8, 9, 10, 11, 13, 14] then some (s.jtag.boundary.getLsbD k) else none) ∧
      exec .idcode s = .next { s with jtag := { s.jtag with ir := 1, tlr := false, taken := false, tdo := 0x10384B47 } } ∧
      (∀ b, ∃ u, exec (.samplePreload b) s = .next u ∧ Only [.pw, .jtag] s u ∧ u.pw = { s.pw with freeCtr := s.pw.freeCtr + 1 } ∧
        u.jtag = { s.jtag with ir := 2, tlr := false, taken := false, tdo := u.jtag.tdo, boundary := b } ∧
        ∀ k x, k < 15 → pinOut { s with jtag := { s.jtag with ir := 2, taken := false } } k = some x → u.jtag.tdo.getLsbD k = x) ∧
      (∃ u, exec .highz s = .next u ∧ u = { s with jtag := { s.jtag with ir := 3, tlr := false, taken := true, tdo := 0 } } ∧
        ∀ k, pinOut u k = none) ∧
      exec .bypass s = .next { s with jtag := { s.jtag with ir := 15, tlr := false, taken := false, tdo := 0 } }) ∧
    (tapOpen s = false → exec .extest s = .next s ∧ exec .idcode s = .next s ∧ (∀ b, exec (.samplePreload b) s = .next s) ∧
      exec .highz s = .next s ∧ exec .bypass s = .next s) ∧
    (∀ low, ∃ u, exec (.testLogicReset low) s = .next u ∧
      u = { s with jtag := { s.jtag with ir := 1, tlr := true, taken := false, tdo := 0, trst := low } } ∧ (low = true → tapOpen u = false))

/-- A posted write of page `p` meets no update that would be applied with it (R290, R340). -/
def NothingToApply (s : State) (p : Nat) : Prop := updPending s p = false ∨ (s.pw.coreRun = true ∧ p ≠ 0x50)

/-- Command `c`, which writes the word `w` with GO and operation `op` to SPI_CMD, completes: it starts the operation on an idle flash
unless `w` is refused, and changes nothing of the flash port otherwise. `ans` is what the flash will answer to OP 4 and OP 5. -/
def SpiStarts (s : State) (c : Instr) (w op ans : Nat) : Prop :=
  ∃ u, exec c s = .next u ∧ Only [.pw, .fab, .slow] s u ∧
    (spiRefusal s w ≠ none → u.slow = s.slow ∧ u.fab.regs = s.fab.regs) ∧
    (s.slow.spiBusy = true → u.slow = s.slow) ∧
    (spiRefusal s w = none → s.slow.spiBusy = false →
      u.slow.spiBusy = true ∧ u.slow.spiFail = false ∧ u.slow.spiOp = op ∧ u.slow.spiAddr = regF s 0x5C 0x048 0 24 ∧
      u.slow.spiLen = fld w 16 8 + 1 ∧ u.slow.spiAt = s.pw.sup ∧ u.slow.flash = s.slow.flash ∧ (4 ≤ op → u.slow.spiNewId = ans))

/-- Byte `a` of the flash. -/
def flashAt (s : State) (a : Nat) : Byte := ramGet 0xFF s.slow.flash a

/-- SPI_READ, SPI_PROGRAM, SPI_SECTOR_ERASE, SPI_READ_ID and SPI_READ_STATUS complete while page 0x5C serves the write: a word that
is not refused starts the operation on a flash that is not busy, with the address held; a refused one starts nothing. SPI_OP_DONE
completes: a read fills the buffer from the flash, a program leaves every byte of its span the AND of old and new, an erase leaves
its sector 0xFF, every other byte stays, identification and status are what the flash gave, and the flash is idle; a program or
erase past its time ends as SPI_FAIL does, and a soft reset that has waited acts after either. SPI_FAIL completes past the
operation's limit: the failure is shown and no byte outside its span changes. SAVE_DONE completes: the slot holds the records and
its header, no byte outside the slot changes, and the slot is the loaded one; a save that stops is shown, leaves the loaded slot
named, and changes no byte outside the target slot. (R326, R331, R371, R375) -/
def Obligations.FlashOperationsAndSaves : Prop :=
  ∀ s : State, s.pw.por = false → Canonical s →
    (∀ m : Master, Serves s m 0x5C → NothingToApply s 0x5C →
      (∀ b : Byte, SpiStarts s (.spiRead m b) (0x101 + 0x10000 * b.toNat) 1 0) ∧
      (∀ b : Byte, SpiStarts s (.spiProgram m b) (0x102 + 0x10000 * b.toNat) 2 0) ∧
      SpiStarts s (.spiSectorErase m) (keptBits s 0x5C04C / 8 * 8 + 0x103) 3 0 ∧
      (∀ id : BitVec 24, SpiStarts s (.spiReadId m id) (keptBits s 0x5C04C / 8 * 8 + 0x104) 4 id.toNat) ∧
      (∀ sr : Byte, SpiStarts s (.spiReadStatus m sr) (keptBits s 0x5C04C / 8 * 8 + 0x105) 5 (2 ^ 24 * sr.toNat))) ∧
    (s.slow.spiBusy = true → s.slow.softRst = false →
      (pinsOk s = true → spiLate s = true → exec .spiOpDone s = exec .spiFail s) ∧
      (pinsOk s = true → spiLate s = false → ∃ u, exec .spiOpDone s = .next u ∧ Only [.pw, .slow] s u ∧ u.slow.spiBusy = false ∧
        (s.slow.spiOp = 1 → u.slow = { s.slow with spiBusy := false, spiBuf := ramPutBytes 0 s.slow.spiBuf 0 (flashBytes s s.slow.spiAddr s.slow.spiLen) }) ∧
        (s.slow.spiOp = 2 → u.slow.spiBuf = s.slow.spiBuf ∧ u.slow.sr % 2 = 0 ∧
          ∀ a, flashAt u a = if s.slow.spiAddr ≤ a ∧ a < s.slow.spiAddr + s.slow.spiLen
            then flashAt s a &&& ramGet 0 s.slow.spiBuf (a - s.slow.spiAddr) else flashAt s a) ∧
        (s.slow.spiOp = 3 → u.slow.spiBuf = s.slow.spiBuf ∧ u.slow.sr % 2 = 0 ∧
          ∀ a, flashAt u a = if a / 0x1000 = s.slow.spiAddr / 0x1000 then 0xFF else flashAt s a) ∧
        (s.slow.spiOp = 4 → u.slow = { s.slow with spiBusy := false, spiId := s.slow.spiNewId % 2 ^ 24 }) ∧
        (s.slow.spiOp = 5 → u.slow = { s.slow with spiBusy := false, sr := s.slow.spiNewId / 2 ^ 24 })) ∧
      ((s.slow.spiOp = 2 ∨ s.slow.spiOp = 3) → s.slow.spiAt + supMs (if s.slow.spiOp = 2 then 5 else 500) ≤ s.pw.sup →
        ∃ u, exec .spiFail s = .next u ∧ Only [.pw, .fab, .slow] s u ∧ u.fab.regs = s.fab.regs ∧ u.slow.spiBusy = false ∧
          u.slow.spiFail = true ∧
          ∀ a, (if s.slow.spiOp = 2 then a < s.slow.spiAddr ∨ s.slow.spiAddr + s.slow.spiLen ≤ a else a / 0x1000 ≠ s.slow.spiAddr / 0x1000) →
            flashAt u a = flashAt s a)) ∧
    (s.slow.spiBusy = true → s.slow.softRst = true → ∀ w, w = { s with slow := { s.slow with softRst := false } } →
      (pinsOk s = true → ∃ v, exec .spiOpDone w = .next v ∧
        exec .spiOpDone s = .next (resetNow 0x5C { v with slow := { v.slow with softRst := true } })) ∧
      ((s.slow.spiOp = 2 ∨ s.slow.spiOp = 3) → s.slow.spiAt + supMs (if s.slow.spiOp = 2 then 5 else 500) ≤ s.pw.sup →
        ∃ v, exec .spiFail w = .next v ∧ exec .spiFail s = .next (resetNow 0x5C { v with slow := { v.slow with softRst := true } }))) ∧
    (∀ img : Ram Byte, s.cal.saving = some img →
      (pinsOk s = true → ∃ u, exec (.saveDone true) s = .next u ∧ Only [.slow, .cal] s u ∧
        u.cal = { s.cal with saving := none, slotNo := s.cal.target, gen := (if s.cal.newGen = 0xFFFFFFFF then 1 else s.cal.newGen), anyOk := true } ∧
        (s.cal.newGen ≠ 0xFFFFFFFF →
          flashBytes u (slotBase s s.cal.target) 256 = slotHeader s.cal.newGen ∧
          (∀ r, r < 8 → flashBytes u (slotBase s s.cal.target + 0x100 + 0x100 * r) 256 = userRecord img r) ∧
          ∀ a, (a < slotBase s s.cal.target ∨ slotBase s s.cal.target + 0x900 ≤ a) → flashAt u a = flashAt s a)) ∧
      (∃ u, exec (.saveDone false) s = .next u ∧ Only [.pw, .fab, .slow, .cal] s u ∧ u.fab.regs = s.fab.regs ∧
        u.cal = { s.cal with saving := none, saveFail := true } ∧
        ∀ a, (a < slotBase s s.cal.target ∨ slotBase s s.cal.target + 0x2000 ≤ a) → flashAt u a = flashAt s a))

/-- Once the user store is loaded CS_USER_VIEW reads the held image's record CS_REC: its data words, and in bytes 252–255 the CRC-32
of the 252 data bytes; before that every word reads zero (R359). CS_USER_VIEW_WRITE completes while page 0x70 serves the write: at
bytes 252–255 it changes nothing; at bytes 0–251 the four bytes of the held image are replaced at once, and no effective value
changes. A write that sets a non-zero bit in a locked byte is refused with FUSE_LOCKED, and one while a save runs with
NOT_WHILE_ACTIVE (a save is judged first, which is the model's reading, log entry 36): the held image keeps its value, REFUSED reads
1 and PAGE_CAUSE gives the code. (R373) -/
def Obligations.UserViewShowsAndTakesTheHeldRecord : Prop :=
  ∀ (s : State) (i : Fin 64), s.pw.por = false → Canonical s →
    readPlain s 0x70 (0x180 + 4 * i.val) = (if s.cal.loaded = false then 0 else if i.val = 63 then crc32 (ramBytes 0 s.cal.user (252 * csRec s) 252)
      else leNat (ramBytes 0 s.cal.user (252 * csRec s + 4 * i.val) 4)) ∧
    ∀ (m : Master) (w : Word), Serves s m 0x70 → NothingToApply s 0x70 →
      ∃ u, exec (.csUserViewWrite m i w) s = .next u ∧ Only [.fab, .cal] s u ∧ u.fab.regs = s.fab.regs ∧
        (s.cal.saving = none → i.val = 63 → u.cal = s.cal ∧ pageSt u 0x70 = pageSt s 0x70) ∧
        (s.cal.saving = none → i.val < 63 →
          (∀ k, k < 4 → (leBytes 4 w.toNat).getD k 0 ≠ 0 → lockedByte (252 * csRec s + 4 * i.val + k) = false) →
          u.cal = { s.cal with user := ramPutBytes 0 s.cal.user (252 * csRec s + 4 * i.val) (leBytes 4 w.toNat) } ∧
          pageSt u 0x70 = pageSt s 0x70) ∧
        (s.cal.saving = none → i.val < 63 →
          (∃ k, k < 4 ∧ (leBytes 4 w.toNat).getD k 0 ≠ 0 ∧ lockedByte (252 * csRec s + 4 * i.val + k) = true) →
          u.cal = s.cal ∧ (pageSt u 0x70).refused = true ∧ (pageSt u 0x70).cause = 0x0D) ∧
        (s.cal.saving.isSome = true → u.cal = s.cal ∧ (pageSt u 0x70).refused = true ∧ (pageSt u 0x70).cause = 0x09)

/-- REGISTER_WRITE completes on every address. On a page that does not run it changes no register and is counted, under NO_CLOCK or
on an unassigned page under NO_PAGE; at an address that is not a multiple of four it is refused with cause 0x05; on a served CK_CORE
page a plain word has its effect at once, and a buffered word of a channel page waits as the pending value with its unused bits 0;
on a served CK_SUP page the write is posted and changes no register yet; at a guarded word it opens the master's pair and changes no
register. POSTED_WRITE_EFFECT completes: nothing is posted on the page any more, and the write has its effect.
GUARD_COMPLEMENT_WRITE completes with the pair open: the ones' complement gives the value its effect and closes the pair, any other
word closes it with cause 0x03 and changes no register. CAPTURE_LOW_READ completes with the low half and keeps the whole;
CAPTURE_HIGH_READ then gives the high half of what was kept. (R16, R334, R335, R336, R339, R342, R344, R345, R357) -/
def Obligations.RegisterAccessesOfTheMasters : Prop :=
  ∀ (s : State) (m : Master), s.pw.por = false → Shaped s → Canonical s →
    (∀ (a : Addr) (v : Word), ∃ u, exec (.registerWrite m a v) s = .next u) ∧
    (∀ (a : Addr) (v : Word), pageRuns s (a.toNat / 0x1000) = false →
      ∃ u, exec (.registerWrite m a v) s = .next u ∧ Only [.fab] s u ∧ u.fab.regs = s.fab.regs ∧ u.fab.buf = s.fab.buf ∧
        ∀ k, k = (if isAssigned (a.toNat / 0x1000) then 0 else 1) → tallyOf u 0x00 k = min 0xFF (tallyOf s 0x00 k + 1)) ∧
    (∀ (a : Addr) (v : Word), Serves s m (a.toNat / 0x1000) → a.toNat % 4 ≠ 0 →
      ∃ u, exec (.registerWrite m a v) s = .next u ∧ Only [.fab] s u ∧ u.fab.regs = s.fab.regs ∧ u.fab.buf = s.fab.buf ∧
        (getMaster u m).cause = 5) ∧
    (∀ (a : Addr) (v : Word) (p o : Nat), p = a.toNat / 0x1000 → o = a.toNat % 0x1000 → o % 4 = 0 → Serves s m p →
      (∀ f, isSup p = false → isGuarded p o = false → ¬ (0x800 ≤ o ∧ isGuarded p (o - 0x800) = true) → regForm p o = some f →
        writeRefusal s p o v.toNat = none →
        exec (.registerWrite m a v) s = .next (writeEffect m p o v.toNat (beginAccess m s)) ∧
        (pgIn p 0x10 0x1B = true → 0x040 ≤ o → f.rw = 0 → f.rb ≠ 0 →
          ∃ u, exec (.registerWrite m a v) s = .next u ∧ Only [.fab, .orb, .conv] s u ∧ u.fab.regs = s.fab.regs ∧
            bufGet u p o = v.toNat &&& (f.rb ||| f.gd))) ∧
      (isSup p = true → isGuarded p o = false → ¬ (0x800 ≤ o ∧ isGuarded p (o - 0x800) = true) → (regForm p o).isSome = true →
        writeRefusal s p o v.toNat = none →
        ∃ u, exec (.registerWrite m a v) s = .next u ∧ Only [.fab] s u ∧ u.fab.regs = s.fab.regs ∧ u.fab.buf = s.fab.buf ∧
          (pageSt u p).posted = some ⟨m, a.toNat, v⟩) ∧
      (isGuarded p o = true →
        ∃ u, exec (.registerWrite m a v) s = .next u ∧ Only [.fab] s u ∧ u.fab.regs = s.fab.regs ∧ u.fab.buf = s.fab.buf ∧
          openGuard u m p = some ⟨p, o, v⟩)) ∧
    (∀ (p : Byte) (w : Posted), (pageSt s p.toNat).posted = some w → isGuarded p.toNat (w.a % 0x1000) = false →
      ∃ u, u = modPage p.toNat (fun x => { x with posted := none }) s ∧ (pageSt u p.toNat).posted = none ∧
        exec (.postedWriteEffect p) s = .next (applySup p.toNat w.a (writeEffect w.m p.toNat (w.a % 0x1000) w.v.toNat u))) ∧
    (∀ (a : Addr) (v : Word) (p : Nat) (g : Guard), p = a.toNat / 0x1000 → pageRuns s p = true → (pageSt s p).posted = none →
      a.toNat % 0x1000 = g.off + 0x800 → isGuarded p g.off = true → openGuard s m p = some g →
      (v = ~~~ g.v → writeRefusal s p g.off g.v.toNat = none →
        ∃ u, Only [.fab] s u ∧ u.fab.regs = s.fab.regs ∧ u.fab.buf = s.fab.buf ∧ (∀ k, pageSt u k = pageSt s k) ∧ openGuard u m p = none ∧
          exec (.guardComplementWrite m a v) s = .next (applySup p (addrOf p g.off) (writeEffect m p g.off g.v.toNat u))) ∧
      (v ≠ ~~~ g.v → ∃ u, exec (.guardComplementWrite m a v) s = .next u ∧ Only [.fab] s u ∧ u.fab.regs = s.fab.regs ∧
        u.fab.buf = s.fab.buf ∧ openGuard u m p = none ∧ (getMaster u m).cause = 3)) ∧
    (∀ (a : Addr) (p o : Nat), p = a.toNat / 0x1000 → o = a.toNat % 0x1000 → Serves s m p →
      (pairLow p o = some o →
        ∃ u, exec (.captureLowRead m a) s = .next u ∧ Only [.fab] s u ∧ u.fab.regs = s.fab.regs ∧
          (getMaster u m).rdata = BitVec.ofNat 32 (pairValue s p o) ∧ (getMaster u m).shadow = BitVec.ofNat 64 (pairValue s p o) ∧
          (getMaster u m).fresh = true ∧ (getMaster u m).stale = false ∧ (getMaster u m).pair = a.toNat) ∧
      (4 ≤ o → pairLow p o = some (o - 4) →
        ∃ u, exec (.captureHighRead m a) s = .next u ∧ Only [.fab] s u ∧ u.fab.regs = s.fab.regs ∧
          (getMaster u m).rdata = BitVec.ofNat 32 ((getMaster s m).shadow.toNat / 2 ^ 32) ∧
          ((getMaster s m).fresh = true → (getMaster s m).pair + 4 = a.toNat →
            (getMaster u m).fresh = false ∧ (getMaster u m).stale = (getMaster s m).stale) ∧
          ((getMaster s m).fresh = false ∨ (getMaster s m).pair + 4 ≠ a.toNat → (getMaster u m).stale = true)))

/-- For every guarded register, at offset G of its page: a read of G returns the buffered value; a read of G + 0x800 gives the
reading master the word 0; and the write of the complement at G + 0x800 by the master whose pair is open there closes the pair
without a guard cause, where no range or state refuses the value. (R344) -/
def Obligations.GuardedWordsAndTheirComplements : Prop :=
  ∀ (s : State) (m : Master) (p o : Nat), s.pw.por = false → Shaped s → isGuarded p o = true →
    (∃ f, regForm p o = some f ∧ f.gd ≠ 0 ∧ readPlain s p o = bufGet s p o &&& f.gd) ∧
    (∀ a : Addr, a.toNat = addrOf p (o + 0x800) → Serves s m p →
      ∃ u, exec (.captureLowRead m a) s = .next u ∧ Only [.fab] s u ∧ u.fab.regs = s.fab.regs ∧ (getMaster u m).rdata = 0) ∧
    (∀ (a : Addr) (v : Word), a.toNat = addrOf p (o + 0x800) → pageRuns s p = true → (pageSt s p).posted = none →
      openGuard s m p = some ⟨p, o, v⟩ → writeRefusal s p o v.toNat = none →
      ∃ u, exec (.registerWrite m a (~~~ v)) s = .next u ∧ openGuard u m p = none ∧ (getMaster u m).cause = 0)

/-- UPD_STROBE completes while page 0x01 serves it: outside IDLE the groups join those marked for this boundary, or after the cutoff
those of the next; in IDLE they join the marked ones, and are to be applied in the ninth core cycle from then on; a zero mask marks
and counts nothing, which is the model's choice (log entry 41). TALLY_CLEAR completes while its page serves it: the tallies named by
the mask read 0, or 1 where they rose in the same cycle of the page's domain (R348); the others and REFUSED stay; CAUSE_CLEAR clears
REFUSED and its cause and no tally. No register changes and no other page. NOTICE_WRITE completes with a free Q13: the oldest stored
notice is the newest readable bale there and leaves the store (notices of the write itself may join it), and the block's sequence
advances. DRAIN_END completes on a page that has drained: DRAINING is 0, and nothing else changes where no re-enable waits or the
hub is not in IDLE. (R332, R333, R338, R348, R349, R350, R351) -/
def Obligations.StrobesTalliesAndNotices : Prop :=
  ∀ s : State, s.pw.por = false → Shaped s → Canonical s →
    (∀ (m : Master) (g : BitVec 16), Serves s m 0x01 →
      ∃ u, exec (.updStrobe m g) s = .next u ∧ Only [.fab, .orb, .conv] s u ∧ u.fab.regs = s.fab.regs ∧
        (g = 0 → Only [.fab] s u ∧ u.fab.marked = s.fab.marked ∧ u.fab.next = s.fab.next ∧ u.fab.idleAt = s.fab.idleAt) ∧
        (s.orb.st ≠ .idle → cutoffPassed s = false → u.fab.marked = s.fab.marked ||| g ∧ u.fab.next = s.fab.next) ∧
        (s.orb.st ≠ .idle → cutoffPassed s = true → u.fab.marked = s.fab.marked ∧ u.fab.next = s.fab.next ||| g) ∧
        (s.orb.st = .idle → g ≠ 0 → u.fab.marked = s.fab.marked ||| g ∧ u.fab.idleAt = s.fab.idleAt ++ [(s.pw.cc + 9, g)])) ∧
    (∀ (m : Master) (p : Byte), Serves s m p.toNat → (isSup p.toNat = true → updPending s p.toNat = false) →
      (∀ mask : BitVec 16, ∃ u, exec (.tallyClear m p mask) s = .next u ∧ Only [.fab] s u ∧ u.fab.regs = s.fab.regs ∧
        (∀ i, tallyOf u p.toNat i = if mask.getLsbD i then b2n ((bumpedNow s p.toNat).any (fun x => x.1 == i)) else tallyOf s p.toNat i) ∧
        (pageSt u p.toNat).refused = (pageSt s p.toNat).refused ∧ (pageSt u p.toNat).cause = (pageSt s p.toNat).cause ∧
        ∀ k, k ≠ p.toNat → pageSt u k = pageSt s k) ∧
      (∃ u, exec (.causeClear m p) s = .next u ∧ Only [.fab] s u ∧ u.fab.regs = s.fab.regs ∧
        (∀ i, i < 16 → tallyOf u p.toNat i = tallyOf s p.toNat i) ∧
        (pageSt u p.toNat).refused = false ∧ (pageSt u p.toNat).cause = 0 ∧ ∀ k, k ≠ p.toNat → pageSt u k = pageSt s k)) ∧
    (∀ (n : Notice) (rest : List Notice), s.pw.coreRun = true → s.fab.store = n :: rest → TakesWhole s 13 1 →
      ∃ u, exec .noticeWrite s = .next u ∧ OnlyAndUnfit [.fab, .acq, .ser] s u ∧ OtherQueues s u 13 ∧ u.fab.regs = s.fab.regs ∧ rest.Sublist u.fab.store ∧
        u.acq = { s.acq with nNtc := (s.acq.nNtc + 1) % 2 ^ 24 } ∧
        (getQ u 13).ready.map (·.bytes) = (getQ s 13).ready.map (·.bytes) ++ [typeFive s (noticePayload n)]) ∧
    (∀ p : Byte, (pageSt s p.toNat).draining = true → drained s p.toNat = true →
      ((pageSt s p.toNat).deferred = false ∨ s.orb.st ≠ .idle) →
      ∃ u, exec (.drainEnd p) s = .next u ∧ Only [.fab] s u ∧ u.fab.regs = s.fab.regs ∧
        pageSt u p.toNat = { pageSt s p.toNat with draining := false } ∧ ∀ k, k ≠ p.toNat → pageSt u k = pageSt s k)

/-- In IDLE TRIM_APPLY_EFFECT completes with an apply waiting: with every sum and every code in range the user image is in effect
and each channel has its trim, else nothing in effect changes. MON_START and MON_STOP complete while page 0x60 serves them: an
active page starts or restarts its run, or halts it. MON_CFG_WRITE completes: the word is held and a run restarts. MONITOR_RESULT
completes when the run's next result is due: with VDDP the result is the calibrated code, and a run that is not continuous ends; in
the CK_SUP cycle of a MON_CFG write the result due of the run that the write ended is delivered with the old words. PULSER_FIRING
completes once for its slot: an unbarred row that is clear fires, any other is skipped and counted. ROW_SWITCH_OPEN, BLANKING_END
and SITE_VERDICT complete when due: the row is open, blanking is over, the site is GOOD or OPEN. HERITAGE_FORMAT_START completes on
the next lifted heritage accept: the formatter has its bale, with the next COUNT in its end word, and has presented no word of it. (R376, R382, R384, R385, R386, R388, R394, R395, R400, R409, R411, R432) -/
def Obligations.BoardServices : Prop :=
  ∀ s : State, s.pw.por = false →
    (∀ img : Ram Byte, s.pw.coreRun = true → s.orb.st = .idle → s.cal.apply = some img → Shaped s →
      ∃ u, exec .trimApplyEffect s = .next u ∧ Only [.fab, .orb, .pll, .chan, .flint, .fout, .cal] s u ∧
        ((sumsOk s img = false ∨ codesOk s s.fab.regs (trimUnder s img) (fun c => (getChan s c).track) = false) →
          u.cal = { s.cal with apply := none } ∧ u.chan = s.chan ∧ u.fab.regs = s.fab.regs ∧ u.pll = s.pll) ∧
        (sumsOk s img = true → codesOk s s.fab.regs (trimUnder s img) (fun c => (getChan s c).track) = true →
          u.cal = { s.cal with apply := none, eff := img } ∧ (∀ c, c < 384 → (getChan u c).trim = effOf s img (qTrim c)) ∧
          ((∃ c, c < 384 ∧ (getChan s c).trim ≠ effOf s img (qTrim c)) → u.pll.uncomp = true))) ∧
    (∀ m : Master, Canonical s → Serves s m 0x60 → NothingToApply s 0x60 →
      (∃ u, exec (.monStart m) s = .next u ∧ Only [.fab, .mon] s u ∧ u.fab.regs = s.fab.regs ∧
        ((pageSt s 0x60).active = true → u.mon = { s.mon with
          running := true, settling := true, ready := false, startAt := s.pw.sup, nres := 0, old := none }) ∧
        ((pageSt s 0x60).active = false → u.mon = s.mon)) ∧
      (∃ u, exec (.monStop m) s = .next u ∧ Only [.fab, .mon] s u ∧ u.fab.regs = s.fab.regs ∧
        ((pageSt s 0x60).active = true → u.mon = { s.mon with running := false, settling := false }) ∧
        ((pageSt s 0x60).active = false → u.mon = s.mon)) ∧
      (∀ v : Word, fld v.toNat 12 4 ≤ 9 → ∃ u, exec (.monCfgWrite m v) s = .next u ∧ Only [.fab, .mon] s u ∧
        regAt u 0x60 0x040 = v.toNat &&& 0x3F31F ∧
        (s.mon.running = true → u.mon = { s.mon with
          running := true, settling := true, ready := false, startAt := s.pw.sup, nres := 0,
          old := some (regAt s 0x60 0x040, s.mon.startAt, s.mon.nres) }) ∧
        (s.mon.running = false → u.mon = s.mon))) ∧
    (∀ (level : Int) (cfg start n : Nat), s.mon.running = true → s.mon.old = some (cfg, start, n) → s.mon.startAt = s.pw.sup →
      start + (fld cfg 8 2 + 1 + n) * odrCycles (fld cfg 12 4) ≤ s.pw.sup →
      ∃ u, exec (.monitorResult level) s = .next u ∧ OnlyAndUnfit [.pw, .fab, .acq, .ser, .mon] s u ∧ u.fab.regs = s.fab.regs ∧
        u.mon.running = true ∧ u.mon.old = none ∧ u.mon.startAt = s.mon.startAt ∧ u.mon.nres = s.mon.nres ∧
        u.mon.seq = (s.mon.seq + 1) % 2 ^ 32 ∧ u.mon.input = cfg % 32 ∧
        (s.pw.vddp = true → u.mon.code = (monValue s (cfg % 32) (monRaw (cfg % 32) level)).1)) ∧
    (∀ (level : Int) (cfg : Nat), cfg = regAt s 0x60 0x040 → s.mon.running = true → (s.mon.old = none ∨ s.mon.startAt ≠ s.pw.sup) →
      s.mon.startAt + (fld cfg 8 2 + 1 + s.mon.nres) * odrCycles (fld cfg 12 4) ≤ s.pw.sup →
      ∃ u, exec (.monitorResult level) s = .next u ∧ OnlyAndUnfit [.pw, .fab, .acq, .ser, .mon] s u ∧ u.fab.regs = s.fab.regs ∧
        u.mon.running = cfg.testBit 16 ∧ u.mon.ready = true ∧ u.mon.settling = false ∧ u.mon.seq = (s.mon.seq + 1) % 2 ^ 32 ∧
        u.mon.input = cfg % 32 ∧ u.mon.code < 65536 ∧
        (s.pw.vddp = true → u.mon.code = (monValue s (cfg % 32) (monRaw (cfg % 32) level)).1 ∧
          u.mon.ovr = (monValue s (cfg % 32) (monRaw (cfg % 32) level)).2)) ∧
    (s.pw.coreRun = true →
      (∀ r, firingSlot s = true → s.pls.fired ≠ s.pw.elapsed + 1 → r = fld (liveEntry s s.orb.slot) 3 3 →
        ∃ u, exec .pulserFiring s = .next u ∧ Only [.fab, .pls] s u ∧ u.fab.regs = s.fab.regs ∧ u.pls.fired = s.pw.elapsed + 1 ∧
          (rowBarred s r = true ∨ firingClear s r (slotStartCc s) = false →
            u.pls.row = s.pls.row ∧ u.pls.skips = min 0xFFFF (s.pls.skips + 1) ∧ u.pls.firings = s.pls.firings) ∧
          (rowBarred s r = false → firingClear s r (slotStartCc s) = true →
            u.pls.row = some r ∧ u.pls.last = r ∧ u.pls.skips = s.pls.skips ∧ u.pls.firings = min 0xFFFF (s.pls.firings + 1))) ∧
      (∀ r, s.pls.row = some r → s.pls.openAt ≤ s.pw.cc →
        exec .rowSwitchOpen s = .next { s with pls := { s.pls with row := none, sinks := [], blanking := decide (s.pw.cc < s.pls.blankTo) } }) ∧
      (s.pls.blanking = true → s.pls.blankTo ≤ s.pw.cc → exec .blankingEnd s = .next { s with pls := { s.pls with blanking := false } }) ∧
      (∀ (k : Fin 16) (good : Bool) (i t : Nat), s.pls.sites.find? (fun p => p.1 % 16 == k.val) = some (i, t) → t ≤ s.pw.cc →
        s.pls.diagFired = false → keysFrom 0 s.pls.states = true →
        ∃ u, exec (.siteVerdict k good) s = .next u ∧ Only [.fab, .pls] s u ∧ u.fab.regs = s.fab.regs ∧
          u.pls.sites = s.pls.sites.filter (fun p => p.1 != i) ∧
          ∀ j, siteState u j = if j = i then (if good && s.pw.vddp then 1 else 2) else siteState s j) ∧
      (∀ (e : Entry) (err hold ecc : Bool), nextHer s = some e → s.her.fmt = false → herLifted s e 0 = true → herLifted s e 1 = true →
        err = (herLost e 0 || herLost e 1) → hold = herHold s e → ecc = herEcc s e →
        ∃ u, exec .heritageFormatStart s = .next u ∧ Only [.fab, .acq, .her] s u ∧ u.fab.regs = s.fab.regs ∧
          u.her = { s.her with fmt := true, lastErr := err, seq := e.seq, sent := 0, formed := false,
                               bale := mkBale 7 7 true e.seq (e.slot % 4096 + 0x1000 * b2n hold + 0x2000 * b2n ecc) e.orbit
                                 (herPayload s e err hold ecc ((s.her.cnt + 1) % 0x40000000)) }))
end

