-- ==== Sys2Proof/Laws/Ram.lean ====
section
/-! SUPPORT. The laws of the sparse memories: a read after a write, and that every operation keeps the canonical form. -/

namespace Sys2Proof.Machine

variable {α : Type}

theorem keysFrom_mono {lo lo' : Nat} (h : lo ≤ lo') : ∀ {m : Ram α}, keysFrom lo' m = true → keysFrom lo m = true
  | [], _ => rfl
  | (k, v) :: t, hm => by
    simp only [keysFrom, Bool.and_eq_true, decide_eq_true_eq] at hm ⊢
    exact ⟨by omega, hm.2⟩

/-- Every listed key is at or above the lower bound. -/
theorem keysFrom_le {lo : Nat} {m : Ram α} (h : keysFrom lo m = true) : ∀ e ∈ m, lo ≤ e.1 := by
  induction m generalizing lo with
  | nil => simp
  | cons p t ih =>
    obtain ⟨k, v⟩ := p
    simp only [keysFrom, Bool.and_eq_true, decide_eq_true_eq] at h
    intro e he
    rcases List.mem_cons.1 he with rfl | he
    · exact h.1
    · have := ih h.2 e he; omega

/-- A key below every listed one reads as unlisted. -/
theorem ramGet_below (d : α) {m : Ram α} {lo a : Nat} (h : keysFrom lo m = true) (ha : a < lo) : ramGet d m a = d := by
  cases m with
  | nil => rfl
  | cons p t =>
    obtain ⟨k, v⟩ := p
    simp only [keysFrom, Bool.and_eq_true, decide_eq_true_eq] at h
    simp only [ramGet, if_pos (show a < k by omega)]

/-- A read after a write of the same key. -/
theorem ramGet_ramPut [DecidableEq α] (d : α) {m : Ram α} {lo : Nat} (h : keysFrom lo m = true) (a : Nat) (x : α) :
    ramGet d (ramPut d m a x) a = x := by
  induction m generalizing lo with
  | nil => by_cases hx : x = d <;> simp [ramPut, ramGet, hx]
  | cons p t ih =>
    obtain ⟨k, v⟩ := p
    simp only [keysFrom, Bool.and_eq_true, decide_eq_true_eq] at h
    unfold ramPut
    by_cases h1 : a < k
    · by_cases hx : x = d <;> simp [h1, hx, ramGet]
    · by_cases h2 : a = k
      · subst h2
        by_cases hx : x = d
        · simp [hx, ramGet_below d h.2 (Nat.lt_succ_self a)]
        · simp [hx, ramGet]
      · simp [h1, h2, ramGet, ih h.2]

/-- A write leaves every other key alone, whatever an unlisted key reads as there. -/
theorem ramGet_ramPut_ne [DecidableEq α] (d e : α) {m : Ram α} {lo : Nat} (h : keysFrom lo m = true) (a b : Nat) (x : α)
    (hab : b ≠ a) : ramGet e (ramPut d m a x) b = ramGet e m b := by
  induction m generalizing lo with
  | nil =>
    by_cases hx : x = d
    · simp [ramPut, hx]
    · simp [ramPut, hx, ramGet, hab]
  | cons p t ih =>
    obtain ⟨k, v⟩ := p
    simp only [keysFrom, Bool.and_eq_true, decide_eq_true_eq] at h
    unfold ramPut
    by_cases h1 : a < k
    · by_cases hx : x = d
      · simp [h1, hx]
      · simp only [h1, hx, if_true, if_false, ramGet, hab]
        by_cases h3 : b < a
        · simp [h3, show b < k by omega]
        · simp [h3]
    · by_cases h2 : a = k
      · subst h2
        by_cases hx : x = d
        · simp only [lt_irrefl, if_false, if_true, hx, ramGet, hab]
          by_cases h3 : b < a
          · simp [h3, ramGet_below e h.2 (show b < a + 1 by omega)]
          · simp [h3]
        · simp [hx, ramGet, hab]
      · simp only [h1, h2, if_false, ramGet, ih h.2]

theorem keysFrom_ramPut [DecidableEq α] (d : α) {m : Ram α} {lo : Nat} (h : keysFrom lo m = true) (a : Nat) (x : α)
    (ha : lo ≤ a) : keysFrom lo (ramPut d m a x) = true := by
  induction m generalizing lo with
  | nil => by_cases hx : x = d <;> simp [ramPut, hx, keysFrom, ha]
  | cons p t ih =>
    obtain ⟨k, v⟩ := p
    simp only [keysFrom, Bool.and_eq_true, decide_eq_true_eq] at h
    unfold ramPut
    split
    · split
      · simp [keysFrom, h]
      · simp [keysFrom, ha, h.2]; omega
    · split
      · split
        · exact keysFrom_mono (by omega) h.2
        · simp [keysFrom, h]
      · simp [keysFrom, h.1, ih h.2 (by omega)]

theorem mem_ramPut [DecidableEq α] (d : α) (m : Ram α) (a : Nat) (x : α) :
    ∀ e ∈ ramPut d m a x, e ∈ m ∨ (e.2 = x ∧ x ≠ d) := by
  induction m with
  | nil => intro e he; by_cases hx : x = d <;> simp_all [ramPut]
  | cons p t ih =>
    obtain ⟨k, v⟩ := p
    intro e he
    unfold ramPut at he
    split at he
    · split at he
      · exact .inl he
      · rcases List.mem_cons.1 he with rfl | he
        · exact .inr ⟨rfl, ‹_›⟩
        · exact .inl he
    · split at he
      · split at he
        · exact .inl (List.mem_cons_of_mem _ he)
        · rcases List.mem_cons.1 he with rfl | he
          · exact .inr ⟨rfl, ‹_›⟩
          · exact .inl (List.mem_cons_of_mem _ he)
      · rcases List.mem_cons.1 he with rfl | he
        · exact .inl (List.mem_cons_self ..)
        · rcases ih e he with h | h
          · exact .inl (List.mem_cons_of_mem _ h)
          · exact .inr h

/-- A write keeps the canonical form. -/
theorem ramWf_ramPut [DecidableEq α] (d : α) {m : Ram α} (h : ramWf d m = true) (a : Nat) (x : α) :
    ramWf d (ramPut d m a x) = true := by
  simp only [ramWf, Bool.and_eq_true, List.all_eq_true, Bool.not_eq_true', decide_eq_false_iff_not] at h ⊢
  refine ⟨keysFrom_ramPut d h.1 a x (Nat.zero_le _), fun e he => ?_⟩
  rcases mem_ramPut d m a x e he with h' | ⟨h1, h2⟩
  · exact h.2 e h'
  · rw [h1]; exact h2

theorem keysFrom_filter {m : Ram α} {lo : Nat} (p : Nat × α → Bool) (h : keysFrom lo m = true) :
    keysFrom lo (m.filter p) = true := by
  induction m generalizing lo with
  | nil => rfl
  | cons q t ih =>
    obtain ⟨k, v⟩ := q
    simp only [keysFrom, Bool.and_eq_true, decide_eq_true_eq] at h
    rw [List.filter_cons]
    split
    · simp [keysFrom, h.1, ih h.2]
    · exact keysFrom_mono (by omega) (ih h.2)

/-- Dropping entries keeps the canonical form. -/
theorem ramWf_ramDrop [DecidableEq α] (d : α) {m : Ram α} (h : ramWf d m = true) (p : Nat → Bool) :
    ramWf d (ramDrop p m) = true := by
  simp only [ramWf, Bool.and_eq_true, List.all_eq_true, ramDrop] at h ⊢
  exact ⟨keysFrom_filter _ h.1, fun e he => h.2 e (List.mem_of_mem_filter he)⟩

/-- A write that lists the entry whatever its value keeps the keys rising. -/
theorem keysFrom_ramSet {m : Ram α} {lo : Nat} (h : keysFrom lo m = true) (a : Nat) (x : α) (ha : lo ≤ a) :
    keysFrom lo (ramSet m a x) = true := by
  induction m generalizing lo with
  | nil => simp [ramSet, keysFrom, ha]
  | cons p t ih =>
    obtain ⟨k, v⟩ := p
    simp only [keysFrom, Bool.and_eq_true, decide_eq_true_eq] at h
    unfold ramSet
    split
    · simp [keysFrom, ha, h.2]; omega
    · split
      · simp [keysFrom, h]
      · simp [keysFrom, h.1, ih h.2 (by omega)]

/-- Bytes written at consecutive keys keep the canonical form. -/
theorem ramWf_ramPutBytes (d : Byte) (l : List Byte) {m : Ram Byte} (h : ramWf d m = true) (a : Nat) :
    ramWf d (ramPutBytes d m a l) = true := by
  induction l generalizing m a with
  | nil => exact h
  | cons b t ih => exact ih (ramWf_ramPut d h a b) (a + 1)

theorem ramWf_keys [DecidableEq α] {d : α} {m : Ram α} (h : ramWf d m = true) : keysFrom 0 m = true := by
  simp only [ramWf, Bool.and_eq_true] at h; exact h.1

/-- A key outside the bytes written reads as before. -/
theorem ramGet_ramPutBytes_ne (d : Byte) (l : List Byte) {m : Ram Byte} (h : ramWf d m = true) (a k : Nat)
    (hk : k < a ∨ a + l.length ≤ k) : ramGet d (ramPutBytes d m a l) k = ramGet d m k := by
  induction l generalizing m a with
  | nil => rfl
  | cons b t ih =>
    rw [List.length_cons] at hk
    rw [ramPutBytes, ih (ramWf_ramPut d h a b) (a + 1) (by omega), ramGet_ramPut_ne d d (ramWf_keys h) a k b (by omega)]

/-- A key among the bytes written reads its byte. -/
theorem ramGet_ramPutBytes (d : Byte) (l : List Byte) {m : Ram Byte} (h : ramWf d m = true) (a i : Nat) (hi : i < l.length) :
    ramGet d (ramPutBytes d m a l) (a + i) = l[i] := by
  induction l generalizing m a i with
  | nil => exact absurd hi (by simp)
  | cons b t ih =>
    rw [List.length_cons] at hi
    cases i with
    | zero =>
      rw [Nat.add_zero, ramPutBytes, ramGet_ramPutBytes_ne d t (ramWf_ramPut d h a b) (a + 1) a (by omega), ramGet_ramPut d (ramWf_keys h) a b]; rfl
    | succ j =>
      have := ih (ramWf_ramPut d h a b) (a + 1) j (by omega)
      rw [show a + (j + 1) = a + 1 + j by omega, ramPutBytes, this]; rfl

/-- Reading back what was written. -/
theorem ramBytes_ramPutBytes (d : Byte) (l : List Byte) {m : Ram Byte} (h : ramWf d m = true) (a : Nat) :
    ramBytes d (ramPutBytes d m a l) a l.length = l := by
  apply List.ext_getElem
  · simp [ramBytes]
  · intro i h1 h2
    simp [ramBytes, ramGet_ramPutBytes d l h a i h2]

/-- Dropped keys read as unlisted, others as before. -/
theorem ramGet_ramDrop (d : α) {m : Ram α} {lo : Nat} (h : keysFrom lo m = true) (p : Nat → Bool) (k : Nat) :
    ramGet d (ramDrop p m) k = if p k then d else ramGet d m k := by
  induction m generalizing lo with
  | nil => cases p k <;> rfl
  | cons e t ih =>
    obtain ⟨q, v⟩ := e
    simp only [keysFrom, Bool.and_eq_true, decide_eq_true_eq] at h
    have hi := ih h.2
    unfold ramDrop at hi ⊢
    by_cases hq : p q = true
    · rw [List.filter_cons_of_neg (by simp [hq]), hi]
      by_cases hk : p k = true
      · simp [hk]
      · have hne : k ≠ q := by rintro rfl; exact hk hq
        rw [if_neg hk, if_neg hk, ramGet, if_neg hne]
        split
        · exact ramGet_below d h.2 (by omega)
        · rfl
    · rw [List.filter_cons_of_pos (by simp [hq]), ramGet, ramGet, hi]
      by_cases hk : k < q
      · rw [if_pos hk, if_pos hk]; cases p k <;> rfl
      · rw [if_neg hk, if_neg hk]
        by_cases he : k = q
        · subst he; rw [if_pos rfl, if_neg hq, if_pos rfl]
        · rw [if_neg he, if_neg he]

end Sys2Proof.Machine
end

