-- ==== Sys2Proof/Laws/State.lean ====
section
/-! SUPPORT. What each shared update of the state leaves alone, and what it reads back as. A proof about a meaning cites these and
does not unfold the updates. -/

namespace Sys2Proof.Machine

/-! ### Reading back an update -/

@[simp] theorem getLn_modLn (t : Trunk) (f : Lanes → Lanes) (s : State) : getLn (modLn t f s) t = f (getLn s t) := by
  cases t <;> rfl
@[simp] theorem getLn_modLn_peer (t : Trunk) (f : Lanes → Lanes) (s : State) :
    getLn (modLn t f s) (peer t) = getLn s (peer t) := by cases t <;> rfl
@[simp] theorem getDl_modDl (t : Trunk) (f : Dl → Dl) (s : State) : getDl (modDl t f s) t = f (getDl s t) := by
  cases t <;> rfl
@[simp] theorem getDl_modDl_peer (t : Trunk) (f : Dl → Dl) (s : State) :
    getDl (modDl t f s) (peer t) = getDl s (peer t) := by cases t <;> rfl
@[simp] theorem getTs_modTs (t : Trunk) (f : TrunkSup → TrunkSup) (s : State) : getTs (modTs t f s) t = f (getTs s t) := by
  cases t <;> rfl
@[simp] theorem getTs_modTs_peer (t : Trunk) (f : TrunkSup → TrunkSup) (s : State) :
    getTs (modTs t f s) (peer t) = getTs s (peer t) := by cases t <;> rfl
@[simp] theorem peer_peer (t : Trunk) : peer (peer t) = t := by cases t <;> rfl
theorem peer_ne (t : Trunk) : peer t ≠ t := by cases t <;> decide

/-- An entry modified in place reads as modified when it exists. -/
theorem getD_modify {α : Type} (l : List α) (c : Nat) (f : α → α) (d : α) (h : c < l.length) :
    (l.modify c f).getD c d = f (l.getD c d) := by
  simp [List.getD, h]

/-- Other entries stay. -/
theorem getD_modify_ne {α : Type} (l : List α) (c k : Nat) (f : α → α) (d : α) (h : c ≠ k) :
    (l.modify c f).getD k d = l.getD k d := by
  simp [List.getD, h]

/-- Out of range nothing is modified. -/
theorem modify_out {α : Type} (l : List α) (c : Nat) (f : α → α) (h : l.length ≤ c) : l.modify c f = l := by
  apply List.ext_getElem? ; intro k
  rw [List.getElem?_modify]
  by_cases hk : c = k
  · subst hk; simp [List.getElem?_eq_none h]
  · simp [hk]

theorem getConv_modConv (c : Nat) (f : Conv → Conv) (s : State) (h : c < s.conv.length) :
    getConv (modConv c f s) c = f (getConv s c) := getD_modify _ _ _ _ h
theorem getConv_modConv_ne (c k : Nat) (f : Conv → Conv) (s : State) (h : c ≠ k) :
    getConv (modConv c f s) k = getConv s k := getD_modify_ne _ _ _ _ _ h
theorem getChan_modChan (c : Nat) (f : Chan → Chan) (s : State) (h : c < s.chan.length) :
    getChan (modChan c f s) c = f (getChan s c) := getD_modify _ _ _ _ h
theorem getChan_modChan_ne (c k : Nat) (f : Chan → Chan) (s : State) (h : c ≠ k) :
    getChan (modChan c f s) k = getChan s k := getD_modify_ne _ _ _ _ _ h
theorem getFlint_modFlint (c : Nat) (f : Flint → Flint) (s : State) (h : c < s.flint.length) :
    getFlint (modFlint c f s) c = f (getFlint s c) := getD_modify _ _ _ _ h
theorem getFlint_modFlint_ne (c k : Nat) (f : Flint → Flint) (s : State) (h : c ≠ k) :
    getFlint (modFlint c f s) k = getFlint s k := getD_modify_ne _ _ _ _ _ h
theorem getFout_modFout (o : Nat) (f : FlintOut → FlintOut) (s : State) (h : o < s.fout.length) :
    getFout (modFout o f s) o = f (getFout s o) := getD_modify _ _ _ _ h
theorem getFout_modFout_ne (o k : Nat) (f : FlintOut → FlintOut) (s : State) (h : o ≠ k) :
    getFout (modFout o f s) k = getFout s k := getD_modify_ne _ _ _ _ _ h
theorem getSeam_modSeam (i : Nat) (f : Seam → Seam) (s : State) (h : i < s.seams.length) :
    getSeam (modSeam i f s) i = f (getSeam s i) := getD_modify _ _ _ _ h
theorem getSeam_modSeam_ne (i k : Nat) (f : Seam → Seam) (s : State) (h : i ≠ k) :
    getSeam (modSeam i f s) k = getSeam s k := getD_modify_ne _ _ _ _ _ h
theorem getQ_modQ (q : Nat) (f : Queue → Queue) (s : State) (h : q < s.ser.qs.length) :
    getQ (modQ q f s) q = f (getQ s q) := getD_modify _ _ _ _ h
theorem getQ_modQ_ne (q k : Nat) (f : Queue → Queue) (s : State) (h : q ≠ k) :
    getQ (modQ q f s) k = getQ s k := getD_modify_ne _ _ _ _ _ h
theorem masterIdx_lt (m : Master) : masterIdx m < 4 := by cases m <;> decide
theorem masterIdx_inj (m k : Master) : masterIdx m = masterIdx k ↔ m = k := by cases m <;> cases k <;> decide
theorem getMaster_modMaster (m : Master) (f : MasterSt → MasterSt) (s : State) (h : s.fab.masters.length = 4) :
    getMaster (modMaster m f s) m = f (getMaster s m) := getD_modify _ _ _ _ (h ▸ masterIdx_lt m)
theorem getMaster_modMaster_ne (m k : Master) (f : MasterSt → MasterSt) (s : State) (h : m ≠ k) :
    getMaster (modMaster m f s) k = getMaster s k :=
  getD_modify_ne _ _ _ _ _ (fun e => h ((masterIdx_inj m k).1 e))

/-! ### What an update leaves alone -/

/-- `modLn` writes one trunk's lanes only. -/
@[simp] theorem modLn_rest (t : Trunk) (f : Lanes → Lanes) (s : State) :
    (modLn t f s).pending = s.pending ∧ (modLn t f s).pw = s.pw ∧ (modLn t f s).jtag = s.jtag ∧ (modLn t f s).fab = s.fab
      ∧ (modLn t f s).orb = s.orb ∧ (modLn t f s).pll = s.pll ∧ (modLn t f s).conv = s.conv ∧ (modLn t f s).chan = s.chan
      ∧ (modLn t f s).ring = s.ring ∧ (modLn t f s).ringErr = s.ringErr ∧ (modLn t f s).feat = s.feat
      ∧ (modLn t f s).featErr = s.featErr ∧ (modLn t f s).flint = s.flint ∧ (modLn t f s).fout = s.fout
      ∧ (modLn t f s).flintOn = s.flintOn ∧ (modLn t f s).seams = s.seams ∧ (modLn t f s).acq = s.acq ∧ (modLn t f s).ser = s.ser
      ∧ (modLn t f s).frm = s.frm ∧ (modLn t f s).dlA = s.dlA ∧ (modLn t f s).dlB = s.dlB ∧ (modLn t f s).sup = s.sup
      ∧ (modLn t f s).tb = s.tb ∧ (modLn t f s).mg = s.mg ∧ (modLn t f s).slow = s.slow ∧ (modLn t f s).cal = s.cal
      ∧ (modLn t f s).mon = s.mon ∧ (modLn t f s).pls = s.pls ∧ (modLn t f s).her = s.her := by
  cases t <;> simp [modLn]

/-- `modDl` writes one downlink only. -/
@[simp] theorem modDl_rest (t : Trunk) (f : Dl → Dl) (s : State) :
    (modDl t f s).pending = s.pending ∧ (modDl t f s).pw = s.pw ∧ (modDl t f s).jtag = s.jtag ∧ (modDl t f s).fab = s.fab
      ∧ (modDl t f s).orb = s.orb ∧ (modDl t f s).pll = s.pll ∧ (modDl t f s).conv = s.conv ∧ (modDl t f s).chan = s.chan
      ∧ (modDl t f s).ring = s.ring ∧ (modDl t f s).ringErr = s.ringErr ∧ (modDl t f s).feat = s.feat
      ∧ (modDl t f s).featErr = s.featErr ∧ (modDl t f s).flint = s.flint ∧ (modDl t f s).fout = s.fout
      ∧ (modDl t f s).flintOn = s.flintOn ∧ (modDl t f s).seams = s.seams ∧ (modDl t f s).acq = s.acq ∧ (modDl t f s).ser = s.ser
      ∧ (modDl t f s).frm = s.frm ∧ (modDl t f s).lnA = s.lnA ∧ (modDl t f s).lnB = s.lnB ∧ (modDl t f s).sup = s.sup
      ∧ (modDl t f s).tb = s.tb ∧ (modDl t f s).mg = s.mg ∧ (modDl t f s).slow = s.slow ∧ (modDl t f s).cal = s.cal
      ∧ (modDl t f s).mon = s.mon ∧ (modDl t f s).pls = s.pls ∧ (modDl t f s).her = s.her := by
  cases t <;> simp [modDl]

/-- `modTs` writes the supervisor only. -/
@[simp] theorem modTs_rest (t : Trunk) (f : TrunkSup → TrunkSup) (s : State) :
    (modTs t f s).pending = s.pending ∧ (modTs t f s).pw = s.pw ∧ (modTs t f s).jtag = s.jtag ∧ (modTs t f s).fab = s.fab
      ∧ (modTs t f s).orb = s.orb ∧ (modTs t f s).pll = s.pll ∧ (modTs t f s).conv = s.conv ∧ (modTs t f s).chan = s.chan
      ∧ (modTs t f s).ring = s.ring ∧ (modTs t f s).ringErr = s.ringErr ∧ (modTs t f s).feat = s.feat
      ∧ (modTs t f s).featErr = s.featErr ∧ (modTs t f s).flint = s.flint ∧ (modTs t f s).fout = s.fout
      ∧ (modTs t f s).flintOn = s.flintOn ∧ (modTs t f s).seams = s.seams ∧ (modTs t f s).acq = s.acq ∧ (modTs t f s).ser = s.ser
      ∧ (modTs t f s).frm = s.frm ∧ (modTs t f s).lnA = s.lnA ∧ (modTs t f s).lnB = s.lnB ∧ (modTs t f s).dlA = s.dlA
      ∧ (modTs t f s).dlB = s.dlB ∧ (modTs t f s).tb = s.tb ∧ (modTs t f s).mg = s.mg ∧ (modTs t f s).slow = s.slow
      ∧ (modTs t f s).cal = s.cal ∧ (modTs t f s).mon = s.mon ∧ (modTs t f s).pls = s.pls ∧ (modTs t f s).her = s.her := by
  cases t <;> simp [modTs]

/-- `modConv` writes one entry of `conv` only. -/
@[simp] theorem modConv_rest (c : Nat) (f : Conv → Conv) (s : State) :
    (modConv c f s).pending = s.pending ∧ (modConv c f s).pw = s.pw ∧ (modConv c f s).jtag = s.jtag ∧ (modConv c f s).fab = s.fab
      ∧ (modConv c f s).orb = s.orb ∧ (modConv c f s).pll = s.pll ∧ (modConv c f s).chan = s.chan ∧ (modConv c f s).ring = s.ring
      ∧ (modConv c f s).ringErr = s.ringErr ∧ (modConv c f s).feat = s.feat ∧ (modConv c f s).featErr = s.featErr
      ∧ (modConv c f s).flint = s.flint ∧ (modConv c f s).fout = s.fout ∧ (modConv c f s).flintOn = s.flintOn
      ∧ (modConv c f s).seams = s.seams ∧ (modConv c f s).acq = s.acq ∧ (modConv c f s).ser = s.ser ∧ (modConv c f s).frm = s.frm
      ∧ (modConv c f s).lnA = s.lnA ∧ (modConv c f s).lnB = s.lnB ∧ (modConv c f s).dlA = s.dlA ∧ (modConv c f s).dlB = s.dlB
      ∧ (modConv c f s).sup = s.sup ∧ (modConv c f s).tb = s.tb ∧ (modConv c f s).mg = s.mg ∧ (modConv c f s).slow = s.slow
      ∧ (modConv c f s).cal = s.cal ∧ (modConv c f s).mon = s.mon ∧ (modConv c f s).pls = s.pls ∧ (modConv c f s).her = s.her := by
  simp [modConv]

/-- `modChan` writes one entry of `chan` only. -/
@[simp] theorem modChan_rest (c : Nat) (f : Chan → Chan) (s : State) :
    (modChan c f s).pending = s.pending ∧ (modChan c f s).pw = s.pw ∧ (modChan c f s).jtag = s.jtag ∧ (modChan c f s).fab = s.fab
      ∧ (modChan c f s).orb = s.orb ∧ (modChan c f s).pll = s.pll ∧ (modChan c f s).conv = s.conv ∧ (modChan c f s).ring = s.ring
      ∧ (modChan c f s).ringErr = s.ringErr ∧ (modChan c f s).feat = s.feat ∧ (modChan c f s).featErr = s.featErr
      ∧ (modChan c f s).flint = s.flint ∧ (modChan c f s).fout = s.fout ∧ (modChan c f s).flintOn = s.flintOn
      ∧ (modChan c f s).seams = s.seams ∧ (modChan c f s).acq = s.acq ∧ (modChan c f s).ser = s.ser ∧ (modChan c f s).frm = s.frm
      ∧ (modChan c f s).lnA = s.lnA ∧ (modChan c f s).lnB = s.lnB ∧ (modChan c f s).dlA = s.dlA ∧ (modChan c f s).dlB = s.dlB
      ∧ (modChan c f s).sup = s.sup ∧ (modChan c f s).tb = s.tb ∧ (modChan c f s).mg = s.mg ∧ (modChan c f s).slow = s.slow
      ∧ (modChan c f s).cal = s.cal ∧ (modChan c f s).mon = s.mon ∧ (modChan c f s).pls = s.pls ∧ (modChan c f s).her = s.her := by
  simp [modChan]

/-- `modFlint` writes one entry of `flint` only. -/
@[simp] theorem modFlint_rest (c : Nat) (f : Flint → Flint) (s : State) :
    (modFlint c f s).pending = s.pending ∧ (modFlint c f s).pw = s.pw ∧ (modFlint c f s).jtag = s.jtag ∧ (modFlint c f s).fab = s.fab
      ∧ (modFlint c f s).orb = s.orb ∧ (modFlint c f s).pll = s.pll ∧ (modFlint c f s).conv = s.conv ∧ (modFlint c f s).chan = s.chan
      ∧ (modFlint c f s).ring = s.ring ∧ (modFlint c f s).ringErr = s.ringErr ∧ (modFlint c f s).feat = s.feat
      ∧ (modFlint c f s).featErr = s.featErr ∧ (modFlint c f s).fout = s.fout ∧ (modFlint c f s).flintOn = s.flintOn
      ∧ (modFlint c f s).seams = s.seams ∧ (modFlint c f s).acq = s.acq ∧ (modFlint c f s).ser = s.ser ∧ (modFlint c f s).frm = s.frm
      ∧ (modFlint c f s).lnA = s.lnA ∧ (modFlint c f s).lnB = s.lnB ∧ (modFlint c f s).dlA = s.dlA ∧ (modFlint c f s).dlB = s.dlB
      ∧ (modFlint c f s).sup = s.sup ∧ (modFlint c f s).tb = s.tb ∧ (modFlint c f s).mg = s.mg ∧ (modFlint c f s).slow = s.slow
      ∧ (modFlint c f s).cal = s.cal ∧ (modFlint c f s).mon = s.mon ∧ (modFlint c f s).pls = s.pls ∧ (modFlint c f s).her = s.her := by
  simp [modFlint]

/-- `modFout` writes one entry of `fout` only. -/
@[simp] theorem modFout_rest (o : Nat) (f : FlintOut → FlintOut) (s : State) :
    (modFout o f s).pending = s.pending ∧ (modFout o f s).pw = s.pw ∧ (modFout o f s).jtag = s.jtag ∧ (modFout o f s).fab = s.fab
      ∧ (modFout o f s).orb = s.orb ∧ (modFout o f s).pll = s.pll ∧ (modFout o f s).conv = s.conv ∧ (modFout o f s).chan = s.chan
      ∧ (modFout o f s).ring = s.ring ∧ (modFout o f s).ringErr = s.ringErr ∧ (modFout o f s).feat = s.feat
      ∧ (modFout o f s).featErr = s.featErr ∧ (modFout o f s).flint = s.flint ∧ (modFout o f s).flintOn = s.flintOn
      ∧ (modFout o f s).seams = s.seams ∧ (modFout o f s).acq = s.acq ∧ (modFout o f s).ser = s.ser ∧ (modFout o f s).frm = s.frm
      ∧ (modFout o f s).lnA = s.lnA ∧ (modFout o f s).lnB = s.lnB ∧ (modFout o f s).dlA = s.dlA ∧ (modFout o f s).dlB = s.dlB
      ∧ (modFout o f s).sup = s.sup ∧ (modFout o f s).tb = s.tb ∧ (modFout o f s).mg = s.mg ∧ (modFout o f s).slow = s.slow
      ∧ (modFout o f s).cal = s.cal ∧ (modFout o f s).mon = s.mon ∧ (modFout o f s).pls = s.pls ∧ (modFout o f s).her = s.her := by
  simp [modFout]

/-- `modSeam` writes one entry of `seams` only. -/
@[simp] theorem modSeam_rest (i : Nat) (f : Seam → Seam) (s : State) :
    (modSeam i f s).pending = s.pending ∧ (modSeam i f s).pw = s.pw ∧ (modSeam i f s).jtag = s.jtag ∧ (modSeam i f s).fab = s.fab
      ∧ (modSeam i f s).orb = s.orb ∧ (modSeam i f s).pll = s.pll ∧ (modSeam i f s).conv = s.conv ∧ (modSeam i f s).chan = s.chan
      ∧ (modSeam i f s).ring = s.ring ∧ (modSeam i f s).ringErr = s.ringErr ∧ (modSeam i f s).feat = s.feat
      ∧ (modSeam i f s).featErr = s.featErr ∧ (modSeam i f s).flint = s.flint ∧ (modSeam i f s).fout = s.fout
      ∧ (modSeam i f s).flintOn = s.flintOn ∧ (modSeam i f s).acq = s.acq ∧ (modSeam i f s).ser = s.ser ∧ (modSeam i f s).frm = s.frm
      ∧ (modSeam i f s).lnA = s.lnA ∧ (modSeam i f s).lnB = s.lnB ∧ (modSeam i f s).dlA = s.dlA ∧ (modSeam i f s).dlB = s.dlB
      ∧ (modSeam i f s).sup = s.sup ∧ (modSeam i f s).tb = s.tb ∧ (modSeam i f s).mg = s.mg ∧ (modSeam i f s).slow = s.slow
      ∧ (modSeam i f s).cal = s.cal ∧ (modSeam i f s).mon = s.mon ∧ (modSeam i f s).pls = s.pls ∧ (modSeam i f s).her = s.her := by
  simp [modSeam]

/-- `modQ` writes one entry of `ser` only. -/
@[simp] theorem modQ_rest (q : Nat) (f : Queue → Queue) (s : State) :
    (modQ q f s).pending = s.pending ∧ (modQ q f s).pw = s.pw ∧ (modQ q f s).jtag = s.jtag ∧ (modQ q f s).fab = s.fab
      ∧ (modQ q f s).orb = s.orb ∧ (modQ q f s).pll = s.pll ∧ (modQ q f s).conv = s.conv ∧ (modQ q f s).chan = s.chan
      ∧ (modQ q f s).ring = s.ring ∧ (modQ q f s).ringErr = s.ringErr ∧ (modQ q f s).feat = s.feat ∧ (modQ q f s).featErr = s.featErr
      ∧ (modQ q f s).flint = s.flint ∧ (modQ q f s).fout = s.fout ∧ (modQ q f s).flintOn = s.flintOn ∧ (modQ q f s).seams = s.seams
      ∧ (modQ q f s).acq = s.acq ∧ (modQ q f s).frm = s.frm ∧ (modQ q f s).lnA = s.lnA ∧ (modQ q f s).lnB = s.lnB
      ∧ (modQ q f s).dlA = s.dlA ∧ (modQ q f s).dlB = s.dlB ∧ (modQ q f s).sup = s.sup ∧ (modQ q f s).tb = s.tb
      ∧ (modQ q f s).mg = s.mg ∧ (modQ q f s).slow = s.slow ∧ (modQ q f s).cal = s.cal ∧ (modQ q f s).mon = s.mon
      ∧ (modQ q f s).pls = s.pls ∧ (modQ q f s).her = s.her := by
  simp [modQ]

/-- `modMaster` writes the fabric only. -/
@[simp] theorem modMaster_rest (m : Master) (f : MasterSt → MasterSt) (s : State) :
    (modMaster m f s).pending = s.pending ∧ (modMaster m f s).pw = s.pw ∧ (modMaster m f s).jtag = s.jtag
      ∧ (modMaster m f s).orb = s.orb ∧ (modMaster m f s).pll = s.pll ∧ (modMaster m f s).conv = s.conv
      ∧ (modMaster m f s).chan = s.chan ∧ (modMaster m f s).ring = s.ring ∧ (modMaster m f s).ringErr = s.ringErr
      ∧ (modMaster m f s).feat = s.feat ∧ (modMaster m f s).featErr = s.featErr ∧ (modMaster m f s).flint = s.flint
      ∧ (modMaster m f s).fout = s.fout ∧ (modMaster m f s).flintOn = s.flintOn ∧ (modMaster m f s).seams = s.seams
      ∧ (modMaster m f s).acq = s.acq ∧ (modMaster m f s).ser = s.ser ∧ (modMaster m f s).frm = s.frm ∧ (modMaster m f s).lnA = s.lnA
      ∧ (modMaster m f s).lnB = s.lnB ∧ (modMaster m f s).dlA = s.dlA ∧ (modMaster m f s).dlB = s.dlB ∧ (modMaster m f s).sup = s.sup
      ∧ (modMaster m f s).tb = s.tb ∧ (modMaster m f s).mg = s.mg ∧ (modMaster m f s).slow = s.slow ∧ (modMaster m f s).cal = s.cal
      ∧ (modMaster m f s).mon = s.mon ∧ (modMaster m f s).pls = s.pls ∧ (modMaster m f s).her = s.her := by
  simp [modMaster]

/-- `setReg` writes the fabric only. -/
@[simp] theorem setReg_rest (p o v : Nat) (s : State) :
    (setReg p o v s).pending = s.pending ∧ (setReg p o v s).pw = s.pw ∧ (setReg p o v s).jtag = s.jtag ∧ (setReg p o v s).orb = s.orb
      ∧ (setReg p o v s).pll = s.pll ∧ (setReg p o v s).conv = s.conv ∧ (setReg p o v s).chan = s.chan ∧ (setReg p o v s).ring = s.ring
      ∧ (setReg p o v s).ringErr = s.ringErr ∧ (setReg p o v s).feat = s.feat ∧ (setReg p o v s).featErr = s.featErr
      ∧ (setReg p o v s).flint = s.flint ∧ (setReg p o v s).fout = s.fout ∧ (setReg p o v s).flintOn = s.flintOn
      ∧ (setReg p o v s).seams = s.seams ∧ (setReg p o v s).acq = s.acq ∧ (setReg p o v s).ser = s.ser ∧ (setReg p o v s).frm = s.frm
      ∧ (setReg p o v s).lnA = s.lnA ∧ (setReg p o v s).lnB = s.lnB ∧ (setReg p o v s).dlA = s.dlA ∧ (setReg p o v s).dlB = s.dlB
      ∧ (setReg p o v s).sup = s.sup ∧ (setReg p o v s).tb = s.tb ∧ (setReg p o v s).mg = s.mg ∧ (setReg p o v s).slow = s.slow
      ∧ (setReg p o v s).cal = s.cal ∧ (setReg p o v s).mon = s.mon ∧ (setReg p o v s).pls = s.pls ∧ (setReg p o v s).her = s.her := by
  simp [setReg]

/-- `modPage` writes the fabric only. -/
@[simp] theorem modPage_rest (p : Nat) (f : PageSt → PageSt) (s : State) :
    (modPage p f s).pending = s.pending ∧ (modPage p f s).pw = s.pw ∧ (modPage p f s).jtag = s.jtag ∧ (modPage p f s).orb = s.orb
      ∧ (modPage p f s).pll = s.pll ∧ (modPage p f s).conv = s.conv ∧ (modPage p f s).chan = s.chan ∧ (modPage p f s).ring = s.ring
      ∧ (modPage p f s).ringErr = s.ringErr ∧ (modPage p f s).feat = s.feat ∧ (modPage p f s).featErr = s.featErr
      ∧ (modPage p f s).flint = s.flint ∧ (modPage p f s).fout = s.fout ∧ (modPage p f s).flintOn = s.flintOn
      ∧ (modPage p f s).seams = s.seams ∧ (modPage p f s).acq = s.acq ∧ (modPage p f s).ser = s.ser ∧ (modPage p f s).frm = s.frm
      ∧ (modPage p f s).lnA = s.lnA ∧ (modPage p f s).lnB = s.lnB ∧ (modPage p f s).dlA = s.dlA ∧ (modPage p f s).dlB = s.dlB
      ∧ (modPage p f s).sup = s.sup ∧ (modPage p f s).tb = s.tb ∧ (modPage p f s).mg = s.mg ∧ (modPage p f s).slow = s.slow
      ∧ (modPage p f s).cal = s.cal ∧ (modPage p f s).mon = s.mon ∧ (modPage p f s).pls = s.pls ∧ (modPage p f s).her = s.her := by
  simp [modPage]

/-- `modTag` writes the present slot's tag only. -/
@[simp] theorem modTag_rest (f : Tag → Tag) (s : State) :
    (modTag f s).pending = s.pending ∧ (modTag f s).pw = s.pw ∧ (modTag f s).jtag = s.jtag ∧ (modTag f s).fab = s.fab
      ∧ (modTag f s).pll = s.pll ∧ (modTag f s).conv = s.conv ∧ (modTag f s).chan = s.chan ∧ (modTag f s).ring = s.ring
      ∧ (modTag f s).ringErr = s.ringErr ∧ (modTag f s).feat = s.feat ∧ (modTag f s).featErr = s.featErr ∧ (modTag f s).flint = s.flint
      ∧ (modTag f s).fout = s.fout ∧ (modTag f s).flintOn = s.flintOn ∧ (modTag f s).seams = s.seams ∧ (modTag f s).acq = s.acq
      ∧ (modTag f s).ser = s.ser ∧ (modTag f s).frm = s.frm ∧ (modTag f s).lnA = s.lnA ∧ (modTag f s).lnB = s.lnB
      ∧ (modTag f s).dlA = s.dlA ∧ (modTag f s).dlB = s.dlB ∧ (modTag f s).sup = s.sup ∧ (modTag f s).tb = s.tb
      ∧ (modTag f s).mg = s.mg ∧ (modTag f s).slow = s.slow ∧ (modTag f s).cal = s.cal ∧ (modTag f s).mon = s.mon
      ∧ (modTag f s).pls = s.pls ∧ (modTag f s).her = s.her := by
  simp [modTag]

/-- `tbAdvance` writes the time bases only. -/
@[simp] theorem tbAdvance_rest (n : Nat) (s : State) :
    (tbAdvance n s).pending = s.pending ∧ (tbAdvance n s).pw = s.pw ∧ (tbAdvance n s).jtag = s.jtag ∧ (tbAdvance n s).fab = s.fab
      ∧ (tbAdvance n s).orb = s.orb ∧ (tbAdvance n s).pll = s.pll ∧ (tbAdvance n s).conv = s.conv ∧ (tbAdvance n s).chan = s.chan
      ∧ (tbAdvance n s).ring = s.ring ∧ (tbAdvance n s).ringErr = s.ringErr ∧ (tbAdvance n s).feat = s.feat
      ∧ (tbAdvance n s).featErr = s.featErr ∧ (tbAdvance n s).flint = s.flint ∧ (tbAdvance n s).fout = s.fout
      ∧ (tbAdvance n s).flintOn = s.flintOn ∧ (tbAdvance n s).seams = s.seams ∧ (tbAdvance n s).acq = s.acq
      ∧ (tbAdvance n s).ser = s.ser ∧ (tbAdvance n s).frm = s.frm ∧ (tbAdvance n s).lnA = s.lnA ∧ (tbAdvance n s).lnB = s.lnB
      ∧ (tbAdvance n s).dlA = s.dlA ∧ (tbAdvance n s).dlB = s.dlB ∧ (tbAdvance n s).sup = s.sup ∧ (tbAdvance n s).mg = s.mg
      ∧ (tbAdvance n s).slow = s.slow ∧ (tbAdvance n s).cal = s.cal ∧ (tbAdvance n s).mon = s.mon ∧ (tbAdvance n s).pls = s.pls
      ∧ (tbAdvance n s).her = s.her := by
  simp [tbAdvance]

/-- `coreCycles` writes time only. -/
@[simp] theorem coreCycles_rest (n : Nat) (s : State) :
    (coreCycles n s).pending = s.pending ∧ (coreCycles n s).jtag = s.jtag ∧ (coreCycles n s).fab = s.fab ∧ (coreCycles n s).orb = s.orb
      ∧ (coreCycles n s).pll = s.pll ∧ (coreCycles n s).conv = s.conv ∧ (coreCycles n s).chan = s.chan ∧ (coreCycles n s).ring = s.ring
      ∧ (coreCycles n s).ringErr = s.ringErr ∧ (coreCycles n s).feat = s.feat ∧ (coreCycles n s).featErr = s.featErr
      ∧ (coreCycles n s).flint = s.flint ∧ (coreCycles n s).fout = s.fout ∧ (coreCycles n s).flintOn = s.flintOn
      ∧ (coreCycles n s).seams = s.seams ∧ (coreCycles n s).acq = s.acq ∧ (coreCycles n s).ser = s.ser ∧ (coreCycles n s).frm = s.frm
      ∧ (coreCycles n s).lnA = s.lnA ∧ (coreCycles n s).lnB = s.lnB ∧ (coreCycles n s).dlA = s.dlA ∧ (coreCycles n s).dlB = s.dlB
      ∧ (coreCycles n s).sup = s.sup ∧ (coreCycles n s).mg = s.mg ∧ (coreCycles n s).slow = s.slow ∧ (coreCycles n s).cal = s.cal
      ∧ (coreCycles n s).mon = s.mon ∧ (coreCycles n s).pls = s.pls ∧ (coreCycles n s).her = s.her := by
  simp [coreCycles]

/-- `takeFree` advances the counter of the free values only. -/
@[simp] theorem takeFree_rest (s : State) :
    ((takeFree s).2).pending = s.pending ∧ ((takeFree s).2).jtag = s.jtag ∧ ((takeFree s).2).fab = s.fab ∧ ((takeFree s).2).orb = s.orb
      ∧ ((takeFree s).2).pll = s.pll ∧ ((takeFree s).2).conv = s.conv ∧ ((takeFree s).2).chan = s.chan ∧ ((takeFree s).2).ring = s.ring
      ∧ ((takeFree s).2).ringErr = s.ringErr ∧ ((takeFree s).2).feat = s.feat ∧ ((takeFree s).2).featErr = s.featErr
      ∧ ((takeFree s).2).flint = s.flint ∧ ((takeFree s).2).fout = s.fout ∧ ((takeFree s).2).flintOn = s.flintOn
      ∧ ((takeFree s).2).seams = s.seams ∧ ((takeFree s).2).acq = s.acq ∧ ((takeFree s).2).ser = s.ser ∧ ((takeFree s).2).frm = s.frm
      ∧ ((takeFree s).2).lnA = s.lnA ∧ ((takeFree s).2).lnB = s.lnB ∧ ((takeFree s).2).dlA = s.dlA ∧ ((takeFree s).2).dlB = s.dlB
      ∧ ((takeFree s).2).sup = s.sup ∧ ((takeFree s).2).tb = s.tb ∧ ((takeFree s).2).mg = s.mg ∧ ((takeFree s).2).slow = s.slow
      ∧ ((takeFree s).2).cal = s.cal ∧ ((takeFree s).2).mon = s.mon ∧ ((takeFree s).2).pls = s.pls ∧ ((takeFree s).2).her = s.her := by
  simp [takeFree]

end Sys2Proof.Machine
end

