-- ==== Sys2Proof/Laws/Fabric.lean ====
section
/-! SUPPORT. What tallies, notices and refusals change: the header state of pages and the notice store, nothing else; and what a
tally reads after one event. -/

namespace Sys2Proof.Machine

/-- A change of a page's header state changes nothing else. -/
@[simp] theorem modPage_fab (p : Nat) (f : PageSt → PageSt) (s : State) :
    (modPage p f s).pending = s.pending ∧ (modPage p f s).pw = s.pw ∧ (modPage p f s).jtag = s.jtag ∧ (modPage p f s).orb = s.orb
      ∧ (modPage p f s).pll = s.pll ∧ (modPage p f s).conv = s.conv ∧ (modPage p f s).chan = s.chan ∧ (modPage p f s).ring = s.ring
      ∧ (modPage p f s).ringErr = s.ringErr ∧ (modPage p f s).feat = s.feat ∧ (modPage p f s).featErr = s.featErr
      ∧ (modPage p f s).flint = s.flint ∧ (modPage p f s).fout = s.fout ∧ (modPage p f s).flintOn = s.flintOn
      ∧ (modPage p f s).seams = s.seams ∧ (modPage p f s).acq = s.acq ∧ (modPage p f s).ser = s.ser ∧ (modPage p f s).frm = s.frm
      ∧ (modPage p f s).lnA = s.lnA ∧ (modPage p f s).lnB = s.lnB ∧ (modPage p f s).dlA = s.dlA ∧ (modPage p f s).dlB = s.dlB
      ∧ (modPage p f s).sup = s.sup ∧ (modPage p f s).tb = s.tb ∧ (modPage p f s).mg = s.mg ∧ (modPage p f s).slow = s.slow
      ∧ (modPage p f s).cal = s.cal ∧ (modPage p f s).mon = s.mon ∧ (modPage p f s).pls = s.pls ∧ (modPage p f s).her = s.her
      ∧ (modPage p f s).fab.regs = s.fab.regs ∧ (modPage p f s).fab.buf = s.fab.buf ∧ (modPage p f s).fab.frozen = s.fab.frozen
      ∧ (modPage p f s).fab.frozenPg = s.fab.frozenPg ∧ (modPage p f s).fab.late = s.fab.late ∧ (modPage p f s).fab.hist = s.fab.hist
      ∧ (modPage p f s).fab.masters = s.fab.masters ∧ (modPage p f s).fab.marked = s.fab.marked ∧ (modPage p f s).fab.next = s.fab.next
      ∧ (modPage p f s).fab.applied = s.fab.applied ∧ (modPage p f s).fab.refused = s.fab.refused
      ∧ (modPage p f s).fab.idleAt = s.fab.idleAt ∧ (modPage p f s).fab.waiting = s.fab.waiting
      ∧ (modPage p f s).fab.upsets = s.fab.upsets ∧ (modPage p f s).fab.passes = s.fab.passes := by
  simp [modPage]

/-- A tally changes the header state of its page only. -/
@[simp] theorem bump_frame (p i : Nat) (s : State) :
    (bump p i s).pending = s.pending ∧ (bump p i s).pw = s.pw ∧ (bump p i s).jtag = s.jtag ∧ (bump p i s).orb = s.orb
      ∧ (bump p i s).pll = s.pll ∧ (bump p i s).conv = s.conv ∧ (bump p i s).chan = s.chan ∧ (bump p i s).ring = s.ring
      ∧ (bump p i s).ringErr = s.ringErr ∧ (bump p i s).feat = s.feat ∧ (bump p i s).featErr = s.featErr ∧ (bump p i s).flint = s.flint
      ∧ (bump p i s).fout = s.fout ∧ (bump p i s).flintOn = s.flintOn ∧ (bump p i s).seams = s.seams ∧ (bump p i s).acq = s.acq
      ∧ (bump p i s).ser = s.ser ∧ (bump p i s).frm = s.frm ∧ (bump p i s).lnA = s.lnA ∧ (bump p i s).lnB = s.lnB
      ∧ (bump p i s).dlA = s.dlA ∧ (bump p i s).dlB = s.dlB ∧ (bump p i s).sup = s.sup ∧ (bump p i s).tb = s.tb
      ∧ (bump p i s).mg = s.mg ∧ (bump p i s).slow = s.slow ∧ (bump p i s).cal = s.cal ∧ (bump p i s).mon = s.mon
      ∧ (bump p i s).pls = s.pls ∧ (bump p i s).her = s.her ∧ (bump p i s).fab.regs = s.fab.regs ∧ (bump p i s).fab.buf = s.fab.buf
      ∧ (bump p i s).fab.frozen = s.fab.frozen ∧ (bump p i s).fab.frozenPg = s.fab.frozenPg ∧ (bump p i s).fab.late = s.fab.late
      ∧ (bump p i s).fab.hist = s.fab.hist ∧ (bump p i s).fab.masters = s.fab.masters ∧ (bump p i s).fab.marked = s.fab.marked
      ∧ (bump p i s).fab.next = s.fab.next ∧ (bump p i s).fab.applied = s.fab.applied ∧ (bump p i s).fab.refused = s.fab.refused
      ∧ (bump p i s).fab.idleAt = s.fab.idleAt ∧ (bump p i s).fab.waiting = s.fab.waiting ∧ (bump p i s).fab.upsets = s.fab.upsets
      ∧ (bump p i s).fab.passes = s.fab.passes := by
  simp [bump]

/-- A notice that enters the store changes header state and the store only. -/
@[simp] theorem noticeIn_frame (p : Nat) (n : Notice) (s : State) :
    (noticeIn p n s).pending = s.pending ∧ (noticeIn p n s).pw = s.pw ∧ (noticeIn p n s).jtag = s.jtag
      ∧ (noticeIn p n s).orb = s.orb ∧ (noticeIn p n s).pll = s.pll ∧ (noticeIn p n s).conv = s.conv
      ∧ (noticeIn p n s).chan = s.chan ∧ (noticeIn p n s).ring = s.ring ∧ (noticeIn p n s).ringErr = s.ringErr
      ∧ (noticeIn p n s).feat = s.feat ∧ (noticeIn p n s).featErr = s.featErr ∧ (noticeIn p n s).flint = s.flint
      ∧ (noticeIn p n s).fout = s.fout ∧ (noticeIn p n s).flintOn = s.flintOn ∧ (noticeIn p n s).seams = s.seams
      ∧ (noticeIn p n s).acq = s.acq ∧ (noticeIn p n s).ser = s.ser ∧ (noticeIn p n s).frm = s.frm
      ∧ (noticeIn p n s).lnA = s.lnA ∧ (noticeIn p n s).lnB = s.lnB ∧ (noticeIn p n s).dlA = s.dlA
      ∧ (noticeIn p n s).dlB = s.dlB ∧ (noticeIn p n s).sup = s.sup ∧ (noticeIn p n s).tb = s.tb
      ∧ (noticeIn p n s).mg = s.mg ∧ (noticeIn p n s).slow = s.slow ∧ (noticeIn p n s).cal = s.cal
      ∧ (noticeIn p n s).mon = s.mon ∧ (noticeIn p n s).pls = s.pls ∧ (noticeIn p n s).her = s.her
      ∧ (noticeIn p n s).fab.regs = s.fab.regs ∧ (noticeIn p n s).fab.buf = s.fab.buf
      ∧ (noticeIn p n s).fab.frozen = s.fab.frozen ∧ (noticeIn p n s).fab.frozenPg = s.fab.frozenPg
      ∧ (noticeIn p n s).fab.late = s.fab.late ∧ (noticeIn p n s).fab.hist = s.fab.hist
      ∧ (noticeIn p n s).fab.masters = s.fab.masters ∧ (noticeIn p n s).fab.marked = s.fab.marked
      ∧ (noticeIn p n s).fab.next = s.fab.next ∧ (noticeIn p n s).fab.applied = s.fab.applied
      ∧ (noticeIn p n s).fab.refused = s.fab.refused ∧ (noticeIn p n s).fab.idleAt = s.fab.idleAt
      ∧ (noticeIn p n s).fab.waiting = s.fab.waiting ∧ (noticeIn p n s).fab.upsets = s.fab.upsets
      ∧ (noticeIn p n s).fab.passes = s.fab.passes := by
  simp [noticeIn]

/-- A notice that finds no room changes header state and the store only. -/
@[simp] theorem noticeLost_frame (d : Notice) (s : State) :
    (noticeLost d s).pending = s.pending ∧ (noticeLost d s).pw = s.pw ∧ (noticeLost d s).jtag = s.jtag
      ∧ (noticeLost d s).orb = s.orb ∧ (noticeLost d s).pll = s.pll ∧ (noticeLost d s).conv = s.conv
      ∧ (noticeLost d s).chan = s.chan ∧ (noticeLost d s).ring = s.ring ∧ (noticeLost d s).ringErr = s.ringErr
      ∧ (noticeLost d s).feat = s.feat ∧ (noticeLost d s).featErr = s.featErr ∧ (noticeLost d s).flint = s.flint
      ∧ (noticeLost d s).fout = s.fout ∧ (noticeLost d s).flintOn = s.flintOn ∧ (noticeLost d s).seams = s.seams
      ∧ (noticeLost d s).acq = s.acq ∧ (noticeLost d s).ser = s.ser ∧ (noticeLost d s).frm = s.frm
      ∧ (noticeLost d s).lnA = s.lnA ∧ (noticeLost d s).lnB = s.lnB ∧ (noticeLost d s).dlA = s.dlA
      ∧ (noticeLost d s).dlB = s.dlB ∧ (noticeLost d s).sup = s.sup ∧ (noticeLost d s).tb = s.tb
      ∧ (noticeLost d s).mg = s.mg ∧ (noticeLost d s).slow = s.slow ∧ (noticeLost d s).cal = s.cal
      ∧ (noticeLost d s).mon = s.mon ∧ (noticeLost d s).pls = s.pls ∧ (noticeLost d s).her = s.her
      ∧ (noticeLost d s).fab.regs = s.fab.regs ∧ (noticeLost d s).fab.buf = s.fab.buf
      ∧ (noticeLost d s).fab.frozen = s.fab.frozen ∧ (noticeLost d s).fab.frozenPg = s.fab.frozenPg
      ∧ (noticeLost d s).fab.late = s.fab.late ∧ (noticeLost d s).fab.hist = s.fab.hist
      ∧ (noticeLost d s).fab.masters = s.fab.masters ∧ (noticeLost d s).fab.marked = s.fab.marked
      ∧ (noticeLost d s).fab.next = s.fab.next ∧ (noticeLost d s).fab.applied = s.fab.applied
      ∧ (noticeLost d s).fab.refused = s.fab.refused ∧ (noticeLost d s).fab.idleAt = s.fab.idleAt
      ∧ (noticeLost d s).fab.waiting = s.fab.waiting ∧ (noticeLost d s).fab.upsets = s.fab.upsets
      ∧ (noticeLost d s).fab.passes = s.fab.passes := by
  simp [noticeLost]

/-- The last notice of a full store leaves header state and the store only changed. -/
@[simp] theorem noticeDrop_frame (s : State) :
    (noticeDrop s).pending = s.pending ∧ (noticeDrop s).pw = s.pw ∧ (noticeDrop s).jtag = s.jtag
      ∧ (noticeDrop s).orb = s.orb ∧ (noticeDrop s).pll = s.pll ∧ (noticeDrop s).conv = s.conv
      ∧ (noticeDrop s).chan = s.chan ∧ (noticeDrop s).ring = s.ring ∧ (noticeDrop s).ringErr = s.ringErr
      ∧ (noticeDrop s).feat = s.feat ∧ (noticeDrop s).featErr = s.featErr ∧ (noticeDrop s).flint = s.flint
      ∧ (noticeDrop s).fout = s.fout ∧ (noticeDrop s).flintOn = s.flintOn ∧ (noticeDrop s).seams = s.seams
      ∧ (noticeDrop s).acq = s.acq ∧ (noticeDrop s).ser = s.ser ∧ (noticeDrop s).frm = s.frm
      ∧ (noticeDrop s).lnA = s.lnA ∧ (noticeDrop s).lnB = s.lnB ∧ (noticeDrop s).dlA = s.dlA
      ∧ (noticeDrop s).dlB = s.dlB ∧ (noticeDrop s).sup = s.sup ∧ (noticeDrop s).tb = s.tb
      ∧ (noticeDrop s).mg = s.mg ∧ (noticeDrop s).slow = s.slow ∧ (noticeDrop s).cal = s.cal
      ∧ (noticeDrop s).mon = s.mon ∧ (noticeDrop s).pls = s.pls ∧ (noticeDrop s).her = s.her
      ∧ (noticeDrop s).fab.regs = s.fab.regs ∧ (noticeDrop s).fab.buf = s.fab.buf
      ∧ (noticeDrop s).fab.frozen = s.fab.frozen ∧ (noticeDrop s).fab.frozenPg = s.fab.frozenPg
      ∧ (noticeDrop s).fab.late = s.fab.late ∧ (noticeDrop s).fab.hist = s.fab.hist
      ∧ (noticeDrop s).fab.masters = s.fab.masters ∧ (noticeDrop s).fab.marked = s.fab.marked
      ∧ (noticeDrop s).fab.next = s.fab.next ∧ (noticeDrop s).fab.applied = s.fab.applied
      ∧ (noticeDrop s).fab.refused = s.fab.refused ∧ (noticeDrop s).fab.idleAt = s.fab.idleAt
      ∧ (noticeDrop s).fab.waiting = s.fab.waiting ∧ (noticeDrop s).fab.upsets = s.fab.upsets
      ∧ (noticeDrop s).fab.passes = s.fab.passes := by
  unfold noticeDrop; split <;> simp

/-- A notice within MIN_GAP changes header state and the store only. -/
@[simp] theorem gapNotice_frame (p : Nat) (n : Notice) (s : State) :
    (gapNotice p n s).pending = s.pending ∧ (gapNotice p n s).pw = s.pw ∧ (gapNotice p n s).jtag = s.jtag
      ∧ (gapNotice p n s).orb = s.orb ∧ (gapNotice p n s).pll = s.pll ∧ (gapNotice p n s).conv = s.conv
      ∧ (gapNotice p n s).chan = s.chan ∧ (gapNotice p n s).ring = s.ring ∧ (gapNotice p n s).ringErr = s.ringErr
      ∧ (gapNotice p n s).feat = s.feat ∧ (gapNotice p n s).featErr = s.featErr ∧ (gapNotice p n s).flint = s.flint
      ∧ (gapNotice p n s).fout = s.fout ∧ (gapNotice p n s).flintOn = s.flintOn ∧ (gapNotice p n s).seams = s.seams
      ∧ (gapNotice p n s).acq = s.acq ∧ (gapNotice p n s).ser = s.ser ∧ (gapNotice p n s).frm = s.frm
      ∧ (gapNotice p n s).lnA = s.lnA ∧ (gapNotice p n s).lnB = s.lnB ∧ (gapNotice p n s).dlA = s.dlA
      ∧ (gapNotice p n s).dlB = s.dlB ∧ (gapNotice p n s).sup = s.sup ∧ (gapNotice p n s).tb = s.tb
      ∧ (gapNotice p n s).mg = s.mg ∧ (gapNotice p n s).slow = s.slow ∧ (gapNotice p n s).cal = s.cal
      ∧ (gapNotice p n s).mon = s.mon ∧ (gapNotice p n s).pls = s.pls ∧ (gapNotice p n s).her = s.her
      ∧ (gapNotice p n s).fab.regs = s.fab.regs ∧ (gapNotice p n s).fab.buf = s.fab.buf
      ∧ (gapNotice p n s).fab.frozen = s.fab.frozen ∧ (gapNotice p n s).fab.frozenPg = s.fab.frozenPg
      ∧ (gapNotice p n s).fab.late = s.fab.late ∧ (gapNotice p n s).fab.hist = s.fab.hist
      ∧ (gapNotice p n s).fab.masters = s.fab.masters ∧ (gapNotice p n s).fab.marked = s.fab.marked
      ∧ (gapNotice p n s).fab.next = s.fab.next ∧ (gapNotice p n s).fab.applied = s.fab.applied
      ∧ (gapNotice p n s).fab.refused = s.fab.refused ∧ (gapNotice p n s).fab.idleAt = s.fab.idleAt
      ∧ (gapNotice p n s).fab.waiting = s.fab.waiting ∧ (gapNotice p n s).fab.upsets = s.fab.upsets
      ∧ (gapNotice p n s).fab.passes = s.fab.passes := by
  simp [gapNotice]

/-- Storing a notice changes header state and the store only. -/
@[simp] theorem storeNotice_frame (p : Nat) (n : Notice) (s : State) :
    (storeNotice p n s).pending = s.pending ∧ (storeNotice p n s).pw = s.pw ∧ (storeNotice p n s).jtag = s.jtag
      ∧ (storeNotice p n s).orb = s.orb ∧ (storeNotice p n s).pll = s.pll ∧ (storeNotice p n s).conv = s.conv
      ∧ (storeNotice p n s).chan = s.chan ∧ (storeNotice p n s).ring = s.ring ∧ (storeNotice p n s).ringErr = s.ringErr
      ∧ (storeNotice p n s).feat = s.feat ∧ (storeNotice p n s).featErr = s.featErr ∧ (storeNotice p n s).flint = s.flint
      ∧ (storeNotice p n s).fout = s.fout ∧ (storeNotice p n s).flintOn = s.flintOn ∧ (storeNotice p n s).seams = s.seams
      ∧ (storeNotice p n s).acq = s.acq ∧ (storeNotice p n s).ser = s.ser ∧ (storeNotice p n s).frm = s.frm
      ∧ (storeNotice p n s).lnA = s.lnA ∧ (storeNotice p n s).lnB = s.lnB ∧ (storeNotice p n s).dlA = s.dlA
      ∧ (storeNotice p n s).dlB = s.dlB ∧ (storeNotice p n s).sup = s.sup ∧ (storeNotice p n s).tb = s.tb
      ∧ (storeNotice p n s).mg = s.mg ∧ (storeNotice p n s).slow = s.slow ∧ (storeNotice p n s).cal = s.cal
      ∧ (storeNotice p n s).mon = s.mon ∧ (storeNotice p n s).pls = s.pls ∧ (storeNotice p n s).her = s.her
      ∧ (storeNotice p n s).fab.regs = s.fab.regs ∧ (storeNotice p n s).fab.buf = s.fab.buf
      ∧ (storeNotice p n s).fab.frozen = s.fab.frozen ∧ (storeNotice p n s).fab.frozenPg = s.fab.frozenPg
      ∧ (storeNotice p n s).fab.late = s.fab.late ∧ (storeNotice p n s).fab.hist = s.fab.hist
      ∧ (storeNotice p n s).fab.masters = s.fab.masters ∧ (storeNotice p n s).fab.marked = s.fab.marked
      ∧ (storeNotice p n s).fab.next = s.fab.next ∧ (storeNotice p n s).fab.applied = s.fab.applied
      ∧ (storeNotice p n s).fab.refused = s.fab.refused ∧ (storeNotice p n s).fab.idleAt = s.fab.idleAt
      ∧ (storeNotice p n s).fab.waiting = s.fab.waiting ∧ (storeNotice p n s).fab.upsets = s.fab.upsets
      ∧ (storeNotice p n s).fab.passes = s.fab.passes := by
  unfold storeNotice; repeat' split
  all_goals simp

/-- Posting a notice changes header state and the store only. -/
@[simp] theorem postNotice_frame (p : Nat) (n : Notice) (s : State) :
    (postNotice p n s).pending = s.pending ∧ (postNotice p n s).pw = s.pw ∧ (postNotice p n s).jtag = s.jtag
      ∧ (postNotice p n s).orb = s.orb ∧ (postNotice p n s).pll = s.pll ∧ (postNotice p n s).conv = s.conv
      ∧ (postNotice p n s).chan = s.chan ∧ (postNotice p n s).ring = s.ring ∧ (postNotice p n s).ringErr = s.ringErr
      ∧ (postNotice p n s).feat = s.feat ∧ (postNotice p n s).featErr = s.featErr ∧ (postNotice p n s).flint = s.flint
      ∧ (postNotice p n s).fout = s.fout ∧ (postNotice p n s).flintOn = s.flintOn ∧ (postNotice p n s).seams = s.seams
      ∧ (postNotice p n s).acq = s.acq ∧ (postNotice p n s).ser = s.ser ∧ (postNotice p n s).frm = s.frm
      ∧ (postNotice p n s).lnA = s.lnA ∧ (postNotice p n s).lnB = s.lnB ∧ (postNotice p n s).dlA = s.dlA
      ∧ (postNotice p n s).dlB = s.dlB ∧ (postNotice p n s).sup = s.sup ∧ (postNotice p n s).tb = s.tb ∧ (postNotice p n s).mg = s.mg
      ∧ (postNotice p n s).slow = s.slow ∧ (postNotice p n s).cal = s.cal ∧ (postNotice p n s).mon = s.mon
      ∧ (postNotice p n s).pls = s.pls ∧ (postNotice p n s).her = s.her ∧ (postNotice p n s).fab.regs = s.fab.regs
      ∧ (postNotice p n s).fab.buf = s.fab.buf ∧ (postNotice p n s).fab.frozen = s.fab.frozen
      ∧ (postNotice p n s).fab.frozenPg = s.fab.frozenPg ∧ (postNotice p n s).fab.late = s.fab.late
      ∧ (postNotice p n s).fab.hist = s.fab.hist ∧ (postNotice p n s).fab.masters = s.fab.masters
      ∧ (postNotice p n s).fab.marked = s.fab.marked ∧ (postNotice p n s).fab.next = s.fab.next
      ∧ (postNotice p n s).fab.applied = s.fab.applied ∧ (postNotice p n s).fab.refused = s.fab.refused
      ∧ (postNotice p n s).fab.idleAt = s.fab.idleAt ∧ (postNotice p n s).fab.waiting = s.fab.waiting
      ∧ (postNotice p n s).fab.upsets = s.fab.upsets ∧ (postNotice p n s).fab.passes = s.fab.passes := by
  unfold postNotice; dsimp only; repeat' split
  all_goals simp

/-- A counted event changes header state and the store only (R468). -/
@[simp] theorem countD_frame (p i d : Nat) (s : State) :
    (countD p i d s).pending = s.pending ∧ (countD p i d s).pw = s.pw ∧ (countD p i d s).jtag = s.jtag ∧ (countD p i d s).orb = s.orb
      ∧ (countD p i d s).pll = s.pll ∧ (countD p i d s).conv = s.conv ∧ (countD p i d s).chan = s.chan ∧ (countD p i d s).ring = s.ring
      ∧ (countD p i d s).ringErr = s.ringErr ∧ (countD p i d s).feat = s.feat ∧ (countD p i d s).featErr = s.featErr
      ∧ (countD p i d s).flint = s.flint ∧ (countD p i d s).fout = s.fout ∧ (countD p i d s).flintOn = s.flintOn
      ∧ (countD p i d s).seams = s.seams ∧ (countD p i d s).acq = s.acq ∧ (countD p i d s).ser = s.ser ∧ (countD p i d s).frm = s.frm
      ∧ (countD p i d s).lnA = s.lnA ∧ (countD p i d s).lnB = s.lnB ∧ (countD p i d s).dlA = s.dlA ∧ (countD p i d s).dlB = s.dlB
      ∧ (countD p i d s).sup = s.sup ∧ (countD p i d s).tb = s.tb ∧ (countD p i d s).mg = s.mg ∧ (countD p i d s).slow = s.slow
      ∧ (countD p i d s).cal = s.cal ∧ (countD p i d s).mon = s.mon ∧ (countD p i d s).pls = s.pls ∧ (countD p i d s).her = s.her
      ∧ (countD p i d s).fab.regs = s.fab.regs ∧ (countD p i d s).fab.buf = s.fab.buf ∧ (countD p i d s).fab.frozen = s.fab.frozen
      ∧ (countD p i d s).fab.frozenPg = s.fab.frozenPg ∧ (countD p i d s).fab.late = s.fab.late
      ∧ (countD p i d s).fab.hist = s.fab.hist ∧ (countD p i d s).fab.masters = s.fab.masters
      ∧ (countD p i d s).fab.marked = s.fab.marked ∧ (countD p i d s).fab.next = s.fab.next
      ∧ (countD p i d s).fab.applied = s.fab.applied ∧ (countD p i d s).fab.refused = s.fab.refused
      ∧ (countD p i d s).fab.idleAt = s.fab.idleAt ∧ (countD p i d s).fab.waiting = s.fab.waiting
      ∧ (countD p i d s).fab.upsets = s.fab.upsets ∧ (countD p i d s).fab.passes = s.fab.passes := by
  unfold countD; dsimp only; split <;> simp

/-- A counted event changes header state and the store only (R468). -/
@[simp] theorem count_frame (p i : Nat) (s : State) :
    (count p i s).pending = s.pending ∧ (count p i s).pw = s.pw ∧ (count p i s).jtag = s.jtag ∧ (count p i s).orb = s.orb
      ∧ (count p i s).pll = s.pll ∧ (count p i s).conv = s.conv ∧ (count p i s).chan = s.chan ∧ (count p i s).ring = s.ring
      ∧ (count p i s).ringErr = s.ringErr ∧ (count p i s).feat = s.feat ∧ (count p i s).featErr = s.featErr
      ∧ (count p i s).flint = s.flint ∧ (count p i s).fout = s.fout ∧ (count p i s).flintOn = s.flintOn ∧ (count p i s).seams = s.seams
      ∧ (count p i s).acq = s.acq ∧ (count p i s).ser = s.ser ∧ (count p i s).frm = s.frm ∧ (count p i s).lnA = s.lnA
      ∧ (count p i s).lnB = s.lnB ∧ (count p i s).dlA = s.dlA ∧ (count p i s).dlB = s.dlB ∧ (count p i s).sup = s.sup
      ∧ (count p i s).tb = s.tb ∧ (count p i s).mg = s.mg ∧ (count p i s).slow = s.slow ∧ (count p i s).cal = s.cal
      ∧ (count p i s).mon = s.mon ∧ (count p i s).pls = s.pls ∧ (count p i s).her = s.her ∧ (count p i s).fab.regs = s.fab.regs
      ∧ (count p i s).fab.buf = s.fab.buf ∧ (count p i s).fab.frozen = s.fab.frozen ∧ (count p i s).fab.frozenPg = s.fab.frozenPg
      ∧ (count p i s).fab.late = s.fab.late ∧ (count p i s).fab.hist = s.fab.hist ∧ (count p i s).fab.masters = s.fab.masters
      ∧ (count p i s).fab.marked = s.fab.marked ∧ (count p i s).fab.next = s.fab.next ∧ (count p i s).fab.applied = s.fab.applied
      ∧ (count p i s).fab.refused = s.fab.refused ∧ (count p i s).fab.idleAt = s.fab.idleAt ∧ (count p i s).fab.waiting = s.fab.waiting
      ∧ (count p i s).fab.upsets = s.fab.upsets ∧ (count p i s).fab.passes = s.fab.passes := by
  simp [count]

/-- A refusal changes header state and the store only (R333). -/
@[simp] theorem refuse_frame (p c d : Nat) (s : State) :
    (refuse p c d s).pending = s.pending ∧ (refuse p c d s).pw = s.pw ∧ (refuse p c d s).jtag = s.jtag ∧ (refuse p c d s).orb = s.orb
      ∧ (refuse p c d s).pll = s.pll ∧ (refuse p c d s).conv = s.conv ∧ (refuse p c d s).chan = s.chan ∧ (refuse p c d s).ring = s.ring
      ∧ (refuse p c d s).ringErr = s.ringErr ∧ (refuse p c d s).feat = s.feat ∧ (refuse p c d s).featErr = s.featErr
      ∧ (refuse p c d s).flint = s.flint ∧ (refuse p c d s).fout = s.fout ∧ (refuse p c d s).flintOn = s.flintOn
      ∧ (refuse p c d s).seams = s.seams ∧ (refuse p c d s).acq = s.acq ∧ (refuse p c d s).ser = s.ser ∧ (refuse p c d s).frm = s.frm
      ∧ (refuse p c d s).lnA = s.lnA ∧ (refuse p c d s).lnB = s.lnB ∧ (refuse p c d s).dlA = s.dlA ∧ (refuse p c d s).dlB = s.dlB
      ∧ (refuse p c d s).sup = s.sup ∧ (refuse p c d s).tb = s.tb ∧ (refuse p c d s).mg = s.mg ∧ (refuse p c d s).slow = s.slow
      ∧ (refuse p c d s).cal = s.cal ∧ (refuse p c d s).mon = s.mon ∧ (refuse p c d s).pls = s.pls ∧ (refuse p c d s).her = s.her
      ∧ (refuse p c d s).fab.regs = s.fab.regs ∧ (refuse p c d s).fab.buf = s.fab.buf ∧ (refuse p c d s).fab.frozen = s.fab.frozen
      ∧ (refuse p c d s).fab.frozenPg = s.fab.frozenPg ∧ (refuse p c d s).fab.late = s.fab.late
      ∧ (refuse p c d s).fab.hist = s.fab.hist ∧ (refuse p c d s).fab.masters = s.fab.masters
      ∧ (refuse p c d s).fab.marked = s.fab.marked ∧ (refuse p c d s).fab.next = s.fab.next
      ∧ (refuse p c d s).fab.applied = s.fab.applied ∧ (refuse p c d s).fab.refused = s.fab.refused
      ∧ (refuse p c d s).fab.idleAt = s.fab.idleAt ∧ (refuse p c d s).fab.waiting = s.fab.waiting
      ∧ (refuse p c d s).fab.upsets = s.fab.upsets ∧ (refuse p c d s).fab.passes = s.fab.passes := by
  simp [refuse]

/-- A live cause that rises changes header state and the store only. -/
@[simp] theorem onRise_frame (was isNow : Bool) (p i d : Nat) (s : State) :
    (onRise was isNow p i d s).pending = s.pending ∧ (onRise was isNow p i d s).pw = s.pw ∧ (onRise was isNow p i d s).jtag = s.jtag
      ∧ (onRise was isNow p i d s).orb = s.orb ∧ (onRise was isNow p i d s).pll = s.pll ∧ (onRise was isNow p i d s).conv = s.conv
      ∧ (onRise was isNow p i d s).chan = s.chan ∧ (onRise was isNow p i d s).ring = s.ring
      ∧ (onRise was isNow p i d s).ringErr = s.ringErr ∧ (onRise was isNow p i d s).feat = s.feat
      ∧ (onRise was isNow p i d s).featErr = s.featErr ∧ (onRise was isNow p i d s).flint = s.flint
      ∧ (onRise was isNow p i d s).fout = s.fout ∧ (onRise was isNow p i d s).flintOn = s.flintOn
      ∧ (onRise was isNow p i d s).seams = s.seams ∧ (onRise was isNow p i d s).acq = s.acq ∧ (onRise was isNow p i d s).ser = s.ser
      ∧ (onRise was isNow p i d s).frm = s.frm ∧ (onRise was isNow p i d s).lnA = s.lnA ∧ (onRise was isNow p i d s).lnB = s.lnB
      ∧ (onRise was isNow p i d s).dlA = s.dlA ∧ (onRise was isNow p i d s).dlB = s.dlB ∧ (onRise was isNow p i d s).sup = s.sup
      ∧ (onRise was isNow p i d s).tb = s.tb ∧ (onRise was isNow p i d s).mg = s.mg ∧ (onRise was isNow p i d s).slow = s.slow
      ∧ (onRise was isNow p i d s).cal = s.cal ∧ (onRise was isNow p i d s).mon = s.mon ∧ (onRise was isNow p i d s).pls = s.pls
      ∧ (onRise was isNow p i d s).her = s.her ∧ (onRise was isNow p i d s).fab.regs = s.fab.regs
      ∧ (onRise was isNow p i d s).fab.buf = s.fab.buf ∧ (onRise was isNow p i d s).fab.frozen = s.fab.frozen
      ∧ (onRise was isNow p i d s).fab.frozenPg = s.fab.frozenPg ∧ (onRise was isNow p i d s).fab.late = s.fab.late
      ∧ (onRise was isNow p i d s).fab.hist = s.fab.hist ∧ (onRise was isNow p i d s).fab.masters = s.fab.masters
      ∧ (onRise was isNow p i d s).fab.marked = s.fab.marked ∧ (onRise was isNow p i d s).fab.next = s.fab.next
      ∧ (onRise was isNow p i d s).fab.applied = s.fab.applied ∧ (onRise was isNow p i d s).fab.refused = s.fab.refused
      ∧ (onRise was isNow p i d s).fab.idleAt = s.fab.idleAt ∧ (onRise was isNow p i d s).fab.waiting = s.fab.waiting
      ∧ (onRise was isNow p i d s).fab.upsets = s.fab.upsets ∧ (onRise was isNow p i d s).fab.passes = s.fab.passes := by
  unfold onRise; split <;> simp

/-- A refusal at an access changes header state, the store and the master's cause only. -/
@[simp] theorem refuseAt_frame (m : Master) (a c : Nat) (s : State) :
    (refuseAt m a c s).pending = s.pending ∧ (refuseAt m a c s).pw = s.pw ∧ (refuseAt m a c s).jtag = s.jtag
      ∧ (refuseAt m a c s).orb = s.orb ∧ (refuseAt m a c s).pll = s.pll ∧ (refuseAt m a c s).conv = s.conv
      ∧ (refuseAt m a c s).chan = s.chan ∧ (refuseAt m a c s).ring = s.ring ∧ (refuseAt m a c s).ringErr = s.ringErr
      ∧ (refuseAt m a c s).feat = s.feat ∧ (refuseAt m a c s).featErr = s.featErr ∧ (refuseAt m a c s).flint = s.flint
      ∧ (refuseAt m a c s).fout = s.fout ∧ (refuseAt m a c s).flintOn = s.flintOn ∧ (refuseAt m a c s).seams = s.seams
      ∧ (refuseAt m a c s).acq = s.acq ∧ (refuseAt m a c s).ser = s.ser ∧ (refuseAt m a c s).frm = s.frm
      ∧ (refuseAt m a c s).lnA = s.lnA ∧ (refuseAt m a c s).lnB = s.lnB ∧ (refuseAt m a c s).dlA = s.dlA
      ∧ (refuseAt m a c s).dlB = s.dlB ∧ (refuseAt m a c s).sup = s.sup ∧ (refuseAt m a c s).tb = s.tb ∧ (refuseAt m a c s).mg = s.mg
      ∧ (refuseAt m a c s).slow = s.slow ∧ (refuseAt m a c s).cal = s.cal ∧ (refuseAt m a c s).mon = s.mon
      ∧ (refuseAt m a c s).pls = s.pls ∧ (refuseAt m a c s).her = s.her ∧ (refuseAt m a c s).fab.regs = s.fab.regs
      ∧ (refuseAt m a c s).fab.buf = s.fab.buf ∧ (refuseAt m a c s).fab.frozen = s.fab.frozen
      ∧ (refuseAt m a c s).fab.frozenPg = s.fab.frozenPg ∧ (refuseAt m a c s).fab.late = s.fab.late
      ∧ (refuseAt m a c s).fab.hist = s.fab.hist ∧ (refuseAt m a c s).fab.marked = s.fab.marked
      ∧ (refuseAt m a c s).fab.next = s.fab.next ∧ (refuseAt m a c s).fab.applied = s.fab.applied
      ∧ (refuseAt m a c s).fab.refused = s.fab.refused ∧ (refuseAt m a c s).fab.idleAt = s.fab.idleAt
      ∧ (refuseAt m a c s).fab.waiting = s.fab.waiting ∧ (refuseAt m a c s).fab.upsets = s.fab.upsets
      ∧ (refuseAt m a c s).fab.passes = s.fab.passes := by
  simp [refuseAt, modMaster]

/-! ### Header state read back -/

/-- The header state of a page after it is changed. -/
theorem pageSt_modPage (p : Nat) (f : PageSt → PageSt) (s : State) (h : keysFrom 0 s.fab.pages = true) :
    pageSt (modPage p f s) p = f (pageSt s p) := ramGet_ramPut _ h _ _

/-- Other pages keep their header state. -/
theorem pageSt_modPage_ne (p q : Nat) (f : PageSt → PageSt) (s : State) (h : keysFrom 0 s.fab.pages = true) (hq : q ≠ p) :
    pageSt (modPage p f s) q = pageSt s q := ramGet_ramPut_ne _ _ h p q _ hq

theorem keys_modPage (p : Nat) (f : PageSt → PageSt) (s : State) (h : keysFrom 0 s.fab.pages = true) :
    keysFrom 0 (modPage p f s).fab.pages = true := keysFrom_ramPut _ h _ _ (Nat.zero_le _)

theorem tallyOf_congr {s t : State} {p i : Nat} (h : s.fab.pages = t.fab.pages) : tallyOf s p i = tallyOf t p i := by
  simp only [tallyOf, pageSt, h]

theorem tallyOf_modPage_ne (p q i : Nat) (f : PageSt → PageSt) (s : State) (h : keysFrom 0 s.fab.pages = true) (hq : q ≠ p) :
    tallyOf (modPage p f s) q i = tallyOf s q i := by
  simp only [tallyOf, pageSt_modPage_ne p q f s h hq]

theorem tallyOf_modPage (p i : Nat) (f : PageSt → PageSt) (s : State) (h : keysFrom 0 s.fab.pages = true)
    (hf : ∀ x, (f x).tally = x.tally) : tallyOf (modPage p f s) p i = tallyOf s p i := by
  simp only [tallyOf, pageSt_modPage p f s h, hf]

/-- Header state of one page changed, its tallies not: every tally stays. -/
theorem tallyOf_modPage_same (p q i : Nat) (f : PageSt → PageSt) (s : State) (h : keysFrom 0 s.fab.pages = true)
    (hf : ∀ x, (f x).tally = x.tally) : tallyOf (modPage p f s) q i = tallyOf s q i := by
  by_cases hpq : q = p
  · subst hpq; exact tallyOf_modPage _ _ _ _ h hf
  · exact tallyOf_modPage_ne _ _ _ _ _ h hpq

theorem tallyOf_bump_far (p i q k : Nat) (s : State) (h : keysFrom 0 s.fab.pages = true) (hq : q ≠ p) :
    tallyOf (bump p i s) q k = tallyOf s q k := tallyOf_modPage_ne _ _ _ _ _ h hq

theorem keys_noticeIn (p : Nat) (n : Notice) (s : State) (h : keysFrom 0 s.fab.pages = true) :
    keysFrom 0 (noticeIn p n s).fab.pages = true := keys_modPage _ _ _ h

theorem tallyOf_noticeIn (p q i : Nat) (n : Notice) (s : State) (h : keysFrom 0 s.fab.pages = true) :
    tallyOf (noticeIn p n s) q i = tallyOf s q i := by
  unfold noticeIn
  dsimp only
  rw [tallyOf_modPage_same]
  exacts [tallyOf_congr rfl, h, fun _ => rfl]

theorem tallyOf_noticeLost (q i : Nat) (d : Notice) (s : State) (h : keysFrom 0 s.fab.pages = true) (hq : q ≠ 0x7C) :
    tallyOf (noticeLost d s) q i = tallyOf s q i := by
  unfold noticeLost
  dsimp only
  rw [tallyOf_modPage_same, tallyOf_bump_far]
  exacts [tallyOf_congr rfl, h, hq, keys_modPage _ _ _ h, fun _ => rfl]

theorem tallyOf_noticeDrop (q i : Nat) (s : State) (h : keysFrom 0 s.fab.pages = true) (hq : q ≠ 0x7C) :
    tallyOf (noticeDrop s) q i = tallyOf s q i := by
  unfold noticeDrop
  split
  · rfl
  · dsimp only
    rw [tallyOf_noticeLost, tallyOf_modPage_same]
    exacts [tallyOf_congr rfl, h, fun _ => rfl, keys_modPage _ _ _ h, hq]

/-- Storing a notice leaves the tallies of every page but 0x7C as they are. -/
theorem tallyOf_storeNotice (p q i : Nat) (n : Notice) (s : State) (h : keysFrom 0 s.fab.pages = true) (hq : q ≠ 0x7C) :
    tallyOf (storeNotice p n s) q i = tallyOf s q i := by
  unfold storeNotice
  repeat' split
  · exact tallyOf_noticeIn _ _ _ _ _ h
  · exact (tallyOf_noticeDrop _ _ _ (keys_noticeIn _ _ _ h) hq).trans (tallyOf_noticeIn _ _ _ _ _ h)
  · exact tallyOf_noticeLost _ _ _ _ h hq

theorem tallyOf_gapNotice (p q i : Nat) (n : Notice) (s : State) (h : keysFrom 0 s.fab.pages = true) (hq : q ≠ 0x7C) :
    tallyOf (gapNotice p n s) q i = tallyOf s q i := by
  unfold gapNotice
  dsimp only
  refine Eq.trans (b := tallyOf (bump 0x7C 0 (modPage p (fun x => { x with ntcSupp := x.ntcSupp + 1 }) s)) q i) (tallyOf_congr rfl) ?_
  rw [tallyOf_bump_far, tallyOf_modPage_same]
  exacts [h, fun _ => rfl, keys_modPage _ _ _ h, hq]

/-- A posted notice leaves the tallies of every page but 0x7C as they are (R468, R470). -/
theorem tallyOf_postNotice (p q i : Nat) (n : Notice) (s : State) (h : keysFrom 0 s.fab.pages = true) (hq : q ≠ 0x7C) :
    tallyOf (postNotice p n s) q i = tallyOf s q i := by
  unfold postNotice
  dsimp only
  repeat' split
  all_goals first
    | with_reducible rfl
    | with_reducible exact tallyOf_gapNotice _ _ _ _ _ h hq
    | with_reducible exact tallyOf_storeNotice _ _ _ _ _ h hq
    | (rw [tallyOf_modPage_same]; exacts [h, fun _ => rfl])

theorem keys_bump (p i : Nat) (s : State) (h : keysFrom 0 s.fab.pages = true) :
    keysFrom 0 (bump p i s).fab.pages = true := keys_modPage _ _ _ h

theorem tallyOf_bump (p i : Nat) (s : State) (h : keysFrom 0 s.fab.pages = true)
    (ht : keysFrom 0 (pageSt s p).tally = true) : tallyOf (bump p i s) p i = min 0xFF (tallyOf s p i + 1) := by
  simp only [tallyOf, bump, pageSt_modPage _ _ _ h]
  exact ramGet_ramPut _ ht _ _

theorem tallyOf_bump_ne (p i q k : Nat) (s : State) (h : keysFrom 0 s.fab.pages = true)
    (ht : keysFrom 0 (pageSt s p).tally = true) (hne : q ≠ p ∨ k ≠ i) : tallyOf (bump p i s) q k = tallyOf s q k := by
  by_cases hq : q = p
  · subst hq
    simp only [tallyOf, bump, pageSt_modPage _ _ _ h]
    exact ramGet_ramPut_ne _ _ ht _ _ _ (hne.resolve_left (fun e => e rfl))
  · exact tallyOf_modPage_ne _ _ _ _ _ h hq

/-- A counted event adds one to its tally, which saturates at 0xFF (R349). -/
theorem tallyOf_countD (p i d : Nat) (s : State) (h : keysFrom 0 s.fab.pages = true)
    (ht : keysFrom 0 (pageSt s p).tally = true) (hp : p ≠ 0x7C) :
    tallyOf (countD p i d s) p i = min 0xFF (tallyOf s p i + 1) := by
  unfold countD
  simp only [if_neg hp]
  rw [tallyOf_postNotice _ _ _ _ _ (keys_bump _ _ _ h) hp, tallyOf_bump p i s h ht]

/-- A counted event leaves every other tally, but those of page 0x7C, as it is. -/
theorem tallyOf_countD_ne (p i d q k : Nat) (s : State) (h : keysFrom 0 s.fab.pages = true)
    (ht : keysFrom 0 (pageSt s p).tally = true) (hq : q ≠ 0x7C) (hne : q ≠ p ∨ k ≠ i) :
    tallyOf (countD p i d s) q k = tallyOf s q k := by
  unfold countD
  dsimp only
  split
  · exact tallyOf_bump_ne p i q k s h ht hne
  · rw [tallyOf_postNotice _ _ _ _ _ (keys_bump _ _ _ h) hq, tallyOf_bump_ne p i q k s h ht hne]

theorem tallyOf_count (p i : Nat) (s : State) (h : keysFrom 0 s.fab.pages = true)
    (ht : keysFrom 0 (pageSt s p).tally = true) (hp : p ≠ 0x7C) :
    tallyOf (count p i s) p i = min 0xFF (tallyOf s p i + 1) := tallyOf_countD p i 0 s h ht hp

theorem tallyOf_count_ne (p i q k : Nat) (s : State) (h : keysFrom 0 s.fab.pages = true)
    (ht : keysFrom 0 (pageSt s p).tally = true) (hq : q ≠ 0x7C) (hne : q ≠ p ∨ k ≠ i) :
    tallyOf (count p i s) q k = tallyOf s q k := tallyOf_countD_ne p i 0 q k s h ht hq hne

/-! ### Registers read back -/

@[simp] theorem vote_triOf (v : Nat) : vote (triOf v) = BitVec.ofNat 32 v := by
  simp [vote, triOf]

/-- The word in force after it is set. -/
theorem regAt_setReg (p o v : Nat) (s : State) (h : keysFrom 0 s.fab.regs = true) :
    regAt (setReg p o v s) p o = v % 2 ^ 32 := by
  simp only [regAt, regsGet, setReg, regPut, ramGet_ramPut _ h, vote_triOf, BitVec.toNat_ofNat]

/-- Every other word stays. -/
theorem regAt_setReg_ne (p o v q r : Nat) (s : State) (h : keysFrom 0 s.fab.regs = true)
    (hne : q * 0x1000 + r ≠ p * 0x1000 + o) : regAt (setReg p o v s) q r = regAt s q r := by
  simp only [regAt, regsGet, setReg, regPut]
  rw [ramGet_ramPut_ne _ _ h _ _ _ hne]

theorem keys_setReg (p o v : Nat) (s : State) (h : keysFrom 0 s.fab.regs = true) :
    keysFrom 0 (setReg p o v s).fab.regs = true := keysFrom_ramPut _ h _ _ (Nat.zero_le _)

end Sys2Proof.Machine
end

