-- ==== Sys2Proof/Laws/Shape.lean ====
section
/-! SUPPORT. What no operation but those of power and reset changes: the queue of commands, the power flags, the sizes of the arrays.
One lemma per operation, in the order of the definition files; then what the operations of power and reset do to them. -/

namespace Sys2Proof.Machine

section
set_option linter.unusedTactic false
set_option linter.unusedSimpArgs false
set_option linter.unusedVariables false
set_option linter.unreachableTactic false

/-- What every statement about the machine's shape needs: the queue of commands, the power flags, the sizes of the arrays. -/
structure Skel where
  pending  : List Instr
  por      : Bool
  released : Bool
  vdda     : Bool
  xtal     : Bool
  coreRun  : Bool
  coreEver : Bool
  nConv    : Nat
  nChan    : Nat
  nFlint   : Nat
  nFout    : Nat
  nSeams   : Nat
  nQs      : Nat
  nMasters : Nat

def skel (s : State) : Skel :=
  ⟨s.pending, s.pw.por, s.pw.released, s.pw.vdda, s.pw.xtal, s.pw.coreRun, s.pw.coreEver, s.conv.length, s.chan.length,
   s.flint.length, s.fout.length, s.seams.length, s.ser.qs.length, s.fab.masters.length⟩

@[simp] theorem skel_mk (p w j f o pl cv ch r re ft fe fl fo fon sm acq ser frm la lb da db su tb mg sl ca mo ps he) :
    skel (State.mk p w j f o pl cv ch r re ft fe fl fo fon sm acq ser frm la lb da db su tb mg sl ca mo ps he) =
      ⟨p, w.por, w.released, w.vdda, w.xtal, w.coreRun, w.coreEver, cv.length, ch.length, fl.length, fo.length, sm.length,
       ser.qs.length, f.masters.length⟩ := rfl


@[simp] theorem skel_ite (c : Prop) [Decidable c] (a b : State) : skel (if c then a else b) = if c then skel a else skel b := by
  split <;> rfl

@[simp] theorem skel_foldl {α : Type} (g : State → α → State) (h : ∀ s x, skel (g s x) = skel s) (l : List α) (s : State) :
    skel (l.foldl g s) = skel s := by
  induction l generalizing s with
  | nil => rfl
  | cons a t ih => rw [List.foldl_cons, ih, h]

@[simp] theorem skel_iterate (g : State → State) (h : ∀ s, skel (g s) = skel s) (n : Nat) (s : State) :
    skel (Nat.iterate g n s) = skel s := by
  induction n generalizing s with
  | zero => rfl
  | succ k ih => rw [Function.iterate_succ_apply, ih, h]

@[simp] theorem mapIdxN_length {α β : Type} (f : Nat → α → β) (l : List α) : (mapIdxN f l).length = l.length := by
  simp [mapIdxN]

/-- A component of the state is the component of its skeleton. -/
theorem sk : (∀ s : State, s.pending = (skel s).pending) ∧ (∀ s : State, s.pw.por = (skel s).por) ∧ (∀ s : State, s.pw.released = (skel s).released)
  ∧ (∀ s : State, s.pw.vdda = (skel s).vdda) ∧ (∀ s : State, s.pw.xtal = (skel s).xtal) ∧ (∀ s : State, s.pw.coreRun = (skel s).coreRun)
  ∧ (∀ s : State, s.pw.coreEver = (skel s).coreEver) ∧ (∀ s : State, s.conv.length = (skel s).nConv) ∧ (∀ s : State, s.chan.length = (skel s).nChan)
  ∧ (∀ s : State, s.flint.length = (skel s).nFlint) ∧ (∀ s : State, s.fout.length = (skel s).nFout) ∧ (∀ s : State, s.seams.length = (skel s).nSeams)
  ∧ (∀ s : State, s.ser.qs.length = (skel s).nQs) ∧ (∀ s : State, s.fab.masters.length = (skel s).nMasters) := by
  exact ⟨fun _ => rfl, fun _ => rfl, fun _ => rfl, fun _ => rfl, fun _ => rfl, fun _ => rfl, fun _ => rfl, fun _ => rfl, fun _ => rfl,
    fun _ => rfl, fun _ => rfl, fun _ => rfl, fun _ => rfl, fun _ => rfl⟩

/-! ### One lemma per operation -/

@[simp] theorem skel_modLn (x0 x1 x2) : skel (modLn x0 x1 x2) = skel x2 := by
  unfold modLn
  (try dsimp only)
  repeat' split
  all_goals simp [sk]
@[simp] theorem skel_modDl (x0 x1 x2) : skel (modDl x0 x1 x2) = skel x2 := by
  unfold modDl
  (try dsimp only)
  repeat' split
  all_goals simp [sk]
@[simp] theorem skel_modTs (x0 x1 x2) : skel (modTs x0 x1 x2) = skel x2 := by
  unfold modTs
  (try dsimp only)
  repeat' split
  all_goals simp [sk]
@[simp] theorem skel_modConv (x0 x1 x2) : skel (modConv x0 x1 x2) = skel x2 := by
  simp [modConv, sk]
@[simp] theorem skel_modChan (x0 x1 x2) : skel (modChan x0 x1 x2) = skel x2 := by
  simp [modChan, sk]
@[simp] theorem skel_modFlint (x0 x1 x2) : skel (modFlint x0 x1 x2) = skel x2 := by
  simp [modFlint, sk]
@[simp] theorem skel_modFout (x0 x1 x2) : skel (modFout x0 x1 x2) = skel x2 := by
  simp [modFout, sk]
@[simp] theorem skel_modSeam (x0 x1 x2) : skel (modSeam x0 x1 x2) = skel x2 := by
  simp [modSeam, sk]
@[simp] theorem skel_modQ (x0 x1 x2) : skel (modQ x0 x1 x2) = skel x2 := by
  simp [modQ, sk]
@[simp] theorem skel_modMaster (x0 x1 x2) : skel (modMaster x0 x1 x2) = skel x2 := by
  simp [modMaster, sk]
@[simp] theorem skel_setReg (x0 x1 x2 x3) : skel (setReg x0 x1 x2 x3) = skel x3 := by
  simp [setReg, sk]
@[simp] theorem skel_modPage (x0 x1 x2) : skel (modPage x0 x1 x2) = skel x2 := by
  simp [modPage, sk]
@[simp] theorem skel_bump (x0 x1 x2) : skel (bump x0 x1 x2) = skel x2 := by
  simp [bump, sk]
@[simp] theorem skel_noticeIn (x0 x1 x2) : skel (noticeIn x0 x1 x2) = skel x2 := by
  simp [noticeIn, sk]
@[simp] theorem skel_noticeLost (x0 x1) : skel (noticeLost x0 x1) = skel x1 := by
  simp [noticeLost, sk]
@[simp] theorem skel_noticeDrop (x0) : skel (noticeDrop x0) = skel x0 := by
  unfold noticeDrop
  (try dsimp only)
  repeat' split
  all_goals simp [sk]
@[simp] theorem skel_storeNotice (x0 x1 x2) : skel (storeNotice x0 x1 x2) = skel x2 := by
  simp [storeNotice, sk]
@[simp] theorem skel_gapNotice (x0 x1 x2) : skel (gapNotice x0 x1 x2) = skel x2 := by
  simp [gapNotice, sk]
@[simp] theorem skel_postNotice (x0 x1 x2) : skel (postNotice x0 x1 x2) = skel x2 := by
  simp [postNotice, sk]
@[simp] theorem skel_releaseHeld (x0) : skel (releaseHeld x0) = skel x0 := by
  unfold releaseHeld
  (try dsimp only)
  refine skel_foldl _ (fun s x => ?_) _ _
  (try dsimp only)
  repeat' split
  all_goals simp [sk]
@[simp] theorem skel_countD (x0 x1 x2 x3) : skel (countD x0 x1 x2 x3) = skel x3 := by
  simp [countD, sk]
@[simp] theorem skel_count (x0 x1 x2) : skel (count x0 x1 x2) = skel x2 := by
  simp [count, sk]
@[simp] theorem skel_countN (x0 x1 x2 x3) : skel (countN x0 x1 x2 x3) = skel x3 := by
  simp [countN, sk]
@[simp] theorem skel_refuse (x0 x1 x2 x3) : skel (refuse x0 x1 x2 x3) = skel x3 := by
  simp [refuse, sk]
@[simp] theorem skel_refuseAt (x0 x1 x2 x3) : skel (refuseAt x0 x1 x2 x3) = skel x3 := by
  simp [refuseAt, sk]
@[simp] theorem skel_tbAdvance (x0 x1) : skel (tbAdvance x0 x1) = skel x1 := by
  simp [tbAdvance, sk]
@[simp] theorem skel_coreCycles (x0 x1) : skel (coreCycles x0 x1) = skel x1 := by
  simp [coreCycles, sk]
@[simp] theorem skel_idleCycle (x0) : skel (idleCycle x0) = skel x0 := by
  simp [idleCycle, sk]
@[simp] theorem skel_modTag (x0 x1) : skel (modTag x0 x1) = skel x1 := by
  simp [modTag, sk]
@[simp] theorem skel_takeFree (x0) : skel ((takeFree x0).2) = skel x0 := by
  simp [takeFree, sk]
@[simp] theorem skel_spoilFlash (x0 x1 x2) : skel (spoilFlash x0 x1 x2) = skel x2 := by
  simp [spoilFlash, sk]
@[simp] theorem skel_onRise (x0 x1 x2 x3 x4 x5) : skel (onRise x0 x1 x2 x3 x4 x5) = skel x5 := by
  simp [onRise, sk]
@[simp] theorem skel_qSync (x0 x1) : skel (qSync x0 x1) = skel x1 := by
  simp [qSync, sk]
@[simp] theorem skel_unfitSync (x0) : skel (unfitSync x0) = skel x0 := by
  simp [unfitSync, sk]
@[simp] theorem skel_seraiSync (x0) : skel (seraiSync x0) = skel x0 := by
  simp [seraiSync, sk]
@[simp] theorem skel_dropRetained (x0 x1 x2) : skel (dropRetained x0 x1 x2) = skel x2 := by
  simp [dropRetained, sk]
@[simp] theorem skel_releaseFor (q k s) : skel (releaseFor q k s) = skel s := by
  induction k generalizing s with
  | zero => rfl
  | succ k ih =>
    unfold releaseFor
    repeat' split
    all_goals simp [ih]
@[simp] theorem skel_releaseRetained (x0 x1) : skel (releaseRetained x0 x1) = skel x1 := by
  simp [releaseRetained, sk]
@[simp] theorem skel_putBytes (x0 x1 x2) : skel (putBytes x0 x1 x2) = skel x2 := by
  unfold putBytes
  (try dsimp only)
  repeat' split
  all_goals simp [sk]
@[simp] theorem skel_closeBale (x0 x1) : skel (closeBale x0 x1) = skel x1 := by
  simp [closeBale, sk]
@[simp] theorem skel_wrData (x0 x1 x2) : skel (wrData x0 x1 x2) = skel x2 := by
  simp [wrData, sk]
@[simp] theorem skel_wrEnd (x0 x1 x2 x3) : skel (wrEnd x0 x1 x2 x3) = skel x3 := by
  simp [wrEnd, sk]
@[simp] theorem skel_wrHdr (x0 x1 x2 x3) : skel (wrHdr x0 x1 x2 x3) = skel x3 := by
  unfold wrHdr
  (try dsimp only)
  repeat' split
  all_goals simp [sk]
@[simp] theorem skel_cancelBale (x0 x1) : skel (cancelBale x0 x1) = skel x1 := by
  unfold cancelBale
  (try dsimp only)
  repeat' split
  all_goals simp [sk]
@[simp] theorem skel_stampClose (x0 x1) : skel (stampClose x0 x1) = skel x1 := by
  simp [stampClose, sk]
@[simp] theorem skel_pourCell (x0 x1) : skel (pourCell x0 x1) = skel x1 := by
  unfold pourCell
  (try dsimp only)
  repeat' split
  all_goals simp [sk]
@[simp] theorem skel_pourGo (q k s) : skel (pourGo q k s) = skel s := by
  induction k generalizing s with
  | zero => rfl
  | succ k ih =>
    unfold pourGo
    repeat' split
    all_goals simp [ih]
@[simp] theorem skel_pour (x0 x1) : skel (pour x0 x1) = skel x1 := by
  simp [pour, sk]
@[simp] theorem skel_pourHeldGo (q k s) : skel (pourHeldGo q k s) = skel s := by
  induction k generalizing s with
  | zero => rfl
  | succ k ih =>
    unfold pourHeldGo
    dsimp only
    repeat' split
    all_goals simp [ih]
@[simp] theorem skel_pourHeld (x0 x1) : skel (pourHeld x0 x1) = skel x1 := by
  simp [pourHeld, sk]
@[simp] theorem skel_writeBale (x0 x1 x2) : skel (writeBale x0 x1 x2) = skel x2 := by
  simp [writeBale, sk]
@[simp] theorem skel_heldComplete (x0 x1) : skel (heldComplete x0 x1) = skel x1 := by
  unfold heldComplete
  (try dsimp only)
  repeat' split
  all_goals simp [sk]
@[simp] theorem skel_headSent (x0 x1) : skel (headSent x0 x1) = skel x1 := by
  simp [headSent, sk]
@[simp] theorem skel_retentionEnd (x0 x1) : skel (retentionEnd x0 x1) = skel x1 := by
  simp [retentionEnd, sk]
@[simp] theorem skel_startReplay (x0) : skel (startReplay x0) = skel x0 := by
  simp [startReplay, sk]
@[simp] theorem skel_queueDrained (x0 x1) : skel (queueDrained x0 x1) = skel x1 := by
  simp [queueDrained, sk]
@[simp] theorem skel_applyQen (x0 x1) : skel (applyQen x0 x1) = skel x1 := by
  simp [applyQen, sk]
@[simp] theorem skel_discardHost (x0) : skel (discardHost x0) = skel x0 := by
  simp [discardHost, sk]
@[simp] theorem skel_hostSel (x0 x1 x2) : skel (hostSel x0 x1 x2) = skel x2 := by
  simp [hostSel, sk]
@[simp] theorem skel_hostWord (x0 x1 x2 x3) : skel (hostWord x0 x1 x2 x3) = skel x3 := by
  unfold hostWord
  (try dsimp only)
  repeat' split
  all_goals simp [sk]
@[simp] theorem skel_hostHdr (x0 x1 x2 x3) : skel (hostHdr x0 x1 x2 x3) = skel x3 := by
  simp [hostHdr, sk]
@[simp] theorem skel_hostCtl (x0 x1 x2) : skel (hostCtl x0 x1 x2) = skel x2 := by
  simp [hostCtl, sk]
@[simp] theorem skel_eccRead (x0 x1 x2 x3 x4) : skel (eccRead x0 x1 x2 x3 x4) = skel x4 := by
  simp [eccRead, sk]
@[simp] theorem skel_setRd (x0 x1 x2 x3) : skel (setRd x0 x1 x2 x3) = skel x3 := by
  simp [setRd, sk]
@[simp] theorem skel_hostRead (x0 x1) : skel ((hostRead x0 x1).2) = skel x1 := by
  unfold hostRead
  (try dsimp only)
  repeat' split
  all_goals simp [sk]
@[simp] theorem skel_seraiReset (x0) : skel (seraiReset x0) = skel x0 := by
  simp [seraiReset, sk]
@[simp] theorem skel_recost (x0) : skel (recost x0) = skel x0 := by
  simp [recost, sk]
@[simp] theorem skel_modEntry (x0 x1 x2) : skel (modEntry x0 x1 x2) = skel x2 := by
  simp [modEntry, sk]
@[simp] theorem skel_modRep (x0 x1 x2 x3) : skel (modRep x0 x1 x2 x3) = skel x3 := by
  simp [modRep, sk]
@[simp] theorem skel_tookCells (x0 x1 x2 x3) : skel (tookCells x0 x1 x2 x3) = skel x3 := by
  simp [tookCells, sk]
@[simp] theorem skel_loadCorr (x0) : skel (loadCorr x0) = skel x0 := by
  simp [loadCorr, sk]
@[simp] theorem skel_ringWrite (x0 x1 x2 x3) : skel (ringWrite x0 x1 x2 x3) = skel x3 := by
  simp [ringWrite, sk]
@[simp] theorem skel_deliver (x0 x1 x2 x3 x4 x5 x6 x7) : skel (deliver x0 x1 x2 x3 x4 x5 x6 x7) = skel x7 := by
  simp [deliver, sk]
@[simp] theorem skel_recoverCut (x0 x1 x2 x3) : skel (recoverCut x0 x1 x2 x3) = skel x3 := by
  simp [recoverCut, sk]
@[simp] theorem skel_sampleAt (x0 x1 x2 x3 x4 x5 x6 x7) : skel (sampleAt x0 x1 x2 x3 x4 x5 x6 x7) = skel x7 := by
  unfold sampleAt
  (try dsimp only)
  repeat' split
  all_goals simp [sk]
@[simp] theorem skel_sampleOut (x0 x1 x2 x3 x4 x5 x6) : skel (sampleOut x0 x1 x2 x3 x4 x5 x6) = skel x6 := by
  simp [sampleOut, sk]
@[simp] theorem skel_filterNext (x0 x1) : skel (filterNext x0 x1) = skel x1 := by
  unfold filterNext
  (try dsimp only)
  repeat' split
  all_goals simp [sk]
@[simp] theorem skel_peakStore (x0 x1) : skel (peakStore x0 x1) = skel x1 := by
  unfold peakStore
  (try dsimp only)
  repeat' split
  all_goals simp [sk]
@[simp] theorem skel_towerSync (x0) : skel (towerSync x0) = skel x0 := by
  simp [towerSync, sk]
@[simp] theorem skel_pedEnd (x0) : skel (pedEnd x0) = skel x0 := by
  unfold pedEnd
  (try dsimp only)
  refine skel_foldl _ (fun s x => ?_) _ _
  (try dsimp only)
  repeat' split
  all_goals simp [sk]
@[simp] theorem skel_parkedTrims (x0) : skel (parkedTrims x0) = skel x0 := by
  simp [parkedTrims, sk]
@[simp] theorem skel_judgeConv (x0 x1 x2) : skel (judgeConv x0 x1 x2) = skel x2 := by
  simp [judgeConv, sk]
@[simp] theorem skel_rotateAll (x0 x1) : skel (rotateAll x0 x1) = skel x1 := by
  simp [rotateAll, sk]
@[simp] theorem skel_convReset (x0 x1 x2) : skel (convReset x0 x1 x2) = skel x2 := by
  simp [convReset, sk]
@[simp] theorem skel_markPhase (x0) : skel (markPhase x0) = skel x0 := by
  simp [markPhase, sk]
@[simp] theorem skel_setPhase (x0 x1 x2) : skel (setPhase x0 x1 x2) = skel x2 := by
  simp [setPhase, sk]
@[simp] theorem skel_setUncomp (x0) : skel (setUncomp x0) = skel x0 := by
  simp [setUncomp, sk]
@[simp] theorem skel_enterHold (x0) : skel (enterHold x0) = skel x0 := by
  simp [enterHold, sk]
@[simp] theorem skel_ackUncomp (x0) : skel (ackUncomp x0) = skel x0 := by
  simp [ackUncomp, sk]
@[simp] theorem skel_sweepStart (x0) : skel (sweepStart x0) = skel x0 := by
  simp [sweepStart, sk]
@[simp] theorem skel_sweepSlot (x0 x1) : skel (sweepSlot x0 x1) = skel x1 := by
  simp [sweepSlot, sk]
@[simp] theorem skel_sweepEnd (x0) : skel (sweepEnd x0) = skel x0 := by
  simp [sweepEnd, sk]
@[simp] theorem skel_sweepKeep (x0) : skel (sweepKeep x0) = skel x0 := by
  simp [sweepKeep, sk]
@[simp] theorem skel_trackApply (x0) : skel (trackApply x0) = skel x0 := by
  simp [trackApply, sk]
@[simp] theorem skel_zeroTracks (x0) : skel (zeroTracks x0) = skel x0 := by
  simp [zeroTracks, sk]
@[simp] theorem skel_phaseReset (x0) : skel (phaseReset x0) = skel x0 := by
  simp [phaseReset, sk]
@[simp] theorem skel_serveProbe (x0 x1 x2 x3 x4) : skel (serveProbe x0 x1 x2 x3 x4) = skel x4 := by
  simp [serveProbe, sk]
@[simp] theorem skel_spoilProbe (x0) : skel (spoilProbe x0) = skel x0 := by
  simp [spoilProbe, sk]
@[simp] theorem skel_acqSync (x0) : skel (acqSync x0) = skel x0 := by
  simp [acqSync, sk]
@[simp] theorem skel_freeEntry (x0 x1) : skel (freeEntry x0 x1) = skel x1 := by
  simp [freeEntry, sk]
@[simp] theorem skel_manifestIn (x0 x1) : skel (manifestIn x0 x1) = skel x1 := by
  simp [manifestIn, sk]
@[simp] theorem skel_putManifest (x0 x1) : skel (putManifest x0 x1) = skel x1 := by
  simp [putManifest, sk]
@[simp] theorem skel_manifestHeld (x0) : skel (manifestHeld x0) = skel x0 := by
  unfold manifestHeld
  (try dsimp only)
  repeat' split
  all_goals simp [sk]
@[simp] theorem skel_manifestNext (x0) : skel (manifestNext x0) = skel x0 := by
  unfold manifestNext
  (try dsimp only)
  repeat' split
  all_goals simp [sk]
@[simp] theorem skel_takeSeq (x0) : skel (takeSeq x0) = skel x0 := by
  simp [takeSeq, sk]
@[simp] theorem skel_countDisabled (x0 x1 x2) : skel (countDisabled x0 x1 x2) = skel x2 := by
  simp [countDisabled, sk]
@[simp] theorem skel_createEntry (x0 x1 x2) : skel (createEntry x0 x1 x2) = skel x2 := by
  simp [createEntry, sk]
@[simp] theorem skel_refuseTrigger (x0 x1 x2) : skel (refuseTrigger x0 x1 x2) = skel x2 := by
  simp [refuseTrigger, sk]
@[simp] theorem skel_herJoin (x0 x1 x2) : skel (herJoin x0 x1 x2) = skel x2 := by
  unfold herJoin
  (try dsimp only)
  repeat' split
  all_goals simp [sk]
@[simp] theorem skel_joinEntry (x0 x1 x2) : skel (joinEntry x0 x1 x2) = skel x2 := by
  simp [joinEntry, sk]
@[simp] theorem skel_acceptAt (x0 x1) : skel (acceptAt x0 x1) = skel x1 := by
  unfold acceptAt
  (try dsimp only)
  repeat' split
  all_goals simp [sk]
@[simp] theorem skel_armEvent (x0) : skel (armEvent x0) = skel x0 := by
  unfold armEvent
  (try dsimp only)
  repeat' split
  all_goals simp [sk]
@[simp] theorem skel_disarmNow (x0) : skel (disarmNow x0) = skel x0 := by
  simp [disarmNow, sk]
@[simp] theorem skel_rearmFlush (x0) : skel (rearmFlush x0) = skel x0 := by
  simp [rearmFlush, sk]
@[simp] theorem skel_primingOver (x0) : skel (primingOver x0) = skel x0 := by
  simp [primingOver, sk]
@[simp] theorem skel_holdoffOver (x0) : skel (holdoffOver x0) = skel x0 := by
  unfold holdoffOver
  (try dsimp only)
  repeat' split
  all_goals simp [sk]
@[simp] theorem skel_trigOutRise (x0 x1) : skel (trigOutRise x0 x1) = skel x1 := by
  simp [trigOutRise, sk]
@[simp] theorem skel_trigOutFall (x0) : skel (trigOutFall x0) = skel x0 := by
  simp [trigOutFall, sk]
@[simp] theorem skel_noteLocal (x0 x1 x2 x3) : skel (noteLocal x0 x1 x2 x3) = skel x3 := by
  simp [noteLocal, sk]
@[simp] theorem skel_afterTaken (x0 x1 x2) : skel (afterTaken x0 x1 x2) = skel x2 := by
  simp [afterTaken, sk]
@[simp] theorem skel_takeLocal (x0 x1 x2) : skel (takeLocal x0 x1 x2) = skel x2 := by
  unfold takeLocal
  (try dsimp only)
  repeat' split
  all_goals simp [sk]
@[simp] theorem skel_joinRefused (x0 x1 x2) : skel (joinRefused x0 x1 x2) = skel x2 := by
  simp [joinRefused, sk]
@[simp] theorem skel_joinLocal (x0 x1 x2) : skel (joinLocal x0 x1 x2) = skel x2 := by
  unfold joinLocal
  (try dsimp only)
  repeat' split
  all_goals simp [sk]
@[simp] theorem skel_ignoreLocal (x0 x1 x2) : skel (ignoreLocal x0 x1 x2) = skel x2 := by
  simp [ignoreLocal, sk]
@[simp] theorem skel_localTrigger (x0 x1 x2) : skel (localTrigger x0 x1 x2) = skel x2 := by
  unfold localTrigger
  (try dsimp only)
  repeat' split
  all_goals simp [sk]
@[simp] theorem skel_selfTrig (x0) : skel (selfTrig x0) = skel x0 := by
  simp [selfTrig, sk]
@[simp] theorem skel_trigInSeen (x0) : skel (trigInSeen x0) = skel x0 := by
  simp [trigInSeen, sk]
@[simp] theorem skel_trigInEdge (x0 x1 x2) : skel (trigInEdge x0 x1 x2) = skel x2 := by
  simp [trigInEdge, sk]
@[simp] theorem skel_softTrigger (x0) : skel (softTrigger x0) = skel x0 := by
  simp [softTrigger, sk]
@[simp] theorem skel_liftEcc (x0 x1 x2) : skel (liftEcc x0 x1 x2) = skel x2 := by
  simp [liftEcc, sk]
@[simp] theorem skel_liftNothing (x0 x1 x2 x3 x4) : skel (liftNothing x0 x1 x2 x3 x4) = skel x4 := by
  simp [liftNothing, sk]
@[simp] theorem skel_liftBegin (x0 x1) : skel (liftBegin x0 x1) = skel x1 := by
  unfold liftBegin
  (try dsimp only)
  repeat' split
  all_goals simp [sk]
@[simp] theorem skel_tpAbort (x0 x1) : skel (tpAbort x0 x1) = skel x1 := by
  simp [tpAbort, sk]
@[simp] theorem skel_engineStart (x0 x1) : skel (engineStart x0 x1) = skel x1 := by
  unfold engineStart
  (try dsimp only)
  repeat' split
  all_goals simp [sk]
@[simp] theorem skel_liftEnd (x0 x1) : skel (liftEnd x0 x1) = skel x1 := by
  unfold liftEnd
  (try dsimp only)
  repeat' split
  all_goals simp [sk]
@[simp] theorem skel_modJobs (x0 x1 x2 x3) : skel (modJobs x0 x1 x2 x3) = skel x3 := by
  simp [modJobs, sk]
@[simp] theorem skel_flushSync (x0 x1) : skel (flushSync x0 x1) = skel x1 := by
  unfold flushSync
  (try dsimp only)
  repeat' split
  all_goals simp [sk]
@[simp] theorem skel_charge (x0 x1 x2 x3) : skel (charge x0 x1 x2 x3) = skel x3 := by
  simp [charge, sk]
@[simp] theorem skel_engineWord (x0 x1) : skel (engineWord x0 x1) = skel x1 := by
  unfold engineWord
  (try dsimp only)
  repeat' split
  all_goals simp [sk]
@[simp] theorem skel_jobClosed (x0 x1 x2 x3 x4 x5) : skel (jobClosed x0 x1 x2 x3 x4 x5) = skel x5 := by
  unfold jobClosed
  (try dsimp only)
  repeat' split
  all_goals simp [sk]
@[simp] theorem skel_finalHdr (x0 x1 x2) : skel (finalHdr x0 x1 x2) = skel x2 := by
  simp [finalHdr, sk]
@[simp] theorem skel_engineClose (x0 x1 x2) : skel (engineClose x0 x1 x2) = skel x2 := by
  unfold engineClose
  (try dsimp only)
  repeat' split
  all_goals simp [sk]
@[simp] theorem skel_engineHeld (x0 x1) : skel (engineHeld x0 x1) = skel x1 := by
  unfold engineHeld
  (try dsimp only)
  repeat' split
  all_goals simp [sk]
@[simp] theorem skel_engineHdr (x0 x1 x2) : skel (engineHdr x0 x1 x2) = skel x2 := by
  unfold engineHdr
  (try dsimp only)
  repeat' split
  all_goals simp [sk]
@[simp] theorem skel_engineRewind (x0 x1) : skel (engineRewind x0 x1) = skel x1 := by
  unfold engineRewind
  (try dsimp only)
  repeat' split
  all_goals simp [sk]
@[simp] theorem skel_engineCancel (x0 x1) : skel (engineCancel x0 x1) = skel x1 := by
  unfold engineCancel
  (try dsimp only)
  repeat' split
  all_goals simp [sk]
@[simp] theorem skel_verifyFail (x0 x1 x2) : skel (verifyFail x0 x1 x2) = skel x2 := by
  unfold verifyFail
  (try dsimp only)
  repeat' split
  all_goals simp [sk]
@[simp] theorem skel_flushBale (x0 x1 x2) : skel (flushBale x0 x1 x2) = skel x2 := by
  unfold flushBale
  (try dsimp only)
  repeat' split
  all_goals simp [sk]
@[simp] theorem skel_tpStartJob (x0 x1) : skel (tpStartJob x0 x1) = skel x1 := by
  simp [tpStartJob, sk]
@[simp] theorem skel_tpIn (x0 x1 x2) : skel (tpIn x0 x1 x2) = skel x2 := by
  simp [tpIn, sk]
@[simp] theorem skel_tpDone (x0 x1) : skel (tpDone x0 x1) = skel x1 := by
  simp [tpDone, sk]
@[simp] theorem skel_tpOut (x0 x1) : skel ((tpOut x0 x1).2) = skel x1 := by
  simp [tpOut, sk]
@[simp] theorem skel_cmpReset (x0 x1) : skel (cmpReset x0 x1) = skel x1 := by
  simp [cmpReset, sk]
@[simp] theorem skel_herClosed (x0) : skel (herClosed x0) = skel x0 := by
  unfold herClosed
  (try dsimp only)
  repeat' split
  all_goals simp [sk]
@[simp] theorem skel_herFormat (x0) : skel (herFormat x0) = skel x0 := by
  unfold herFormat
  (try dsimp only)
  repeat' split
  all_goals simp [sk]
@[simp] theorem skel_herForm (x0) : skel (herForm x0) = skel x0 := by
  simp [herForm, sk]
@[simp] theorem skel_herNext (x0) : skel (herNext x0) = skel x0 := by
  simp [herNext, sk]
@[simp] theorem skel_herHdr (x0 x1) : skel (herHdr x0 x1) = skel x1 := by
  simp [herHdr, sk]
@[simp] theorem skel_herEnd (x0) : skel (herEnd x0) = skel x0 := by
  simp [herEnd, sk]
@[simp] theorem skel_herHeld (x0) : skel (herHeld x0) = skel x0 := by
  unfold herHeld
  (try dsimp only)
  repeat' split
  all_goals simp [sk]
@[simp] theorem skel_herRewind (x0) : skel (herRewind x0) = skel x0 := by
  simp [herRewind, sk]
@[simp] theorem skel_writerCancel (x0 x1) : skel (writerCancel x0 x1) = skel x1 := by
  unfold writerCancel
  (try dsimp only)
  repeat' split
  all_goals simp [sk]
@[simp] theorem skel_setG (x0 x1 x2) : skel (setG x0 x1 x2) = skel x2 := by
  unfold setG
  (try dsimp only)
  repeat' split
  all_goals simp [sk]
@[simp] theorem skel_setF (x0 x1 x2) : skel (setF x0 x1 x2) = skel x2 := by
  unfold setF
  (try dsimp only)
  repeat' split
  all_goals simp [sk]
@[simp] theorem skel_replayed (x0 x1 x2) : skel (replayed x0 x1 x2) = skel x2 := by
  simp [replayed, sk]
@[simp] theorem skel_takeReplay (x0 x1 x2) : skel ((takeReplay x0 x1 x2).2) = skel x2 := by
  simp [takeReplay, sk]
@[simp] theorem skel_takeHead (x0 x1 x2) : skel ((takeHead x0 x1 x2).2) = skel x2 := by
  simp [takeHead, sk]
@[simp] theorem skel_takeGrant (x0) : skel ((takeGrant x0).2) = skel x0 := by
  unfold takeGrant
  (try dsimp only)
  repeat' split
  all_goals simp [sk]
@[simp] theorem skel_unsend (x0) : skel (unsend x0) = skel x0 := by
  unfold unsend
  (try dsimp only)
  repeat' split
  all_goals simp [sk]
@[simp] theorem skel_sendCaravan (x0) : skel (sendCaravan x0) = skel x0 := by
  unfold sendCaravan
  (try dsimp only)
  repeat' split
  all_goals simp [sk]
@[simp] theorem skel_sendTowers (x0) : skel (sendTowers x0) = skel x0 := by
  unfold sendTowers
  (try dsimp only)
  repeat' split
  all_goals simp [sk]
@[simp] theorem skel_sendEcho (x0 x1) : skel (sendEcho x0 x1) = skel x1 := by
  unfold sendEcho
  (try dsimp only)
  repeat' split
  all_goals simp [sk]
@[simp] theorem skel_markerSync (x0) : skel (markerSync x0) = skel x0 := by
  simp [markerSync, sk]
@[simp] theorem skel_txSync (x0 x1) : skel (txSync x0 x1) = skel x1 := by
  simp [txSync, sk]
@[simp] theorem skel_txBoth (x0) : skel (txBoth x0) = skel x0 := by
  simp [txBoth, sk]
@[simp] theorem skel_groupSlot (x0) : skel (groupSlot x0) = skel x0 := by
  simp [groupSlot, sk]
@[simp] theorem skel_creditStep (x0) : skel (creditStep x0) = skel x0 := by
  simp [creditStep, sk]
@[simp] theorem skel_replayOver (x0) : skel (replayOver x0) = skel x0 := by
  simp [replayOver, sk]
@[simp] theorem skel_roleStep (x0 x1 x2) : skel (roleStep x0 x1 x2) = skel x2 := by
  simp [roleStep, sk]
@[simp] theorem skel_darkSync (x0) : skel (darkSync x0) = skel x0 := by
  simp [darkSync, sk]
@[simp] theorem skel_roleSync (x0) : skel (roleSync x0) = skel x0 := by
  simp [roleSync, sk]
@[simp] theorem skel_setToken (x0 x1) : skel (setToken x0 x1) = skel x1 := by
  simp [setToken, sk]
@[simp] theorem skel_dueSlot (x0 x1) : skel (dueSlot x0 x1) = skel x1 := by
  simp [dueSlot, sk]
@[simp] theorem skel_changeRef (x0 x1) : skel (changeRef x0 x1) = skel x1 := by
  simp [changeRef, sk]
@[simp] theorem skel_startLost (x0 x1) : skel (startLost x0 x1) = skel x1 := by
  simp [startLost, sk]
@[simp] theorem skel_refLost (x0 x1) : skel (refLost x0 x1) = skel x1 := by
  simp [refLost, sk]
@[simp] theorem skel_enterDetect (x0 x1) : skel (enterDetect x0 x1) = skel x1 := by
  simp [enterDetect, sk]
@[simp] theorem skel_beginDetect (x0 x1) : skel (beginDetect x0 x1) = skel x1 := by
  simp [beginDetect, sk]
@[simp] theorem skel_trainFail (x0 x1) : skel (trainFail x0 x1) = skel x1 := by
  simp [trainFail, sk]
@[simp] theorem skel_enterSt (x0 x1 x2) : skel (enterSt x0 x1 x2) = skel x2 := by
  simp [enterSt, sk]
@[simp] theorem skel_detectJudge (x0 x1) : skel (detectJudge x0 x1) = skel x1 := by
  simp [detectJudge, sk]
@[simp] theorem skel_enterService (x0 x1 x2 x3 x4) : skel (enterService x0 x1 x2 x3 x4) = skel x4 := by
  simp [enterService, sk]
@[simp] theorem skel_stageClock (x0) : skel (stageClock x0) = skel x0 := by
  simp [stageClock, sk]
@[simp] theorem skel_refFirst (x0 x1) : skel (refFirst x0 x1) = skel x1 := by
  simp [refFirst, sk]
@[simp] theorem skel_fwdSync (x0 x1) : skel (fwdSync x0 x1) = skel x1 := by
  simp [fwdSync, sk]
@[simp] theorem skel_fwdLoss (x0 x1) : skel (fwdLoss x0 x1) = skel x1 := by
  simp [fwdLoss, sk]
@[simp] theorem skel_fwdReturn (x0 x1) : skel (fwdReturn x0 x1) = skel x1 := by
  simp [fwdReturn, sk]
@[simp] theorem skel_fwdWindow (x0 x1 x2) : skel (fwdWindow x0 x1 x2) = skel x2 := by
  simp [fwdWindow, sk]
@[simp] theorem skel_ctlAbort (x0 x1) : skel (ctlAbort x0 x1) = skel x1 := by
  unfold ctlAbort
  (try dsimp only)
  repeat' split
  all_goals simp [sk]
@[simp] theorem skel_ctlLost (x0 x1) : skel (ctlLost x0 x1) = skel x1 := by
  simp [ctlLost, sk]
@[simp] theorem skel_lockFall (x0 x1) : skel (lockFall x0 x1) = skel x1 := by
  simp [lockFall, sk]
@[simp] theorem skel_bitLose (x0 x1) : skel (bitLose x0 x1) = skel x1 := by
  simp [bitLose, sk]
@[simp] theorem skel_signalChange (x0 x1 x2) : skel (signalChange x0 x1 x2) = skel x2 := by
  simp [signalChange, sk]
@[simp] theorem skel_signalLevel (x0 x1 x2) : skel (signalLevel x0 x1 x2) = skel x2 := by
  simp [signalLevel, sk]
@[simp] theorem skel_lockAcquire (x0 x1) : skel (lockAcquire x0 x1) = skel x1 := by
  simp [lockAcquire, sk]
@[simp] theorem skel_lockLose (x0 x1 x2) : skel (lockLose x0 x1 x2) = skel x2 := by
  unfold lockLose
  (try dsimp only)
  repeat' split
  all_goals simp [sk]
@[simp] theorem skel_setVddl (x0 x1 x2) : skel (setVddl x0 x1 x2) = skel x2 := by
  unfold setVddl
  (try dsimp only)
  repeat' split
  all_goals simp [sk]
@[simp] theorem skel_supplyUp (x0 x1) : skel (supplyUp x0 x1) = skel x1 := by
  simp [supplyUp, sk]
@[simp] theorem skel_supplyLoss (x0 x1) : skel (supplyLoss x0 x1) = skel x1 := by
  simp [supplyLoss, sk]
@[simp] theorem skel_vddlTo (x0 x1 x2) : skel (vddlTo x0 x1 x2) = skel x2 := by
  simp [vddlTo, sk]
@[simp] theorem skel_detectPulse (x0 x1 x2) : skel (detectPulse x0 x1 x2) = skel x2 := by
  simp [detectPulse, sk]
@[simp] theorem skel_frameErrs (x0 x1 x2) : skel (frameErrs x0 x1 x2) = skel x2 := by
  simp [frameErrs, sk]
@[simp] theorem skel_deskewJudge (x0 x1) : skel (deskewJudge x0 x1) = skel x1 := by
  simp [deskewJudge, sk]
@[simp] theorem skel_trainStep (x0 x1 x2) : skel (trainStep x0 x1 x2) = skel x2 := by
  simp [trainStep, sk]
@[simp] theorem skel_trainingFrame (x0 x1 x2) : skel (trainingFrame x0 x1 x2) = skel x2 := by
  simp [trainingFrame, sk]
@[simp] theorem skel_trainTimeout (x0 x1) : skel (trainTimeout x0 x1) = skel x1 := by
  simp [trainTimeout, sk]
@[simp] theorem skel_retrainTrunk (x0 x1 x2) : skel (retrainTrunk x0 x1 x2) = skel x2 := by
  simp [retrainTrunk, sk]
@[simp] theorem skel_eyeStart (x0) : skel (eyeStart x0) = skel x0 := by
  simp [eyeStart, sk]
@[simp] theorem skel_eyeSlot (x0 x1 x2) : skel (eyeSlot x0 x1 x2) = skel x2 := by
  simp [eyeSlot, sk]
@[simp] theorem skel_eyeEnd (x0 x1) : skel (eyeEnd x0 x1) = skel x1 := by
  simp [eyeEnd, sk]
@[simp] theorem skel_eyeShow (x0 x1) : skel (eyeShow x0 x1) = skel x1 := by
  simp [eyeShow, sk]
@[simp] theorem skel_testApplied (x0 x1) : skel (testApplied x0 x1) = skel x1 := by
  simp [testApplied, sk]
@[simp] theorem skel_testCancel (x0 x1) : skel (testCancel x0 x1) = skel x1 := by
  simp [testCancel, sk]
@[simp] theorem skel_prbsSync (x0 x1 x2 x3) : skel (prbsSync x0 x1 x2 x3) = skel x3 := by
  simp [prbsSync, sk]
@[simp] theorem skel_prbsLoss (x0 x1 x2 x3) : skel (prbsLoss x0 x1 x2 x3) = skel x3 := by
  simp [prbsLoss, sk]
@[simp] theorem skel_laneReset (x0 x1) : skel (laneReset x0 x1) = skel x1 := by
  simp [laneReset, sk]
@[simp] theorem skel_evidenceCycle (x0 x1) : skel (evidenceCycle x0 x1) = skel x1 := by
  simp [evidenceCycle, sk]
@[simp] theorem skel_evidenceChange (x0 x1) : skel (evidenceChange x0 x1) = skel x1 := by
  simp [evidenceChange, sk]
@[simp] theorem skel_heartToggle (x0 x1) : skel (heartToggle x0 x1) = skel x1 := by
  simp [heartToggle, sk]
@[simp] theorem skel_heartTimeout (x0 x1) : skel (heartTimeout x0 x1) = skel x1 := by
  simp [heartTimeout, sk]
@[simp] theorem skel_upsetsPast (x0) : skel (upsetsPast x0) = skel x0 := by
  simp [upsetsPast, sk]
@[simp] theorem skel_setLast (x0 x1 x2 x3) : skel (setLast x0 x1 x2 x3) = skel x3 := by
  simp [setLast, sk]
@[simp] theorem skel_moveToken (x0 x1 x2 x3) : skel (moveToken x0 x1 x2 x3) = skel x3 := by
  simp [moveToken, sk]
@[simp] theorem skel_noHolder (x0) : skel (noHolder x0) = skel x0 := by
  simp [noHolder, sk]
@[simp] theorem skel_goDark (x0 x1 x2) : skel (goDark x0 x1 x2) = skel x2 := by
  simp [goDark, sk]
@[simp] theorem skel_latchTrunk (x0 x1 x2) : skel (latchTrunk x0 x1 x2) = skel x2 := by
  simp [latchTrunk, sk]
@[simp] theorem skel_grantRow (x0) : skel (grantRow x0) = skel x0 := by
  simp [grantRow, sk]
@[simp] theorem skel_setXdown (x0 x1) : skel (setXdown x0 x1) = skel x1 := by
  simp [setXdown, sk]
@[simp] theorem skel_holderRow (x0 x1) : skel (holderRow x0 x1) = skel x1 := by
  simp [holderRow, sk]
@[simp] theorem skel_decide279 (x0) : skel (decide279 x0) = skel x0 := by
  unfold decide279
  (try dsimp only)
  repeat' split
  all_goals simp [sk]
@[simp] theorem skel_qualTrack (x0 x1) : skel (qualTrack x0 x1) = skel x1 := by
  simp [qualTrack, sk]
@[simp] theorem skel_supCycle (x0) : skel (supCycle x0) = skel x0 := by
  simp [supCycle, sk]
@[simp] theorem skel_prefWait (x0) : skel (prefWait x0) = skel x0 := by
  unfold prefWait
  (try dsimp only)
  repeat' split
  all_goals simp [sk]
@[simp] theorem skel_moveStart (x0) : skel (moveStart x0) = skel x0 := by
  unfold moveStart
  (try dsimp only)
  repeat' split
  all_goals simp [sk]
@[simp] theorem skel_latchCmd (x0) : skel (latchCmd x0) = skel x0 := by
  unfold latchCmd
  (try dsimp only)
  repeat' split
  all_goals simp [sk]
@[simp] theorem skel_checkFail (x0 x1) : skel (checkFail x0 x1) = skel x1 := by
  unfold checkFail
  (try dsimp only)
  repeat' split
  all_goals simp [sk]
@[simp] theorem skel_checkPass (x0) : skel (checkPass x0) = skel x0 := by
  unfold checkPass
  (try dsimp only)
  repeat' split
  all_goals simp [sk]
@[simp] theorem skel_checkEnd (x0 x1) : skel (checkEnd x0 x1) = skel x1 := by
  unfold checkEnd
  (try dsimp only)
  repeat' split
  all_goals simp [sk]
@[simp] theorem skel_phaseLock (x0) : skel (phaseLock x0) = skel x0 := by
  simp [phaseLock, sk]
@[simp] theorem skel_powerCycle (x0 x1) : skel (powerCycle x0 x1) = skel x1 := by
  simp [powerCycle, sk]
@[simp] theorem skel_declined (x0 x1) : skel (declined x0 x1) = skel x1 := by
  simp [declined, sk]
@[simp] theorem skel_forceCmd (x0 x1) : skel (forceCmd x0 x1) = skel x1 := by
  unfold forceCmd
  (try dsimp only)
  repeat' split
  all_goals simp [sk]
@[simp] theorem skel_pcycleEnd (x0 x1) : skel (pcycleEnd x0 x1) = skel x1 := by
  simp [pcycleEnd, sk]
@[simp] theorem skel_repairTimeout (x0 x1) : skel (repairTimeout x0 x1) = skel x1 := by
  simp [repairTimeout, sk]
@[simp] theorem skel_autoRepair (x0 x1) : skel (autoRepair x0 x1) = skel x1 := by
  simp [autoRepair, sk]
@[simp] theorem skel_supReset (x0) : skel (supReset x0) = skel x0 := by
  simp [supReset, sk]
@[simp] theorem skel_scrubToken (x0) : skel ((scrubToken x0).1) = skel x0 := by
  unfold scrubToken
  (try dsimp only)
  repeat' split
  all_goals simp [sk]
@[simp] theorem skel_scrubPass (x0) : skel (scrubPass x0) = skel x0 := by
  simp [scrubPass, sk]
@[simp] theorem skel_incrCommit (x0 x1 x2 x3) : skel (incrCommit x0 x1 x2 x3) = skel x3 := by
  simp [incrCommit, sk]
@[simp] theorem skel_holdoverSet (x0 x1) : skel (holdoverSet x0 x1) = skel x1 := by
  unfold holdoverSet
  (try dsimp only)
  repeat' split
  all_goals simp [sk]
@[simp] theorem skel_stepApply (x0 x1 x2) : skel (stepApply x0 x1 x2) = skel x2 := by
  unfold stepApply
  (try dsimp only)
  repeat' split
  all_goals simp [sk]
@[simp] theorem skel_gapSet (x0) : skel (gapSet x0) = skel x0 := by
  simp [gapSet, sk]
@[simp] theorem skel_orbitCapture (x0 x1 x2 x3) : skel (orbitCapture x0 x1 x2 x3) = skel x3 := by
  simp [orbitCapture, sk]
@[simp] theorem skel_latchBases (x0) : skel (latchBases x0) = skel x0 := by
  simp [latchBases, sk]
@[simp] theorem skel_tsePush (x0 x1) : skel (tsePush x0 x1) = skel x1 := by
  simp [tsePush, sk]
@[simp] theorem skel_tsePopHead (x0) : skel (tsePopHead x0) = skel x0 := by
  simp [tsePopHead, sk]
@[simp] theorem skel_ttAbort (x0 x1) : skel (ttAbort x0 x1) = skel x1 := by
  simp [ttAbort, sk]
@[simp] theorem skel_ttCapture (x0 x1) : skel (ttCapture x0 x1) = skel x1 := by
  simp [ttCapture, sk]
@[simp] theorem skel_ttByte (x0 x1 x2 x3 x4) : skel (ttByte x0 x1 x2 x3 x4) = skel x4 := by
  simp [ttByte, sk]
@[simp] theorem skel_ttGap (x0 x1) : skel (ttGap x0 x1) = skel x1 := by
  simp [ttGap, sk]
@[simp] theorem skel_ttMessage (x0 x1) : skel (ttMessage x0 x1) = skel x1 := by
  simp [ttMessage, sk]
@[simp] theorem skel_releaseHead (x0 x1) : skel (releaseHead x0 x1) = skel x1 := by
  simp [releaseHead, sk]
@[simp] theorem skel_removeHead (x0 x1) : skel (removeHead x0 x1) = skel x1 := by
  unfold removeHead
  (try dsimp only)
  repeat' split
  all_goals simp [sk]
@[simp] theorem skel_lateAct (x0 x1) : skel (lateAct x0 x1) = skel x1 := by
  simp [lateAct, sk]
@[simp] theorem skel_launchRelease (x0 x1) : skel (launchRelease x0 x1) = skel x1 := by
  simp [launchRelease, sk]
@[simp] theorem skel_launchLate (x0 x1) : skel (launchLate x0 x1) = skel x1 := by
  simp [launchLate, sk]
@[simp] theorem skel_tbReset (x0) : skel (tbReset x0) = skel x0 := by
  simp [tbReset, sk]
@[simp] theorem skel_fuseLoad (x0) : skel (fuseLoad x0) = skel x0 := by
  simp [fuseLoad, sk]
@[simp] theorem skel_userLoad (x0 x1) : skel (userLoad x0 x1) = skel x1 := by
  unfold userLoad
  (try dsimp only)
  repeat' split
  all_goals simp [sk]
@[simp] theorem skel_stageLoaded (s) : skel (stageLoaded s) = skel s := rfl
@[simp] theorem skel_stageLoaded_stageTo (x0 x1) : skel (stageLoaded.stageTo x0 x1) = skel x1 := by
  simp [stageLoaded.stageTo, sk]
@[simp] theorem skel_loadStores (x0 x1) : skel (loadStores x0 x1) = skel x1 := by
  simp [loadStores, sk]
@[simp] theorem skel_csWrite (x0 x1 x2 x3) : skel (csWrite x0 x1 x2 x3) = skel x3 := by
  simp [csWrite, sk]
@[simp] theorem skel_saveStart (x0) : skel (saveStart x0) = skel x0 := by
  simp [saveStart, sk]
@[simp] theorem skel_saveStop (x0) : skel (saveStop x0) = skel x0 := by
  unfold saveStop
  (try dsimp only)
  repeat' split
  all_goals simp [sk]
@[simp] theorem skel_setFlash (x0 x1) : skel (setFlash x0 x1) = skel x1 := by
  simp [setFlash, sk]
@[simp] theorem skel_saveEnd (x0 x1) : skel (saveEnd x0 x1) = skel x1 := by
  unfold saveEnd
  (try dsimp only)
  repeat' split
  all_goals simp [sk]
@[simp] theorem skel_csCommand (x0 x1) : skel (csCommand x0 x1) = skel x1 := by
  simp [csCommand, sk]
@[simp] theorem skel_loadTrims (x0) : skel (loadTrims x0) = skel x0 := by
  simp [loadTrims, sk]
@[simp] theorem skel_applyEffect (x0) : skel (applyEffect x0) = skel x0 := by
  unfold applyEffect
  (try dsimp only)
  repeat' split
  all_goals simp [sk]
@[simp] theorem skel_monBegin (x0) : skel (monBegin x0) = skel x0 := by
  simp [monBegin, sk]
@[simp] theorem skel_monHalt (x0) : skel (monHalt x0) = skel x0 := by
  simp [monHalt, sk]
@[simp] theorem skel_monCommand (x0 x1 x2) : skel (monCommand x0 x1 x2) = skel x2 := by
  simp [monCommand, sk]
@[simp] theorem skel_monConfig (x0 x1) : skel (monConfig x0 x1) = skel x1 := by
  simp [monConfig, sk]
@[simp] theorem skel_monShip (x0 x1 x2 x3 x4 x5) : skel (monShip x0 x1 x2 x3 x4 x5) = skel x5 := by
  simp [monShip, sk]
@[simp] theorem skel_monReport (x0 x1 x2 x3) : skel (monReport x0 x1 x2 x3) = skel x3 := by
  simp [monReport, sk]
@[simp] theorem skel_monRun (x0 x1) : skel (monRun x0 x1) = skel x1 := by
  simp [monRun, sk]
@[simp] theorem skel_monResult (x0 x1) : skel (monResult x0 x1) = skel x1 := by
  unfold monResult
  (try dsimp only)
  repeat' split
  all_goals simp [sk]
@[simp] theorem skel_monReset (x0) : skel (monReset x0) = skel x0 := by
  simp [monReset, sk]
@[simp] theorem skel_setSite (x0 x1 x2) : skel (setSite x0 x1 x2) = skel x2 := by
  simp [setSite, sk]
@[simp] theorem skel_fireRow (x0 x1 x2 x3 x4) : skel (fireRow x0 x1 x2 x3 x4) = skel x4 := by
  simp [fireRow, sk]
@[simp] theorem skel_countSkip (x0 x1) : skel (countSkip x0 x1) = skel x1 := by
  simp [countSkip, sk]
@[simp] theorem skel_slotFiring (x0) : skel (slotFiring x0) = skel x0 := by
  simp [slotFiring, sk]
@[simp] theorem skel_testFiring (x0) : skel (testFiring x0) = skel x0 := by
  simp [testFiring, sk]
@[simp] theorem skel_rowOpen (x0) : skel (rowOpen x0) = skel x0 := by
  simp [rowOpen, sk]
@[simp] theorem skel_blankEnd (x0) : skel (blankEnd x0) = skel x0 := by
  simp [blankEnd, sk]
@[simp] theorem skel_verdict (x0 x1 x2) : skel (verdict x0 x1 x2) = skel x2 := by
  unfold verdict
  (try dsimp only)
  repeat' split
  all_goals simp [sk]
@[simp] theorem skel_diagPulse (x0) : skel (diagPulse x0) = skel x0 := by
  unfold diagPulse
  (try dsimp only)
  repeat' split
  all_goals simp [sk]
@[simp] theorem skel_diagDue (x0) : skel (diagDue x0) = skel x0 := by
  simp [diagDue, sk]
@[simp] theorem skel_diagSlot (x0) : skel (diagSlot x0) = skel x0 := by
  simp [diagSlot, sk]
@[simp] theorem skel_diagStart (x0 x1 x2) : skel (diagStart x0 x1 x2) = skel x2 := by
  simp [diagStart, sk]
@[simp] theorem skel_countBars (x0 x1 x2 x3) : skel (countBars x0 x1 x2 x3) = skel x3 := by
  simp [countBars, sk]
@[simp] theorem skel_plsShip (x0) : skel (plsShip x0) = skel x0 := by
  simp [plsShip, sk]
@[simp] theorem skel_diagRecord (x0) : skel (diagRecord x0) = skel x0 := by
  simp [diagRecord, sk]
@[simp] theorem skel_diagClear (x0 x1) : skel (diagClear x0 x1) = skel x1 := by
  simp [diagClear, sk]
@[simp] theorem skel_plsReset (x0) : skel (plsReset x0) = skel x0 := by
  simp [plsReset, sk]
@[simp] theorem skel_outFall (x0 x1 x2) : skel (outFall x0 x1 x2) = skel x2 := by
  simp [outFall, sk]
@[simp] theorem skel_outRise (x0 x1 x2) : skel (outRise x0 x1 x2) = skel x2 := by
  simp [outRise, sk]
@[simp] theorem skel_bothRise (x0 x1 x2) : skel (bothRise x0 x1 x2) = skel x2 := by
  simp [bothRise, sk]
@[simp] theorem skel_edgeEvent (x0 x1 x2) : skel (edgeEvent x0 x1 x2) = skel x2 := by
  simp [edgeEvent, sk]
@[simp] theorem skel_judgeChan (x0 x1 x2) : skel (judgeChan x0 x1 x2) = skel x2 := by
  simp [judgeChan, sk]
@[simp] theorem skel_leadingEdge (x0 x1 x2 x3) : skel (leadingEdge x0 x1 x2 x3) = skel x3 := by
  simp [leadingEdge, sk]
@[simp] theorem skel_inputPulse (x0 x1 x2 x3 x4 x5) : skel (inputPulse x0 x1 x2 x3 x4 x5) = skel x5 := by
  simp [inputPulse, sk]
@[simp] theorem skel_outputFall (x0 x1 x2) : skel (outputFall x0 x1 x2) = skel x2 := by
  simp [outputFall, sk]
@[simp] theorem skel_flintJudge (x0) : skel (flintJudge x0) = skel x0 := by
  simp [flintJudge, sk]
@[simp] theorem skel_markStuck (x0) : skel (markStuck x0) = skel x0 := by
  simp [markStuck, sk]
@[simp] theorem skel_flintSample (x0) : skel (flintSample x0) = skel x0 := by
  simp [flintSample, sk]
@[simp] theorem skel_stuckSet (x0 x1) : skel (stuckSet x0 x1) = skel x1 := by
  simp [stuckSet, sk]
@[simp] theorem skel_stuckClear (x0 x1) : skel (stuckClear x0 x1) = skel x1 := by
  simp [stuckClear, sk]
@[simp] theorem skel_latchClear (x0 x1) : skel (latchClear x0 x1) = skel x1 := by
  simp [latchClear, sk]
@[simp] theorem skel_flintResume (x0) : skel (flintResume x0) = skel x0 := by
  simp [flintResume, sk]
@[simp] theorem skel_outsLow (x0) : skel (outsLow x0) = skel x0 := by
  simp [outsLow, sk]
@[simp] theorem skel_restart (x0 x1) : skel (restart x0 x1) = skel x1 := by
  simp [restart, sk]
@[simp] theorem skel_haltBlock (x0 x1) : skel (haltBlock x0 x1) = skel x1 := by
  simp [haltBlock, sk]
@[simp] theorem skel_enApplied (x0 x1) : skel (enApplied x0 x1) = skel x1 := by
  simp [enApplied, sk]
@[simp] theorem skel_restartDeferred (x0) : skel (restartDeferred x0) = skel x0 := by
  simp [restartDeferred, sk]
@[simp] theorem skel_swapQuarter (x0 x1) : skel (swapQuarter x0 x1) = skel x1 := by
  simp [swapQuarter, sk]
@[simp] theorem skel_pedLoad (x0 x1 x2) : skel (pedLoad x0 x1 x2) = skel x2 := by
  simp [pedLoad, sk]
@[simp] theorem skel_convApplied (x0 x1 x2) : skel (convApplied x0 x1 x2) = skel x2 := by
  simp [convApplied, sk]
@[simp] theorem skel_trackZero (x0) : skel (trackZero x0) = skel x0 := by
  simp [trackZero, sk]
@[simp] theorem skel_gridMoved (x0 x1) : skel (gridMoved x0 x1) = skel x1 := by
  simp [gridMoved, sk]
@[simp] theorem skel_laneApplied (x0 x1) : skel (laneApplied x0 x1) = skel x1 := by
  simp [laneApplied, sk]
@[simp] theorem skel_pageApplied (x0 x1 x2 x3) : skel (pageApplied x0 x1 x2 x3) = skel x3 := by
  simp [pageApplied, sk]
@[simp] theorem skel_pageDone (x0 x1) : skel (pageDone x0 x1) = skel x1 := by
  simp [pageDone, sk]
@[simp] theorem skel_dropApplied (x0 x1) : skel (dropApplied x0 x1) = skel x1 := by
  simp [dropApplied, sk]
@[simp] theorem skel_flintApplied (x0 x1) : skel (flintApplied x0 x1) = skel x1 := by
  simp [flintApplied, sk]
@[simp] theorem skel_applyPages (x0 x1) : skel (applyPages x0 x1) = skel x1 := by
  simp [applyPages, sk]
@[simp] theorem skel_refuseGroup (x0 x1 x2) : skel (refuseGroup x0 x1 x2) = skel x2 := by
  simp [refuseGroup, sk]
@[simp] theorem skel_applyGroup (x0 x1 x2) : skel (applyGroup x0 x1 x2) = skel x1 := by
  simp [applyGroup, sk]
@[simp] theorem skel_chanReset (x0 x1) : skel (chanReset x0 x1) = skel x1 := by
  simp [chanReset, sk]
@[simp] theorem skel_dlReset (x0 x1) : skel (dlReset x0 x1) = skel x1 := by
  simp [dlReset, sk]
@[simp] theorem skel_noticeReset (x0) : skel (noticeReset x0) = skel x0 := by
  simp [noticeReset, sk]
@[simp] theorem skel_bootReset (x0) : skel (bootReset x0) = skel x0 := by
  simp [bootReset, sk]
@[simp] theorem skel_blockReset (x0 x1) : skel (blockReset x0 x1) = skel x1 := by
  simp [blockReset, sk]
@[simp] theorem skel_resetNow (x0 x1) : skel (resetNow x0 x1) = skel x1 := by
  simp [resetNow, sk]
@[simp] theorem skel_softReset (x0 x1) : skel (softReset x0 x1) = skel x1 := by
  simp [softReset, sk]
@[simp] theorem skel_afterApply (x0 x1 x2) : skel (afterApply x0 x1 x2) = skel x2 := by
  simp [afterApply, sk]
@[simp] theorem skel_applyGroups (x0 x1) : skel (applyGroups x0 x1) = skel x1 := by
  unfold applyGroups
  (try dsimp only)
  repeat' split
  all_goals simp [sk]
@[simp] theorem skel_drainEnd (x0 x1) : skel (drainEnd x0 x1) = skel x1 := by
  simp [drainEnd, sk]
@[simp] theorem skel_withNow (f s) (h : ∀ v, skel (f v) = skel v) : skel (withNow f s) = skel s := by
  have := h { s with fab := { s.fab with frozen := none, frozenPg := [], late := [] }, orb := { s.orb with lateMap := [] } }
  exact this.trans rfl
@[simp] theorem skel_applyPage (x0 x1) : skel (applyPage x0 x1) = skel x1 := by
  unfold applyPage
  (try dsimp only)
  repeat' split
  all_goals simp [sk]
@[simp] theorem skel_applyWord (x0 x1 x2) : skel (applyWord x0 x1 x2) = skel x2 := by
  simp [applyWord, sk]
@[simp] theorem skel_applyNow (x0 x1 x2) : skel (applyNow x0 x1 x2) = skel x2 := by
  unfold applyNow
  (try dsimp only)
  repeat' split
  all_goals simp [sk]
@[simp] theorem skel_retag (x0) : skel (retag x0) = skel x0 := by
  simp [retag, sk]
@[simp] theorem skel_pushTag (x0 x1) : skel (pushTag x0 x1) = skel x1 := by
  simp [pushTag, sk]
@[simp] theorem skel_ctlGap (x0 x1) : skel (ctlGap x0 x1) = skel x1 := by
  simp [ctlGap, sk]
@[simp] theorem skel_openSlot (x0) : skel (openSlot x0) = skel x0 := by
  simp [openSlot, sk]
@[simp] theorem skel_passSlot (x0 x1) : skel (passSlot x0 x1) = skel x1 := by
  simp [passSlot, sk]
@[simp] theorem skel_pedFinish (x0) : skel (pedFinish x0) = skel x0 := by
  simp [pedFinish, sk]
@[simp] theorem skel_oasisEnd (x0) : skel (oasisEnd x0) = skel x0 := by
  simp [oasisEnd, sk]
@[simp] theorem skel_sweepOver (x0) : skel (sweepOver x0) = skel x0 := by
  simp [sweepOver, sk]
@[simp] theorem skel_markMissed (x0) : skel (markMissed x0) = skel x0 := by
  simp [markMissed, sk]
@[simp] theorem skel_closeSlot (x0 x1) : skel (closeSlot x0 x1) = skel x1 := by
  simp [closeSlot, sk]
@[simp] theorem skel_slotAdvance (x0 x1) : skel (slotAdvance x0 x1) = skel x1 := by
  simp [slotAdvance, sk]
@[simp] theorem skel_takeCutoff (x0) : skel (takeCutoff x0) = skel x0 := by
  simp [takeCutoff, sk]
@[simp] theorem skel_powerAhead (x0 x1) : skel (powerAhead x0 x1) = skel x1 := by
  simp [powerAhead, sk]
@[simp] theorem skel_cutoffNow (x0) : skel (cutoffNow x0) = skel x0 := by
  simp [cutoffNow, sk]
@[simp] theorem skel_cutoffAtStart (x0) : skel (cutoffAtStart x0) = skel x0 := by
  simp [cutoffAtStart, sk]
@[simp] theorem skel_strobe (x0 x1) : skel (strobe x0 x1) = skel x1 := by
  simp [strobe, sk]
@[simp] theorem skel_copyDone (x0 x1) : skel (copyDone x0 x1) = skel x1 := by
  unfold copyDone
  (try dsimp only)
  repeat' split
  all_goals simp [sk]
@[simp] theorem skel_applyIdle (x0 x1) : skel (applyIdle x0 x1) = skel x1 := by
  simp [applyIdle, sk]
@[simp] theorem skel_copyEnd (x0 x1) : skel (copyEnd x0 x1) = skel x1 := by
  unfold copyEnd
  (try dsimp only)
  repeat' split
  all_goals simp [sk]
@[simp] theorem skel_idleApply (x0) : skel (idleApply x0) = skel x0 := by
  unfold idleApply
  (try dsimp only)
  repeat' split
  all_goals simp [sk]
@[simp] theorem skel_copiesPast (x0) : skel (copiesPast x0) = skel x0 := by
  unfold copiesPast
  (try dsimp only)
  refine skel_foldl _ (fun s x => ?_) _ _
  (try dsimp only)
  repeat' split
  all_goals simp [sk]
@[simp] theorem skel_oasisSkipped (x0) : skel (oasisSkipped x0) = skel x0 := by
  simp [oasisSkipped, sk]
@[simp] theorem skel_rotationStands (x0) : skel (rotationStands x0) = skel x0 := by
  simp [rotationStands, sk]
@[simp] theorem skel_oasisResults (x0) : skel (oasisResults x0) = skel x0 := by
  simp [oasisResults, sk]
@[simp] theorem skel_eyeRise (x0 x1 x2) : skel (eyeRise x0 x1 x2) = skel x2 := by
  simp [eyeRise, sk]
@[simp] theorem skel_newOrbitMarks (x0) : skel (newOrbitMarks x0) = skel x0 := by
  simp [newOrbitMarks, sk]
@[simp] theorem skel_powerBack (x0) : skel (powerBack x0) = skel x0 := by
  simp [powerBack, sk]
@[simp] theorem skel_boundaryCore (x0) : skel (boundaryCore x0) = skel x0 := by
  simp [boundaryCore, sk]
@[simp] theorem skel_orbitBoundary (x0 x1) : skel (orbitBoundary x0 x1) = skel x1 := by
  simp [orbitBoundary, sk]
@[simp] theorem skel_oasisCut (x0) : skel (oasisCut x0) = skel x0 := by
  simp [oasisCut, sk]
@[simp] theorem skel_realign (x0) : skel (realign x0) = skel x0 := by
  simp [realign, sk]
@[simp] theorem skel_leaveIdle (x0) : skel (leaveIdle x0) = skel x0 := by
  simp [leaveIdle, sk]
@[simp] theorem skel_markAct (x0) : skel (markAct x0) = skel x0 := by
  unfold markAct
  (try dsimp only)
  repeat' split
  all_goals simp [sk]
@[simp] theorem skel_resyncAct (x0) : skel (resyncAct x0) = skel x0 := by
  simp [resyncAct, sk]
@[simp] theorem skel_oasisBeginAct (x0) : skel (oasisBeginAct x0) = skel x0 := by
  simp [oasisBeginAct, sk]
theorem skel_orbChan (s : State) (x y) (h : y.length = s.chan.length) : skel { s with orb := x, chan := y } = skel s := by
  simp [h, sk]
@[simp] theorem skel_oasisStart (l s) : skel (oasisStart l s) = skel s := by
  unfold oasisStart
  split
  · rfl
  · dsimp only
    rw [skel_retag, skel_diagClear, skel_eyeStart, skel_sweepStart, skel_orbChan _ _ _ (List.length_map _)]
    exact (skel_foldl _ (fun s c => skel_judgeConv _ _ _) _ _).trans (skel_parkedTrims s)
@[simp] theorem skel_rotationEnd (x0 x1) : skel (rotationEnd x0 x1) = skel x1 := by
  simp [rotationEnd, sk]
@[simp] theorem skel_pedTracking (x0) : skel (pedTracking x0) = skel x0 := by
  simp [pedTracking, sk]
@[simp] theorem skel_trimApply (x0) : skel (trimApply x0) = skel x0 := by
  simp [trimApply, sk]
@[simp] theorem skel_convReady (x0 x1) : skel (convReady x0 x1) = skel x1 := by
  simp [convReady, sk]
@[simp] theorem skel_count01 (x0 x1) : skel (count01 x0 x1) = skel x1 := by
  simp [count01, sk]
@[simp] theorem skel_bufWrite (x0 x1 x2 x3) : skel (bufWrite x0 x1 x2 x3) = skel x3 := by
  simp [bufWrite, sk]
@[simp] theorem skel_smapWrite (x0 x1 x2 x3) : skel (smapWrite x0 x1 x2 x3) = skel x3 := by
  simp [smapWrite, sk]
@[simp] theorem skel_spiGo (x0 x1 x2 x3) : skel (spiGo x0 x1 x2 x3) = skel x3 := by
  simp [spiGo, sk]
@[simp] theorem skel_spiFields (x0 x1) : skel (spiFields x0 x1) = skel x1 := by
  simp [spiFields, sk]
@[simp] theorem skel_spiCmdWrite (x0 x1) : skel (spiCmdWrite x0 x1) = skel x1 := by
  simp [spiCmdWrite, sk]
@[simp] theorem skel_pollStatus (x0 x1) : skel (pollStatus x0 x1) = skel x1 := by
  simp [pollStatus, sk]
@[simp] theorem skel_spiIdle (x0) : skel (spiIdle x0) = skel x0 := by
  simp [spiIdle, sk]
@[simp] theorem skel_flashAnswer (x0 x1 x2 x3 x4) : skel (flashAnswer x0 x1 x2 x3 x4) = skel x4 := by
  simp [flashAnswer, sk]
@[simp] theorem skel_spiTimeout (x0) : skel (spiTimeout x0) = skel x0 := by
  simp [spiTimeout, sk]
@[simp] theorem skel_spiDone (x0) : skel (spiDone x0) = skel x0 := by
  simp [spiDone, sk]
@[simp] theorem skel_setDue (x0 x1 x2 x3) : skel (setDue x0 x1 x2 x3) = skel x3 := by
  simp [setDue, sk]
theorem skel_onCode (w act s) (h : ∀ t s, skel (act t s) = skel s) : skel (onCode w act s) = skel s := by
  unfold onCode
  repeat' split
  all_goals simp [h]
@[simp] theorem skel_oasisBeginCmd (s) : skel (oasisBeginCmd s) = skel s := by
  unfold oasisBeginCmd
  refine skel_onCode _ _ _ (fun t s => ?_)
  first | rfl | (simp; done) | (split <;> simp)
@[simp] theorem skel_updateCmd (s) : skel (updateCmd s) = skel s := by
  unfold updateCmd
  refine skel_onCode _ _ _ (fun t s => ?_)
  first | rfl | (simp; done) | (split <;> simp)
@[simp] theorem skel_armFast (s) : skel (armFast s) = skel s := by
  unfold armFast
  refine skel_onCode _ _ _ (fun t s => ?_)
  first | rfl | (simp; done) | (split <;> simp)
@[simp] theorem skel_resyncCmd (s) : skel (resyncCmd s) = skel s := by
  unfold resyncCmd
  refine skel_onCode _ _ _ (fun t s => ?_)
  first | rfl | (simp; done) | (split <;> simp)
@[simp] theorem skel_testPulseCmd (s) : skel (testPulseCmd s) = skel s := by
  unfold testPulseCmd
  refine skel_onCode _ _ _ (fun t s => ?_)
  first | rfl | (simp; done) | (split <;> simp)
@[simp] theorem skel_unknownCmd (s) : skel (unknownCmd s) = skel s := by
  unfold unknownCmd
  refine skel_onCode _ _ _ (fun t s => ?_)
  first | rfl | (simp; done) | (split <;> simp)
@[simp] theorem skel_orbitMarkCmd (x0) : skel (orbitMarkCmd x0) = skel x0 := by
  unfold orbitMarkCmd
  (try dsimp only)
  repeat' split
  all_goals simp [sk]
@[simp] theorem skel_acceptCmd (x0) : skel (acceptCmd x0) = skel x0 := by
  unfold acceptCmd
  (try dsimp only)
  repeat' split
  all_goals simp [sk]
@[simp] theorem skel_acceptFirst (x0) : skel (acceptFirst x0) = skel x0 := by
  unfold acceptFirst
  (try dsimp only)
  repeat' split
  all_goals simp [sk]
@[simp] theorem skel_tallyClr (x0 x1 x2) : skel (tallyClr x0 x1 x2) = skel x2 := by
  simp [tallyClr, sk]
@[simp] theorem skel_armCmd (x0 x1) : skel (armCmd x0 x1) = skel x1 := by
  simp [armCmd, sk]
@[simp] theorem skel_flushWrite (x0 x1) : skel (flushWrite x0 x1) = skel x1 := by
  unfold flushWrite
  (try dsimp only)
  repeat' split
  all_goals simp [sk]
@[simp] theorem skel_dlCtl (x0 x1 x2) : skel (dlCtl x0 x1 x2) = skel x2 := by
  simp [dlCtl, sk]
@[simp] theorem skel_linkSync (x0) : skel (linkSync x0) = skel x0 := by
  simp [linkSync, sk]
@[simp] theorem skel_mgCtl (x0 x1 x2) : skel (mgCtl x0 x1 x2) = skel x2 := by
  simp [mgCtl, sk]
@[simp] theorem skel_regOffDone (x0) : skel (regOffDone x0) = skel x0 := by
  simp [regOffDone, sk]
@[simp] theorem skel_hostWrite (x0 x1 x2 x3) : skel (hostWrite x0 x1 x2 x3) = skel x3 := by
  simp [hostWrite, sk]
@[simp] theorem skel_ownEffect (x0 x1 x2 x3 x4) : skel (ownEffect x0 x1 x2 x3 x4) = skel x4 := by
  simp [ownEffect, sk]
@[simp] theorem skel_supResetPair (x0 x1) : skel (supResetPair x0 x1) = skel x1 := by
  simp [supResetPair, sk]
@[simp] theorem skel_overridden (x0 x1) : skel (overridden x0 x1) = skel x1 := by
  simp [overridden, sk]
@[simp] theorem skel_sideEffect (x0 x1 x2 x3 x4) : skel (sideEffect x0 x1 x2 x3 x4) = skel x4 := by
  simp [sideEffect, sk]
@[simp] theorem skel_writeEffect (x0 x1 x2 x3 x4) : skel (writeEffect x0 x1 x2 x3 x4) = skel x4 := by
  simp [writeEffect, sk]
@[simp] theorem skel_applySup (x0 x1 x2) : skel (applySup x0 x1 x2) = skel x2 := by
  simp [applySup, sk]
@[simp] theorem skel_postedEffect (x0 x1) : skel (postedEffect x0 x1) = skel x1 := by
  unfold postedEffect
  (try dsimp only)
  repeat' split
  all_goals simp [sk]
@[simp] theorem skel_ownPosted (x0 x1 x2) : skel (ownPosted x0 x1 x2) = skel x2 := by
  unfold ownPosted
  (try dsimp only)
  repeat' split
  all_goals simp [sk]
@[simp] theorem skel_acceptWrite (x0 x1 x2 x3 x4) : skel (acceptWrite x0 x1 x2 x3 x4) = skel x4 := by
  simp [acceptWrite, sk]
@[simp] theorem skel_dropGuard (x0 x1 x2) : skel (dropGuard x0 x1 x2) = skel x2 := by
  simp [dropGuard, sk]
@[simp] theorem skel_guardBroken (x0 x1 x2) : skel (guardBroken x0 x1 x2) = skel x2 := by
  simp [guardBroken, sk]
@[simp] theorem skel_breakGuard (x0 x1 x2) : skel (breakGuard x0 x1 x2) = skel x2 := by
  simp [breakGuard, sk]
@[simp] theorem skel_servedWrite (x0 x1 x2 x3 x4) : skel (servedWrite x0 x1 x2 x3 x4) = skel x4 := by
  unfold servedWrite
  (try dsimp only)
  repeat' split
  all_goals simp [sk]
@[simp] theorem skel_beginAccess (x0 x1) : skel (beginAccess x0 x1) = skel x1 := by
  simp [beginAccess, sk]
@[simp] theorem skel_lostAccess (x0 x1) : skel (lostAccess x0 x1) = skel x1 := by
  simp [lostAccess, sk]
@[simp] theorem skel_alignRefused (x0 x1 x2) : skel (alignRefused x0 x1 x2) = skel x2 := by
  simp [alignRefused, sk]
@[simp] theorem skel_fabWrite (x0 x1 x2 x3) : skel (fabWrite x0 x1 x2 x3) = skel x3 := by
  simp [fabWrite, sk]
@[simp] theorem skel_rowWrite (x0 x1 x2 x3) : skel (rowWrite x0 x1 x2 x3) = skel x3 := by
  simp [rowWrite, sk]
@[simp] theorem skel_cmdWrite (x0 x1 x2 x3) : skel (cmdWrite x0 x1 x2 x3) = skel x3 := by
  simp [cmdWrite, sk]
@[simp] theorem skel_readLow (x0 x1 x2 x3) : skel ((readLow x0 x1 x2 x3).2) = skel x3 := by
  simp [readLow, sk]
@[simp] theorem skel_readHigh (x0 x1 x2 x3) : skel ((readHigh x0 x1 x2 x3).2) = skel x3 := by
  unfold readHigh
  (try dsimp only)
  repeat' split
  all_goals simp [sk]
@[simp] theorem skel_servedRead (x0 x1 x2 x3) : skel ((servedRead x0 x1 x2 x3).2) = skel x3 := by
  unfold servedRead
  (try dsimp only)
  repeat' split
  all_goals simp [sk]
@[simp] theorem skel_setRdata (m r) : skel (setRdata m r) = skel r.2 := by simp [setRdata]
@[simp] theorem skel_fabRead (m a s) : skel (fabRead m a s) = skel s := by
  simp [fabRead]
@[simp] theorem skel_seqWrite (m i a l r s) : skel (seqWrite m i a l r s).2 = skel s := by
  induction l generalizing i a r s with
  | nil => rfl
  | cons w t ih => simp [seqWrite, ih]
@[simp] theorem skel_seqRead (m n i a r s) : skel (seqRead m n i a r s).2 = skel s := by
  induction n generalizing i a r s with
  | zero => rfl
  | succ n ih => simp [seqRead, ih]
@[simp] theorem skel_bumpNtc (x0) : skel (bumpNtc x0) = skel x0 := by
  simp [bumpNtc, sk]
@[simp] theorem skel_noticeOut (x0) : skel (noticeOut x0) = skel x0 := by
  unfold noticeOut
  (try dsimp only)
  repeat' split
  all_goals simp [sk]
@[simp] theorem skel_landFrame (x0 x1 x2) : skel (landFrame x0 x1 x2) = skel x2 := by
  simp [landFrame, sk]
@[simp] theorem skel_arrival (x0 x1 x2) : skel (arrival x0 x1 x2) = skel x2 := by
  simp [arrival, sk]
@[simp] theorem skel_ctlHeader (x0 x1 x2 x3) : skel (ctlHeader x0 x1 x2 x3) = skel x3 := by
  simp [ctlHeader, sk]
@[simp] theorem skel_ctlData (x0 x1 x2 x3 x4) : skel (ctlData x0 x1 x2 x3 x4) = skel x4 := by
  simp [ctlData, sk]
@[simp] theorem skel_ctlWord (x0 x1 x2 x3) : skel (ctlWord x0 x1 x2 x3) = skel x3 := by
  unfold ctlWord
  (try dsimp only)
  repeat' split
  all_goals simp [sk]
@[simp] theorem skel_ttOther (x0 x1 x2) : skel (ttOther x0 x1 x2) = skel x2 := by
  simp [ttOther, sk]
@[simp] theorem skel_probeByte (x0 x1 x2 x3 x4) : skel (probeByte x0 x1 x2 x3 x4) = skel x4 := by
  simp [probeByte, sk]
@[simp] theorem skel_fastByte (x0 x1 x2 x3) : skel (fastByte x0 x1 x2 x3) = skel x3 := by
  simp [fastByte, sk]
@[simp] theorem skel_endRuns (x0 x1) : skel (endRuns x0 x1) = skel x1 := by
  simp [endRuns, sk]
@[simp] theorem skel_decodedFrame (x0 x1 x2 x3) : skel (decodedFrame x0 x1 x2 x3) = skel x3 := by
  simp [decodedFrame, sk]
@[simp] theorem skel_downlinkFrame (x0 x1 x2) : skel (downlinkFrame x0 x1 x2) = skel x2 := by
  simp [downlinkFrame, sk]
@[simp] theorem skel_servePacket (x0 x1 x2) : skel ((servePacket x0 x1 x2).2) = skel x2 := by
  unfold servePacket
  (try dsimp only)
  repeat' split
  all_goals simp [sk]
@[simp] theorem skel_packetStep (x0 x1) : skel (packetStep x0 x1) = skel x1 := by
  unfold packetStep
  (try dsimp only)
  repeat' split
  all_goals simp [sk]
@[simp] theorem skel_packetsDue (x0 x1) : skel (packetsDue x0 x1) = skel x1 := by
  simp [packetsDue, sk]
@[simp] theorem skel_downlinksFirst (x0) : skel (downlinksFirst x0) = skel x0 := by
  simp [downlinksFirst, sk]
@[simp] theorem skel_controlPacket (x0 x1) : skel (controlPacket x0 x1) = skel x1 := by
  unfold controlPacket
  (try dsimp only)
  repeat' split
  all_goals simp [sk]
@[simp] theorem skel_controlResponse (x0 x1) : skel (controlResponse x0 x1) = skel x1 := by
  unfold controlResponse
  (try dsimp only)
  repeat' split
  all_goals simp [sk]
@[simp] theorem skel_timeTransfer (x0) : skel (timeTransfer x0) = skel x0 := by
  simp [timeTransfer, sk]
@[simp] theorem skel_dropItem (x0 x1) : skel (dropItem x0 x1) = skel x1 := by
  unfold dropItem
  (try dsimp only)
  repeat' split
  all_goals simp [sk]
@[simp] theorem skel_ingress (x0 x1 x2 x3) : skel (ingress x0 x1 x2 x3) = skel x3 := by
  simp [ingress, sk]
@[simp] theorem skel_toEngine (x0 x1) : skel (toEngine x0 x1) = skel x1 := by
  simp [toEngine, sk]
@[simp] theorem skel_mgReceive (x0 x1 x2) : skel (mgReceive x0 x1 x2) = skel x2 := by
  simp [mgReceive, sk]
@[simp] theorem skel_queueResponse (x0 x1 x2) : skel (queueResponse x0 x1 x2) = skel x2 := by
  simp [queueResponse, sk]
@[simp] theorem skel_serveRequest (x0 x1) : skel (serveRequest x0 x1) = skel x1 := by
  unfold serveRequest
  (try dsimp only)
  repeat' split
  all_goals simp [sk]
@[simp] theorem skel_requestStep (x0) : skel (requestStep x0) = skel x0 := by
  unfold requestStep
  (try dsimp only)
  repeat' split
  all_goals simp [sk]
@[simp] theorem skel_registerRequest (x0) : skel (registerRequest x0) = skel x0 := by
  unfold registerRequest
  (try dsimp only)
  repeat' split
  all_goals simp [sk]
@[simp] theorem skel_mastersFirst (x0) : skel (mastersFirst x0) = skel x0 := by
  simp [mastersFirst, sk]
@[simp] theorem skel_frameOut (x0 x1) : skel (frameOut x0 x1) = skel x1 := by
  simp [frameOut, sk]
@[simp] theorem skel_frameCut (x0 x1) : skel (frameCut x0 x1) = skel x1 := by
  simp [frameCut, sk]
@[simp] theorem skel_discardItem (x0 x1 x2) : skel (discardItem x0 x1 x2) = skel x2 := by
  simp [discardItem, sk]
@[simp] theorem skel_stampFrame (x0 x1 x2 x3) : skel (stampFrame x0 x1 x2 x3) = skel x3 := by
  simp [stampFrame, sk]
@[simp] theorem skel_readItem (x0 x1 x2) : skel (readItem x0 x1 x2) = skel x2 := by
  unfold readItem
  (try dsimp only)
  repeat' split
  all_goals simp [sk]
@[simp] theorem skel_beginItem (x0 x1 x2 x3 x4) : skel (beginItem x0 x1 x2 x3 x4) = skel x4 := by
  simp [beginItem, sk]
@[simp] theorem skel_startItem (x0 x1 x2) : skel (startItem x0 x1 x2) = skel x2 := by
  unfold startItem
  (try dsimp only)
  repeat' split
  all_goals simp [sk]
@[simp] theorem skel_goOn (x0 x1 x2) : skel (goOn x0 x1 x2) = skel x2 := by
  unfold goOn
  (try dsimp only)
  repeat' split
  all_goals simp [sk]
@[simp] theorem skel_cutStopped (x0 x1 x2) : skel (cutStopped x0 x1 x2) = skel x2 := by
  simp [cutStopped, sk]
@[simp] theorem skel_sendQueued (x0 x1) : skel (sendQueued x0 x1) = skel x1 := by
  unfold sendQueued
  (try dsimp only)
  repeat' split
  all_goals simp [sk]
@[simp] theorem skel_mgSend (x0 x1 x2) : skel (mgSend x0 x1 x2) = skel x2 := by
  unfold mgSend
  (try dsimp only)
  repeat' split
  all_goals simp [sk]
@[simp] theorem skel_linkChange (x0 x1 x2) : skel (linkChange x0 x1 x2) = skel x2 := by
  simp [linkChange, sk]
@[simp] theorem skel_partialWord (x0) : skel (partialWord x0) = skel x0 := by
  simp [partialWord, sk]
@[simp] theorem skel_ptrStep (x0) : skel (ptrStep x0) = skel x0 := by
  simp [ptrStep, sk]
@[simp] theorem skel_i2cBegin (x0 x1) : skel (i2cBegin x0 x1) = skel x1 := by
  simp [i2cBegin, sk]
@[simp] theorem skel_i2cCount (x0) : skel (i2cCount x0) = skel x0 := by
  simp [i2cCount, sk]
@[simp] theorem skel_i2cData (n l s) : skel (i2cData n l s) = skel s := by
  induction n generalizing l s with
  | zero => rfl
  | succ n ih =>
    unfold i2cData
    dsimp only
    repeat' split
    all_goals simp [ih]
@[simp] theorem skel_i2cWrite (x0 x1 x2) : skel (i2cWrite x0 x1 x2) = skel x2 := by
  simp [i2cWrite, sk]
@[simp] theorem skel_i2cBytes (n k l s) : skel (i2cBytes n k l s).2 = skel s := by
  induction n generalizing k l s with
  | zero => rfl
  | succ n ih =>
    unfold i2cBytes
    dsimp only
    repeat' split
    all_goals simp [ih]
@[simp] theorem skel_i2cRead (x0 x1 x2) : skel (i2cRead x0 x1 x2) = skel x2 := by
  simp [i2cRead, sk]
@[simp] theorem skel_stretchLimit (x0 x1) : skel (stretchLimit x0 x1) = skel x1 := by
  simp [stretchLimit, sk]
@[simp] theorem skel_loadIr (x0 x1 x2 x3) : skel (loadIr x0 x1 x2 x3) = skel x3 := by
  simp [loadIr, sk]
@[simp] theorem skel_tapReset (x0 x1) : skel (tapReset x0 x1) = skel x1 := by
  simp [tapReset, sk]
@[simp] theorem skel_pinLevels (x0) : skel ((pinLevels x0).2) = skel x0 := by
  simp [pinLevels, sk]
@[simp] theorem skel_samplePreload (x0 x1) : skel (samplePreload x0 x1) = skel x1 := by
  simp [samplePreload, sk]
@[simp] theorem skel_leaveAgain (x0 x1) : skel (leaveAgain x0 x1) = skel x1 := by
  simp [leaveAgain, sk]
@[simp] theorem skel_corePagesReset (x0) : skel (corePagesReset x0) = skel x0 := by
  simp [corePagesReset, sk]
@[simp] theorem skel_coreFollows (x0) : skel (coreFollows x0) = skel x0 := by
  simp [coreFollows, sk]
@[simp] theorem skel_nextSlot (x0) : skel (nextSlot x0) = skel x0 := by
  simp [nextSlot, sk]
@[simp] theorem skel_slotOver (x0) : skel (slotOver x0) = skel x0 := by
  simp [slotOver, sk]
@[simp] theorem skel_endInterrupted (x0) : skel (endInterrupted x0) = skel x0 := by
  simp [endInterrupted, sk]
@[simp] theorem skel_flushCmd (x0 x1 x2 x3) : skel (flushCmd x0 x1 x2 x3) = skel x3 := by
  simp [flushCmd, sk]
@[simp] theorem skel_pinsSeen (x0 x1) : skel (pinsSeen x0 x1) = skel x1 := by
  simp [pinsSeen, sk]
@[simp] theorem skel_serData (x0 x1 x2) : skel (serData x0 x1 x2) = skel x2 := by
  simp [serData, sk]
@[simp] theorem skel_serHdr (x0 x1 x2 x3) : skel (serHdr x0 x1 x2 x3) = skel x3 := by
  simp [serHdr, sk]
@[simp] theorem skel_serEnd (x0 x1 x2 x3) : skel (serEnd x0 x1 x2 x3) = skel x3 := by
  simp [serEnd, sk]
@[simp] theorem skel_serCancel (x0 x1) : skel (serCancel x0 x1) = skel x1 := by
  simp [serCancel, sk]
@[simp] theorem skel_heldDone (x0 x1) : skel (heldDone x0 x1) = skel x1 := by
  simp [heldDone, sk]

end

end Sys2Proof.Machine
end

