-- ==== Sys2Proof/Laws/Power.lean ====
section
/-! SUPPORT. What the operations of power and reset change of the skeleton, and how a command that waits for the release of the POR or
for CK_CORE acts; and the vote of a control word. -/

namespace Sys2Proof.Machine

/-! ### Power and reset -/

/-- The sizes of the arrays at reset. -/
theorem reset_sizes : State.reset.conv.length = 384 ∧ State.reset.chan.length = 384 ∧ State.reset.flint.length = 384 ∧
    State.reset.fout.length = 7 ∧ State.reset.seams.length = 6 ∧ State.reset.ser.qs.length = 32 ∧
    State.reset.fab.masters.length = 4 :=
  ⟨List.length_replicate, List.length_replicate, List.length_replicate, List.length_replicate, List.length_replicate,
    List.length_replicate, rfl⟩

@[simp] theorem skel_heldState (s : State) :
    skel (heldState s) = ⟨s.pending, true, s.pw.released, s.pw.vdda, false, false, false, 384, 384, 384, 7, 6, 32, 4⟩ := by
  obtain ⟨h1, h2, h3, h4, h5, h6, h7⟩ := reset_sizes
  simp only [heldState, skel_mk, h1, h2, h3, h4, h5, h6, h7]
  rfl

@[simp] theorem skel_coreStop (s : State) : skel (coreStop s) = { skel s with coreRun := false } := by
  simp [coreStop, sk]

/-- The end of a hold stops CK_CORE or does nothing. -/
theorem skel_holdTimeout (s : State) : skel (holdTimeout s) = skel s ∨ skel (holdTimeout s) = { skel s with coreRun := false } := by
  unfold holdTimeout
  split
  · exact .inl rfl
  · dsimp only
    generalize hu : (if s.pll.phaseLost then s
      else count 0x02 1 (setUncomp { s with pll := { s.pll with phaseLost := true } })) = u
    have hk : skel u = skel s := by rw [← hu]; split <;> simp [sk]
    rw [← hk]
    repeat' split
    · exact .inl rfl
    · exact .inl (by simp)
    · exact .inr (by simp)

@[simp] theorem skel_xtalLoss (s : State) : skel (xtalLoss s) = { skel s with xtal := false } := by
  unfold xtalLoss
  split
  · rename_i h
    have : s.pw.xtal = false := by simpa using h
    rw [show (false : Bool) = s.pw.xtal from this.symm]; rfl
  · simp [sk]

@[simp] theorem skel_xtalReturn (s : State) : skel (xtalReturn s) = { skel s with xtal := s.pw.xtal || s.pw.vdda } := by
  unfold xtalReturn
  split
  · rename_i h
    have : (s.pw.xtal || s.pw.vdda) = s.pw.xtal := by
      revert h; cases s.pw.xtal <;> cases s.pw.vdda <;> simp
    rw [this]; rfl
  · rename_i h
    have : (s.pw.xtal || s.pw.vdda) = true := by
      revert h; cases s.pw.xtal <;> cases s.pw.vdda <;> simp
    rw [this]; simp [sk]

@[simp] theorem skel_vddaLoss (s : State) : skel (vddaLoss s) = { skel s with vdda := false, coreRun := false, xtal := false } := by
  unfold vddaLoss
  dsimp only
  generalize hu : (if s.pw.coreRun then coreStop { s with pw := { s.pw with vdda := false } }
    else { s with pw := { s.pw with vdda := false } }) = u
  have hk : skel u = { skel s with vdda := false, coreRun := false } := by
    rw [← hu]
    split
    · simp [sk]
    · rename_i h
      rw [show (false : Bool) = s.pw.coreRun by simpa using h]; rfl
  rw [skel_xtalLoss]
  simp [takeFree, sk, hk]

@[simp] theorem skel_vddaReturn (s : State) : skel (vddaReturn s) = { skel s with vdda := true } := by
  unfold vddaReturn
  split
  · rename_i h
    rw [show (true : Bool) = s.pw.vdda from h.symm]; rfl
  · simp [sk]

@[simp] theorem skel_vddioLoss (s : State) : skel (vddioLoss s) = skel s := by
  unfold vddioLoss; simp; rfl

@[simp] theorem skel_coreInit (t : Trunk) (s : State) : skel (coreInit t s) = { skel s with coreRun := true, coreEver := true } := by
  simp [coreInit, sk]

@[simp] theorem skel_coreReturn (t : Trunk) (s : State) : skel (coreReturn t s) = { skel s with coreRun := true } := by
  simp [coreReturn, sk]

theorem running_eq (f : State → State) {s : State} (h : s.pw.por = false) : running f s = f s := by simp [running, h]
theorem coreOnly_eq (f : State → State) {s : State} (h : s.pw.por = false) (k : s.pw.coreRun = true) : coreOnly f s = f s := by
  simp [coreOnly, h, k]

/-- A command that waits for the release of the POR keeps what its effect keeps. -/
theorem running_ind (P : State → State → Prop) (f : State → State) (s : State) (h0 : P s s) (h : s.pw.por = false → P s (f s)) :
    P s (running f s) := by
  unfold running
  cases hp : s.pw.por
  · simpa using h hp
  · simpa using h0

theorem coreOnly_ind (P : State → State → Prop) (f : State → State) (s : State) (h0 : P s s)
    (h : s.pw.por = false → s.pw.coreRun = true → P s (f s)) : P s (coreOnly f s) := by
  unfold coreOnly
  cases hp : s.pw.por
  · cases hc : s.pw.coreRun
    · simpa [hp, hc] using h0
    · simpa [hp, hc] using h hp hc
  · simpa [hp] using h0

/-! ### The vote of a control word (R288, R289) -/

/-- In each bit at most one copy differs from the code `c`, so the majority is `c`. -/
theorem upset_vote (c a b d : Nat) : ((c ^^^ a) &&& (c ^^^ (b ^^^ (b &&& a)))) ||| ((c ^^^ a) &&& (c ^^^ (d ^^^ (d &&& (a ||| b)))))
    ||| ((c ^^^ (b ^^^ (b &&& a))) &&& (c ^^^ (d ^^^ (d &&& (a ||| b))))) = c := by
  apply Nat.eq_of_testBit_eq
  intro i
  simp only [Nat.testBit_or, Nat.testBit_and, Nat.testBit_xor]
  cases c.testBit i <;> cases a.testBit i <;> cases b.testBit i <;> cases d.testBit i <;> rfl

/-- Every use of a control word takes its code, whatever upsets stand. -/
theorem ctlVote_eq (s : State) (p w : Nat) : ctlVote s p w = ctlCode s p w := by
  unfold ctlVote ctlCopy
  split
  · exact upset_vote _ _ _ _
  · simp

end Sys2Proof.Machine
end

