-- ==== Sys2Proof/Laws/Access.lean ====
section
/-! SUPPORT. What a register access that nothing refuses does: the effect of the write on a state that differs in the master's record
only. -/

namespace Sys2Proof.Machine

theorem addr_page (p o : Nat) (h : o < 0x1000) : addrOf p o / 0x1000 = p := by unfold addrOf; omega
theorem addr_off (p o : Nat) (h : o < 0x1000) : addrOf p o % 0x1000 = o := by unfold addrOf; omega
theorem addr_aligned (p o : Nat) (h : o % 4 = 0) : addrOf p o % 4 = 0 := by unfold addrOf; omega

theorem access_beginAccess (m : Master) (s : State) : Access s (beginAccess m s) := ⟨rfl, fun _ => rfl⟩

theorem getMaster_beginAccess_guards (m k : Master) (s : State) : (getMaster (beginAccess m s) k).guards = (getMaster s k).guards := by
  unfold beginAccess
  by_cases h : m = k
  · subst h
    unfold getMaster modMaster
    simp only [List.getD, List.getElem?_modify]
    cases s.fab.masters[masterIdx m]? <;> simp
  · rw [getMaster_modMaster_ne m k _ s h]

theorem serves_beginAccess {s : State} {m : Master} {p : Nat} (h : Serves s m p) : Serves (beginAccess m s) m p where
  runs := h.runs
  guard := by rw [← h.guard]; unfold openGuard; rw [getMaster_beginAccess_guards]
  idle := h.idle

theorem writeRefusal_access (m : Master) (s : State) (p o v : Nat) : writeRefusal (beginAccess m s) p o v = writeRefusal s p o v := rfl

theorem breakGuard_none {m : Master} {a : Nat} {s : State} (h : openGuard s m (a / 0x1000) = none) : breakGuard m a s = s := by
  simp [breakGuard, h]

theorem ownPosted_idle {m : Master} {p : Nat} {s : State} (h : (pageSt s p).posted = none) : ownPosted m p s = s := by
  unfold ownPosted; split
  · rfl
  · rw [h]

theorem overrun_idle {m : Master} {p : Nat} {s : State} (h : (pageSt s p).posted = none) : overrun s m p = false := by
  simp [overrun, h]

/-- A served write of a plain word. -/
theorem servedWrite_plain {m : Master} {p o v : Nat} {s : State} (h : Serves s m p) (ho : o < 0x1000)
    (hg : isGuarded p o = false) (hc : ¬ (0x800 ≤ o ∧ isGuarded p (o - 0x800) = true)) (hf : (regForm p o).isSome = true)
    (hr : writeRefusal s p o v = none) : servedWrite m p o v s = acceptWrite m p o v s := by
  have hb : breakGuard m (addrOf p o) s = s := breakGuard_none (by rw [addr_page p o ho]; exact h.guard)
  have hn : (regForm p o).isNone = false := by rw [Option.isNone_eq_false_iff]; exact hf
  unfold servedWrite
  simp only [if_neg hc, hb, hg, overrun_idle h.idle, hn, hr]
  rfl

/-- A write of a plain word of a page outside CK_SUP has its effect at once (R334, R335). -/
theorem rowWrite_core {m : Master} {p o v : Nat} {s : State} (h : Serves s m p) (hs : isSup p = false) (ho : o < 0x1000)
    (h4 : o % 4 = 0) (hg : isGuarded p o = false) (hc : ¬ (0x800 ≤ o ∧ isGuarded p (o - 0x800) = true))
    (hf : (regForm p o).isSome = true) (hr : writeRefusal s p o v = none) :
    rowWrite m (addrOf p o) v s = writeEffect m p o v (beginAccess m s) := by
  have hb := serves_beginAccess h
  have h1 : ∀ u, ownPosted m p u = u := fun u => by simp [ownPosted, hs]
  unfold rowWrite fabWrite
  simp only [addr_page p o ho, addr_off p o ho, addr_aligned p o h4, h1, hb.runs]
  rw [← writeRefusal_access m] at hr
  simp only [Bool.not_true, Bool.false_eq_true, if_false, ne_eq, not_true_eq_false]
  rw [servedWrite_plain hb ho hg hc hf hr]
  simp [acceptWrite, hs]

/-- A write of a plain word of a page in CK_SUP is posted and takes effect in the same step (R342, R343). -/
theorem rowWrite_sup {m : Master} {p o v : Nat} {s : State} (h : Serves s m p) (hk : keysFrom 0 s.fab.pages = true) (hs : isSup p = true)
    (ho : o < 0x1000) (h4 : o % 4 = 0) (hg : isGuarded p o = false) (hc : ¬ (0x800 ≤ o ∧ isGuarded p (o - 0x800) = true))
    (hf : (regForm p o).isSome = true) (hr : writeRefusal s p o v = none) :
    ∃ u, Access s u ∧ rowWrite m (addrOf p o) v s = applySup p (addrOf p o) (writeEffect m p o (BitVec.ofNat 32 v).toNat u) := by
  have hb := serves_beginAccess h
  have h1 : ownPosted m p (beginAccess m s) = beginAccess m s := ownPosted_idle hb.idle
  rw [← writeRefusal_access m] at hr
  have hkb : keysFrom 0 (beginAccess m s).fab.pages = true := hk
  refine ⟨modPage p (fun x => { x with posted := none })
    (modPage p (fun x => { x with posted := some ⟨m, addrOf p o, BitVec.ofNat 32 v⟩ }) (beginAccess m s)), ⟨rfl, fun q => ?_⟩, ?_⟩
  · by_cases hq : q = p
    · subst hq
      rw [pageSt_modPage _ _ _ (keys_modPage _ _ _ hkb), pageSt_modPage _ _ _ hkb]
      have := hb.idle
      show { pageSt (beginAccess m s) q with posted := none } = pageSt s q
      have h2 : pageSt (beginAccess m s) q = pageSt s q := rfl
      rw [h2] at this ⊢
      generalize pageSt s q = y at this ⊢
      cases y
      simp only at this
      rw [this]
    · rw [pageSt_modPage_ne _ _ _ _ (keys_modPage _ _ _ hkb) hq, pageSt_modPage_ne _ _ _ _ hkb hq]
      rfl
  · unfold rowWrite fabWrite
    simp only [addr_page p o ho, addr_off p o ho, addr_aligned p o h4, h1, hb.runs]
    simp only [Bool.not_true, Bool.false_eq_true, if_false, ne_eq, not_true_eq_false]
    rw [servedWrite_plain hb ho hg hc hf hr]
    unfold ownPosted acceptWrite
    simp only [hs, Bool.not_true, Bool.false_eq_true, if_false, if_true, pageSt_modPage _ _ _ hkb]
    unfold postedEffect
    simp only [pageSt_modPage _ _ _ hkb, addr_off p o ho, hg, Bool.false_and, Bool.false_eq_true, if_false]

end Sys2Proof.Machine
end

