-- ==== Sys2Proof/Laws/Frame.lean ====
section
/-! SUPPORT. Frames: for every operation of the machine, the parts of the state it can change. `Only M s t` says that `t` is `s` but
for the parts `M`; one lemma per operation, in the order of the definition files, each a simp lemma that takes the operation off. -/

namespace Sys2Proof.Machine

section
set_option linter.unusedTactic false
set_option linter.unusedSimpArgs false
set_option linter.unusedVariables false
set_option linter.unreachableTactic false

theorem agree_refl (p s) : agree p s s := by cases p <;> rfl
theorem agree_trans (p s t u) (h : agree p s t) (k : agree p t u) : agree p s u := by cases p <;> exact k.trans h
theorem Only.refl (M s) : Only M s s := fun p _ => agree_refl p s
theorem Only.via {M N s u t} (h : Only N u t) (k : N ⊆ M) (g : Only M s u) : Only M s t :=
  fun p hp => agree_trans p s u t (g p hp) (h p (fun hn => hp (k hn)))
theorem Only.iff {M N z s t} (h : Only N s t) (k : N ⊆ M) : Only M z t ↔ Only M z s :=
  ⟨fun g p hp => by
     have a := g p hp; have b := h p (fun hn => hp (k hn))
     cases p <;> exact b.symm.trans a, fun g => h.via k g⟩
@[simp] theorem only_refl (M s) : Only M s s ↔ True := ⟨fun _ => trivial, fun _ => Only.refl M s⟩
@[simp] theorem only_foldl {α : Type} (M : List Part) (z s : State) (g : State → α → State) (l : List α) (h : ∀ v x, Only M v (g v x)) :
    Only M z (l.foldl g s) ↔ Only M z s := by
  induction l generalizing s with
  | nil => rfl
  | cons a t ih => rw [List.foldl_cons, ih]; exact (h s a).iff (List.Subset.refl _)
@[simp] theorem only_iterate (M : List Part) (z s : State) (g : State → State) (n : Nat) (h : ∀ v, Only M v (g v)) :
    Only M z (Nat.iterate g n s) ↔ Only M z s := by
  induction n generalizing s with
  | zero => rfl
  | succ k ih => rw [Function.iterate_succ_apply, ih]; exact (h s).iff (List.Subset.refl _)
@[simp] theorem only_ite (M z) (c : Prop) [Decidable c] (a b : State) : Only M z (if c then a else b) ↔ if c then Only M z a else Only M z b := by
  split <;> rfl

theorem only_mk_lnA_lnB (s u : State) (x_lnA x_lnB) : Only [.lnA, .lnB] s (State.mk u.pending u.pw u.jtag u.fab u.orb u.pll u.conv u.chan u.ring
    u.ringErr u.feat u.featErr u.flint u.fout u.flintOn u.seams u.acq u.ser u.frm x_lnA x_lnB u.dlA u.dlB u.sup u.tb u.mg u.slow u.cal u.mon
    u.pls u.her) ↔ Only [.lnA, .lnB] s u := by
  constructor <;> (intro h p hp; have := h p hp; cases p <;> first | exact this | exact absurd (by decide) hp)
theorem only_mk_dlA_dlB (s u : State) (x_dlA x_dlB) : Only [.dlA, .dlB] s (State.mk u.pending u.pw u.jtag u.fab u.orb u.pll u.conv u.chan u.ring
    u.ringErr u.feat u.featErr u.flint u.fout u.flintOn u.seams u.acq u.ser u.frm u.lnA u.lnB x_dlA x_dlB u.sup u.tb u.mg u.slow u.cal u.mon
    u.pls u.her) ↔ Only [.dlA, .dlB] s u := by
  constructor <;> (intro h p hp; have := h p hp; cases p <;> first | exact this | exact absurd (by decide) hp)
theorem only_mk_sup (s u : State) (x_sup) : Only [.sup] s (State.mk u.pending u.pw u.jtag u.fab u.orb u.pll u.conv u.chan u.ring u.ringErr u.feat
    u.featErr u.flint u.fout u.flintOn u.seams u.acq u.ser u.frm u.lnA u.lnB u.dlA u.dlB x_sup u.tb u.mg u.slow u.cal u.mon u.pls u.her) ↔ Only
    [.sup] s u := by
  constructor <;> (intro h p hp; have := h p hp; cases p <;> first | exact this | exact absurd (by decide) hp)
theorem only_mk_conv (s u : State) (x_conv) : Only [.conv] s (State.mk u.pending u.pw u.jtag u.fab u.orb u.pll x_conv u.chan u.ring u.ringErr
    u.feat u.featErr u.flint u.fout u.flintOn u.seams u.acq u.ser u.frm u.lnA u.lnB u.dlA u.dlB u.sup u.tb u.mg u.slow u.cal u.mon u.pls u.her)
    ↔ Only [.conv] s u := by
  constructor <;> (intro h p hp; have := h p hp; cases p <;> first | exact this | exact absurd (by decide) hp)
theorem only_mk_chan (s u : State) (x_chan) : Only [.chan] s (State.mk u.pending u.pw u.jtag u.fab u.orb u.pll u.conv x_chan u.ring u.ringErr
    u.feat u.featErr u.flint u.fout u.flintOn u.seams u.acq u.ser u.frm u.lnA u.lnB u.dlA u.dlB u.sup u.tb u.mg u.slow u.cal u.mon u.pls u.her)
    ↔ Only [.chan] s u := by
  constructor <;> (intro h p hp; have := h p hp; cases p <;> first | exact this | exact absurd (by decide) hp)
theorem only_mk_flint (s u : State) (x_flint) : Only [.flint] s (State.mk u.pending u.pw u.jtag u.fab u.orb u.pll u.conv u.chan u.ring u.ringErr
    u.feat u.featErr x_flint u.fout u.flintOn u.seams u.acq u.ser u.frm u.lnA u.lnB u.dlA u.dlB u.sup u.tb u.mg u.slow u.cal u.mon u.pls u.her)
    ↔ Only [.flint] s u := by
  constructor <;> (intro h p hp; have := h p hp; cases p <;> first | exact this | exact absurd (by decide) hp)
theorem only_mk_fout (s u : State) (x_fout) : Only [.fout] s (State.mk u.pending u.pw u.jtag u.fab u.orb u.pll u.conv u.chan u.ring u.ringErr
    u.feat u.featErr u.flint x_fout u.flintOn u.seams u.acq u.ser u.frm u.lnA u.lnB u.dlA u.dlB u.sup u.tb u.mg u.slow u.cal u.mon u.pls u.her)
    ↔ Only [.fout] s u := by
  constructor <;> (intro h p hp; have := h p hp; cases p <;> first | exact this | exact absurd (by decide) hp)
theorem only_mk_seams (s u : State) (x_seams) : Only [.seams] s (State.mk u.pending u.pw u.jtag u.fab u.orb u.pll u.conv u.chan u.ring u.ringErr
    u.feat u.featErr u.flint u.fout u.flintOn x_seams u.acq u.ser u.frm u.lnA u.lnB u.dlA u.dlB u.sup u.tb u.mg u.slow u.cal u.mon u.pls u.her)
    ↔ Only [.seams] s u := by
  constructor <;> (intro h p hp; have := h p hp; cases p <;> first | exact this | exact absurd (by decide) hp)
theorem only_mk_ser (s u : State) (x_ser) : Only [.ser] s (State.mk u.pending u.pw u.jtag u.fab u.orb u.pll u.conv u.chan u.ring u.ringErr u.feat
    u.featErr u.flint u.fout u.flintOn u.seams u.acq x_ser u.frm u.lnA u.lnB u.dlA u.dlB u.sup u.tb u.mg u.slow u.cal u.mon u.pls u.her) ↔ Only
    [.ser] s u := by
  constructor <;> (intro h p hp; have := h p hp; cases p <;> first | exact this | exact absurd (by decide) hp)
theorem only_mk_fab (s u : State) (x_fab) : Only [.fab] s (State.mk u.pending u.pw u.jtag x_fab u.orb u.pll u.conv u.chan u.ring u.ringErr u.feat
    u.featErr u.flint u.fout u.flintOn u.seams u.acq u.ser u.frm u.lnA u.lnB u.dlA u.dlB u.sup u.tb u.mg u.slow u.cal u.mon u.pls u.her) ↔ Only
    [.fab] s u := by
  constructor <;> (intro h p hp; have := h p hp; cases p <;> first | exact this | exact absurd (by decide) hp)
theorem only_mk_tb (s u : State) (x_tb) : Only [.tb] s (State.mk u.pending u.pw u.jtag u.fab u.orb u.pll u.conv u.chan u.ring u.ringErr u.feat
    u.featErr u.flint u.fout u.flintOn u.seams u.acq u.ser u.frm u.lnA u.lnB u.dlA u.dlB u.sup x_tb u.mg u.slow u.cal u.mon u.pls u.her) ↔ Only
    [.tb] s u := by
  constructor <;> (intro h p hp; have := h p hp; cases p <;> first | exact this | exact absurd (by decide) hp)
theorem only_mk_pw_tb (s u : State) (x_pw x_tb) : Only [.pw, .tb] s (State.mk u.pending x_pw u.jtag u.fab u.orb u.pll u.conv u.chan u.ring u.ringErr
    u.feat u.featErr u.flint u.fout u.flintOn u.seams u.acq u.ser u.frm u.lnA u.lnB u.dlA u.dlB u.sup x_tb u.mg u.slow u.cal u.mon u.pls u.her)
    ↔ Only [.pw, .tb] s u := by
  constructor <;> (intro h p hp; have := h p hp; cases p <;> first | exact this | exact absurd (by decide) hp)
theorem only_mk_orb (s u : State) (x_orb) : Only [.orb] s (State.mk u.pending u.pw u.jtag u.fab x_orb u.pll u.conv u.chan u.ring u.ringErr u.feat
    u.featErr u.flint u.fout u.flintOn u.seams u.acq u.ser u.frm u.lnA u.lnB u.dlA u.dlB u.sup u.tb u.mg u.slow u.cal u.mon u.pls u.her) ↔ Only
    [.orb] s u := by
  constructor <;> (intro h p hp; have := h p hp; cases p <;> first | exact this | exact absurd (by decide) hp)
theorem only_mk_pw (s u : State) (x_pw) : Only [.pw] s (State.mk u.pending x_pw u.jtag u.fab u.orb u.pll u.conv u.chan u.ring u.ringErr u.feat
    u.featErr u.flint u.fout u.flintOn u.seams u.acq u.ser u.frm u.lnA u.lnB u.dlA u.dlB u.sup u.tb u.mg u.slow u.cal u.mon u.pls u.her) ↔ Only
    [.pw] s u := by
  constructor <;> (intro h p hp; have := h p hp; cases p <;> first | exact this | exact absurd (by decide) hp)
theorem only_mk_pw_slow (s u : State) (x_pw x_slow) : Only [.pw, .slow] s (State.mk u.pending x_pw u.jtag u.fab u.orb u.pll u.conv u.chan u.ring
    u.ringErr u.feat u.featErr u.flint u.fout u.flintOn u.seams u.acq u.ser u.frm u.lnA u.lnB u.dlA u.dlB u.sup u.tb u.mg x_slow u.cal u.mon
    u.pls u.her) ↔ Only [.pw, .slow] s u := by
  constructor <;> (intro h p hp; have := h p hp; cases p <;> first | exact this | exact absurd (by decide) hp)
theorem only_mk_fab_ser (s u : State) (x_fab x_ser) : Only [.fab, .ser] s (State.mk u.pending u.pw u.jtag x_fab u.orb u.pll u.conv u.chan u.ring
    u.ringErr u.feat u.featErr u.flint u.fout u.flintOn u.seams u.acq x_ser u.frm u.lnA u.lnB u.dlA u.dlB u.sup u.tb u.mg u.slow u.cal u.mon
    u.pls u.her) ↔ Only [.fab, .ser] s u := by
  constructor <;> (intro h p hp; have := h p hp; cases p <;> first | exact this | exact absurd (by decide) hp)
theorem only_mk_fab_frm (s u : State) (x_fab x_frm) : Only [.fab, .frm] s (State.mk u.pending u.pw u.jtag x_fab u.orb u.pll u.conv u.chan u.ring
    u.ringErr u.feat u.featErr u.flint u.fout u.flintOn u.seams u.acq u.ser x_frm u.lnA u.lnB u.dlA u.dlB u.sup u.tb u.mg u.slow u.cal u.mon
    u.pls u.her) ↔ Only [.fab, .frm] s u := by
  constructor <;> (intro h p hp; have := h p hp; cases p <;> first | exact this | exact absurd (by decide) hp)
theorem only_mk_fab_ser_frm (s u : State) (x_fab x_ser x_frm) : Only [.fab, .ser, .frm] s (State.mk u.pending u.pw u.jtag x_fab u.orb u.pll u.conv
    u.chan u.ring u.ringErr u.feat u.featErr u.flint u.fout u.flintOn u.seams u.acq x_ser x_frm u.lnA u.lnB u.dlA u.dlB u.sup u.tb u.mg u.slow
    u.cal u.mon u.pls u.her) ↔ Only [.fab, .ser, .frm] s u := by
  constructor <;> (intro h p hp; have := h p hp; cases p <;> first | exact this | exact absurd (by decide) hp)
theorem only_mk_acq (s u : State) (x_acq) : Only [.acq] s (State.mk u.pending u.pw u.jtag u.fab u.orb u.pll u.conv u.chan u.ring u.ringErr u.feat
    u.featErr u.flint u.fout u.flintOn u.seams x_acq u.ser u.frm u.lnA u.lnB u.dlA u.dlB u.sup u.tb u.mg u.slow u.cal u.mon u.pls u.her) ↔ Only
    [.acq] s u := by
  constructor <;> (intro h p hp; have := h p hp; cases p <;> first | exact this | exact absurd (by decide) hp)
theorem only_mk_conv_ring_ringErr (s u : State) (x_conv x_ring x_ringErr) : Only [.conv, .ring, .ringErr] s (State.mk u.pending u.pw u.jtag u.fab
    u.orb u.pll x_conv u.chan x_ring x_ringErr u.feat u.featErr u.flint u.fout u.flintOn u.seams u.acq u.ser u.frm u.lnA u.lnB u.dlA u.dlB u.sup
    u.tb u.mg u.slow u.cal u.mon u.pls u.her) ↔ Only [.conv, .ring, .ringErr] s u := by
  constructor <;> (intro h p hp; have := h p hp; cases p <;> first | exact this | exact absurd (by decide) hp)
theorem only_mk_fab_conv_chan_ring_ringErr (s u : State) (x_fab x_conv x_chan x_ring x_ringErr) : Only [.fab, .conv, .chan, .ring, .ringErr]
    s (State.mk u.pending u.pw u.jtag x_fab u.orb u.pll x_conv x_chan x_ring x_ringErr u.feat u.featErr u.flint u.fout u.flintOn u.seams u.acq
    u.ser u.frm u.lnA u.lnB u.dlA u.dlB u.sup u.tb u.mg u.slow u.cal u.mon u.pls u.her) ↔ Only [.fab, .conv, .chan, .ring, .ringErr] s u := by
  constructor <;> (intro h p hp; have := h p hp; cases p <;> first | exact this | exact absurd (by decide) hp)
theorem only_mk_pw_fab_conv_chan_ring_ringErr (s u : State) (x_pw x_fab x_conv x_chan x_ring x_ringErr) : Only [.pw, .fab, .conv, .chan, .ring,
    .ringErr] s (State.mk u.pending x_pw u.jtag x_fab u.orb u.pll x_conv x_chan x_ring x_ringErr u.feat u.featErr u.flint u.fout u.flintOn u.seams
    u.acq u.ser u.frm u.lnA u.lnB u.dlA u.dlB u.sup u.tb u.mg u.slow u.cal u.mon u.pls u.her) ↔ Only [.pw, .fab, .conv, .chan, .ring, .ringErr]
    s u := by
  constructor <;> (intro h p hp; have := h p hp; cases p <;> first | exact this | exact absurd (by decide) hp)
theorem only_mk_chan_feat_featErr (s u : State) (x_chan x_feat x_featErr) : Only [.chan, .feat, .featErr] s (State.mk u.pending u.pw u.jtag u.fab
    u.orb u.pll u.conv x_chan u.ring u.ringErr x_feat x_featErr u.flint u.fout u.flintOn u.seams u.acq u.ser u.frm u.lnA u.lnB u.dlA u.dlB u.sup
    u.tb u.mg u.slow u.cal u.mon u.pls u.her) ↔ Only [.chan, .feat, .featErr] s u := by
  constructor <;> (intro h p hp; have := h p hp; cases p <;> first | exact this | exact absurd (by decide) hp)
theorem only_mk_chan_feat (s u : State) (x_chan x_feat) : Only [.chan, .feat] s (State.mk u.pending u.pw u.jtag u.fab u.orb u.pll u.conv x_chan
    u.ring u.ringErr x_feat u.featErr u.flint u.fout u.flintOn u.seams u.acq u.ser u.frm u.lnA u.lnB u.dlA u.dlB u.sup u.tb u.mg u.slow u.cal
    u.mon u.pls u.her) ↔ Only [.chan, .feat] s u := by
  constructor <;> (intro h p hp; have := h p hp; cases p <;> first | exact this | exact absurd (by decide) hp)
theorem only_mk_fab_chan (s u : State) (x_fab x_chan) : Only [.fab, .chan] s (State.mk u.pending u.pw u.jtag x_fab u.orb u.pll u.conv x_chan
    u.ring u.ringErr u.feat u.featErr u.flint u.fout u.flintOn u.seams u.acq u.ser u.frm u.lnA u.lnB u.dlA u.dlB u.sup u.tb u.mg u.slow u.cal
    u.mon u.pls u.her) ↔ Only [.fab, .chan] s u := by
  constructor <;> (intro h p hp; have := h p hp; cases p <;> first | exact this | exact absurd (by decide) hp)
theorem only_mk_pw_conv (s u : State) (x_pw x_conv) : Only [.pw, .conv] s (State.mk u.pending x_pw u.jtag u.fab u.orb u.pll x_conv u.chan u.ring
    u.ringErr u.feat u.featErr u.flint u.fout u.flintOn u.seams u.acq u.ser u.frm u.lnA u.lnB u.dlA u.dlB u.sup u.tb u.mg u.slow u.cal u.mon
    u.pls u.her) ↔ Only [.pw, .conv] s u := by
  constructor <;> (intro h p hp; have := h p hp; cases p <;> first | exact this | exact absurd (by decide) hp)
theorem only_mk_fab_conv (s u : State) (x_fab x_conv) : Only [.fab, .conv] s (State.mk u.pending u.pw u.jtag x_fab u.orb u.pll x_conv u.chan
    u.ring u.ringErr u.feat u.featErr u.flint u.fout u.flintOn u.seams u.acq u.ser u.frm u.lnA u.lnB u.dlA u.dlB u.sup u.tb u.mg u.slow u.cal
    u.mon u.pls u.her) ↔ Only [.fab, .conv] s u := by
  constructor <;> (intro h p hp; have := h p hp; cases p <;> first | exact this | exact absurd (by decide) hp)
theorem only_mk_orb_conv (s u : State) (x_orb x_conv) : Only [.orb, .conv] s (State.mk u.pending u.pw u.jtag u.fab x_orb u.pll x_conv u.chan
    u.ring u.ringErr u.feat u.featErr u.flint u.fout u.flintOn u.seams u.acq u.ser u.frm u.lnA u.lnB u.dlA u.dlB u.sup u.tb u.mg u.slow u.cal
    u.mon u.pls u.her) ↔ Only [.orb, .conv] s u := by
  constructor <;> (intro h p hp; have := h p hp; cases p <;> first | exact this | exact absurd (by decide) hp)
theorem only_mk_orb_pll (s u : State) (x_orb x_pll) : Only [.orb, .pll] s (State.mk u.pending u.pw u.jtag u.fab x_orb x_pll u.conv u.chan u.ring
    u.ringErr u.feat u.featErr u.flint u.fout u.flintOn u.seams u.acq u.ser u.frm u.lnA u.lnB u.dlA u.dlB u.sup u.tb u.mg u.slow u.cal u.mon
    u.pls u.her) ↔ Only [.orb, .pll] s u := by
  constructor <;> (intro h p hp; have := h p hp; cases p <;> first | exact this | exact absurd (by decide) hp)
theorem only_mk_fab_orb_pll (s u : State) (x_fab x_orb x_pll) : Only [.fab, .orb, .pll] s (State.mk u.pending u.pw u.jtag x_fab x_orb x_pll u.conv
    u.chan u.ring u.ringErr u.feat u.featErr u.flint u.fout u.flintOn u.seams u.acq u.ser u.frm u.lnA u.lnB u.dlA u.dlB u.sup u.tb u.mg u.slow
    u.cal u.mon u.pls u.her) ↔ Only [.fab, .orb, .pll] s u := by
  constructor <;> (intro h p hp; have := h p hp; cases p <;> first | exact this | exact absurd (by decide) hp)
theorem only_mk_fab_orb_pll_chan (s u : State) (x_fab x_orb x_pll x_chan) : Only [.fab, .orb, .pll, .chan] s (State.mk u.pending u.pw u.jtag
    x_fab x_orb x_pll u.conv x_chan u.ring u.ringErr u.feat u.featErr u.flint u.fout u.flintOn u.seams u.acq u.ser u.frm u.lnA u.lnB u.dlA u.dlB
    u.sup u.tb u.mg u.slow u.cal u.mon u.pls u.her) ↔ Only [.fab, .orb, .pll, .chan] s u := by
  constructor <;> (intro h p hp; have := h p hp; cases p <;> first | exact this | exact absurd (by decide) hp)
theorem only_mk_pll_chan (s u : State) (x_pll x_chan) : Only [.pll, .chan] s (State.mk u.pending u.pw u.jtag u.fab u.orb x_pll u.conv x_chan
    u.ring u.ringErr u.feat u.featErr u.flint u.fout u.flintOn u.seams u.acq u.ser u.frm u.lnA u.lnB u.dlA u.dlB u.sup u.tb u.mg u.slow u.cal
    u.mon u.pls u.her) ↔ Only [.pll, .chan] s u := by
  constructor <;> (intro h p hp; have := h p hp; cases p <;> first | exact this | exact absurd (by decide) hp)
theorem only_mk_orb_pll_chan (s u : State) (x_orb x_pll x_chan) : Only [.orb, .pll, .chan] s (State.mk u.pending u.pw u.jtag u.fab x_orb x_pll
    u.conv x_chan u.ring u.ringErr u.feat u.featErr u.flint u.fout u.flintOn u.seams u.acq u.ser u.frm u.lnA u.lnB u.dlA u.dlB u.sup u.tb u.mg
    u.slow u.cal u.mon u.pls u.her) ↔ Only [.orb, .pll, .chan] s u := by
  constructor <;> (intro h p hp; have := h p hp; cases p <;> first | exact this | exact absurd (by decide) hp)
theorem only_mk_frm (s u : State) (x_frm) : Only [.frm] s (State.mk u.pending u.pw u.jtag u.fab u.orb u.pll u.conv u.chan u.ring u.ringErr u.feat
    u.featErr u.flint u.fout u.flintOn u.seams u.acq u.ser x_frm u.lnA u.lnB u.dlA u.dlB u.sup u.tb u.mg u.slow u.cal u.mon u.pls u.her) ↔ Only
    [.frm] s u := by
  constructor <;> (intro h p hp; have := h p hp; cases p <;> first | exact this | exact absurd (by decide) hp)
theorem only_mk_fab_acq (s u : State) (x_fab x_acq) : Only [.fab, .acq] s (State.mk u.pending u.pw u.jtag x_fab u.orb u.pll u.conv u.chan u.ring
    u.ringErr u.feat u.featErr u.flint u.fout u.flintOn u.seams x_acq u.ser u.frm u.lnA u.lnB u.dlA u.dlB u.sup u.tb u.mg u.slow u.cal u.mon
    u.pls u.her) ↔ Only [.fab, .acq] s u := by
  constructor <;> (intro h p hp; have := h p hp; cases p <;> first | exact this | exact absurd (by decide) hp)
theorem only_mk_fab_acq_ser_frm (s u : State) (x_fab x_acq x_ser x_frm) : Only [.fab, .acq, .ser, .frm] s (State.mk u.pending u.pw u.jtag x_fab
    u.orb u.pll u.conv u.chan u.ring u.ringErr u.feat u.featErr u.flint u.fout u.flintOn u.seams x_acq x_ser x_frm u.lnA u.lnB u.dlA u.dlB u.sup
    u.tb u.mg u.slow u.cal u.mon u.pls u.her) ↔ Only [.fab, .acq, .ser, .frm] s u := by
  constructor <;> (intro h p hp; have := h p hp; cases p <;> first | exact this | exact absurd (by decide) hp)
theorem only_mk_pw_fab_seams_acq (s u : State) (x_pw x_fab x_seams x_acq) : Only [.pw, .fab, .seams, .acq] s (State.mk u.pending x_pw u.jtag
    x_fab u.orb u.pll u.conv u.chan u.ring u.ringErr u.feat u.featErr u.flint u.fout u.flintOn x_seams x_acq u.ser u.frm u.lnA u.lnB u.dlA u.dlB
    u.sup u.tb u.mg u.slow u.cal u.mon u.pls u.her) ↔ Only [.pw, .fab, .seams, .acq] s u := by
  constructor <;> (intro h p hp; have := h p hp; cases p <;> first | exact this | exact absurd (by decide) hp)
theorem only_mk_fab_seams (s u : State) (x_fab x_seams) : Only [.fab, .seams] s (State.mk u.pending u.pw u.jtag x_fab u.orb u.pll u.conv u.chan
    u.ring u.ringErr u.feat u.featErr u.flint u.fout u.flintOn x_seams u.acq u.ser u.frm u.lnA u.lnB u.dlA u.dlB u.sup u.tb u.mg u.slow u.cal
    u.mon u.pls u.her) ↔ Only [.fab, .seams] s u := by
  constructor <;> (intro h p hp; have := h p hp; cases p <;> first | exact this | exact absurd (by decide) hp)
theorem only_mk_fab_seams_acq (s u : State) (x_fab x_seams x_acq) : Only [.fab, .seams, .acq] s (State.mk u.pending u.pw u.jtag x_fab u.orb u.pll
    u.conv u.chan u.ring u.ringErr u.feat u.featErr u.flint u.fout u.flintOn x_seams x_acq u.ser u.frm u.lnA u.lnB u.dlA u.dlB u.sup u.tb u.mg
    u.slow u.cal u.mon u.pls u.her) ↔ Only [.fab, .seams, .acq] s u := by
  constructor <;> (intro h p hp; have := h p hp; cases p <;> first | exact this | exact absurd (by decide) hp)
theorem only_mk_fab_seams_acq_ser_frm (s u : State) (x_fab x_seams x_acq x_ser x_frm) : Only [.fab, .seams, .acq, .ser, .frm] s (State.mk u.pending
    u.pw u.jtag x_fab u.orb u.pll u.conv u.chan u.ring u.ringErr u.feat u.featErr u.flint u.fout u.flintOn x_seams x_acq x_ser x_frm u.lnA u.lnB
    u.dlA u.dlB u.sup u.tb u.mg u.slow u.cal u.mon u.pls u.her) ↔ Only [.fab, .seams, .acq, .ser, .frm] s u := by
  constructor <;> (intro h p hp; have := h p hp; cases p <;> first | exact this | exact absurd (by decide) hp)
theorem only_mk_fab_seams_acq_her (s u : State) (x_fab x_seams x_acq x_her) : Only [.fab, .seams, .acq, .her] s (State.mk u.pending u.pw u.jtag
    x_fab u.orb u.pll u.conv u.chan u.ring u.ringErr u.feat u.featErr u.flint u.fout u.flintOn x_seams x_acq u.ser u.frm u.lnA u.lnB u.dlA u.dlB
    u.sup u.tb u.mg u.slow u.cal u.mon u.pls x_her) ↔ Only [.fab, .seams, .acq, .her] s u := by
  constructor <;> (intro h p hp; have := h p hp; cases p <;> first | exact this | exact absurd (by decide) hp)
theorem only_mk_fab_acq_her (s u : State) (x_fab x_acq x_her) : Only [.fab, .acq, .her] s (State.mk u.pending u.pw u.jtag x_fab u.orb u.pll u.conv
    u.chan u.ring u.ringErr u.feat u.featErr u.flint u.fout u.flintOn u.seams x_acq u.ser u.frm u.lnA u.lnB u.dlA u.dlB u.sup u.tb u.mg u.slow
    u.cal u.mon u.pls x_her) ↔ Only [.fab, .acq, .her] s u := by
  constructor <;> (intro h p hp; have := h p hp; cases p <;> first | exact this | exact absurd (by decide) hp)
theorem only_mk_fab_her (s u : State) (x_fab x_her) : Only [.fab, .her] s (State.mk u.pending u.pw u.jtag x_fab u.orb u.pll u.conv u.chan u.ring
    u.ringErr u.feat u.featErr u.flint u.fout u.flintOn u.seams u.acq u.ser u.frm u.lnA u.lnB u.dlA u.dlB u.sup u.tb u.mg u.slow u.cal u.mon
    u.pls x_her) ↔ Only [.fab, .her] s u := by
  constructor <;> (intro h p hp; have := h p hp; cases p <;> first | exact this | exact absurd (by decide) hp)
theorem only_mk_fab_acq_ser_frm_her (s u : State) (x_fab x_acq x_ser x_frm x_her) : Only [.fab, .acq, .ser, .frm, .her] s (State.mk u.pending
    u.pw u.jtag x_fab u.orb u.pll u.conv u.chan u.ring u.ringErr u.feat u.featErr u.flint u.fout u.flintOn u.seams x_acq x_ser x_frm u.lnA u.lnB
    u.dlA u.dlB u.sup u.tb u.mg u.slow u.cal u.mon u.pls x_her) ↔ Only [.fab, .acq, .ser, .frm, .her] s u := by
  constructor <;> (intro h p hp; have := h p hp; cases p <;> first | exact this | exact absurd (by decide) hp)
theorem only_mk_fab_seams_acq_ser_frm_her (s u : State) (x_fab x_seams x_acq x_ser x_frm x_her) : Only [.fab, .seams, .acq, .ser, .frm, .her]
    s (State.mk u.pending u.pw u.jtag x_fab u.orb u.pll u.conv u.chan u.ring u.ringErr u.feat u.featErr u.flint u.fout u.flintOn x_seams x_acq
    x_ser x_frm u.lnA u.lnB u.dlA u.dlB u.sup u.tb u.mg u.slow u.cal u.mon u.pls x_her) ↔ Only [.fab, .seams, .acq, .ser, .frm, .her] s u :=
    by
  constructor <;> (intro h p hp; have := h p hp; cases p <;> first | exact this | exact absurd (by decide) hp)
theorem only_mk_fab_ser_frm_lnA_lnB (s u : State) (x_fab x_ser x_frm x_lnA x_lnB) : Only [.fab, .ser, .frm, .lnA, .lnB] s (State.mk u.pending
    u.pw u.jtag x_fab u.orb u.pll u.conv u.chan u.ring u.ringErr u.feat u.featErr u.flint u.fout u.flintOn u.seams u.acq x_ser x_frm x_lnA x_lnB
    u.dlA u.dlB u.sup u.tb u.mg u.slow u.cal u.mon u.pls u.her) ↔ Only [.fab, .ser, .frm, .lnA, .lnB] s u := by
  constructor <;> (intro h p hp; have := h p hp; cases p <;> first | exact this | exact absurd (by decide) hp)
theorem only_mk_fab_sup (s u : State) (x_fab x_sup) : Only [.fab, .sup] s (State.mk u.pending u.pw u.jtag x_fab u.orb u.pll u.conv u.chan u.ring
    u.ringErr u.feat u.featErr u.flint u.fout u.flintOn u.seams u.acq u.ser u.frm u.lnA u.lnB u.dlA u.dlB x_sup u.tb u.mg u.slow u.cal u.mon
    u.pls u.her) ↔ Only [.fab, .sup] s u := by
  constructor <;> (intro h p hp; have := h p hp; cases p <;> first | exact this | exact absurd (by decide) hp)
theorem only_mk_fab_dlA_dlB (s u : State) (x_fab x_dlA x_dlB) : Only [.fab, .dlA, .dlB] s (State.mk u.pending u.pw u.jtag x_fab u.orb u.pll u.conv
    u.chan u.ring u.ringErr u.feat u.featErr u.flint u.fout u.flintOn u.seams u.acq u.ser u.frm u.lnA u.lnB x_dlA x_dlB u.sup u.tb u.mg u.slow
    u.cal u.mon u.pls u.her) ↔ Only [.fab, .dlA, .dlB] s u := by
  constructor <;> (intro h p hp; have := h p hp; cases p <;> first | exact this | exact absurd (by decide) hp)
theorem only_mk_pll (s u : State) (x_pll) : Only [.pll] s (State.mk u.pending u.pw u.jtag u.fab u.orb x_pll u.conv u.chan u.ring u.ringErr u.feat
    u.featErr u.flint u.fout u.flintOn u.seams u.acq u.ser u.frm u.lnA u.lnB u.dlA u.dlB u.sup u.tb u.mg u.slow u.cal u.mon u.pls u.her) ↔ Only
    [.pll] s u := by
  constructor <;> (intro h p hp; have := h p hp; cases p <;> first | exact this | exact absurd (by decide) hp)
theorem only_mk_lnA_lnB_sup (s u : State) (x_lnA x_lnB x_sup) : Only [.lnA, .lnB, .sup] s (State.mk u.pending u.pw u.jtag u.fab u.orb u.pll u.conv
    u.chan u.ring u.ringErr u.feat u.featErr u.flint u.fout u.flintOn u.seams u.acq u.ser u.frm x_lnA x_lnB u.dlA u.dlB x_sup u.tb u.mg u.slow
    u.cal u.mon u.pls u.her) ↔ Only [.lnA, .lnB, .sup] s u := by
  constructor <;> (intro h p hp; have := h p hp; cases p <;> first | exact this | exact absurd (by decide) hp)
theorem only_mk_fab_lnA_lnB_sup (s u : State) (x_fab x_lnA x_lnB x_sup) : Only [.fab, .lnA, .lnB, .sup] s (State.mk u.pending u.pw u.jtag x_fab
    u.orb u.pll u.conv u.chan u.ring u.ringErr u.feat u.featErr u.flint u.fout u.flintOn u.seams u.acq u.ser u.frm x_lnA x_lnB u.dlA u.dlB x_sup
    u.tb u.mg u.slow u.cal u.mon u.pls u.her) ↔ Only [.fab, .lnA, .lnB, .sup] s u := by
  constructor <;> (intro h p hp; have := h p hp; cases p <;> first | exact this | exact absurd (by decide) hp)
theorem only_mk_pw_fab_orb_pll_lnA_lnB_sup (s u : State) (x_pw x_fab x_orb x_pll x_lnA x_lnB x_sup) : Only [.pw, .fab, .orb, .pll, .lnA, .lnB,
    .sup] s (State.mk u.pending x_pw u.jtag x_fab x_orb x_pll u.conv u.chan u.ring u.ringErr u.feat u.featErr u.flint u.fout u.flintOn u.seams
    u.acq u.ser u.frm x_lnA x_lnB u.dlA u.dlB x_sup u.tb u.mg u.slow u.cal u.mon u.pls u.her) ↔ Only [.pw, .fab, .orb, .pll, .lnA, .lnB, .sup]
    s u := by
  constructor <;> (intro h p hp; have := h p hp; cases p <;> first | exact this | exact absurd (by decide) hp)
theorem only_mk_fab_lnA_lnB_dlA_dlB (s u : State) (x_fab x_lnA x_lnB x_dlA x_dlB) : Only [.fab, .lnA, .lnB, .dlA, .dlB] s (State.mk u.pending
    u.pw u.jtag x_fab u.orb u.pll u.conv u.chan u.ring u.ringErr u.feat u.featErr u.flint u.fout u.flintOn u.seams u.acq u.ser u.frm x_lnA x_lnB
    x_dlA x_dlB u.sup u.tb u.mg u.slow u.cal u.mon u.pls u.her) ↔ Only [.fab, .lnA, .lnB, .dlA, .dlB] s u := by
  constructor <;> (intro h p hp; have := h p hp; cases p <;> first | exact this | exact absurd (by decide) hp)
theorem only_mk_fab_lnA_lnB_dlA_dlB_sup (s u : State) (x_fab x_lnA x_lnB x_dlA x_dlB x_sup) : Only [.fab, .lnA, .lnB, .dlA, .dlB, .sup] s (State.mk
    u.pending u.pw u.jtag x_fab u.orb u.pll u.conv u.chan u.ring u.ringErr u.feat u.featErr u.flint u.fout u.flintOn u.seams u.acq u.ser u.frm
    x_lnA x_lnB x_dlA x_dlB x_sup u.tb u.mg u.slow u.cal u.mon u.pls u.her) ↔ Only [.fab, .lnA, .lnB, .dlA, .dlB, .sup] s u := by
  constructor <;> (intro h p hp; have := h p hp; cases p <;> first | exact this | exact absurd (by decide) hp)
theorem only_mk_pw_fab_lnA_lnB_dlA_dlB_sup (s u : State) (x_pw x_fab x_lnA x_lnB x_dlA x_dlB x_sup) : Only [.pw, .fab, .lnA, .lnB, .dlA, .dlB,
    .sup] s (State.mk u.pending x_pw u.jtag x_fab u.orb u.pll u.conv u.chan u.ring u.ringErr u.feat u.featErr u.flint u.fout u.flintOn u.seams
    u.acq u.ser u.frm x_lnA x_lnB x_dlA x_dlB x_sup u.tb u.mg u.slow u.cal u.mon u.pls u.her) ↔ Only [.pw, .fab, .lnA, .lnB, .dlA, .dlB, .sup]
    s u := by
  constructor <;> (intro h p hp; have := h p hp; cases p <;> first | exact this | exact absurd (by decide) hp)
theorem only_mk_pw_fab_lnA_lnB_sup (s u : State) (x_pw x_fab x_lnA x_lnB x_sup) : Only [.pw, .fab, .lnA, .lnB, .sup] s (State.mk u.pending x_pw
    u.jtag x_fab u.orb u.pll u.conv u.chan u.ring u.ringErr u.feat u.featErr u.flint u.fout u.flintOn u.seams u.acq u.ser u.frm x_lnA x_lnB u.dlA
    u.dlB x_sup u.tb u.mg u.slow u.cal u.mon u.pls u.her) ↔ Only [.pw, .fab, .lnA, .lnB, .sup] s u := by
  constructor <;> (intro h p hp; have := h p hp; cases p <;> first | exact this | exact absurd (by decide) hp)
theorem only_mk_but_pending_jtag_conv_chan_ring_ringErr_feat_featErr_flint_fout_flintOn_seams_acq_tb_mg_slow_cal_mon_pls_her (s u : State) (x_pw
    x_fab x_orb x_pll x_ser x_frm x_lnA x_lnB x_dlA x_dlB x_sup) : Only [.pw, .fab, .orb, .pll, .ser, .frm, .lnA, .lnB, .dlA, .dlB, .sup] s (State.mk
    u.pending x_pw u.jtag x_fab x_orb x_pll u.conv u.chan u.ring u.ringErr u.feat u.featErr u.flint u.fout u.flintOn u.seams u.acq x_ser x_frm
    x_lnA x_lnB x_dlA x_dlB x_sup u.tb u.mg u.slow u.cal u.mon u.pls u.her) ↔ Only [.pw, .fab, .orb, .pll, .ser, .frm, .lnA, .lnB, .dlA, .dlB,
    .sup] s u := by
  constructor <;> (intro h p hp; have := h p hp; cases p <;> first | exact this | exact absurd (by decide) hp)
theorem only_mk_frm_lnA_lnB (s u : State) (x_frm x_lnA x_lnB) : Only [.frm, .lnA, .lnB] s (State.mk u.pending u.pw u.jtag u.fab u.orb u.pll u.conv
    u.chan u.ring u.ringErr u.feat u.featErr u.flint u.fout u.flintOn u.seams u.acq u.ser x_frm x_lnA x_lnB u.dlA u.dlB u.sup u.tb u.mg u.slow
    u.cal u.mon u.pls u.her) ↔ Only [.frm, .lnA, .lnB] s u := by
  constructor <;> (intro h p hp; have := h p hp; cases p <;> first | exact this | exact absurd (by decide) hp)
theorem only_mk_fab_frm_lnA_lnB_sup (s u : State) (x_fab x_frm x_lnA x_lnB x_sup) : Only [.fab, .frm, .lnA, .lnB, .sup] s (State.mk u.pending
    u.pw u.jtag x_fab u.orb u.pll u.conv u.chan u.ring u.ringErr u.feat u.featErr u.flint u.fout u.flintOn u.seams u.acq u.ser x_frm x_lnA x_lnB
    u.dlA u.dlB x_sup u.tb u.mg u.slow u.cal u.mon u.pls u.her) ↔ Only [.fab, .frm, .lnA, .lnB, .sup] s u := by
  constructor <;> (intro h p hp; have := h p hp; cases p <;> first | exact this | exact absurd (by decide) hp)
theorem only_mk_fab_frm_lnA_lnB_dlA_dlB_sup (s u : State) (x_fab x_frm x_lnA x_lnB x_dlA x_dlB x_sup) : Only [.fab, .frm, .lnA, .lnB, .dlA, .dlB,
    .sup] s (State.mk u.pending u.pw u.jtag x_fab u.orb u.pll u.conv u.chan u.ring u.ringErr u.feat u.featErr u.flint u.fout u.flintOn u.seams
    u.acq u.ser x_frm x_lnA x_lnB x_dlA x_dlB x_sup u.tb u.mg u.slow u.cal u.mon u.pls u.her) ↔ Only [.fab, .frm, .lnA, .lnB, .dlA, .dlB, .sup]
    s u := by
  constructor <;> (intro h p hp; have := h p hp; cases p <;> first | exact this | exact absurd (by decide) hp)
theorem only_mk_orb_lnA_lnB (s u : State) (x_orb x_lnA x_lnB) : Only [.orb, .lnA, .lnB] s (State.mk u.pending u.pw u.jtag u.fab x_orb u.pll u.conv
    u.chan u.ring u.ringErr u.feat u.featErr u.flint u.fout u.flintOn u.seams u.acq u.ser u.frm x_lnA x_lnB u.dlA u.dlB u.sup u.tb u.mg u.slow
    u.cal u.mon u.pls u.her) ↔ Only [.orb, .lnA, .lnB] s u := by
  constructor <;> (intro h p hp; have := h p hp; cases p <;> first | exact this | exact absurd (by decide) hp)
theorem only_mk_fab_lnA_lnB (s u : State) (x_fab x_lnA x_lnB) : Only [.fab, .lnA, .lnB] s (State.mk u.pending u.pw u.jtag x_fab u.orb u.pll u.conv
    u.chan u.ring u.ringErr u.feat u.featErr u.flint u.fout u.flintOn u.seams u.acq u.ser u.frm x_lnA x_lnB u.dlA u.dlB u.sup u.tb u.mg u.slow
    u.cal u.mon u.pls u.her) ↔ Only [.fab, .lnA, .lnB] s u := by
  constructor <;> (intro h p hp; have := h p hp; cases p <;> first | exact this | exact absurd (by decide) hp)
theorem only_mk_fab_ser_frm_sup (s u : State) (x_fab x_ser x_frm x_sup) : Only [.fab, .ser, .frm, .sup] s (State.mk u.pending u.pw u.jtag x_fab
    u.orb u.pll u.conv u.chan u.ring u.ringErr u.feat u.featErr u.flint u.fout u.flintOn u.seams u.acq x_ser x_frm u.lnA u.lnB u.dlA u.dlB x_sup
    u.tb u.mg u.slow u.cal u.mon u.pls u.her) ↔ Only [.fab, .ser, .frm, .sup] s u := by
  constructor <;> (intro h p hp; have := h p hp; cases p <;> first | exact this | exact absurd (by decide) hp)
theorem only_mk_pw_fab_ser_frm_sup (s u : State) (x_pw x_fab x_ser x_frm x_sup) : Only [.pw, .fab, .ser, .frm, .sup] s (State.mk u.pending x_pw
    u.jtag x_fab u.orb u.pll u.conv u.chan u.ring u.ringErr u.feat u.featErr u.flint u.fout u.flintOn u.seams u.acq x_ser x_frm u.lnA u.lnB u.dlA
    u.dlB x_sup u.tb u.mg u.slow u.cal u.mon u.pls u.her) ↔ Only [.pw, .fab, .ser, .frm, .sup] s u := by
  constructor <;> (intro h p hp; have := h p hp; cases p <;> first | exact this | exact absurd (by decide) hp)
theorem only_mk_but_pending_pw_jtag_conv_chan_ring_ringErr_feat_featErr_flint_fout_flintOn_seams_acq_tb_mg_slow_cal_mon_pls_her (s u : State)
    (x_fab x_orb x_pll x_ser x_frm x_lnA x_lnB x_dlA x_dlB x_sup) : Only [.fab, .orb, .pll, .ser, .frm, .lnA, .lnB, .dlA, .dlB, .sup] s (State.mk
    u.pending u.pw u.jtag x_fab x_orb x_pll u.conv u.chan u.ring u.ringErr u.feat u.featErr u.flint u.fout u.flintOn u.seams u.acq x_ser x_frm
    x_lnA x_lnB x_dlA x_dlB x_sup u.tb u.mg u.slow u.cal u.mon u.pls u.her) ↔ Only [.fab, .orb, .pll, .ser, .frm, .lnA, .lnB, .dlA, .dlB, .sup]
    s u := by
  constructor <;> (intro h p hp; have := h p hp; cases p <;> first | exact this | exact absurd (by decide) hp)
theorem only_mk_pw_fab_ser_sup (s u : State) (x_pw x_fab x_ser x_sup) : Only [.pw, .fab, .ser, .sup] s (State.mk u.pending x_pw u.jtag x_fab
    u.orb u.pll u.conv u.chan u.ring u.ringErr u.feat u.featErr u.flint u.fout u.flintOn u.seams u.acq x_ser u.frm u.lnA u.lnB u.dlA u.dlB x_sup
    u.tb u.mg u.slow u.cal u.mon u.pls u.her) ↔ Only [.pw, .fab, .ser, .sup] s u := by
  constructor <;> (intro h p hp; have := h p hp; cases p <;> first | exact this | exact absurd (by decide) hp)
theorem only_mk_pw_fab_orb_pll_acq_ser_frm (s u : State) (x_pw x_fab x_orb x_pll x_acq x_ser x_frm) : Only [.pw, .fab, .orb, .pll, .acq, .ser,
    .frm] s (State.mk u.pending x_pw u.jtag x_fab x_orb x_pll u.conv u.chan u.ring u.ringErr u.feat u.featErr u.flint u.fout u.flintOn u.seams
    x_acq x_ser x_frm u.lnA u.lnB u.dlA u.dlB u.sup u.tb u.mg u.slow u.cal u.mon u.pls u.her) ↔ Only [.pw, .fab, .orb, .pll, .acq, .ser, .frm]
    s u := by
  constructor <;> (intro h p hp; have := h p hp; cases p <;> first | exact this | exact absurd (by decide) hp)
theorem only_mk_fab_tb (s u : State) (x_fab x_tb) : Only [.fab, .tb] s (State.mk u.pending u.pw u.jtag x_fab u.orb u.pll u.conv u.chan u.ring
    u.ringErr u.feat u.featErr u.flint u.fout u.flintOn u.seams u.acq u.ser u.frm u.lnA u.lnB u.dlA u.dlB u.sup x_tb u.mg u.slow u.cal u.mon
    u.pls u.her) ↔ Only [.fab, .tb] s u := by
  constructor <;> (intro h p hp; have := h p hp; cases p <;> first | exact this | exact absurd (by decide) hp)
theorem only_mk_fab_dlA_dlB_tb (s u : State) (x_fab x_dlA x_dlB x_tb) : Only [.fab, .dlA, .dlB, .tb] s (State.mk u.pending u.pw u.jtag x_fab
    u.orb u.pll u.conv u.chan u.ring u.ringErr u.feat u.featErr u.flint u.fout u.flintOn u.seams u.acq u.ser u.frm u.lnA u.lnB x_dlA x_dlB u.sup
    x_tb u.mg u.slow u.cal u.mon u.pls u.her) ↔ Only [.fab, .dlA, .dlB, .tb] s u := by
  constructor <;> (intro h p hp; have := h p hp; cases p <;> first | exact this | exact absurd (by decide) hp)
theorem only_mk_fab_ser_frm_tb (s u : State) (x_fab x_ser x_frm x_tb) : Only [.fab, .ser, .frm, .tb] s (State.mk u.pending u.pw u.jtag x_fab
    u.orb u.pll u.conv u.chan u.ring u.ringErr u.feat u.featErr u.flint u.fout u.flintOn u.seams u.acq x_ser x_frm u.lnA u.lnB u.dlA u.dlB u.sup
    x_tb u.mg u.slow u.cal u.mon u.pls u.her) ↔ Only [.fab, .ser, .frm, .tb] s u := by
  constructor <;> (intro h p hp; have := h p hp; cases p <;> first | exact this | exact absurd (by decide) hp)
theorem only_mk_fab_cal (s u : State) (x_fab x_cal) : Only [.fab, .cal] s (State.mk u.pending u.pw u.jtag x_fab u.orb u.pll u.conv u.chan u.ring
    u.ringErr u.feat u.featErr u.flint u.fout u.flintOn u.seams u.acq u.ser u.frm u.lnA u.lnB u.dlA u.dlB u.sup u.tb u.mg u.slow x_cal u.mon
    u.pls u.her) ↔ Only [.fab, .cal] s u := by
  constructor <;> (intro h p hp; have := h p hp; cases p <;> first | exact this | exact absurd (by decide) hp)
theorem only_mk_slow_cal (s u : State) (x_slow x_cal) : Only [.slow, .cal] s (State.mk u.pending u.pw u.jtag u.fab u.orb u.pll u.conv u.chan
    u.ring u.ringErr u.feat u.featErr u.flint u.fout u.flintOn u.seams u.acq u.ser u.frm u.lnA u.lnB u.dlA u.dlB u.sup u.tb u.mg x_slow x_cal
    u.mon u.pls u.her) ↔ Only [.slow, .cal] s u := by
  constructor <;> (intro h p hp; have := h p hp; cases p <;> first | exact this | exact absurd (by decide) hp)
theorem only_mk_pw_fab_slow_cal (s u : State) (x_pw x_fab x_slow x_cal) : Only [.pw, .fab, .slow, .cal] s (State.mk u.pending x_pw u.jtag x_fab
    u.orb u.pll u.conv u.chan u.ring u.ringErr u.feat u.featErr u.flint u.fout u.flintOn u.seams u.acq u.ser u.frm u.lnA u.lnB u.dlA u.dlB u.sup
    u.tb u.mg x_slow x_cal u.mon u.pls u.her) ↔ Only [.pw, .fab, .slow, .cal] s u := by
  constructor <;> (intro h p hp; have := h p hp; cases p <;> first | exact this | exact absurd (by decide) hp)
theorem only_mk_slow (s u : State) (x_slow) : Only [.slow] s (State.mk u.pending u.pw u.jtag u.fab u.orb u.pll u.conv u.chan u.ring u.ringErr
    u.feat u.featErr u.flint u.fout u.flintOn u.seams u.acq u.ser u.frm u.lnA u.lnB u.dlA u.dlB u.sup u.tb u.mg x_slow u.cal u.mon u.pls u.her)
    ↔ Only [.slow] s u := by
  constructor <;> (intro h p hp; have := h p hp; cases p <;> first | exact this | exact absurd (by decide) hp)
theorem only_mk_fab_slow_cal (s u : State) (x_fab x_slow x_cal) : Only [.fab, .slow, .cal] s (State.mk u.pending u.pw u.jtag x_fab u.orb u.pll
    u.conv u.chan u.ring u.ringErr u.feat u.featErr u.flint u.fout u.flintOn u.seams u.acq u.ser u.frm u.lnA u.lnB u.dlA u.dlB u.sup u.tb u.mg
    x_slow x_cal u.mon u.pls u.her) ↔ Only [.fab, .slow, .cal] s u := by
  constructor <;> (intro h p hp; have := h p hp; cases p <;> first | exact this | exact absurd (by decide) hp)
theorem only_mk_fab_orb_pll_chan_cal (s u : State) (x_fab x_orb x_pll x_chan x_cal) : Only [.fab, .orb, .pll, .chan, .cal] s (State.mk u.pending
    u.pw u.jtag x_fab x_orb x_pll u.conv x_chan u.ring u.ringErr u.feat u.featErr u.flint u.fout u.flintOn u.seams u.acq u.ser u.frm u.lnA u.lnB
    u.dlA u.dlB u.sup u.tb u.mg u.slow x_cal u.mon u.pls u.her) ↔ Only [.fab, .orb, .pll, .chan, .cal] s u := by
  constructor <;> (intro h p hp; have := h p hp; cases p <;> first | exact this | exact absurd (by decide) hp)
theorem only_mk_mon (s u : State) (x_mon) : Only [.mon] s (State.mk u.pending u.pw u.jtag u.fab u.orb u.pll u.conv u.chan u.ring u.ringErr u.feat
    u.featErr u.flint u.fout u.flintOn u.seams u.acq u.ser u.frm u.lnA u.lnB u.dlA u.dlB u.sup u.tb u.mg u.slow u.cal x_mon u.pls u.her) ↔ Only
    [.mon] s u := by
  constructor <;> (intro h p hp; have := h p hp; cases p <;> first | exact this | exact absurd (by decide) hp)
theorem only_mk_fab_mon (s u : State) (x_fab x_mon) : Only [.fab, .mon] s (State.mk u.pending u.pw u.jtag x_fab u.orb u.pll u.conv u.chan u.ring
    u.ringErr u.feat u.featErr u.flint u.fout u.flintOn u.seams u.acq u.ser u.frm u.lnA u.lnB u.dlA u.dlB u.sup u.tb u.mg u.slow u.cal x_mon
    u.pls u.her) ↔ Only [.fab, .mon] s u := by
  constructor <;> (intro h p hp; have := h p hp; cases p <;> first | exact this | exact absurd (by decide) hp)
theorem only_mk_pw_fab_acq_ser_frm_mon (s u : State) (x_pw x_fab x_acq x_ser x_frm x_mon) : Only [.pw, .fab, .acq, .ser, .frm, .mon] s (State.mk
    u.pending x_pw u.jtag x_fab u.orb u.pll u.conv u.chan u.ring u.ringErr u.feat u.featErr u.flint u.fout u.flintOn u.seams x_acq x_ser x_frm
    u.lnA u.lnB u.dlA u.dlB u.sup u.tb u.mg u.slow u.cal x_mon u.pls u.her) ↔ Only [.pw, .fab, .acq, .ser, .frm, .mon] s u := by
  constructor <;> (intro h p hp; have := h p hp; cases p <;> first | exact this | exact absurd (by decide) hp)
theorem only_mk_fab_pls (s u : State) (x_fab x_pls) : Only [.fab, .pls] s (State.mk u.pending u.pw u.jtag x_fab u.orb u.pll u.conv u.chan u.ring
    u.ringErr u.feat u.featErr u.flint u.fout u.flintOn u.seams u.acq u.ser u.frm u.lnA u.lnB u.dlA u.dlB u.sup u.tb u.mg u.slow u.cal u.mon
    x_pls u.her) ↔ Only [.fab, .pls] s u := by
  constructor <;> (intro h p hp; have := h p hp; cases p <;> first | exact this | exact absurd (by decide) hp)
theorem only_mk_pls (s u : State) (x_pls) : Only [.pls] s (State.mk u.pending u.pw u.jtag u.fab u.orb u.pll u.conv u.chan u.ring u.ringErr u.feat
    u.featErr u.flint u.fout u.flintOn u.seams u.acq u.ser u.frm u.lnA u.lnB u.dlA u.dlB u.sup u.tb u.mg u.slow u.cal u.mon x_pls u.her) ↔ Only
    [.pls] s u := by
  constructor <;> (intro h p hp; have := h p hp; cases p <;> first | exact this | exact absurd (by decide) hp)
theorem only_mk_fab_acq_ser_frm_pls (s u : State) (x_fab x_acq x_ser x_frm x_pls) : Only [.fab, .acq, .ser, .frm, .pls] s (State.mk u.pending
    u.pw u.jtag x_fab u.orb u.pll u.conv u.chan u.ring u.ringErr u.feat u.featErr u.flint u.fout u.flintOn u.seams x_acq x_ser x_frm u.lnA u.lnB
    u.dlA u.dlB u.sup u.tb u.mg u.slow u.cal u.mon x_pls u.her) ↔ Only [.fab, .acq, .ser, .frm, .pls] s u := by
  constructor <;> (intro h p hp; have := h p hp; cases p <;> first | exact this | exact absurd (by decide) hp)
theorem only_mk_acq_ser_pls (s u : State) (x_acq x_ser x_pls) : Only [.acq, .ser, .pls] s (State.mk u.pending u.pw u.jtag u.fab u.orb u.pll u.conv
    u.chan u.ring u.ringErr u.feat u.featErr u.flint u.fout u.flintOn u.seams x_acq x_ser u.frm u.lnA u.lnB u.dlA u.dlB u.sup u.tb u.mg u.slow
    u.cal u.mon x_pls u.her) ↔ Only [.acq, .ser, .pls] s u := by
  constructor <;> (intro h p hp; have := h p hp; cases p <;> first | exact this | exact absurd (by decide) hp)
theorem only_mk_orb_flint_fout (s u : State) (x_orb x_flint x_fout) : Only [.orb, .flint, .fout] s (State.mk u.pending u.pw u.jtag u.fab x_orb
    u.pll u.conv u.chan u.ring u.ringErr u.feat u.featErr x_flint x_fout u.flintOn u.seams u.acq u.ser u.frm u.lnA u.lnB u.dlA u.dlB u.sup u.tb
    u.mg u.slow u.cal u.mon u.pls u.her) ↔ Only [.orb, .flint, .fout] s u := by
  constructor <;> (intro h p hp; have := h p hp; cases p <;> first | exact this | exact absurd (by decide) hp)
theorem only_mk_fab_orb_flint (s u : State) (x_fab x_orb x_flint) : Only [.fab, .orb, .flint] s (State.mk u.pending u.pw u.jtag x_fab x_orb u.pll
    u.conv u.chan u.ring u.ringErr u.feat u.featErr x_flint u.fout u.flintOn u.seams u.acq u.ser u.frm u.lnA u.lnB u.dlA u.dlB u.sup u.tb u.mg
    u.slow u.cal u.mon u.pls u.her) ↔ Only [.fab, .orb, .flint] s u := by
  constructor <;> (intro h p hp; have := h p hp; cases p <;> first | exact this | exact absurd (by decide) hp)
theorem only_mk_flint_fout (s u : State) (x_flint x_fout) : Only [.flint, .fout] s (State.mk u.pending u.pw u.jtag u.fab u.orb u.pll u.conv u.chan
    u.ring u.ringErr u.feat u.featErr x_flint x_fout u.flintOn u.seams u.acq u.ser u.frm u.lnA u.lnB u.dlA u.dlB u.sup u.tb u.mg u.slow u.cal
    u.mon u.pls u.her) ↔ Only [.flint, .fout] s u := by
  constructor <;> (intro h p hp; have := h p hp; cases p <;> first | exact this | exact absurd (by decide) hp)
theorem only_mk_fab_conv_chan_seams_pls_her (s u : State) (x_fab x_conv x_chan x_seams x_pls x_her) : Only [.fab, .conv, .chan, .seams, .pls,
    .her] s (State.mk u.pending u.pw u.jtag x_fab u.orb u.pll x_conv x_chan u.ring u.ringErr u.feat u.featErr u.flint u.fout u.flintOn x_seams
    u.acq u.ser u.frm u.lnA u.lnB u.dlA u.dlB u.sup u.tb u.mg u.slow u.cal u.mon x_pls x_her) ↔ Only [.fab, .conv, .chan, .seams, .pls, .her]
    s u := by
  constructor <;> (intro h p hp; have := h p hp; cases p <;> first | exact this | exact absurd (by decide) hp)
theorem only_mk_mon_her (s u : State) (x_mon x_her) : Only [.mon, .her] s (State.mk u.pending u.pw u.jtag u.fab u.orb u.pll u.conv u.chan u.ring
    u.ringErr u.feat u.featErr u.flint u.fout u.flintOn u.seams u.acq u.ser u.frm u.lnA u.lnB u.dlA u.dlB u.sup u.tb u.mg u.slow u.cal x_mon
    u.pls x_her) ↔ Only [.mon, .her] s u := by
  constructor <;> (intro h p hp; have := h p hp; cases p <;> first | exact this | exact absurd (by decide) hp)
theorem only_mk_fab_conv_chan_seams_mon_pls_her (s u : State) (x_fab x_conv x_chan x_seams x_mon x_pls x_her) : Only [.fab, .conv, .chan, .seams,
    .mon, .pls, .her] s (State.mk u.pending u.pw u.jtag x_fab u.orb u.pll x_conv x_chan u.ring u.ringErr u.feat u.featErr u.flint u.fout u.flintOn
    x_seams u.acq u.ser u.frm u.lnA u.lnB u.dlA u.dlB u.sup u.tb u.mg u.slow u.cal x_mon x_pls x_her) ↔ Only [.fab, .conv, .chan, .seams, .mon,
    .pls, .her] s u := by
  constructor <;> (intro h p hp; have := h p hp; cases p <;> first | exact this | exact absurd (by decide) hp)
theorem only_mk_fab_conv_chan_seams_ser_pls_her (s u : State) (x_fab x_conv x_chan x_seams x_ser x_pls x_her) : Only [.fab, .conv, .chan, .seams,
    .ser, .pls, .her] s (State.mk u.pending u.pw u.jtag x_fab u.orb u.pll x_conv x_chan u.ring u.ringErr u.feat u.featErr u.flint u.fout u.flintOn
    x_seams u.acq x_ser u.frm u.lnA u.lnB u.dlA u.dlB u.sup u.tb u.mg u.slow u.cal u.mon x_pls x_her) ↔ Only [.fab, .conv, .chan, .seams, .ser,
    .pls, .her] s u := by
  constructor <;> (intro h p hp; have := h p hp; cases p <;> first | exact this | exact absurd (by decide) hp)
theorem only_mk_orb_pll_frm (s u : State) (x_orb x_pll x_frm) : Only [.orb, .pll, .frm] s (State.mk u.pending u.pw u.jtag u.fab x_orb x_pll u.conv
    u.chan u.ring u.ringErr u.feat u.featErr u.flint u.fout u.flintOn u.seams u.acq u.ser x_frm u.lnA u.lnB u.dlA u.dlB u.sup u.tb u.mg u.slow
    u.cal u.mon u.pls u.her) ↔ Only [.orb, .pll, .frm] s u := by
  constructor <;> (intro h p hp; have := h p hp; cases p <;> first | exact this | exact absurd (by decide) hp)
theorem only_mk_but_pending_pw_jtag_ring_ringErr_feat_featErr_flint_fout_flintOn_acq_dlA_dlB_mg (s u : State) (x_fab x_orb x_pll x_conv x_chan
    x_seams x_ser x_frm x_lnA x_lnB x_sup x_tb x_slow x_cal x_mon x_pls x_her) : Only [.fab, .orb, .pll, .conv, .chan, .seams, .ser, .frm, .lnA,
    .lnB, .sup, .tb, .slow, .cal, .mon, .pls, .her] s (State.mk u.pending u.pw u.jtag x_fab x_orb x_pll x_conv x_chan u.ring u.ringErr u.feat
    u.featErr u.flint u.fout u.flintOn x_seams u.acq x_ser x_frm x_lnA x_lnB u.dlA u.dlB x_sup x_tb u.mg x_slow x_cal x_mon x_pls x_her) ↔ Only
    [.fab, .orb, .pll, .conv, .chan, .seams, .ser, .frm, .lnA, .lnB, .sup, .tb, .slow, .cal, .mon, .pls, .her] s u := by
  constructor <;> (intro h p hp; have := h p hp; cases p <;> first | exact this | exact absurd (by decide) hp)
theorem only_mk_flintOn (s u : State) (x_flintOn) : Only [.flintOn] s (State.mk u.pending u.pw u.jtag u.fab u.orb u.pll u.conv u.chan u.ring
    u.ringErr u.feat u.featErr u.flint u.fout x_flintOn u.seams u.acq u.ser u.frm u.lnA u.lnB u.dlA u.dlB u.sup u.tb u.mg u.slow u.cal u.mon
    u.pls u.her) ↔ Only [.flintOn] s u := by
  constructor <;> (intro h p hp; have := h p hp; cases p <;> first | exact this | exact absurd (by decide) hp)
theorem only_mk_but_pending_pw_jtag_ring_ringErr_feat_featErr_flint_fout_acq_dlA_dlB_mg (s u : State) (x_fab x_orb x_pll x_conv x_chan x_flintOn
    x_seams x_ser x_frm x_lnA x_lnB x_sup x_tb x_slow x_cal x_mon x_pls x_her) : Only [.fab, .orb, .pll, .conv, .chan, .flintOn, .seams, .ser,
    .frm, .lnA, .lnB, .sup, .tb, .slow, .cal, .mon, .pls, .her] s (State.mk u.pending u.pw u.jtag x_fab x_orb x_pll x_conv x_chan u.ring u.ringErr
    u.feat u.featErr u.flint u.fout x_flintOn x_seams u.acq x_ser x_frm x_lnA x_lnB u.dlA u.dlB x_sup x_tb u.mg x_slow x_cal x_mon x_pls x_her)
    ↔ Only [.fab, .orb, .pll, .conv, .chan, .flintOn, .seams, .ser, .frm, .lnA, .lnB, .sup, .tb, .slow, .cal, .mon, .pls, .her] s u := by
  constructor <;> (intro h p hp; have := h p hp; cases p <;> first | exact this | exact absurd (by decide) hp)
theorem only_mk_but_pending_pw_jtag_orb_pll_ring_ringErr_feat_featErr_flint_fout_flintOn_mg_cal (s u : State) (x_fab x_conv x_chan x_seams x_acq
    x_ser x_frm x_lnA x_lnB x_dlA x_dlB x_sup x_tb x_slow x_mon x_pls x_her) : Only [.fab, .conv, .chan, .seams, .acq, .ser, .frm, .lnA, .lnB,
    .dlA, .dlB, .sup, .tb, .slow, .mon, .pls, .her] s (State.mk u.pending u.pw u.jtag x_fab u.orb u.pll x_conv x_chan u.ring u.ringErr u.feat
    u.featErr u.flint u.fout u.flintOn x_seams x_acq x_ser x_frm x_lnA x_lnB x_dlA x_dlB x_sup x_tb u.mg x_slow u.cal x_mon x_pls x_her) ↔ Only
    [.fab, .conv, .chan, .seams, .acq, .ser, .frm, .lnA, .lnB, .dlA, .dlB, .sup, .tb, .slow, .mon, .pls, .her] s u := by
  constructor <;> (intro h p hp; have := h p hp; cases p <;> first | exact this | exact absurd (by decide) hp)
theorem only_mk_fab_orb_flint_fout_acq_ser_frm (s u : State) (x_fab x_orb x_flint x_fout x_acq x_ser x_frm) : Only [.fab, .orb, .flint, .fout,
    .acq, .ser, .frm] s (State.mk u.pending u.pw u.jtag x_fab x_orb u.pll u.conv u.chan u.ring u.ringErr u.feat u.featErr x_flint x_fout u.flintOn
    u.seams x_acq x_ser x_frm u.lnA u.lnB u.dlA u.dlB u.sup u.tb u.mg u.slow u.cal u.mon u.pls u.her) ↔ Only [.fab, .orb, .flint, .fout, .acq,
    .ser, .frm] s u := by
  constructor <;> (intro h p hp; have := h p hp; cases p <;> first | exact this | exact absurd (by decide) hp)
theorem only_mk_but_pending_pw_jtag_ring_ringErr_feat_featErr_mg (s u : State) (x_fab x_orb x_pll x_conv x_chan x_flint x_fout x_flintOn x_seams
    x_acq x_ser x_frm x_lnA x_lnB x_dlA x_dlB x_sup x_tb x_slow x_cal x_mon x_pls x_her) : Only [.fab, .orb, .pll, .conv, .chan, .flint, .fout,
    .flintOn, .seams, .acq, .ser, .frm, .lnA, .lnB, .dlA, .dlB, .sup, .tb, .slow, .cal, .mon, .pls, .her] s (State.mk u.pending u.pw u.jtag x_fab
    x_orb x_pll x_conv x_chan u.ring u.ringErr u.feat u.featErr x_flint x_fout x_flintOn x_seams x_acq x_ser x_frm x_lnA x_lnB x_dlA x_dlB x_sup
    x_tb u.mg x_slow x_cal x_mon x_pls x_her) ↔ Only [.fab, .orb, .pll, .conv, .chan, .flint, .fout, .flintOn, .seams, .acq, .ser, .frm, .lnA,
    .lnB, .dlA, .dlB, .sup, .tb, .slow, .cal, .mon, .pls, .her] s u := by
  constructor <;> (intro h p hp; have := h p hp; cases p <;> first | exact this | exact absurd (by decide) hp)
theorem only_mk_fab_orb (s u : State) (x_fab x_orb) : Only [.fab, .orb] s (State.mk u.pending u.pw u.jtag x_fab x_orb u.pll u.conv u.chan u.ring
    u.ringErr u.feat u.featErr u.flint u.fout u.flintOn u.seams u.acq u.ser u.frm u.lnA u.lnB u.dlA u.dlB u.sup u.tb u.mg u.slow u.cal u.mon
    u.pls u.her) ↔ Only [.fab, .orb] s u := by
  constructor <;> (intro h p hp; have := h p hp; cases p <;> first | exact this | exact absurd (by decide) hp)
theorem only_mk_but_pending_pw_jtag_pll_conv_chan_ring_ringErr_feat_featErr_flintOn_seams_acq_sup_mg_slow_cal_mon_her (s u : State) (x_fab x_orb
    x_flint x_fout x_ser x_frm x_lnA x_lnB x_dlA x_dlB x_tb x_pls) : Only [.fab, .orb, .flint, .fout, .ser, .frm, .lnA, .lnB, .dlA, .dlB, .tb,
    .pls] s (State.mk u.pending u.pw u.jtag x_fab x_orb u.pll u.conv u.chan u.ring u.ringErr u.feat u.featErr x_flint x_fout u.flintOn u.seams
    u.acq x_ser x_frm x_lnA x_lnB x_dlA x_dlB u.sup x_tb u.mg u.slow u.cal u.mon x_pls u.her) ↔ Only [.fab, .orb, .flint, .fout, .ser, .frm,
    .lnA, .lnB, .dlA, .dlB, .tb, .pls] s u := by
  constructor <;> (intro h p hp; have := h p hp; cases p <;> first | exact this | exact absurd (by decide) hp)
theorem only_mk_fab_orb_chan (s u : State) (x_fab x_orb x_chan) : Only [.fab, .orb, .chan] s (State.mk u.pending u.pw u.jtag x_fab x_orb u.pll
    u.conv x_chan u.ring u.ringErr u.feat u.featErr u.flint u.fout u.flintOn u.seams u.acq u.ser u.frm u.lnA u.lnB u.dlA u.dlB u.sup u.tb u.mg
    u.slow u.cal u.mon u.pls u.her) ↔ Only [.fab, .orb, .chan] s u := by
  constructor <;> (intro h p hp; have := h p hp; cases p <;> first | exact this | exact absurd (by decide) hp)
theorem only_mk_fab_orb_pll_chan_lnA_lnB (s u : State) (x_fab x_orb x_pll x_chan x_lnA x_lnB) : Only [.fab, .orb, .pll, .chan, .lnA, .lnB] s
    (State.mk u.pending u.pw u.jtag x_fab x_orb x_pll u.conv x_chan u.ring u.ringErr u.feat u.featErr u.flint u.fout u.flintOn u.seams u.acq
    u.ser u.frm x_lnA x_lnB u.dlA u.dlB u.sup u.tb u.mg u.slow u.cal u.mon u.pls u.her) ↔ Only [.fab, .orb, .pll, .chan, .lnA, .lnB] s u := by
  constructor <;> (intro h p hp; have := h p hp; cases p <;> first | exact this | exact absurd (by decide) hp)
theorem only_mk_fab_orb_pll_chan_acq_lnA_lnB (s u : State) (x_fab x_orb x_pll x_chan x_acq x_lnA x_lnB) : Only [.fab, .orb, .pll, .chan, .acq,
    .lnA, .lnB] s (State.mk u.pending u.pw u.jtag x_fab x_orb x_pll u.conv x_chan u.ring u.ringErr u.feat u.featErr u.flint u.fout u.flintOn
    u.seams x_acq u.ser u.frm x_lnA x_lnB u.dlA u.dlB u.sup u.tb u.mg u.slow u.cal u.mon u.pls u.her) ↔ Only [.fab, .orb, .pll, .chan, .acq,
    .lnA, .lnB] s u := by
  constructor <;> (intro h p hp; have := h p hp; cases p <;> first | exact this | exact absurd (by decide) hp)
theorem only_mk_but_pending_jtag_conv_ring_ringErr_feat_featErr_flintOn_seams_sup_mg_slow_cal_mon_her (s u : State) (x_pw x_fab x_orb x_pll x_chan
    x_flint x_fout x_acq x_ser x_frm x_lnA x_lnB x_dlA x_dlB x_tb x_pls) : Only [.pw, .fab, .orb, .pll, .chan, .flint, .fout, .acq, .ser, .frm,
    .lnA, .lnB, .dlA, .dlB, .tb, .pls] s (State.mk u.pending x_pw u.jtag x_fab x_orb x_pll u.conv x_chan u.ring u.ringErr u.feat u.featErr x_flint
    x_fout u.flintOn u.seams x_acq x_ser x_frm x_lnA x_lnB x_dlA x_dlB u.sup x_tb u.mg u.slow u.cal u.mon x_pls u.her) ↔ Only [.pw, .fab, .orb,
    .pll, .chan, .flint, .fout, .acq, .ser, .frm, .lnA, .lnB, .dlA, .dlB, .tb, .pls] s u := by
  constructor <;> (intro h p hp; have := h p hp; cases p <;> first | exact this | exact absurd (by decide) hp)
theorem only_mk_fab_orb_conv (s u : State) (x_fab x_orb x_conv) : Only [.fab, .orb, .conv] s (State.mk u.pending u.pw u.jtag x_fab x_orb u.pll
    x_conv u.chan u.ring u.ringErr u.feat u.featErr u.flint u.fout u.flintOn u.seams u.acq u.ser u.frm u.lnA u.lnB u.dlA u.dlB u.sup u.tb u.mg
    u.slow u.cal u.mon u.pls u.her) ↔ Only [.fab, .orb, .conv] s u := by
  constructor <;> (intro h p hp; have := h p hp; cases p <;> first | exact this | exact absurd (by decide) hp)
theorem only_mk_but_pending_jtag_ring_ringErr_feat_featErr_mg (s u : State) (x_pw x_fab x_orb x_pll x_conv x_chan x_flint x_fout x_flintOn x_seams
    x_acq x_ser x_frm x_lnA x_lnB x_dlA x_dlB x_sup x_tb x_slow x_cal x_mon x_pls x_her) : Only [.pw, .fab, .orb, .pll, .conv, .chan, .flint,
    .fout, .flintOn, .seams, .acq, .ser, .frm, .lnA, .lnB, .dlA, .dlB, .sup, .tb, .slow, .cal, .mon, .pls, .her] s (State.mk u.pending x_pw u.jtag
    x_fab x_orb x_pll x_conv x_chan u.ring u.ringErr u.feat u.featErr x_flint x_fout x_flintOn x_seams x_acq x_ser x_frm x_lnA x_lnB x_dlA x_dlB
    x_sup x_tb u.mg x_slow x_cal x_mon x_pls x_her) ↔ Only [.pw, .fab, .orb, .pll, .conv, .chan, .flint, .fout, .flintOn, .seams, .acq, .ser,
    .frm, .lnA, .lnB, .dlA, .dlB, .sup, .tb, .slow, .cal, .mon, .pls, .her] s u := by
  constructor <;> (intro h p hp; have := h p hp; cases p <;> first | exact this | exact absurd (by decide) hp)
theorem only_mk_fab_orb_pll_conv_chan_lnA_lnB (s u : State) (x_fab x_orb x_pll x_conv x_chan x_lnA x_lnB) : Only [.fab, .orb, .pll, .conv, .chan,
    .lnA, .lnB] s (State.mk u.pending u.pw u.jtag x_fab x_orb x_pll x_conv x_chan u.ring u.ringErr u.feat u.featErr u.flint u.fout u.flintOn
    u.seams u.acq u.ser u.frm x_lnA x_lnB u.dlA u.dlB u.sup u.tb u.mg u.slow u.cal u.mon u.pls u.her) ↔ Only [.fab, .orb, .pll, .conv, .chan,
    .lnA, .lnB] s u := by
  constructor <;> (intro h p hp; have := h p hp; cases p <;> first | exact this | exact absurd (by decide) hp)
theorem only_mk_orb_pll_conv_chan_lnA_lnB_pls (s u : State) (x_orb x_pll x_conv x_chan x_lnA x_lnB x_pls) : Only [.orb, .pll, .conv, .chan, .lnA,
    .lnB, .pls] s (State.mk u.pending u.pw u.jtag u.fab x_orb x_pll x_conv x_chan u.ring u.ringErr u.feat u.featErr u.flint u.fout u.flintOn
    u.seams u.acq u.ser u.frm x_lnA x_lnB u.dlA u.dlB u.sup u.tb u.mg u.slow u.cal u.mon x_pls u.her) ↔ Only [.orb, .pll, .conv, .chan, .lnA,
    .lnB, .pls] s u := by
  constructor <;> (intro h p hp; have := h p hp; cases p <;> first | exact this | exact absurd (by decide) hp)
theorem only_mk_but_pending_pw_jtag_ring_ringErr_feat_featErr_flint_fout_flintOn_seams_acq_ser_dlA_dlB_sup_mg_slow_cal_mon_her (s u : State)
    (x_fab x_orb x_pll x_conv x_chan x_frm x_lnA x_lnB x_tb x_pls) : Only [.fab, .orb, .pll, .conv, .chan, .frm, .lnA, .lnB, .tb, .pls] s (State.mk
    u.pending u.pw u.jtag x_fab x_orb x_pll x_conv x_chan u.ring u.ringErr u.feat u.featErr u.flint u.fout u.flintOn u.seams u.acq u.ser x_frm
    x_lnA x_lnB u.dlA u.dlB u.sup x_tb u.mg u.slow u.cal u.mon x_pls u.her) ↔ Only [.fab, .orb, .pll, .conv, .chan, .frm, .lnA, .lnB, .tb, .pls]
    s u := by
  constructor <;> (intro h p hp; have := h p hp; cases p <;> first | exact this | exact absurd (by decide) hp)
theorem only_mk_pw_fab_orb_conv_frm (s u : State) (x_pw x_fab x_orb x_conv x_frm) : Only [.pw, .fab, .orb, .conv, .frm] s (State.mk u.pending
    x_pw u.jtag x_fab x_orb u.pll x_conv u.chan u.ring u.ringErr u.feat u.featErr u.flint u.fout u.flintOn u.seams u.acq u.ser x_frm u.lnA u.lnB
    u.dlA u.dlB u.sup u.tb u.mg u.slow u.cal u.mon u.pls u.her) ↔ Only [.pw, .fab, .orb, .conv, .frm] s u := by
  constructor <;> (intro h p hp; have := h p hp; cases p <;> first | exact this | exact absurd (by decide) hp)
theorem only_mk_but_pending_jtag_ring_ringErr_feat_featErr_flint_fout_flintOn_seams_acq_ser_dlA_dlB_sup_mg_slow_cal_mon_her (s u : State) (x_pw
    x_fab x_orb x_pll x_conv x_chan x_frm x_lnA x_lnB x_tb x_pls) : Only [.pw, .fab, .orb, .pll, .conv, .chan, .frm, .lnA, .lnB, .tb, .pls] s
    (State.mk u.pending x_pw u.jtag x_fab x_orb x_pll x_conv x_chan u.ring u.ringErr u.feat u.featErr u.flint u.fout u.flintOn u.seams u.acq
    u.ser x_frm x_lnA x_lnB u.dlA u.dlB u.sup x_tb u.mg u.slow u.cal u.mon x_pls u.her) ↔ Only [.pw, .fab, .orb, .pll, .conv, .chan, .frm, .lnA,
    .lnB, .tb, .pls] s u := by
  constructor <;> (intro h p hp; have := h p hp; cases p <;> first | exact this | exact absurd (by decide) hp)
theorem only_mk_but_pending_jtag_ring_ringErr_feat_featErr_flint_fout_flintOn_seams_acq_ser_frm_dlA_dlB_sup_tb_mg_slow_cal_mon_her (s u : State)
    (x_pw x_fab x_orb x_pll x_conv x_chan x_lnA x_lnB x_pls) : Only [.pw, .fab, .orb, .pll, .conv, .chan, .lnA, .lnB, .pls] s (State.mk u.pending
    x_pw u.jtag x_fab x_orb x_pll x_conv x_chan u.ring u.ringErr u.feat u.featErr u.flint u.fout u.flintOn u.seams u.acq u.ser u.frm x_lnA x_lnB
    u.dlA u.dlB u.sup u.tb u.mg u.slow u.cal u.mon x_pls u.her) ↔ Only [.pw, .fab, .orb, .pll, .conv, .chan, .lnA, .lnB, .pls] s u := by
  constructor <;> (intro h p hp; have := h p hp; cases p <;> first | exact this | exact absurd (by decide) hp)
theorem only_mk_fab_orb_pll_chan_flint_fout_cal (s u : State) (x_fab x_orb x_pll x_chan x_flint x_fout x_cal) : Only [.fab, .orb, .pll, .chan,
    .flint, .fout, .cal] s (State.mk u.pending u.pw u.jtag x_fab x_orb x_pll u.conv x_chan u.ring u.ringErr u.feat u.featErr x_flint x_fout u.flintOn
    u.seams u.acq u.ser u.frm u.lnA u.lnB u.dlA u.dlB u.sup u.tb u.mg u.slow x_cal u.mon u.pls u.her) ↔ Only [.fab, .orb, .pll, .chan, .flint,
    .fout, .cal] s u := by
  constructor <;> (intro h p hp; have := h p hp; cases p <;> first | exact this | exact absurd (by decide) hp)
theorem only_mk_pw_fab_slow (s u : State) (x_pw x_fab x_slow) : Only [.pw, .fab, .slow] s (State.mk u.pending x_pw u.jtag x_fab u.orb u.pll u.conv
    u.chan u.ring u.ringErr u.feat u.featErr u.flint u.fout u.flintOn u.seams u.acq u.ser u.frm u.lnA u.lnB u.dlA u.dlB u.sup u.tb u.mg x_slow
    u.cal u.mon u.pls u.her) ↔ Only [.pw, .fab, .slow] s u := by
  constructor <;> (intro h p hp; have := h p hp; cases p <;> first | exact this | exact absurd (by decide) hp)
theorem only_mk_but_pending_jtag_orb_pll_ring_ringErr_feat_featErr_flint_fout_flintOn_mg_cal (s u : State) (x_pw x_fab x_conv x_chan x_seams
    x_acq x_ser x_frm x_lnA x_lnB x_dlA x_dlB x_sup x_tb x_slow x_mon x_pls x_her) : Only [.pw, .fab, .conv, .chan, .seams, .acq, .ser, .frm,
    .lnA, .lnB, .dlA, .dlB, .sup, .tb, .slow, .mon, .pls, .her] s (State.mk u.pending x_pw u.jtag x_fab u.orb u.pll x_conv x_chan u.ring u.ringErr
    u.feat u.featErr u.flint u.fout u.flintOn x_seams x_acq x_ser x_frm x_lnA x_lnB x_dlA x_dlB x_sup x_tb u.mg x_slow u.cal x_mon x_pls x_her)
    ↔ Only [.pw, .fab, .conv, .chan, .seams, .acq, .ser, .frm, .lnA, .lnB, .dlA, .dlB, .sup, .tb, .slow, .mon, .pls, .her] s u := by
  constructor <;> (intro h p hp; have := h p hp; cases p <;> first | exact this | exact absurd (by decide) hp)
theorem only_mk_fab_orb_dlA_dlB (s u : State) (x_fab x_orb x_dlA x_dlB) : Only [.fab, .orb, .dlA, .dlB] s (State.mk u.pending u.pw u.jtag x_fab
    x_orb u.pll u.conv u.chan u.ring u.ringErr u.feat u.featErr u.flint u.fout u.flintOn u.seams u.acq u.ser u.frm u.lnA u.lnB x_dlA x_dlB u.sup
    u.tb u.mg u.slow u.cal u.mon u.pls u.her) ↔ Only [.fab, .orb, .dlA, .dlB] s u := by
  constructor <;> (intro h p hp; have := h p hp; cases p <;> first | exact this | exact absurd (by decide) hp)
theorem only_mk_fab_orb_conv_dlA_dlB (s u : State) (x_fab x_orb x_conv x_dlA x_dlB) : Only [.fab, .orb, .conv, .dlA, .dlB] s (State.mk u.pending
    u.pw u.jtag x_fab x_orb u.pll x_conv u.chan u.ring u.ringErr u.feat u.featErr u.flint u.fout u.flintOn u.seams u.acq u.ser u.frm u.lnA u.lnB
    x_dlA x_dlB u.sup u.tb u.mg u.slow u.cal u.mon u.pls u.her) ↔ Only [.fab, .orb, .conv, .dlA, .dlB] s u := by
  constructor <;> (intro h p hp; have := h p hp; cases p <;> first | exact this | exact absurd (by decide) hp)
theorem only_mk_acq_dlA_dlB (s u : State) (x_acq x_dlA x_dlB) : Only [.acq, .dlA, .dlB] s (State.mk u.pending u.pw u.jtag u.fab u.orb u.pll u.conv
    u.chan u.ring u.ringErr u.feat u.featErr u.flint u.fout u.flintOn u.seams x_acq u.ser u.frm u.lnA u.lnB x_dlA x_dlB u.sup u.tb u.mg u.slow
    u.cal u.mon u.pls u.her) ↔ Only [.acq, .dlA, .dlB] s u := by
  constructor <;> (intro h p hp; have := h p hp; cases p <;> first | exact this | exact absurd (by decide) hp)
theorem only_mk_orb_dlA_dlB (s u : State) (x_orb x_dlA x_dlB) : Only [.orb, .dlA, .dlB] s (State.mk u.pending u.pw u.jtag u.fab x_orb u.pll u.conv
    u.chan u.ring u.ringErr u.feat u.featErr u.flint u.fout u.flintOn u.seams u.acq u.ser u.frm u.lnA u.lnB x_dlA x_dlB u.sup u.tb u.mg u.slow
    u.cal u.mon u.pls u.her) ↔ Only [.orb, .dlA, .dlB] s u := by
  constructor <;> (intro h p hp; have := h p hp; cases p <;> first | exact this | exact absurd (by decide) hp)
theorem only_mk_fab_dlA_dlB_pls (s u : State) (x_fab x_dlA x_dlB x_pls) : Only [.fab, .dlA, .dlB, .pls] s (State.mk u.pending u.pw u.jtag x_fab
    u.orb u.pll u.conv u.chan u.ring u.ringErr u.feat u.featErr u.flint u.fout u.flintOn u.seams u.acq u.ser u.frm u.lnA u.lnB x_dlA x_dlB u.sup
    u.tb u.mg u.slow u.cal u.mon x_pls u.her) ↔ Only [.fab, .dlA, .dlB, .pls] s u := by
  constructor <;> (intro h p hp; have := h p hp; cases p <;> first | exact this | exact absurd (by decide) hp)
theorem only_mk_but_pending_jtag_ring_ringErr_feat_featErr_flint_fout_flintOn_seams_acq_ser_sup_mg_slow_cal_mon_her (s u : State) (x_pw x_fab
    x_orb x_pll x_conv x_chan x_frm x_lnA x_lnB x_dlA x_dlB x_tb x_pls) : Only [.pw, .fab, .orb, .pll, .conv, .chan, .frm, .lnA, .lnB, .dlA,
    .dlB, .tb, .pls] s (State.mk u.pending x_pw u.jtag x_fab x_orb x_pll x_conv x_chan u.ring u.ringErr u.feat u.featErr u.flint u.fout u.flintOn
    u.seams u.acq u.ser x_frm x_lnA x_lnB x_dlA x_dlB u.sup x_tb u.mg u.slow u.cal u.mon x_pls u.her) ↔ Only [.pw, .fab, .orb, .pll, .conv, .chan,
    .frm, .lnA, .lnB, .dlA, .dlB, .tb, .pls] s u := by
  constructor <;> (intro h p hp; have := h p hp; cases p <;> first | exact this | exact absurd (by decide) hp)
theorem only_mk_fab_acq_ser_frm_dlA_dlB (s u : State) (x_fab x_acq x_ser x_frm x_dlA x_dlB) : Only [.fab, .acq, .ser, .frm, .dlA, .dlB] s (State.mk
    u.pending u.pw u.jtag x_fab u.orb u.pll u.conv u.chan u.ring u.ringErr u.feat u.featErr u.flint u.fout u.flintOn u.seams x_acq x_ser x_frm
    u.lnA u.lnB x_dlA x_dlB u.sup u.tb u.mg u.slow u.cal u.mon u.pls u.her) ↔ Only [.fab, .acq, .ser, .frm, .dlA, .dlB] s u := by
  constructor <;> (intro h p hp; have := h p hp; cases p <;> first | exact this | exact absurd (by decide) hp)
theorem only_mk_but_pending_jtag_ring_ringErr_feat_featErr_flint_fout_flintOn_seams_sup_mg_slow_cal_mon_her (s u : State) (x_pw x_fab x_orb x_pll
    x_conv x_chan x_acq x_ser x_frm x_lnA x_lnB x_dlA x_dlB x_tb x_pls) : Only [.pw, .fab, .orb, .pll, .conv, .chan, .acq, .ser, .frm, .lnA,
    .lnB, .dlA, .dlB, .tb, .pls] s (State.mk u.pending x_pw u.jtag x_fab x_orb x_pll x_conv x_chan u.ring u.ringErr u.feat u.featErr u.flint
    u.fout u.flintOn u.seams x_acq x_ser x_frm x_lnA x_lnB x_dlA x_dlB u.sup x_tb u.mg u.slow u.cal u.mon x_pls u.her) ↔ Only [.pw, .fab, .orb,
    .pll, .conv, .chan, .acq, .ser, .frm, .lnA, .lnB, .dlA, .dlB, .tb, .pls] s u := by
  constructor <;> (intro h p hp; have := h p hp; cases p <;> first | exact this | exact absurd (by decide) hp)
theorem only_mk_pw_seams (s u : State) (x_pw x_seams) : Only [.pw, .seams] s (State.mk u.pending x_pw u.jtag u.fab u.orb u.pll u.conv u.chan
    u.ring u.ringErr u.feat u.featErr u.flint u.fout u.flintOn x_seams u.acq u.ser u.frm u.lnA u.lnB u.dlA u.dlB u.sup u.tb u.mg u.slow u.cal
    u.mon u.pls u.her) ↔ Only [.pw, .seams] s u := by
  constructor <;> (intro h p hp; have := h p hp; cases p <;> first | exact this | exact absurd (by decide) hp)
theorem only_mk_fab_mg (s u : State) (x_fab x_mg) : Only [.fab, .mg] s (State.mk u.pending u.pw u.jtag x_fab u.orb u.pll u.conv u.chan u.ring
    u.ringErr u.feat u.featErr u.flint u.fout u.flintOn u.seams u.acq u.ser u.frm u.lnA u.lnB u.dlA u.dlB u.sup u.tb x_mg u.slow u.cal u.mon
    u.pls u.her) ↔ Only [.fab, .mg] s u := by
  constructor <;> (intro h p hp; have := h p hp; cases p <;> first | exact this | exact absurd (by decide) hp)
theorem only_mk_but_pending_jtag_pll_chan_ring_ringErr_feat_featErr_flint_fout_flintOn_seams_acq_lnA_lnB_sup_cal_pls_her (s u : State) (x_pw
    x_fab x_orb x_conv x_ser x_frm x_dlA x_dlB x_tb x_mg x_slow x_mon) : Only [.pw, .fab, .orb, .conv, .ser, .frm, .dlA, .dlB, .tb, .mg, .slow,
    .mon] s (State.mk u.pending x_pw u.jtag x_fab x_orb u.pll x_conv u.chan u.ring u.ringErr u.feat u.featErr u.flint u.fout u.flintOn u.seams
    u.acq x_ser x_frm u.lnA u.lnB x_dlA x_dlB u.sup x_tb x_mg x_slow u.cal x_mon u.pls u.her) ↔ Only [.pw, .fab, .orb, .conv, .ser, .frm, .dlA,
    .dlB, .tb, .mg, .slow, .mon] s u := by
  constructor <;> (intro h p hp; have := h p hp; cases p <;> first | exact this | exact absurd (by decide) hp)
theorem only_mk_but_pending_jtag_ring_ringErr_feat_featErr_flint_fout_flintOn_mg (s u : State) (x_pw x_fab x_orb x_pll x_conv x_chan x_seams
    x_acq x_ser x_frm x_lnA x_lnB x_dlA x_dlB x_sup x_tb x_slow x_cal x_mon x_pls x_her) : Only [.pw, .fab, .orb, .pll, .conv, .chan, .seams,
    .acq, .ser, .frm, .lnA, .lnB, .dlA, .dlB, .sup, .tb, .slow, .cal, .mon, .pls, .her] s (State.mk u.pending x_pw u.jtag x_fab x_orb x_pll x_conv
    x_chan u.ring u.ringErr u.feat u.featErr u.flint u.fout u.flintOn x_seams x_acq x_ser x_frm x_lnA x_lnB x_dlA x_dlB x_sup x_tb u.mg x_slow
    x_cal x_mon x_pls x_her) ↔ Only [.pw, .fab, .orb, .pll, .conv, .chan, .seams, .acq, .ser, .frm, .lnA, .lnB, .dlA, .dlB, .sup, .tb, .slow,
    .cal, .mon, .pls, .her] s u := by
  constructor <;> (intro h p hp; have := h p hp; cases p <;> first | exact this | exact absurd (by decide) hp)
theorem only_mk_but_pending_jtag_ring_ringErr_feat_featErr_flint_fout_flintOn (s u : State) (x_pw x_fab x_orb x_pll x_conv x_chan x_seams x_acq
    x_ser x_frm x_lnA x_lnB x_dlA x_dlB x_sup x_tb x_mg x_slow x_cal x_mon x_pls x_her) : Only [.pw, .fab, .orb, .pll, .conv, .chan, .seams,
    .acq, .ser, .frm, .lnA, .lnB, .dlA, .dlB, .sup, .tb, .mg, .slow, .cal, .mon, .pls, .her] s (State.mk u.pending x_pw u.jtag x_fab x_orb x_pll
    x_conv x_chan u.ring u.ringErr u.feat u.featErr u.flint u.fout u.flintOn x_seams x_acq x_ser x_frm x_lnA x_lnB x_dlA x_dlB x_sup x_tb x_mg
    x_slow x_cal x_mon x_pls x_her) ↔ Only [.pw, .fab, .orb, .pll, .conv, .chan, .seams, .acq, .ser, .frm, .lnA, .lnB, .dlA, .dlB, .sup, .tb,
    .mg, .slow, .cal, .mon, .pls, .her] s u := by
  constructor <;> (intro h p hp; have := h p hp; cases p <;> first | exact this | exact absurd (by decide) hp)
theorem only_mk_fab_seams_ser_frm (s u : State) (x_fab x_seams x_ser x_frm) : Only [.fab, .seams, .ser, .frm] s (State.mk u.pending u.pw u.jtag
    x_fab u.orb u.pll u.conv u.chan u.ring u.ringErr u.feat u.featErr u.flint u.fout u.flintOn x_seams u.acq x_ser x_frm u.lnA u.lnB u.dlA u.dlB
    u.sup u.tb u.mg u.slow u.cal u.mon u.pls u.her) ↔ Only [.fab, .seams, .ser, .frm] s u := by
  constructor <;> (intro h p hp; have := h p hp; cases p <;> first | exact this | exact absurd (by decide) hp)
theorem only_mk_fab_frm_dlA_dlB (s u : State) (x_fab x_frm x_dlA x_dlB) : Only [.fab, .frm, .dlA, .dlB] s (State.mk u.pending u.pw u.jtag x_fab
    u.orb u.pll u.conv u.chan u.ring u.ringErr u.feat u.featErr u.flint u.fout u.flintOn u.seams u.acq u.ser x_frm u.lnA u.lnB x_dlA x_dlB u.sup
    u.tb u.mg u.slow u.cal u.mon u.pls u.her) ↔ Only [.fab, .frm, .dlA, .dlB] s u := by
  constructor <;> (intro h p hp; have := h p hp; cases p <;> first | exact this | exact absurd (by decide) hp)
theorem only_mk_fab_ser_frm_mg (s u : State) (x_fab x_ser x_frm x_mg) : Only [.fab, .ser, .frm, .mg] s (State.mk u.pending u.pw u.jtag x_fab
    u.orb u.pll u.conv u.chan u.ring u.ringErr u.feat u.featErr u.flint u.fout u.flintOn u.seams u.acq x_ser x_frm u.lnA u.lnB u.dlA u.dlB u.sup
    u.tb x_mg u.slow u.cal u.mon u.pls u.her) ↔ Only [.fab, .ser, .frm, .mg] s u := by
  constructor <;> (intro h p hp; have := h p hp; cases p <;> first | exact this | exact absurd (by decide) hp)
theorem only_mk_mg (s u : State) (x_mg) : Only [.mg] s (State.mk u.pending u.pw u.jtag u.fab u.orb u.pll u.conv u.chan u.ring u.ringErr u.feat
    u.featErr u.flint u.fout u.flintOn u.seams u.acq u.ser u.frm u.lnA u.lnB u.dlA u.dlB u.sup u.tb x_mg u.slow u.cal u.mon u.pls u.her) ↔ Only
    [.mg] s u := by
  constructor <;> (intro h p hp; have := h p hp; cases p <;> first | exact this | exact absurd (by decide) hp)
theorem only_mk_fab_ser_frm_tb_mg (s u : State) (x_fab x_ser x_frm x_tb x_mg) : Only [.fab, .ser, .frm, .tb, .mg] s (State.mk u.pending u.pw
    u.jtag x_fab u.orb u.pll u.conv u.chan u.ring u.ringErr u.feat u.featErr u.flint u.fout u.flintOn u.seams u.acq x_ser x_frm u.lnA u.lnB u.dlA
    u.dlB u.sup x_tb x_mg u.slow u.cal u.mon u.pls u.her) ↔ Only [.fab, .ser, .frm, .tb, .mg] s u := by
  constructor <;> (intro h p hp; have := h p hp; cases p <;> first | exact this | exact absurd (by decide) hp)
theorem only_mk_fab_slow (s u : State) (x_fab x_slow) : Only [.fab, .slow] s (State.mk u.pending u.pw u.jtag x_fab u.orb u.pll u.conv u.chan
    u.ring u.ringErr u.feat u.featErr u.flint u.fout u.flintOn u.seams u.acq u.ser u.frm u.lnA u.lnB u.dlA u.dlB u.sup u.tb u.mg x_slow u.cal
    u.mon u.pls u.her) ↔ Only [.fab, .slow] s u := by
  constructor <;> (intro h p hp; have := h p hp; cases p <;> first | exact this | exact absurd (by decide) hp)
theorem only_mk_jtag (s u : State) (x_jtag) : Only [.jtag] s (State.mk u.pending u.pw x_jtag u.fab u.orb u.pll u.conv u.chan u.ring u.ringErr
    u.feat u.featErr u.flint u.fout u.flintOn u.seams u.acq u.ser u.frm u.lnA u.lnB u.dlA u.dlB u.sup u.tb u.mg u.slow u.cal u.mon u.pls u.her)
    ↔ Only [.jtag] s u := by
  constructor <;> (intro h p hp; have := h p hp; cases p <;> first | exact this | exact absurd (by decide) hp)
theorem only_mk_pw_jtag (s u : State) (x_pw x_jtag) : Only [.pw, .jtag] s (State.mk u.pending x_pw x_jtag u.fab u.orb u.pll u.conv u.chan u.ring
    u.ringErr u.feat u.featErr u.flint u.fout u.flintOn u.seams u.acq u.ser u.frm u.lnA u.lnB u.dlA u.dlB u.sup u.tb u.mg u.slow u.cal u.mon
    u.pls u.her) ↔ Only [.pw, .jtag] s u := by
  constructor <;> (intro h p hp; have := h p hp; cases p <;> first | exact this | exact absurd (by decide) hp)
theorem only_mk_pw_fab_cal (s u : State) (x_pw x_fab x_cal) : Only [.pw, .fab, .cal] s (State.mk u.pending x_pw u.jtag x_fab u.orb u.pll u.conv
    u.chan u.ring u.ringErr u.feat u.featErr u.flint u.fout u.flintOn u.seams u.acq u.ser u.frm u.lnA u.lnB u.dlA u.dlB u.sup u.tb u.mg u.slow
    x_cal u.mon u.pls u.her) ↔ Only [.pw, .fab, .cal] s u := by
  constructor <;> (intro h p hp; have := h p hp; cases p <;> first | exact this | exact absurd (by decide) hp)
theorem only_mk_pw_fab_ser_frm_lnA_lnB_mg (s u : State) (x_pw x_fab x_ser x_frm x_lnA x_lnB x_mg) : Only [.pw, .fab, .ser, .frm, .lnA, .lnB,
    .mg] s (State.mk u.pending x_pw u.jtag x_fab u.orb u.pll u.conv u.chan u.ring u.ringErr u.feat u.featErr u.flint u.fout u.flintOn u.seams
    u.acq x_ser x_frm x_lnA x_lnB u.dlA u.dlB u.sup u.tb x_mg u.slow u.cal u.mon u.pls u.her) ↔ Only [.pw, .fab, .ser, .frm, .lnA, .lnB, .mg]
    s u := by
  constructor <;> (intro h p hp; have := h p hp; cases p <;> first | exact this | exact absurd (by decide) hp)
theorem only_mk_pw_fab_ser_lnA_lnB (s u : State) (x_pw x_fab x_ser x_lnA x_lnB) : Only [.pw, .fab, .ser, .lnA, .lnB] s (State.mk u.pending x_pw
    u.jtag x_fab u.orb u.pll u.conv u.chan u.ring u.ringErr u.feat u.featErr u.flint u.fout u.flintOn u.seams u.acq x_ser u.frm x_lnA x_lnB u.dlA
    u.dlB u.sup u.tb u.mg u.slow u.cal u.mon u.pls u.her) ↔ Only [.pw, .fab, .ser, .lnA, .lnB] s u := by
  constructor <;> (intro h p hp; have := h p hp; cases p <;> first | exact this | exact absurd (by decide) hp)
theorem only_mk_but_pending_jtag_chan_ring_ringErr_feat_featErr_flint_flintOn_seams_dlA_dlB_sup_tb_slow_cal_mon_pls_her (s u : State) (x_pw x_fab
    x_orb x_pll x_conv x_fout x_acq x_ser x_frm x_lnA x_lnB x_mg) : Only [.pw, .fab, .orb, .pll, .conv, .fout, .acq, .ser, .frm, .lnA, .lnB,
    .mg] s (State.mk u.pending x_pw u.jtag x_fab x_orb x_pll x_conv u.chan u.ring u.ringErr u.feat u.featErr u.flint x_fout u.flintOn u.seams
    x_acq x_ser x_frm x_lnA x_lnB u.dlA u.dlB u.sup u.tb x_mg u.slow u.cal u.mon u.pls u.her) ↔ Only [.pw, .fab, .orb, .pll, .conv, .fout, .acq,
    .ser, .frm, .lnA, .lnB, .mg] s u := by
  constructor <;> (intro h p hp; have := h p hp; cases p <;> first | exact this | exact absurd (by decide) hp)
theorem only_mk_pw_flint_fout (s u : State) (x_pw x_flint x_fout) : Only [.pw, .flint, .fout] s (State.mk u.pending x_pw u.jtag u.fab u.orb u.pll
    u.conv u.chan u.ring u.ringErr u.feat u.featErr x_flint x_fout u.flintOn u.seams u.acq u.ser u.frm u.lnA u.lnB u.dlA u.dlB u.sup u.tb u.mg
    u.slow u.cal u.mon u.pls u.her) ↔ Only [.pw, .flint, .fout] s u := by
  constructor <;> (intro h p hp; have := h p hp; cases p <;> first | exact this | exact absurd (by decide) hp)
theorem only_mk_but_pending_jtag_conv_chan_ring_ringErr_feat_featErr_flint_flintOn_seams_acq_tb_mg_mon_pls_her (s u : State) (x_pw x_fab x_orb
    x_pll x_fout x_ser x_frm x_lnA x_lnB x_dlA x_dlB x_sup x_slow x_cal) : Only [.pw, .fab, .orb, .pll, .fout, .ser, .frm, .lnA, .lnB, .dlA,
    .dlB, .sup, .slow, .cal] s (State.mk u.pending x_pw u.jtag x_fab x_orb x_pll u.conv u.chan u.ring u.ringErr u.feat u.featErr u.flint x_fout
    u.flintOn u.seams u.acq x_ser x_frm x_lnA x_lnB x_dlA x_dlB x_sup u.tb u.mg x_slow x_cal u.mon u.pls u.her) ↔ Only [.pw, .fab, .orb, .pll,
    .fout, .ser, .frm, .lnA, .lnB, .dlA, .dlB, .sup, .slow, .cal] s u := by
  constructor <;> (intro h p hp; have := h p hp; cases p <;> first | exact this | exact absurd (by decide) hp)
theorem only_mk_but_pending_jtag_chan_ring_ringErr_feat_featErr_flintOn_seams_dlA_dlB_sup_tb_slow_cal_mon_pls_her (s u : State) (x_pw x_fab x_orb
    x_pll x_conv x_flint x_fout x_acq x_ser x_frm x_lnA x_lnB x_mg) : Only [.pw, .fab, .orb, .pll, .conv, .flint, .fout, .acq, .ser, .frm, .lnA,
    .lnB, .mg] s (State.mk u.pending x_pw u.jtag x_fab x_orb x_pll x_conv u.chan u.ring u.ringErr u.feat u.featErr x_flint x_fout u.flintOn u.seams
    x_acq x_ser x_frm x_lnA x_lnB u.dlA u.dlB u.sup u.tb x_mg u.slow u.cal u.mon u.pls u.her) ↔ Only [.pw, .fab, .orb, .pll, .conv, .flint, .fout,
    .acq, .ser, .frm, .lnA, .lnB, .mg] s u := by
  constructor <;> (intro h p hp; have := h p hp; cases p <;> first | exact this | exact absurd (by decide) hp)
theorem only_mk_but_pending_jtag_ring_ringErr_feat_featErr_flintOn_acq_ser_dlA_dlB_sup_tb_mg_slow_mon_pls_her (s u : State) (x_pw x_fab x_orb
    x_pll x_conv x_chan x_flint x_fout x_seams x_frm x_lnA x_lnB x_cal) : Only [.pw, .fab, .orb, .pll, .conv, .chan, .flint, .fout, .seams, .frm,
    .lnA, .lnB, .cal] s (State.mk u.pending x_pw u.jtag x_fab x_orb x_pll x_conv x_chan u.ring u.ringErr u.feat u.featErr x_flint x_fout u.flintOn
    x_seams u.acq u.ser x_frm x_lnA x_lnB u.dlA u.dlB u.sup u.tb u.mg u.slow x_cal u.mon u.pls u.her) ↔ Only [.pw, .fab, .orb, .pll, .conv, .chan,
    .flint, .fout, .seams, .frm, .lnA, .lnB, .cal] s u := by
  constructor <;> (intro h p hp; have := h p hp; cases p <;> first | exact this | exact absurd (by decide) hp)

/-! ### What a frame says of one part -/

theorem Only.pending {M s t} (h : Only M s t) (k : Part.pending ∉ M := by decide) : t.pending = s.pending := h _ k
theorem Only.pw {M s t} (h : Only M s t) (k : Part.pw ∉ M := by decide) : t.pw = s.pw := h _ k
theorem Only.jtag {M s t} (h : Only M s t) (k : Part.jtag ∉ M := by decide) : t.jtag = s.jtag := h _ k
theorem Only.fab {M s t} (h : Only M s t) (k : Part.fab ∉ M := by decide) : t.fab = s.fab := h _ k
theorem Only.orb {M s t} (h : Only M s t) (k : Part.orb ∉ M := by decide) : t.orb = s.orb := h _ k
theorem Only.pll {M s t} (h : Only M s t) (k : Part.pll ∉ M := by decide) : t.pll = s.pll := h _ k
theorem Only.conv {M s t} (h : Only M s t) (k : Part.conv ∉ M := by decide) : t.conv = s.conv := h _ k
theorem Only.chan {M s t} (h : Only M s t) (k : Part.chan ∉ M := by decide) : t.chan = s.chan := h _ k
theorem Only.ring {M s t} (h : Only M s t) (k : Part.ring ∉ M := by decide) : t.ring = s.ring := h _ k
theorem Only.ringErr {M s t} (h : Only M s t) (k : Part.ringErr ∉ M := by decide) : t.ringErr = s.ringErr := h _ k
theorem Only.feat {M s t} (h : Only M s t) (k : Part.feat ∉ M := by decide) : t.feat = s.feat := h _ k
theorem Only.featErr {M s t} (h : Only M s t) (k : Part.featErr ∉ M := by decide) : t.featErr = s.featErr := h _ k
theorem Only.flint {M s t} (h : Only M s t) (k : Part.flint ∉ M := by decide) : t.flint = s.flint := h _ k
theorem Only.fout {M s t} (h : Only M s t) (k : Part.fout ∉ M := by decide) : t.fout = s.fout := h _ k
theorem Only.flintOn {M s t} (h : Only M s t) (k : Part.flintOn ∉ M := by decide) : t.flintOn = s.flintOn := h _ k
theorem Only.seams {M s t} (h : Only M s t) (k : Part.seams ∉ M := by decide) : t.seams = s.seams := h _ k
theorem Only.acq {M s t} (h : Only M s t) (k : Part.acq ∉ M := by decide) : t.acq = s.acq := h _ k
theorem Only.ser {M s t} (h : Only M s t) (k : Part.ser ∉ M := by decide) : t.ser = s.ser := h _ k
theorem Only.frm {M s t} (h : Only M s t) (k : Part.frm ∉ M := by decide) : t.frm = s.frm := h _ k
theorem Only.lnA {M s t} (h : Only M s t) (k : Part.lnA ∉ M := by decide) : t.lnA = s.lnA := h _ k
theorem Only.lnB {M s t} (h : Only M s t) (k : Part.lnB ∉ M := by decide) : t.lnB = s.lnB := h _ k
theorem Only.dlA {M s t} (h : Only M s t) (k : Part.dlA ∉ M := by decide) : t.dlA = s.dlA := h _ k
theorem Only.dlB {M s t} (h : Only M s t) (k : Part.dlB ∉ M := by decide) : t.dlB = s.dlB := h _ k
theorem Only.sup {M s t} (h : Only M s t) (k : Part.sup ∉ M := by decide) : t.sup = s.sup := h _ k
theorem Only.tb {M s t} (h : Only M s t) (k : Part.tb ∉ M := by decide) : t.tb = s.tb := h _ k
theorem Only.mg {M s t} (h : Only M s t) (k : Part.mg ∉ M := by decide) : t.mg = s.mg := h _ k
theorem Only.slow {M s t} (h : Only M s t) (k : Part.slow ∉ M := by decide) : t.slow = s.slow := h _ k
theorem Only.cal {M s t} (h : Only M s t) (k : Part.cal ∉ M := by decide) : t.cal = s.cal := h _ k
theorem Only.mon {M s t} (h : Only M s t) (k : Part.mon ∉ M := by decide) : t.mon = s.mon := h _ k
theorem Only.pls {M s t} (h : Only M s t) (k : Part.pls ∉ M := by decide) : t.pls = s.pls := h _ k
theorem Only.her {M s t} (h : Only M s t) (k : Part.her ∉ M := by decide) : t.her = s.her := h _ k
theorem Only.mono {M N s t} (h : Only M s t) (k : M ⊆ N := by decide) : Only N s t := fun p hp => h p (fun x => hp (k x))
theorem Only.trans {M s t u} (h : Only M s t) (k : Only M t u) : Only M s u := fun p hp => agree_trans p s t u (h p hp) (k p hp)

/-! ### One lemma per operation -/

@[simp] theorem only_modLn (x0 x1 x2) (M : List Part) (z : State) (h : [.lnA, .lnB] ⊆ M) : Only M z (modLn x0 x1 x2) ↔ Only M z x2 := by
  refine Only.iff (N := [.lnA, .lnB]) ?_ h
  clear h
  unfold modLn
  (try dsimp only)
  repeat' split
  all_goals simp [only_mk_lnA_lnB]

@[simp] theorem only_modDl (x0 x1 x2) (M : List Part) (z : State) (h : [.dlA, .dlB] ⊆ M) : Only M z (modDl x0 x1 x2) ↔ Only M z x2 := by
  refine Only.iff (N := [.dlA, .dlB]) ?_ h
  clear h
  unfold modDl
  (try dsimp only)
  repeat' split
  all_goals simp [only_mk_dlA_dlB]

@[simp] theorem only_modTs (x0 x1 x2) (M : List Part) (z : State) (h : [.sup] ⊆ M) : Only M z (modTs x0 x1 x2) ↔ Only M z x2 := by
  refine Only.iff (N := [.sup]) ?_ h
  clear h
  unfold modTs
  (try dsimp only)
  repeat' split
  all_goals simp [only_mk_sup]

@[simp] theorem only_modConv (x0 x1 x2) (M : List Part) (z : State) (h : [.conv] ⊆ M) : Only M z (modConv x0 x1 x2) ↔ Only M z x2 := by
  refine Only.iff (N := [.conv]) ?_ h
  clear h
  simp [modConv, only_mk_conv]

@[simp] theorem only_modChan (x0 x1 x2) (M : List Part) (z : State) (h : [.chan] ⊆ M) : Only M z (modChan x0 x1 x2) ↔ Only M z x2 := by
  refine Only.iff (N := [.chan]) ?_ h
  clear h
  simp [modChan, only_mk_chan]

@[simp] theorem only_modFlint (x0 x1 x2) (M : List Part) (z : State) (h : [.flint] ⊆ M) : Only M z (modFlint x0 x1 x2) ↔ Only M z x2 := by
  refine Only.iff (N := [.flint]) ?_ h
  clear h
  simp [modFlint, only_mk_flint]

@[simp] theorem only_modFout (x0 x1 x2) (M : List Part) (z : State) (h : [.fout] ⊆ M) : Only M z (modFout x0 x1 x2) ↔ Only M z x2 := by
  refine Only.iff (N := [.fout]) ?_ h
  clear h
  simp [modFout, only_mk_fout]

@[simp] theorem only_modSeam (x0 x1 x2) (M : List Part) (z : State) (h : [.seams] ⊆ M) : Only M z (modSeam x0 x1 x2) ↔ Only M z x2 := by
  refine Only.iff (N := [.seams]) ?_ h
  clear h
  simp [modSeam, only_mk_seams]

@[simp] theorem only_modQ (x0 x1 x2) (M : List Part) (z : State) (h : [.ser] ⊆ M) : Only M z (modQ x0 x1 x2) ↔ Only M z x2 := by
  refine Only.iff (N := [.ser]) ?_ h
  clear h
  simp [modQ, only_mk_ser]

@[simp] theorem only_modMaster (x0 x1 x2) (M : List Part) (z : State) (h : [.fab] ⊆ M) : Only M z (modMaster x0 x1 x2) ↔ Only M z x2 := by
  refine Only.iff (N := [.fab]) ?_ h
  clear h
  simp [modMaster, only_mk_fab]

@[simp] theorem only_setReg (x0 x1 x2 x3) (M : List Part) (z : State) (h : [.fab] ⊆ M) : Only M z (setReg x0 x1 x2 x3) ↔ Only M z x3 := by
  refine Only.iff (N := [.fab]) ?_ h
  clear h
  simp [setReg, only_mk_fab]

@[simp] theorem only_modPage (x0 x1 x2) (M : List Part) (z : State) (h : [.fab] ⊆ M) : Only M z (modPage x0 x1 x2) ↔ Only M z x2 := by
  refine Only.iff (N := [.fab]) ?_ h
  clear h
  simp [modPage, only_mk_fab]

@[simp] theorem only_bump (x0 x1 x2) (M : List Part) (z : State) (h : [.fab] ⊆ M) : Only M z (bump x0 x1 x2) ↔ Only M z x2 := by
  refine Only.iff (N := [.fab]) ?_ h
  clear h
  simp [bump, only_mk_fab]

@[simp] theorem only_noticeIn (x0 x1 x2) (M : List Part) (z : State) (h : [.fab] ⊆ M) : Only M z (noticeIn x0 x1 x2) ↔ Only M z x2 := by
  refine Only.iff (N := [.fab]) ?_ h
  clear h
  simp [noticeIn, only_mk_fab]

@[simp] theorem only_noticeLost (x0 x1) (M : List Part) (z : State) (h : [.fab] ⊆ M) : Only M z (noticeLost x0 x1) ↔ Only M z x1 := by
  refine Only.iff (N := [.fab]) ?_ h
  clear h
  simp [noticeLost, only_mk_fab]

@[simp] theorem only_noticeDrop (x0) (M : List Part) (z : State) (h : [.fab] ⊆ M) : Only M z (noticeDrop x0) ↔ Only M z x0 := by
  refine Only.iff (N := [.fab]) ?_ h
  clear h
  unfold noticeDrop
  (try dsimp only)
  repeat' split
  all_goals simp [only_mk_fab]

@[simp] theorem only_storeNotice (x0 x1 x2) (M : List Part) (z : State) (h : [.fab] ⊆ M) : Only M z (storeNotice x0 x1 x2) ↔ Only M z x2 := by
  refine Only.iff (N := [.fab]) ?_ h
  clear h
  simp [storeNotice, only_mk_fab]

@[simp] theorem only_gapNotice (x0 x1 x2) (M : List Part) (z : State) (h : [.fab] ⊆ M) : Only M z (gapNotice x0 x1 x2) ↔ Only M z x2 := by
  refine Only.iff (N := [.fab]) ?_ h
  clear h
  simp [gapNotice, only_mk_fab]

@[simp] theorem only_postNotice (x0 x1 x2) (M : List Part) (z : State) (h : [.fab] ⊆ M) : Only M z (postNotice x0 x1 x2) ↔ Only M z x2 := by
  refine Only.iff (N := [.fab]) ?_ h
  clear h
  simp [postNotice, only_mk_fab]

@[simp] theorem only_releaseHeld (x0) (M : List Part) (z : State) (h : [.fab] ⊆ M) : Only M z (releaseHeld x0) ↔ Only M z x0 := by
  refine Only.iff (N := [.fab]) ?_ h
  clear h
  unfold releaseHeld
  (try dsimp only)
  refine (only_foldl _ _ _ _ _ (fun s x => ?_)).2 (Only.refl _ _)
  (try dsimp only)
  repeat' split
  all_goals simp [only_mk_fab]

@[simp] theorem only_countD (x0 x1 x2 x3) (M : List Part) (z : State) (h : [.fab] ⊆ M) : Only M z (countD x0 x1 x2 x3) ↔ Only M z x3 := by
  refine Only.iff (N := [.fab]) ?_ h
  clear h
  simp [countD, only_mk_fab]

@[simp] theorem only_count (x0 x1 x2) (M : List Part) (z : State) (h : [.fab] ⊆ M) : Only M z (count x0 x1 x2) ↔ Only M z x2 := by
  refine Only.iff (N := [.fab]) ?_ h
  clear h
  simp [count, only_mk_fab]

@[simp] theorem only_countN (x0 x1 x2 x3) (M : List Part) (z : State) (h : [.fab] ⊆ M) : Only M z (countN x0 x1 x2 x3) ↔ Only M z x3 := by
  refine Only.iff (N := [.fab]) ?_ h
  clear h
  simp [countN, only_mk_fab]

@[simp] theorem only_refuse (x0 x1 x2 x3) (M : List Part) (z : State) (h : [.fab] ⊆ M) : Only M z (refuse x0 x1 x2 x3) ↔ Only M z x3 := by
  refine Only.iff (N := [.fab]) ?_ h
  clear h
  simp [refuse, only_mk_fab]

@[simp] theorem only_refuseAt (x0 x1 x2 x3) (M : List Part) (z : State) (h : [.fab] ⊆ M) : Only M z (refuseAt x0 x1 x2 x3) ↔ Only M z x3 := by
  refine Only.iff (N := [.fab]) ?_ h
  clear h
  simp [refuseAt, only_mk_fab]

@[simp] theorem only_tbAdvance (x0 x1) (M : List Part) (z : State) (h : [.tb] ⊆ M) : Only M z (tbAdvance x0 x1) ↔ Only M z x1 := by
  refine Only.iff (N := [.tb]) ?_ h
  clear h
  simp [tbAdvance, only_mk_tb]

@[simp] theorem only_coreCycles (x0 x1) (M : List Part) (z : State) (h : [.pw, .tb] ⊆ M) : Only M z (coreCycles x0 x1) ↔ Only M z x1 := by
  refine Only.iff (N := [.pw, .tb]) ?_ h
  clear h
  simp [coreCycles, only_mk_pw_tb]

@[simp] theorem only_idleCycle (x0) (M : List Part) (z : State) (h : [.pw, .tb] ⊆ M) : Only M z (idleCycle x0) ↔ Only M z x0 := by
  refine Only.iff (N := [.pw, .tb]) ?_ h
  clear h
  simp [idleCycle, only_mk_pw_tb]

@[simp] theorem only_modTag (x0 x1) (M : List Part) (z : State) (h : [.orb] ⊆ M) : Only M z (modTag x0 x1) ↔ Only M z x1 := by
  refine Only.iff (N := [.orb]) ?_ h
  clear h
  simp [modTag, only_mk_orb]

@[simp] theorem only_takeFree (x0) (M : List Part) (z : State) (h : [.pw] ⊆ M) : Only M z ((takeFree x0).2) ↔ Only M z x0 := by
  refine Only.iff (N := [.pw]) ?_ h
  clear h
  simp [takeFree, only_mk_pw]

@[simp] theorem only_spoilFlash (x0 x1 x2) (M : List Part) (z : State) (h : [.pw, .slow] ⊆ M) : Only M z (spoilFlash x0 x1 x2) ↔ Only M z x2 := by
  refine Only.iff (N := [.pw, .slow]) ?_ h
  clear h
  simp [spoilFlash, only_mk_pw_slow]

@[simp] theorem only_onRise (x0 x1 x2 x3 x4 x5) (M : List Part) (z : State) (h : [.fab] ⊆ M) : Only M z (onRise x0 x1 x2 x3 x4 x5) ↔ Only M z x5 := by
  refine Only.iff (N := [.fab]) ?_ h
  clear h
  simp [onRise, only_mk_fab]

@[simp] theorem only_qSync (x0 x1) (M : List Part) (z : State) (h : [.fab, .ser] ⊆ M) : Only M z (qSync x0 x1) ↔ Only M z x1 := by
  refine Only.iff (N := [.fab, .ser]) ?_ h
  clear h
  simp [qSync, only_mk_fab_ser]

@[simp] theorem only_unfitSync (x0) (M : List Part) (z : State) (h : [.fab, .frm] ⊆ M) : Only M z (unfitSync x0) ↔ Only M z x0 := by
  refine Only.iff (N := [.fab, .frm]) ?_ h
  clear h
  simp [unfitSync, only_mk_fab_frm]

@[simp] theorem only_seraiSync (x0) (M : List Part) (z : State) (h : [.fab, .ser, .frm] ⊆ M) : Only M z (seraiSync x0) ↔ Only M z x0 := by
  refine Only.iff (N := [.fab, .ser, .frm]) ?_ h
  clear h
  simp [seraiSync, only_mk_fab_ser_frm]

@[simp] theorem only_dropRetained (x0 x1 x2) (M : List Part) (z : State) (h : [.ser] ⊆ M) : Only M z (dropRetained x0 x1 x2) ↔ Only M z x2 := by
  refine Only.iff (N := [.ser]) ?_ h
  clear h
  simp [dropRetained, only_mk_ser]

@[simp] theorem only_releaseFor (x0 x1 x2) (M : List Part) (z : State) (h : [.fab, .ser] ⊆ M) : Only M z (releaseFor x0 x1 x2) ↔ Only M z x2 := by
  refine Only.iff (N := [.fab, .ser]) ?_ h
  clear h
  induction x1 generalizing x2 with
  | zero => exact Only.refl _ _
  | succ k ih =>
    unfold releaseFor
    repeat' split
    · exact Only.refl _ _
    · exact Only.refl _ _
    · exact Only.via (ih _) (List.Subset.refl _) (by simp)

@[simp] theorem only_releaseRetained (x0 x1) (M : List Part) (z : State) (h : [.fab, .ser] ⊆ M) : Only M z (releaseRetained x0 x1) ↔ Only M z x1 := by
  refine Only.iff (N := [.fab, .ser]) ?_ h
  clear h
  simp [releaseRetained, only_mk_fab_ser]

@[simp] theorem only_putBytes (x0 x1 x2) (M : List Part) (z : State) (h : [.ser] ⊆ M) : Only M z (putBytes x0 x1 x2) ↔ Only M z x2 := by
  refine Only.iff (N := [.ser]) ?_ h
  clear h
  unfold putBytes
  (try dsimp only)
  repeat' split
  all_goals simp [only_mk_ser]

@[simp] theorem only_closeBale (x0 x1) (M : List Part) (z : State) (h : [.ser] ⊆ M) : Only M z (closeBale x0 x1) ↔ Only M z x1 := by
  refine Only.iff (N := [.ser]) ?_ h
  clear h
  simp [closeBale, only_mk_ser]

@[simp] theorem only_wrData (x0 x1 x2) (M : List Part) (z : State) (h : [.fab, .ser, .frm] ⊆ M) : Only M z (wrData x0 x1 x2) ↔ Only M z x2 := by
  refine Only.iff (N := [.fab, .ser, .frm]) ?_ h
  clear h
  simp [wrData, only_mk_fab_ser_frm]

@[simp] theorem only_wrEnd (x0 x1 x2 x3) (M : List Part) (z : State) (h : [.fab, .ser, .frm] ⊆ M) : Only M z (wrEnd x0 x1 x2 x3) ↔ Only M z x3 := by
  refine Only.iff (N := [.fab, .ser, .frm]) ?_ h
  clear h
  simp [wrEnd, only_mk_fab_ser_frm]

@[simp] theorem only_wrHdr (x0 x1 x2 x3) (M : List Part) (z : State) (h : [.ser] ⊆ M) : Only M z (wrHdr x0 x1 x2 x3) ↔ Only M z x3 := by
  refine Only.iff (N := [.ser]) ?_ h
  clear h
  unfold wrHdr
  (try dsimp only)
  repeat' split
  all_goals simp [only_mk_ser]

@[simp] theorem only_cancelBale (x0 x1) (M : List Part) (z : State) (h : [.fab, .ser, .frm] ⊆ M) : Only M z (cancelBale x0 x1) ↔ Only M z x1 := by
  refine Only.iff (N := [.fab, .ser, .frm]) ?_ h
  clear h
  unfold cancelBale
  (try dsimp only)
  repeat' split
  all_goals simp [only_mk_fab_ser_frm]

@[simp] theorem only_stampClose (x0 x1) (M : List Part) (z : State) (h : [.ser] ⊆ M) : Only M z (stampClose x0 x1) ↔ Only M z x1 := by
  refine Only.iff (N := [.ser]) ?_ h
  clear h
  simp [stampClose, only_mk_ser]

@[simp] theorem only_pourCell (x0 x1) (M : List Part) (z : State) (h : [.ser] ⊆ M) : Only M z (pourCell x0 x1) ↔ Only M z x1 := by
  refine Only.iff (N := [.ser]) ?_ h
  clear h
  unfold pourCell
  (try dsimp only)
  repeat' split
  all_goals simp [only_mk_ser]

@[simp] theorem only_pourGo (x0 x1 x2) (M : List Part) (z : State) (h : [.ser] ⊆ M) : Only M z (pourGo x0 x1 x2) ↔ Only M z x2 := by
  refine Only.iff (N := [.ser]) ?_ h
  clear h
  induction x1 generalizing x2 with
  | zero => exact Only.refl _ _
  | succ k ih =>
    unfold pourGo
    split
    · exact Only.via (ih _) (List.Subset.refl _) (by simp)
    · exact Only.refl _ _

@[simp] theorem only_pour (x0 x1) (M : List Part) (z : State) (h : [.ser] ⊆ M) : Only M z (pour x0 x1) ↔ Only M z x1 := by
  refine Only.iff (N := [.ser]) ?_ h
  clear h
  simp [pour, only_mk_ser]

@[simp] theorem only_pourHeldGo (x0 x1 x2) (M : List Part) (z : State) (h : [.fab, .ser] ⊆ M) : Only M z (pourHeldGo x0 x1 x2) ↔ Only M z x2 := by
  refine Only.iff (N := [.fab, .ser]) ?_ h
  clear h
  induction x1 generalizing x2 with
  | zero => exact Only.refl _ _
  | succ k ih =>
    unfold pourHeldGo
    dsimp only
    repeat' split
    · simp
    · exact Only.via (ih _) (List.Subset.refl _) (by simp)
    · simp
    · simp

@[simp] theorem only_pourHeld (x0 x1) (M : List Part) (z : State) (h : [.fab, .ser] ⊆ M) : Only M z (pourHeld x0 x1) ↔ Only M z x1 := by
  refine Only.iff (N := [.fab, .ser]) ?_ h
  clear h
  simp [pourHeld, only_mk_fab_ser]

@[simp] theorem only_writeBale (x0 x1 x2) (M : List Part) (z : State) (h : [.fab, .ser, .frm] ⊆ M) : Only M z (writeBale x0 x1 x2) ↔ Only M z x2 := by
  refine Only.iff (N := [.fab, .ser, .frm]) ?_ h
  clear h
  simp [writeBale, only_mk_fab_ser_frm]

@[simp] theorem only_heldComplete (x0 x1) (M : List Part) (z : State) (h : [.fab, .ser, .frm] ⊆ M) : Only M z (heldComplete x0 x1) ↔ Only M z x1 := by
  refine Only.iff (N := [.fab, .ser, .frm]) ?_ h
  clear h
  unfold heldComplete
  (try dsimp only)
  repeat' split
  all_goals simp [only_mk_fab_ser_frm]

@[simp] theorem only_headSent (x0 x1) (M : List Part) (z : State) (h : [.fab, .ser, .frm] ⊆ M) : Only M z (headSent x0 x1) ↔ Only M z x1 := by
  refine Only.iff (N := [.fab, .ser, .frm]) ?_ h
  clear h
  simp [headSent, only_mk_fab_ser_frm]

@[simp] theorem only_retentionEnd (x0 x1) (M : List Part) (z : State) (h : [.fab, .ser, .frm] ⊆ M) : Only M z (retentionEnd x0 x1) ↔ Only M z x1 := by
  refine Only.iff (N := [.fab, .ser, .frm]) ?_ h
  clear h
  simp [retentionEnd, only_mk_fab_ser_frm]

@[simp] theorem only_startReplay (x0) (M : List Part) (z : State) (h : [.fab, .ser] ⊆ M) : Only M z (startReplay x0) ↔ Only M z x0 := by
  refine Only.iff (N := [.fab, .ser]) ?_ h
  clear h
  simp [startReplay, only_mk_fab_ser]

@[simp] theorem only_queueDrained (x0 x1) (M : List Part) (z : State) (h : [.ser] ⊆ M) : Only M z (queueDrained x0 x1) ↔ Only M z x1 := by
  refine Only.iff (N := [.ser]) ?_ h
  clear h
  simp [queueDrained, only_mk_ser]

@[simp] theorem only_applyQen (x0 x1) (M : List Part) (z : State) (h : [.fab, .ser] ⊆ M) : Only M z (applyQen x0 x1) ↔ Only M z x1 := by
  refine Only.iff (N := [.fab, .ser]) ?_ h
  clear h
  simp [applyQen, only_mk_fab_ser]

@[simp] theorem only_discardHost (x0) (M : List Part) (z : State) (h : [.fab] ⊆ M) : Only M z (discardHost x0) ↔ Only M z x0 := by
  refine Only.iff (N := [.fab]) ?_ h
  clear h
  simp [discardHost, only_mk_fab]

@[simp] theorem only_hostSel (x0 x1 x2) (M : List Part) (z : State) (h : [.fab, .ser, .frm] ⊆ M) : Only M z (hostSel x0 x1 x2) ↔ Only M z x2 := by
  refine Only.iff (N := [.fab, .ser, .frm]) ?_ h
  clear h
  simp [hostSel, only_mk_fab_ser_frm]

@[simp] theorem only_hostWord (x0 x1 x2 x3) (M : List Part) (z : State) (h : [.fab, .ser, .frm] ⊆ M) : Only M z (hostWord x0 x1 x2 x3) ↔ Only
    M z x3 := by
  refine Only.iff (N := [.fab, .ser, .frm]) ?_ h
  clear h
  unfold hostWord
  (try dsimp only)
  repeat' split
  all_goals simp [only_mk_fab_ser_frm]

@[simp] theorem only_hostHdr (x0 x1 x2 x3) (M : List Part) (z : State) (h : [.fab, .ser] ⊆ M) : Only M z (hostHdr x0 x1 x2 x3) ↔ Only M z x3 := by
  refine Only.iff (N := [.fab, .ser]) ?_ h
  clear h
  simp [hostHdr, only_mk_fab_ser]

@[simp] theorem only_hostCtl (x0 x1 x2) (M : List Part) (z : State) (h : [.fab, .ser, .frm] ⊆ M) : Only M z (hostCtl x0 x1 x2) ↔ Only M z x2 := by
  refine Only.iff (N := [.fab, .ser, .frm]) ?_ h
  clear h
  simp [hostCtl, only_mk_fab_ser_frm]

@[simp] theorem only_eccRead (x0 x1 x2 x3 x4) (M : List Part) (z : State) (h : [.fab] ⊆ M) : Only M z (eccRead x0 x1 x2 x3 x4) ↔ Only M z x4 := by
  refine Only.iff (N := [.fab]) ?_ h
  clear h
  simp [eccRead, only_mk_fab]

@[simp] theorem only_setRd (x0 x1 x2 x3) (M : List Part) (z : State) (h : [.ser] ⊆ M) : Only M z (setRd x0 x1 x2 x3) ↔ Only M z x3 := by
  refine Only.iff (N := [.ser]) ?_ h
  clear h
  simp [setRd, only_mk_ser]

@[simp] theorem only_hostRead (x0 x1) (M : List Part) (z : State) (h : [.fab, .ser, .frm] ⊆ M) : Only M z ((hostRead x0 x1).2) ↔ Only M z x1 := by
  refine Only.iff (N := [.fab, .ser, .frm]) ?_ h
  clear h
  unfold hostRead
  (try dsimp only)
  repeat' split
  all_goals simp [only_mk_fab_ser_frm]

@[simp] theorem only_seraiReset (x0) (M : List Part) (z : State) (h : [.fab, .ser, .frm] ⊆ M) : Only M z (seraiReset x0) ↔ Only M z x0 := by
  refine Only.iff (N := [.fab, .ser, .frm]) ?_ h
  clear h
  simp [seraiReset, only_mk_fab_ser_frm]

@[simp] theorem only_recost (x0) (M : List Part) (z : State) (h : [.fab, .frm] ⊆ M) : Only M z (recost x0) ↔ Only M z x0 := by
  refine Only.iff (N := [.fab, .frm]) ?_ h
  clear h
  simp [recost, only_mk_fab_frm]

@[simp] theorem only_modEntry (x0 x1 x2) (M : List Part) (z : State) (h : [.acq] ⊆ M) : Only M z (modEntry x0 x1 x2) ↔ Only M z x2 := by
  refine Only.iff (N := [.acq]) ?_ h
  clear h
  simp [modEntry, only_mk_acq]

@[simp] theorem only_modRep (x0 x1 x2 x3) (M : List Part) (z : State) (h : [.acq] ⊆ M) : Only M z (modRep x0 x1 x2 x3) ↔ Only M z x3 := by
  refine Only.iff (N := [.acq]) ?_ h
  clear h
  simp [modRep, only_mk_acq]

@[simp] theorem only_tookCells (x0 x1 x2 x3) (M : List Part) (z : State) (h : [.acq] ⊆ M) : Only M z (tookCells x0 x1 x2 x3) ↔ Only M z x3 := by
  refine Only.iff (N := [.acq]) ?_ h
  clear h
  simp [tookCells, only_mk_acq]

@[simp] theorem only_loadCorr (x0) (M : List Part) (z : State) (h : [.fab] ⊆ M) : Only M z (loadCorr x0) ↔ Only M z x0 := by
  refine Only.iff (N := [.fab]) ?_ h
  clear h
  simp [loadCorr, only_mk_fab]

@[simp] theorem only_ringWrite (x0 x1 x2 x3) (M : List Part) (z : State) (h : [.conv, .ring, .ringErr] ⊆ M) : Only M z (ringWrite x0 x1 x2 x3)
    ↔ Only M z x3 := by
  refine Only.iff (N := [.conv, .ring, .ringErr]) ?_ h
  clear h
  simp [ringWrite, only_mk_conv_ring_ringErr]

@[simp] theorem only_deliver (x0 x1 x2 x3 x4 x5 x6 x7) (M : List Part) (z : State) (h : [.fab, .conv, .chan, .ring, .ringErr] ⊆ M) : Only M z
    (deliver x0 x1 x2 x3 x4 x5 x6 x7) ↔ Only M z x7 := by
  refine Only.iff (N := [.fab, .conv, .chan, .ring, .ringErr]) ?_ h
  clear h
  simp [deliver, only_mk_fab_conv_chan_ring_ringErr]

@[simp] theorem only_recoverCut (x0 x1 x2 x3) (M : List Part) (z : State) (h : [.conv] ⊆ M) : Only M z (recoverCut x0 x1 x2 x3) ↔ Only M z x3 := by
  refine Only.iff (N := [.conv]) ?_ h
  clear h
  simp [recoverCut, only_mk_conv]

@[simp] theorem only_sampleAt (x0 x1 x2 x3 x4 x5 x6 x7) (M : List Part) (z : State) (h : [.fab, .conv, .chan, .ring, .ringErr] ⊆ M) : Only M
    z (sampleAt x0 x1 x2 x3 x4 x5 x6 x7) ↔ Only M z x7 := by
  refine Only.iff (N := [.fab, .conv, .chan, .ring, .ringErr]) ?_ h
  clear h
  unfold sampleAt
  (try dsimp only)
  repeat' split
  all_goals simp [only_mk_fab_conv_chan_ring_ringErr]

@[simp] theorem only_sampleOut (x0 x1 x2 x3 x4 x5 x6) (M : List Part) (z : State) (h : [.pw, .fab, .conv, .chan, .ring, .ringErr] ⊆ M) : Only
    M z (sampleOut x0 x1 x2 x3 x4 x5 x6) ↔ Only M z x6 := by
  refine Only.iff (N := [.pw, .fab, .conv, .chan, .ring, .ringErr]) ?_ h
  clear h
  simp [sampleOut, only_mk_pw_fab_conv_chan_ring_ringErr]

@[simp] theorem only_filterNext (x0 x1) (M : List Part) (z : State) (h : [.chan, .feat, .featErr] ⊆ M) : Only M z (filterNext x0 x1) ↔ Only M
    z x1 := by
  refine Only.iff (N := [.chan, .feat, .featErr]) ?_ h
  clear h
  unfold filterNext
  (try dsimp only)
  repeat' split
  all_goals simp [only_mk_chan_feat_featErr]

@[simp] theorem only_peakStore (x0 x1) (M : List Part) (z : State) (h : [.chan, .feat] ⊆ M) : Only M z (peakStore x0 x1) ↔ Only M z x1 := by
  refine Only.iff (N := [.chan, .feat]) ?_ h
  clear h
  unfold peakStore
  (try dsimp only)
  repeat' split
  all_goals simp [only_mk_chan_feat]

@[simp] theorem only_towerSync (x0) (M : List Part) (z : State) (h : [.fab, .frm] ⊆ M) : Only M z (towerSync x0) ↔ Only M z x0 := by
  refine Only.iff (N := [.fab, .frm]) ?_ h
  clear h
  simp [towerSync, only_mk_fab_frm]

@[simp] theorem only_pedEnd (x0) (M : List Part) (z : State) (h : [.fab, .chan] ⊆ M) : Only M z (pedEnd x0) ↔ Only M z x0 := by
  refine Only.iff (N := [.fab, .chan]) ?_ h
  clear h
  unfold pedEnd
  (try dsimp only)
  refine (only_foldl _ _ _ _ _ (fun s x => ?_)).2 (Only.refl _ _)
  (try dsimp only)
  repeat' split
  all_goals simp [only_mk_fab_chan]

@[simp] theorem only_parkedTrims (x0) (M : List Part) (z : State) (h : [.pw, .conv] ⊆ M) : Only M z (parkedTrims x0) ↔ Only M z x0 := by
  refine Only.iff (N := [.pw, .conv]) ?_ h
  clear h
  simp [parkedTrims, only_mk_pw_conv]

@[simp] theorem only_judgeConv (x0 x1 x2) (M : List Part) (z : State) (h : [.fab, .conv] ⊆ M) : Only M z (judgeConv x0 x1 x2) ↔ Only M z x2 := by
  refine Only.iff (N := [.fab, .conv]) ?_ h
  clear h
  simp [judgeConv, only_mk_fab_conv]

@[simp] theorem only_rotateAll (x0 x1) (M : List Part) (z : State) (h : [.orb, .conv] ⊆ M) : Only M z (rotateAll x0 x1) ↔ Only M z x1 := by
  refine Only.iff (N := [.orb, .conv]) ?_ h
  clear h
  simp [rotateAll, only_mk_orb_conv]

@[simp] theorem only_convReset (x0 x1 x2) (M : List Part) (z : State) (h : [.conv] ⊆ M) : Only M z (convReset x0 x1 x2) ↔ Only M z x2 := by
  refine Only.iff (N := [.conv]) ?_ h
  clear h
  simp [convReset, only_mk_conv]

@[simp] theorem only_markPhase (x0) (M : List Part) (z : State) (h : [.orb] ⊆ M) : Only M z (markPhase x0) ↔ Only M z x0 := by
  refine Only.iff (N := [.orb]) ?_ h
  clear h
  simp [markPhase, only_mk_orb]

@[simp] theorem only_setPhase (x0 x1 x2) (M : List Part) (z : State) (h : [.orb, .pll] ⊆ M) : Only M z (setPhase x0 x1 x2) ↔ Only M z x2 := by
  refine Only.iff (N := [.orb, .pll]) ?_ h
  clear h
  simp [setPhase, only_mk_orb_pll]

@[simp] theorem only_setUncomp (x0) (M : List Part) (z : State) (h : [.orb, .pll] ⊆ M) : Only M z (setUncomp x0) ↔ Only M z x0 := by
  refine Only.iff (N := [.orb, .pll]) ?_ h
  clear h
  simp [setUncomp, only_mk_orb_pll]

@[simp] theorem only_enterHold (x0) (M : List Part) (z : State) (h : [.fab, .orb, .pll] ⊆ M) : Only M z (enterHold x0) ↔ Only M z x0 := by
  refine Only.iff (N := [.fab, .orb, .pll]) ?_ h
  clear h
  simp [enterHold, only_mk_fab_orb_pll]

@[simp] theorem only_ackUncomp (x0) (M : List Part) (z : State) (h : [.orb, .pll] ⊆ M) : Only M z (ackUncomp x0) ↔ Only M z x0 := by
  refine Only.iff (N := [.orb, .pll]) ?_ h
  clear h
  simp [ackUncomp, only_mk_orb_pll]

@[simp] theorem only_sweepStart (x0) (M : List Part) (z : State) (h : [.fab, .orb, .pll, .chan] ⊆ M) : Only M z (sweepStart x0) ↔ Only M z x0 := by
  refine Only.iff (N := [.fab, .orb, .pll, .chan]) ?_ h
  clear h
  simp [sweepStart, only_mk_fab_orb_pll_chan]

@[simp] theorem only_sweepSlot (x0 x1) (M : List Part) (z : State) (h : [.pll, .chan] ⊆ M) : Only M z (sweepSlot x0 x1) ↔ Only M z x1 := by
  refine Only.iff (N := [.pll, .chan]) ?_ h
  clear h
  simp [sweepSlot, only_mk_pll_chan]

@[simp] theorem only_sweepEnd (x0) (M : List Part) (z : State) (h : [.fab, .orb, .pll] ⊆ M) : Only M z (sweepEnd x0) ↔ Only M z x0 := by
  refine Only.iff (N := [.fab, .orb, .pll]) ?_ h
  clear h
  simp [sweepEnd, only_mk_fab_orb_pll]

@[simp] theorem only_sweepKeep (x0) (M : List Part) (z : State) (h : [.orb, .pll, .chan] ⊆ M) : Only M z (sweepKeep x0) ↔ Only M z x0 := by
  refine Only.iff (N := [.orb, .pll, .chan]) ?_ h
  clear h
  simp [sweepKeep, only_mk_orb_pll_chan]

@[simp] theorem only_trackApply (x0) (M : List Part) (z : State) (h : [.fab, .orb, .pll, .chan] ⊆ M) : Only M z (trackApply x0) ↔ Only M z x0 := by
  refine Only.iff (N := [.fab, .orb, .pll, .chan]) ?_ h
  clear h
  simp [trackApply, only_mk_fab_orb_pll_chan]

@[simp] theorem only_zeroTracks (x0) (M : List Part) (z : State) (h : [.chan] ⊆ M) : Only M z (zeroTracks x0) ↔ Only M z x0 := by
  refine Only.iff (N := [.chan]) ?_ h
  clear h
  simp [zeroTracks, only_mk_chan]

@[simp] theorem only_phaseReset (x0) (M : List Part) (z : State) (h : [.chan] ⊆ M) : Only M z (phaseReset x0) ↔ Only M z x0 := by
  refine Only.iff (N := [.chan]) ?_ h
  clear h
  simp [phaseReset, only_mk_chan]

@[simp] theorem only_serveProbe (x0 x1 x2 x3 x4) (M : List Part) (z : State) (h : [.fab, .frm] ⊆ M) : Only M z (serveProbe x0 x1 x2 x3 x4) ↔
    Only M z x4 := by
  refine Only.iff (N := [.fab, .frm]) ?_ h
  clear h
  simp [serveProbe, only_mk_fab_frm]

@[simp] theorem only_spoilProbe (x0) (M : List Part) (z : State) (h : [.frm] ⊆ M) : Only M z (spoilProbe x0) ↔ Only M z x0 := by
  refine Only.iff (N := [.frm]) ?_ h
  clear h
  simp [spoilProbe, only_mk_frm]

@[simp] theorem only_acqSync (x0) (M : List Part) (z : State) (h : [.fab, .acq] ⊆ M) : Only M z (acqSync x0) ↔ Only M z x0 := by
  refine Only.iff (N := [.fab, .acq]) ?_ h
  clear h
  simp [acqSync, only_mk_fab_acq]

@[simp] theorem only_freeEntry (x0 x1) (M : List Part) (z : State) (h : [.fab, .acq] ⊆ M) : Only M z (freeEntry x0 x1) ↔ Only M z x1 := by
  refine Only.iff (N := [.fab, .acq]) ?_ h
  clear h
  simp [freeEntry, only_mk_fab_acq]

@[simp] theorem only_manifestIn (x0 x1) (M : List Part) (z : State) (h : [.fab, .acq] ⊆ M) : Only M z (manifestIn x0 x1) ↔ Only M z x1 := by
  refine Only.iff (N := [.fab, .acq]) ?_ h
  clear h
  simp [manifestIn, only_mk_fab_acq]

@[simp] theorem only_putManifest (x0 x1) (M : List Part) (z : State) (h : [.fab, .acq, .ser, .frm] ⊆ M) : Only M z (putManifest x0 x1) ↔ Only
    M z x1 := by
  refine Only.iff (N := [.fab, .acq, .ser, .frm]) ?_ h
  clear h
  simp [putManifest, only_mk_fab_acq_ser_frm]

@[simp] theorem only_manifestHeld (x0) (M : List Part) (z : State) (h : [.fab, .acq, .ser, .frm] ⊆ M) : Only M z (manifestHeld x0) ↔ Only M z x0 := by
  refine Only.iff (N := [.fab, .acq, .ser, .frm]) ?_ h
  clear h
  unfold manifestHeld
  (try dsimp only)
  repeat' split
  all_goals simp [only_mk_fab_acq_ser_frm]

@[simp] theorem only_manifestNext (x0) (M : List Part) (z : State) (h : [.fab, .acq, .ser, .frm] ⊆ M) : Only M z (manifestNext x0) ↔ Only M z x0 := by
  refine Only.iff (N := [.fab, .acq, .ser, .frm]) ?_ h
  clear h
  unfold manifestNext
  (try dsimp only)
  repeat' split
  all_goals simp [only_mk_fab_acq_ser_frm]

@[simp] theorem only_takeSeq (x0) (M : List Part) (z : State) (h : [.acq] ⊆ M) : Only M z (takeSeq x0) ↔ Only M z x0 := by
  refine Only.iff (N := [.acq]) ?_ h
  clear h
  simp [takeSeq, only_mk_acq]

@[simp] theorem only_countDisabled (x0 x1 x2) (M : List Part) (z : State) (h : [.fab] ⊆ M) : Only M z (countDisabled x0 x1 x2) ↔ Only M z x2 := by
  refine Only.iff (N := [.fab]) ?_ h
  clear h
  simp [countDisabled, only_mk_fab]

@[simp] theorem only_createEntry (x0 x1 x2) (M : List Part) (z : State) (h : [.fab, .acq] ⊆ M) : Only M z (createEntry x0 x1 x2) ↔ Only M z x2 := by
  refine Only.iff (N := [.fab, .acq]) ?_ h
  clear h
  simp [createEntry, only_mk_fab_acq]

@[simp] theorem only_refuseTrigger (x0 x1 x2) (M : List Part) (z : State) (h : [.fab, .acq, .ser, .frm] ⊆ M) : Only M z (refuseTrigger x0 x1
    x2) ↔ Only M z x2 := by
  refine Only.iff (N := [.fab, .acq, .ser, .frm]) ?_ h
  clear h
  simp [refuseTrigger, only_mk_fab_acq_ser_frm]

@[simp] theorem only_herJoin (x0 x1 x2) (M : List Part) (z : State) (h : [.fab, .acq] ⊆ M) : Only M z (herJoin x0 x1 x2) ↔ Only M z x2 := by
  refine Only.iff (N := [.fab, .acq]) ?_ h
  clear h
  unfold herJoin
  (try dsimp only)
  repeat' split
  all_goals simp [only_mk_fab_acq]

@[simp] theorem only_joinEntry (x0 x1 x2) (M : List Part) (z : State) (h : [.fab, .acq] ⊆ M) : Only M z (joinEntry x0 x1 x2) ↔ Only M z x2 := by
  refine Only.iff (N := [.fab, .acq]) ?_ h
  clear h
  simp [joinEntry, only_mk_fab_acq]

@[simp] theorem only_acceptAt (x0 x1) (M : List Part) (z : State) (h : [.fab, .acq, .ser, .frm] ⊆ M) : Only M z (acceptAt x0 x1) ↔ Only M z x1 := by
  refine Only.iff (N := [.fab, .acq, .ser, .frm]) ?_ h
  clear h
  unfold acceptAt
  (try dsimp only)
  repeat' split
  all_goals simp [only_mk_fab_acq_ser_frm]

@[simp] theorem only_armEvent (x0) (M : List Part) (z : State) (h : [.acq] ⊆ M) : Only M z (armEvent x0) ↔ Only M z x0 := by
  refine Only.iff (N := [.acq]) ?_ h
  clear h
  unfold armEvent
  (try dsimp only)
  repeat' split
  all_goals simp [only_mk_acq]

@[simp] theorem only_disarmNow (x0) (M : List Part) (z : State) (h : [.acq] ⊆ M) : Only M z (disarmNow x0) ↔ Only M z x0 := by
  refine Only.iff (N := [.acq]) ?_ h
  clear h
  simp [disarmNow, only_mk_acq]

@[simp] theorem only_rearmFlush (x0) (M : List Part) (z : State) (h : [.fab, .acq] ⊆ M) : Only M z (rearmFlush x0) ↔ Only M z x0 := by
  refine Only.iff (N := [.fab, .acq]) ?_ h
  clear h
  simp [rearmFlush, only_mk_fab_acq]

@[simp] theorem only_primingOver (x0) (M : List Part) (z : State) (h : [.acq] ⊆ M) : Only M z (primingOver x0) ↔ Only M z x0 := by
  refine Only.iff (N := [.acq]) ?_ h
  clear h
  simp [primingOver, only_mk_acq]

@[simp] theorem only_holdoffOver (x0) (M : List Part) (z : State) (h : [.acq] ⊆ M) : Only M z (holdoffOver x0) ↔ Only M z x0 := by
  refine Only.iff (N := [.acq]) ?_ h
  clear h
  unfold holdoffOver
  (try dsimp only)
  repeat' split
  all_goals simp [only_mk_acq]

@[simp] theorem only_trigOutRise (x0 x1) (M : List Part) (z : State) (h : [.acq] ⊆ M) : Only M z (trigOutRise x0 x1) ↔ Only M z x1 := by
  refine Only.iff (N := [.acq]) ?_ h
  clear h
  simp [trigOutRise, only_mk_acq]

@[simp] theorem only_trigOutFall (x0) (M : List Part) (z : State) (h : [.acq] ⊆ M) : Only M z (trigOutFall x0) ↔ Only M z x0 := by
  refine Only.iff (N := [.acq]) ?_ h
  clear h
  simp [trigOutFall, only_mk_acq]

@[simp] theorem only_noteLocal (x0 x1 x2 x3) (M : List Part) (z : State) (h : [.acq] ⊆ M) : Only M z (noteLocal x0 x1 x2 x3) ↔ Only M z x3 := by
  refine Only.iff (N := [.acq]) ?_ h
  clear h
  simp [noteLocal, only_mk_acq]

@[simp] theorem only_afterTaken (x0 x1 x2) (M : List Part) (z : State) (h : [.fab, .acq] ⊆ M) : Only M z (afterTaken x0 x1 x2) ↔ Only M z x2 := by
  refine Only.iff (N := [.fab, .acq]) ?_ h
  clear h
  simp [afterTaken, only_mk_fab_acq]

@[simp] theorem only_takeLocal (x0 x1 x2) (M : List Part) (z : State) (h : [.fab, .acq, .ser, .frm] ⊆ M) : Only M z (takeLocal x0 x1 x2) ↔ Only
    M z x2 := by
  refine Only.iff (N := [.fab, .acq, .ser, .frm]) ?_ h
  clear h
  unfold takeLocal
  (try dsimp only)
  repeat' split
  all_goals simp [only_mk_fab_acq_ser_frm]

@[simp] theorem only_joinRefused (x0 x1 x2) (M : List Part) (z : State) (h : [.fab, .acq] ⊆ M) : Only M z (joinRefused x0 x1 x2) ↔ Only M z x2 := by
  refine Only.iff (N := [.fab, .acq]) ?_ h
  clear h
  simp [joinRefused, only_mk_fab_acq]

@[simp] theorem only_joinLocal (x0 x1 x2) (M : List Part) (z : State) (h : [.fab, .acq] ⊆ M) : Only M z (joinLocal x0 x1 x2) ↔ Only M z x2 := by
  refine Only.iff (N := [.fab, .acq]) ?_ h
  clear h
  unfold joinLocal
  (try dsimp only)
  repeat' split
  all_goals simp [only_mk_fab_acq]

@[simp] theorem only_ignoreLocal (x0 x1 x2) (M : List Part) (z : State) (h : [.fab, .acq] ⊆ M) : Only M z (ignoreLocal x0 x1 x2) ↔ Only M z x2 := by
  refine Only.iff (N := [.fab, .acq]) ?_ h
  clear h
  simp [ignoreLocal, only_mk_fab_acq]

@[simp] theorem only_localTrigger (x0 x1 x2) (M : List Part) (z : State) (h : [.fab, .acq, .ser, .frm] ⊆ M) : Only M z (localTrigger x0 x1 x2)
    ↔ Only M z x2 := by
  refine Only.iff (N := [.fab, .acq, .ser, .frm]) ?_ h
  clear h
  unfold localTrigger
  (try dsimp only)
  repeat' split
  all_goals simp [only_mk_fab_acq_ser_frm]

@[simp] theorem only_selfTrig (x0) (M : List Part) (z : State) (h : [.fab, .acq, .ser, .frm] ⊆ M) : Only M z (selfTrig x0) ↔ Only M z x0 := by
  refine Only.iff (N := [.fab, .acq, .ser, .frm]) ?_ h
  clear h
  simp [selfTrig, only_mk_fab_acq_ser_frm]

@[simp] theorem only_trigInSeen (x0) (M : List Part) (z : State) (h : [.fab, .acq, .ser, .frm] ⊆ M) : Only M z (trigInSeen x0) ↔ Only M z x0 := by
  refine Only.iff (N := [.fab, .acq, .ser, .frm]) ?_ h
  clear h
  simp [trigInSeen, only_mk_fab_acq_ser_frm]

@[simp] theorem only_trigInEdge (x0 x1 x2) (M : List Part) (z : State) (h : [.fab, .acq, .ser, .frm] ⊆ M) : Only M z (trigInEdge x0 x1 x2) ↔
    Only M z x2 := by
  refine Only.iff (N := [.fab, .acq, .ser, .frm]) ?_ h
  clear h
  simp [trigInEdge, only_mk_fab_acq_ser_frm]

@[simp] theorem only_softTrigger (x0) (M : List Part) (z : State) (h : [.fab, .acq, .ser, .frm] ⊆ M) : Only M z (softTrigger x0) ↔ Only M z x0 := by
  refine Only.iff (N := [.fab, .acq, .ser, .frm]) ?_ h
  clear h
  simp [softTrigger, only_mk_fab_acq_ser_frm]

@[simp] theorem only_liftEcc (x0 x1 x2) (M : List Part) (z : State) (h : [.fab] ⊆ M) : Only M z (liftEcc x0 x1 x2) ↔ Only M z x2 := by
  refine Only.iff (N := [.fab]) ?_ h
  clear h
  unfold liftEcc
  dsimp only
  split
  · simp
  · refine (only_foldl _ _ _ _ _ (fun s k => ?_)).2 (by simp)
    refine (only_foldl _ _ _ _ _ (fun s j => ?_)).2 (Only.refl _ _)
    split <;> simp

@[simp] theorem only_liftNothing (x0 x1 x2 x3 x4) (M : List Part) (z : State) (h : [.fab, .acq] ⊆ M) : Only M z (liftNothing x0 x1 x2 x3 x4)
    ↔ Only M z x4 := by
  refine Only.iff (N := [.fab, .acq]) ?_ h
  clear h
  simp [liftNothing, only_mk_fab_acq]

@[simp] theorem only_liftBegin (x0 x1) (M : List Part) (z : State) (h : [.pw, .fab, .seams, .acq] ⊆ M) : Only M z (liftBegin x0 x1) ↔ Only M
    z x1 := by
  refine Only.iff (N := [.pw, .fab, .seams, .acq]) ?_ h
  clear h
  unfold liftBegin
  (try dsimp only)
  repeat' split
  all_goals simp [only_mk_pw_fab_seams_acq]

@[simp] theorem only_tpAbort (x0 x1) (M : List Part) (z : State) (h : [.fab, .seams] ⊆ M) : Only M z (tpAbort x0 x1) ↔ Only M z x1 := by
  refine Only.iff (N := [.fab, .seams]) ?_ h
  clear h
  simp [tpAbort, only_mk_fab_seams]

@[simp] theorem only_engineStart (x0 x1) (M : List Part) (z : State) (h : [.fab, .seams, .acq] ⊆ M) : Only M z (engineStart x0 x1) ↔ Only M z x1 := by
  refine Only.iff (N := [.fab, .seams, .acq]) ?_ h
  clear h
  unfold engineStart
  (try dsimp only)
  repeat' split
  all_goals simp [only_mk_fab_seams_acq]

@[simp] theorem only_liftEnd (x0 x1) (M : List Part) (z : State) (h : [.fab, .seams, .acq] ⊆ M) : Only M z (liftEnd x0 x1) ↔ Only M z x1 := by
  refine Only.iff (N := [.fab, .seams, .acq]) ?_ h
  clear h
  unfold liftEnd
  (try dsimp only)
  repeat' split
  all_goals simp [only_mk_fab_seams_acq]

@[simp] theorem only_modJobs (x0 x1 x2 x3) (M : List Part) (z : State) (h : [.seams] ⊆ M) : Only M z (modJobs x0 x1 x2 x3) ↔ Only M z x3 := by
  refine Only.iff (N := [.seams]) ?_ h
  clear h
  simp [modJobs, only_mk_seams]

@[simp] theorem only_flushSync (x0 x1) (M : List Part) (z : State) (h : [.seams] ⊆ M) : Only M z (flushSync x0 x1) ↔ Only M z x1 := by
  refine Only.iff (N := [.seams]) ?_ h
  clear h
  unfold flushSync
  (try dsimp only)
  repeat' split
  all_goals simp [only_mk_seams]

@[simp] theorem only_charge (x0 x1 x2 x3) (M : List Part) (z : State) (h : [.acq] ⊆ M) : Only M z (charge x0 x1 x2 x3) ↔ Only M z x3 := by
  refine Only.iff (N := [.acq]) ?_ h
  clear h
  simp [charge, only_mk_acq]

@[simp] theorem only_engineWord (x0 x1) (M : List Part) (z : State) (h : [.fab, .seams, .acq, .ser, .frm] ⊆ M) : Only M z (engineWord x0 x1)
    ↔ Only M z x1 := by
  refine Only.iff (N := [.fab, .seams, .acq, .ser, .frm]) ?_ h
  clear h
  unfold engineWord
  (try dsimp only)
  repeat' split
  all_goals simp [only_mk_fab_seams_acq_ser_frm]

@[simp] theorem only_jobClosed (x0 x1 x2 x3 x4 x5) (M : List Part) (z : State) (h : [.fab, .seams, .acq] ⊆ M) : Only M z (jobClosed x0 x1 x2
    x3 x4 x5) ↔ Only M z x5 := by
  refine Only.iff (N := [.fab, .seams, .acq]) ?_ h
  clear h
  unfold jobClosed
  (try dsimp only)
  repeat' split
  all_goals simp [only_mk_fab_seams_acq]

@[simp] theorem only_finalHdr (x0 x1 x2) (M : List Part) (z : State) (h : [.ser] ⊆ M) : Only M z (finalHdr x0 x1 x2) ↔ Only M z x2 := by
  refine Only.iff (N := [.ser]) ?_ h
  clear h
  simp [finalHdr, only_mk_ser]

@[simp] theorem only_engineClose (x0 x1 x2) (M : List Part) (z : State) (h : [.fab, .seams, .acq, .ser, .frm] ⊆ M) : Only M z (engineClose x0
    x1 x2) ↔ Only M z x2 := by
  refine Only.iff (N := [.fab, .seams, .acq, .ser, .frm]) ?_ h
  clear h
  unfold engineClose
  (try dsimp only)
  repeat' split
  all_goals simp [only_mk_fab_seams_acq_ser_frm]

@[simp] theorem only_engineHeld (x0 x1) (M : List Part) (z : State) (h : [.fab, .seams, .acq, .ser, .frm] ⊆ M) : Only M z (engineHeld x0 x1)
    ↔ Only M z x1 := by
  refine Only.iff (N := [.fab, .seams, .acq, .ser, .frm]) ?_ h
  clear h
  unfold engineHeld
  (try dsimp only)
  repeat' split
  all_goals simp [only_mk_fab_seams_acq_ser_frm]

@[simp] theorem only_engineHdr (x0 x1 x2) (M : List Part) (z : State) (h : [.ser] ⊆ M) : Only M z (engineHdr x0 x1 x2) ↔ Only M z x2 := by
  refine Only.iff (N := [.ser]) ?_ h
  clear h
  unfold engineHdr
  (try dsimp only)
  repeat' split
  all_goals simp [only_mk_ser]

@[simp] theorem only_engineRewind (x0 x1) (M : List Part) (z : State) (h : [.fab, .seams, .acq, .ser, .frm] ⊆ M) : Only M z (engineRewind x0
    x1) ↔ Only M z x1 := by
  refine Only.iff (N := [.fab, .seams, .acq, .ser, .frm]) ?_ h
  clear h
  unfold engineRewind
  (try dsimp only)
  repeat' split
  all_goals simp [only_mk_fab_seams_acq_ser_frm]

@[simp] theorem only_engineCancel (x0 x1) (M : List Part) (z : State) (h : [.fab, .seams, .acq, .ser, .frm] ⊆ M) : Only M z (engineCancel x0
    x1) ↔ Only M z x1 := by
  refine Only.iff (N := [.fab, .seams, .acq, .ser, .frm]) ?_ h
  clear h
  unfold engineCancel
  (try dsimp only)
  repeat' split
  all_goals simp [only_mk_fab_seams_acq_ser_frm]

@[simp] theorem only_verifyFail (x0 x1 x2) (M : List Part) (z : State) (h : [.fab, .seams, .acq, .ser, .frm] ⊆ M) : Only M z (verifyFail x0 x1
    x2) ↔ Only M z x2 := by
  refine Only.iff (N := [.fab, .seams, .acq, .ser, .frm]) ?_ h
  clear h
  unfold verifyFail
  (try dsimp only)
  repeat' split
  all_goals simp [only_mk_fab_seams_acq_ser_frm]

@[simp] theorem only_flushBale (x0 x1 x2) (M : List Part) (z : State) (h : [.seams] ⊆ M) : Only M z (flushBale x0 x1 x2) ↔ Only M z x2 := by
  refine Only.iff (N := [.seams]) ?_ h
  clear h
  unfold flushBale
  (try dsimp only)
  repeat' split
  all_goals simp [only_mk_seams]

@[simp] theorem only_tpStartJob (x0 x1) (M : List Part) (z : State) (h : [.seams] ⊆ M) : Only M z (tpStartJob x0 x1) ↔ Only M z x1 := by
  refine Only.iff (N := [.seams]) ?_ h
  clear h
  simp [tpStartJob, only_mk_seams]

@[simp] theorem only_tpIn (x0 x1 x2) (M : List Part) (z : State) (h : [.seams] ⊆ M) : Only M z (tpIn x0 x1 x2) ↔ Only M z x2 := by
  refine Only.iff (N := [.seams]) ?_ h
  clear h
  simp [tpIn, only_mk_seams]

@[simp] theorem only_tpDone (x0 x1) (M : List Part) (z : State) (h : [.seams] ⊆ M) : Only M z (tpDone x0 x1) ↔ Only M z x1 := by
  refine Only.iff (N := [.seams]) ?_ h
  clear h
  simp [tpDone, only_mk_seams]

@[simp] theorem only_tpOut (x0 x1) (M : List Part) (z : State) (h : [.seams] ⊆ M) : Only M z ((tpOut x0 x1).2) ↔ Only M z x1 := by
  refine Only.iff (N := [.seams]) ?_ h
  clear h
  simp [tpOut, only_mk_seams]

@[simp] theorem only_cmpReset (x0 x1) (M : List Part) (z : State) (h : [.seams] ⊆ M) : Only M z (cmpReset x0 x1) ↔ Only M z x1 := by
  refine Only.iff (N := [.seams]) ?_ h
  clear h
  simp [cmpReset, only_mk_seams]

@[simp] theorem only_herClosed (x0) (M : List Part) (z : State) (h : [.fab, .seams, .acq, .her] ⊆ M) : Only M z (herClosed x0) ↔ Only M z x0 := by
  refine Only.iff (N := [.fab, .seams, .acq, .her]) ?_ h
  clear h
  unfold herClosed
  (try dsimp only)
  repeat' split
  all_goals simp [only_mk_fab_seams_acq_her]

@[simp] theorem only_herFormat (x0) (M : List Part) (z : State) (h : [.fab, .acq, .her] ⊆ M) : Only M z (herFormat x0) ↔ Only M z x0 := by
  refine Only.iff (N := [.fab, .acq, .her]) ?_ h
  clear h
  unfold herFormat
  (try dsimp only)
  repeat' split
  all_goals simp [only_mk_fab_acq_her]

@[simp] theorem only_herForm (x0) (M : List Part) (z : State) (h : [.fab, .her] ⊆ M) : Only M z (herForm x0) ↔ Only M z x0 := by
  refine Only.iff (N := [.fab, .her]) ?_ h
  clear h
  simp [herForm, only_mk_fab_her]

@[simp] theorem only_herNext (x0) (M : List Part) (z : State) (h : [.fab, .acq, .ser, .frm, .her] ⊆ M) : Only M z (herNext x0) ↔ Only M z x0 := by
  refine Only.iff (N := [.fab, .acq, .ser, .frm, .her]) ?_ h
  clear h
  simp [herNext, only_mk_fab_acq_ser_frm_her]

@[simp] theorem only_herHdr (x0 x1) (M : List Part) (z : State) (h : [.ser] ⊆ M) : Only M z (herHdr x0 x1) ↔ Only M z x1 := by
  refine Only.iff (N := [.ser]) ?_ h
  clear h
  simp [herHdr, only_mk_ser]

@[simp] theorem only_herEnd (x0) (M : List Part) (z : State) (h : [.fab, .seams, .acq, .ser, .frm, .her] ⊆ M) : Only M z (herEnd x0) ↔ Only M
    z x0 := by
  refine Only.iff (N := [.fab, .seams, .acq, .ser, .frm, .her]) ?_ h
  clear h
  simp [herEnd, only_mk_fab_seams_acq_ser_frm_her]

@[simp] theorem only_herHeld (x0) (M : List Part) (z : State) (h : [.fab, .seams, .acq, .ser, .frm, .her] ⊆ M) : Only M z (herHeld x0) ↔ Only
    M z x0 := by
  refine Only.iff (N := [.fab, .seams, .acq, .ser, .frm, .her]) ?_ h
  clear h
  unfold herHeld
  (try dsimp only)
  repeat' split
  all_goals simp [only_mk_fab_seams_acq_ser_frm_her]

@[simp] theorem only_herRewind (x0) (M : List Part) (z : State) (h : [.fab, .acq, .ser, .frm, .her] ⊆ M) : Only M z (herRewind x0) ↔ Only M z x0 := by
  refine Only.iff (N := [.fab, .acq, .ser, .frm, .her]) ?_ h
  clear h
  simp [herRewind, only_mk_fab_acq_ser_frm_her]

@[simp] theorem only_writerCancel (x0 x1) (M : List Part) (z : State) (h : [.fab, .ser, .frm] ⊆ M) : Only M z (writerCancel x0 x1) ↔ Only M z x1 := by
  refine Only.iff (N := [.fab, .ser, .frm]) ?_ h
  clear h
  unfold writerCancel
  (try dsimp only)
  repeat' split
  all_goals simp [only_mk_fab_ser_frm]

@[simp] theorem only_setG (x0 x1 x2) (M : List Part) (z : State) (h : [.frm] ⊆ M) : Only M z (setG x0 x1 x2) ↔ Only M z x2 := by
  refine Only.iff (N := [.frm]) ?_ h
  clear h
  unfold setG
  (try dsimp only)
  repeat' split
  all_goals simp [only_mk_frm]

@[simp] theorem only_setF (x0 x1 x2) (M : List Part) (z : State) (h : [.frm] ⊆ M) : Only M z (setF x0 x1 x2) ↔ Only M z x2 := by
  refine Only.iff (N := [.frm]) ?_ h
  clear h
  unfold setF
  (try dsimp only)
  repeat' split
  all_goals simp [only_mk_frm]

@[simp] theorem only_replayed (x0 x1 x2) (M : List Part) (z : State) (h : [.fab, .ser, .frm] ⊆ M) : Only M z (replayed x0 x1 x2) ↔ Only M z x2 := by
  refine Only.iff (N := [.fab, .ser, .frm]) ?_ h
  clear h
  simp [replayed, only_mk_fab_ser_frm]

@[simp] theorem only_takeReplay (x0 x1 x2) (M : List Part) (z : State) (h : [.fab, .ser, .frm] ⊆ M) : Only M z ((takeReplay x0 x1 x2).2) ↔ Only
    M z x2 := by
  refine Only.iff (N := [.fab, .ser, .frm]) ?_ h
  clear h
  simp [takeReplay, only_mk_fab_ser_frm]

@[simp] theorem only_takeHead (x0 x1 x2) (M : List Part) (z : State) (h : [.fab, .ser, .frm] ⊆ M) : Only M z ((takeHead x0 x1 x2).2) ↔ Only M
    z x2 := by
  refine Only.iff (N := [.fab, .ser, .frm]) ?_ h
  clear h
  simp [takeHead, only_mk_fab_ser_frm]

@[simp] theorem only_takeGrant (x0) (M : List Part) (z : State) (h : [.fab, .ser, .frm] ⊆ M) : Only M z ((takeGrant x0).2) ↔ Only M z x0 := by
  refine Only.iff (N := [.fab, .ser, .frm]) ?_ h
  clear h
  unfold takeGrant
  (try dsimp only)
  repeat' split
  all_goals simp [only_mk_fab_ser_frm]

@[simp] theorem only_unsend (x0) (M : List Part) (z : State) (h : [.fab, .ser, .frm] ⊆ M) : Only M z (unsend x0) ↔ Only M z x0 := by
  refine Only.iff (N := [.fab, .ser, .frm]) ?_ h
  clear h
  unfold unsend
  (try dsimp only)
  repeat' split
  all_goals simp [only_mk_fab_ser_frm]

@[simp] theorem only_sendCaravan (x0) (M : List Part) (z : State) (h : [.fab, .ser, .frm] ⊆ M) : Only M z (sendCaravan x0) ↔ Only M z x0 := by
  refine Only.iff (N := [.fab, .ser, .frm]) ?_ h
  clear h
  unfold sendCaravan
  (try dsimp only)
  repeat' split
  all_goals simp [only_mk_fab_ser_frm]

@[simp] theorem only_sendTowers (x0) (M : List Part) (z : State) (h : [.frm] ⊆ M) : Only M z (sendTowers x0) ↔ Only M z x0 := by
  refine Only.iff (N := [.frm]) ?_ h
  clear h
  unfold sendTowers
  (try dsimp only)
  repeat' split
  all_goals simp [only_mk_frm]

@[simp] theorem only_sendEcho (x0 x1) (M : List Part) (z : State) (h : [.frm] ⊆ M) : Only M z (sendEcho x0 x1) ↔ Only M z x1 := by
  refine Only.iff (N := [.frm]) ?_ h
  clear h
  unfold sendEcho
  (try dsimp only)
  repeat' split
  all_goals simp [only_mk_frm]

@[simp] theorem only_markerSync (x0) (M : List Part) (z : State) (h : [.frm] ⊆ M) : Only M z (markerSync x0) ↔ Only M z x0 := by
  refine Only.iff (N := [.frm]) ?_ h
  clear h
  simp [markerSync, only_mk_frm]

@[simp] theorem only_txSync (x0 x1) (M : List Part) (z : State) (h : [.lnA, .lnB] ⊆ M) : Only M z (txSync x0 x1) ↔ Only M z x1 := by
  refine Only.iff (N := [.lnA, .lnB]) ?_ h
  clear h
  simp [txSync, only_mk_lnA_lnB]

@[simp] theorem only_txBoth (x0) (M : List Part) (z : State) (h : [.lnA, .lnB] ⊆ M) : Only M z (txBoth x0) ↔ Only M z x0 := by
  refine Only.iff (N := [.lnA, .lnB]) ?_ h
  clear h
  simp [txBoth, only_mk_lnA_lnB]

@[simp] theorem only_groupSlot (x0) (M : List Part) (z : State) (h : [.fab, .ser, .frm, .lnA, .lnB] ⊆ M) : Only M z (groupSlot x0) ↔ Only M z x0 := by
  refine Only.iff (N := [.fab, .ser, .frm, .lnA, .lnB]) ?_ h
  clear h
  simp [groupSlot, only_mk_fab_ser_frm_lnA_lnB]

@[simp] theorem only_creditStep (x0) (M : List Part) (z : State) (h : [.frm] ⊆ M) : Only M z (creditStep x0) ↔ Only M z x0 := by
  refine Only.iff (N := [.frm]) ?_ h
  clear h
  simp [creditStep, only_mk_frm]

@[simp] theorem only_replayOver (x0) (M : List Part) (z : State) (h : [.fab, .acq, .ser, .frm] ⊆ M) : Only M z (replayOver x0) ↔ Only M z x0 := by
  refine Only.iff (N := [.fab, .acq, .ser, .frm]) ?_ h
  clear h
  simp [replayOver, only_mk_fab_acq_ser_frm]

@[simp] theorem only_roleStep (x0 x1 x2) (M : List Part) (z : State) (h : [.fab, .sup] ⊆ M) : Only M z (roleStep x0 x1 x2) ↔ Only M z x2 := by
  refine Only.iff (N := [.fab, .sup]) ?_ h
  clear h
  simp [roleStep, only_mk_fab_sup]

@[simp] theorem only_darkSync (x0) (M : List Part) (z : State) (h : [.fab, .sup] ⊆ M) : Only M z (darkSync x0) ↔ Only M z x0 := by
  refine Only.iff (N := [.fab, .sup]) ?_ h
  clear h
  simp [darkSync, only_mk_fab_sup]

@[simp] theorem only_roleSync (x0) (M : List Part) (z : State) (h : [.fab, .sup] ⊆ M) : Only M z (roleSync x0) ↔ Only M z x0 := by
  refine Only.iff (N := [.fab, .sup]) ?_ h
  clear h
  simp [roleSync, only_mk_fab_sup]

@[simp] theorem only_setToken (x0 x1) (M : List Part) (z : State) (h : [.sup] ⊆ M) : Only M z (setToken x0 x1) ↔ Only M z x1 := by
  refine Only.iff (N := [.sup]) ?_ h
  clear h
  simp [setToken, only_mk_sup]

@[simp] theorem only_dueSlot (x0 x1) (M : List Part) (z : State) (h : [.fab, .dlA, .dlB] ⊆ M) : Only M z (dueSlot x0 x1) ↔ Only M z x1 := by
  refine Only.iff (N := [.fab, .dlA, .dlB]) ?_ h
  clear h
  simp [dueSlot, only_mk_fab_dlA_dlB]

@[simp] theorem only_changeRef (x0 x1) (M : List Part) (z : State) (h : [.fab, .orb, .pll] ⊆ M) : Only M z (changeRef x0 x1) ↔ Only M z x1 := by
  refine Only.iff (N := [.fab, .orb, .pll]) ?_ h
  clear h
  simp [changeRef, only_mk_fab_orb_pll]

@[simp] theorem only_startLost (x0 x1) (M : List Part) (z : State) (h : [.pll] ⊆ M) : Only M z (startLost x0 x1) ↔ Only M z x1 := by
  refine Only.iff (N := [.pll]) ?_ h
  clear h
  simp [startLost, only_mk_pll]

@[simp] theorem only_refLost (x0 x1) (M : List Part) (z : State) (h : [.fab, .orb, .pll] ⊆ M) : Only M z (refLost x0 x1) ↔ Only M z x1 := by
  refine Only.iff (N := [.fab, .orb, .pll]) ?_ h
  clear h
  simp [refLost, only_mk_fab_orb_pll]

@[simp] theorem only_enterDetect (x0 x1) (M : List Part) (z : State) (h : [.lnA, .lnB] ⊆ M) : Only M z (enterDetect x0 x1) ↔ Only M z x1 := by
  refine Only.iff (N := [.lnA, .lnB]) ?_ h
  clear h
  simp [enterDetect, only_mk_lnA_lnB]

@[simp] theorem only_beginDetect (x0 x1) (M : List Part) (z : State) (h : [.lnA, .lnB, .sup] ⊆ M) : Only M z (beginDetect x0 x1) ↔ Only M z x1 := by
  refine Only.iff (N := [.lnA, .lnB, .sup]) ?_ h
  clear h
  simp [beginDetect, only_mk_lnA_lnB_sup]

@[simp] theorem only_trainFail (x0 x1) (M : List Part) (z : State) (h : [.fab, .lnA, .lnB, .sup] ⊆ M) : Only M z (trainFail x0 x1) ↔ Only M z x1 := by
  refine Only.iff (N := [.fab, .lnA, .lnB, .sup]) ?_ h
  clear h
  simp [trainFail, only_mk_fab_lnA_lnB_sup]

@[simp] theorem only_enterSt (x0 x1 x2) (M : List Part) (z : State) (h : [.lnA, .lnB] ⊆ M) : Only M z (enterSt x0 x1 x2) ↔ Only M z x2 := by
  refine Only.iff (N := [.lnA, .lnB]) ?_ h
  clear h
  simp [enterSt, only_mk_lnA_lnB]

@[simp] theorem only_detectJudge (x0 x1) (M : List Part) (z : State) (h : [.lnA, .lnB] ⊆ M) : Only M z (detectJudge x0 x1) ↔ Only M z x1 := by
  refine Only.iff (N := [.lnA, .lnB]) ?_ h
  clear h
  simp [detectJudge, only_mk_lnA_lnB]

@[simp] theorem only_enterService (x0 x1 x2 x3 x4) (M : List Part) (z : State) (h : [.fab, .lnA, .lnB, .sup] ⊆ M) : Only M z (enterService x0
    x1 x2 x3 x4) ↔ Only M z x4 := by
  refine Only.iff (N := [.fab, .lnA, .lnB, .sup]) ?_ h
  clear h
  simp [enterService, only_mk_fab_lnA_lnB_sup]

@[simp] theorem only_stageClock (x0) (M : List Part) (z : State) (h : [.pw] ⊆ M) : Only M z (stageClock x0) ↔ Only M z x0 := by
  refine Only.iff (N := [.pw]) ?_ h
  clear h
  simp [stageClock, only_mk_pw]

@[simp] theorem only_refFirst (x0 x1) (M : List Part) (z : State) (h : [.pll] ⊆ M) : Only M z (refFirst x0 x1) ↔ Only M z x1 := by
  refine Only.iff (N := [.pll]) ?_ h
  clear h
  simp [refFirst, only_mk_pll]

@[simp] theorem only_fwdSync (x0 x1) (M : List Part) (z : State) (h : [.pw, .fab, .orb, .pll, .lnA, .lnB, .sup] ⊆ M) : Only M z (fwdSync x0 x1)
    ↔ Only M z x1 := by
  refine Only.iff (N := [.pw, .fab, .orb, .pll, .lnA, .lnB, .sup]) ?_ h
  clear h
  simp [fwdSync, only_mk_pw_fab_orb_pll_lnA_lnB_sup]

@[simp] theorem only_fwdLoss (x0 x1) (M : List Part) (z : State) (h : [.pw, .fab, .orb, .pll, .lnA, .lnB, .sup] ⊆ M) : Only M z (fwdLoss x0 x1)
    ↔ Only M z x1 := by
  refine Only.iff (N := [.pw, .fab, .orb, .pll, .lnA, .lnB, .sup]) ?_ h
  clear h
  simp [fwdLoss, only_mk_pw_fab_orb_pll_lnA_lnB_sup]

@[simp] theorem only_fwdReturn (x0 x1) (M : List Part) (z : State) (h : [.pw, .fab, .orb, .pll, .lnA, .lnB, .sup] ⊆ M) : Only M z (fwdReturn
    x0 x1) ↔ Only M z x1 := by
  refine Only.iff (N := [.pw, .fab, .orb, .pll, .lnA, .lnB, .sup]) ?_ h
  clear h
  simp [fwdReturn, only_mk_pw_fab_orb_pll_lnA_lnB_sup]

@[simp] theorem only_fwdWindow (x0 x1 x2) (M : List Part) (z : State) (h : [.pw, .fab, .orb, .pll, .lnA, .lnB, .sup] ⊆ M) : Only M z (fwdWindow
    x0 x1 x2) ↔ Only M z x2 := by
  refine Only.iff (N := [.pw, .fab, .orb, .pll, .lnA, .lnB, .sup]) ?_ h
  clear h
  simp [fwdWindow, only_mk_pw_fab_orb_pll_lnA_lnB_sup]

@[simp] theorem only_ctlAbort (x0 x1) (M : List Part) (z : State) (h : [.fab, .dlA, .dlB] ⊆ M) : Only M z (ctlAbort x0 x1) ↔ Only M z x1 := by
  refine Only.iff (N := [.fab, .dlA, .dlB]) ?_ h
  clear h
  unfold ctlAbort
  (try dsimp only)
  repeat' split
  all_goals simp [only_mk_fab_dlA_dlB]

@[simp] theorem only_ctlLost (x0 x1) (M : List Part) (z : State) (h : [.fab, .dlA, .dlB] ⊆ M) : Only M z (ctlLost x0 x1) ↔ Only M z x1 := by
  refine Only.iff (N := [.fab, .dlA, .dlB]) ?_ h
  clear h
  simp [ctlLost, only_mk_fab_dlA_dlB]

@[simp] theorem only_lockFall (x0 x1) (M : List Part) (z : State) (h : [.fab, .lnA, .lnB, .dlA, .dlB] ⊆ M) : Only M z (lockFall x0 x1) ↔ Only
    M z x1 := by
  refine Only.iff (N := [.fab, .lnA, .lnB, .dlA, .dlB]) ?_ h
  clear h
  simp [lockFall, only_mk_fab_lnA_lnB_dlA_dlB]

@[simp] theorem only_bitLose (x0 x1) (M : List Part) (z : State) (h : [.fab, .lnA, .lnB, .dlA, .dlB] ⊆ M) : Only M z (bitLose x0 x1) ↔ Only M
    z x1 := by
  refine Only.iff (N := [.fab, .lnA, .lnB, .dlA, .dlB]) ?_ h
  clear h
  simp [bitLose, only_mk_fab_lnA_lnB_dlA_dlB]

@[simp] theorem only_signalChange (x0 x1 x2) (M : List Part) (z : State) (h : [.fab, .lnA, .lnB, .dlA, .dlB, .sup] ⊆ M) : Only M z (signalChange
    x0 x1 x2) ↔ Only M z x2 := by
  refine Only.iff (N := [.fab, .lnA, .lnB, .dlA, .dlB, .sup]) ?_ h
  clear h
  simp [signalChange, only_mk_fab_lnA_lnB_dlA_dlB_sup]

@[simp] theorem only_signalLevel (x0 x1 x2) (M : List Part) (z : State) (h : [.pw, .fab, .lnA, .lnB, .dlA, .dlB, .sup] ⊆ M) : Only M z (signalLevel
    x0 x1 x2) ↔ Only M z x2 := by
  refine Only.iff (N := [.pw, .fab, .lnA, .lnB, .dlA, .dlB, .sup]) ?_ h
  clear h
  simp [signalLevel, only_mk_pw_fab_lnA_lnB_dlA_dlB_sup]

@[simp] theorem only_lockAcquire (x0 x1) (M : List Part) (z : State) (h : [.lnA, .lnB] ⊆ M) : Only M z (lockAcquire x0 x1) ↔ Only M z x1 := by
  refine Only.iff (N := [.lnA, .lnB]) ?_ h
  clear h
  simp [lockAcquire, only_mk_lnA_lnB]

@[simp] theorem only_lockLose (x0 x1 x2) (M : List Part) (z : State) (h : [.fab, .lnA, .lnB, .dlA, .dlB, .sup] ⊆ M) : Only M z (lockLose x0 x1
    x2) ↔ Only M z x2 := by
  refine Only.iff (N := [.fab, .lnA, .lnB, .dlA, .dlB, .sup]) ?_ h
  clear h
  unfold lockLose
  (try dsimp only)
  repeat' split
  all_goals simp [only_mk_fab_lnA_lnB_dlA_dlB_sup]

@[simp] theorem only_setVddl (x0 x1 x2) (M : List Part) (z : State) (h : [.pw] ⊆ M) : Only M z (setVddl x0 x1 x2) ↔ Only M z x2 := by
  refine Only.iff (N := [.pw]) ?_ h
  clear h
  unfold setVddl
  (try dsimp only)
  repeat' split
  all_goals simp [only_mk_pw]

@[simp] theorem only_supplyUp (x0 x1) (M : List Part) (z : State) (h : [.pw, .fab, .lnA, .lnB, .sup] ⊆ M) : Only M z (supplyUp x0 x1) ↔ Only
    M z x1 := by
  refine Only.iff (N := [.pw, .fab, .lnA, .lnB, .sup]) ?_ h
  clear h
  simp [supplyUp, only_mk_pw_fab_lnA_lnB_sup]

@[simp] theorem only_supplyLoss (x0 x1) (M : List Part) (z : State) (h : [.pw, .fab, .orb, .pll, .ser, .frm, .lnA, .lnB, .dlA, .dlB, .sup] ⊆
    M) : Only M z (supplyLoss x0 x1) ↔ Only M z x1 := by
  refine Only.iff (N := [.pw, .fab, .orb, .pll, .ser, .frm, .lnA, .lnB, .dlA, .dlB, .sup]) ?_ h
  clear h
  simp [supplyLoss, only_mk_but_pending_jtag_conv_chan_ring_ringErr_feat_featErr_flint_fout_flintOn_seams_acq_tb_mg_slow_cal_mon_pls_her]

@[simp] theorem only_vddlTo (x0 x1 x2) (M : List Part) (z : State) (h : [.pw, .fab, .orb, .pll, .ser, .frm, .lnA, .lnB, .dlA, .dlB, .sup] ⊆ M)
    : Only M z (vddlTo x0 x1 x2) ↔ Only M z x2 := by
  refine Only.iff (N := [.pw, .fab, .orb, .pll, .ser, .frm, .lnA, .lnB, .dlA, .dlB, .sup]) ?_ h
  clear h
  simp [vddlTo, only_mk_but_pending_jtag_conv_chan_ring_ringErr_feat_featErr_flint_fout_flintOn_seams_acq_tb_mg_slow_cal_mon_pls_her]

@[simp] theorem only_detectPulse (x0 x1 x2) (M : List Part) (z : State) (h : [.lnA, .lnB] ⊆ M) : Only M z (detectPulse x0 x1 x2) ↔ Only M z x2 := by
  refine Only.iff (N := [.lnA, .lnB]) ?_ h
  clear h
  simp [detectPulse, only_mk_lnA_lnB]

@[simp] theorem only_frameErrs (x0 x1 x2) (M : List Part) (z : State) (h : [.fab, .lnA, .lnB, .dlA, .dlB] ⊆ M) : Only M z (frameErrs x0 x1 x2)
    ↔ Only M z x2 := by
  refine Only.iff (N := [.fab, .lnA, .lnB, .dlA, .dlB]) ?_ h
  clear h
  simp [frameErrs, only_mk_fab_lnA_lnB_dlA_dlB]

@[simp] theorem only_deskewJudge (x0 x1) (M : List Part) (z : State) (h : [.frm, .lnA, .lnB] ⊆ M) : Only M z (deskewJudge x0 x1) ↔ Only M z x1 := by
  refine Only.iff (N := [.frm, .lnA, .lnB]) ?_ h
  clear h
  simp [deskewJudge, only_mk_frm_lnA_lnB]

@[simp] theorem only_trainStep (x0 x1 x2) (M : List Part) (z : State) (h : [.fab, .frm, .lnA, .lnB, .sup] ⊆ M) : Only M z (trainStep x0 x1 x2)
    ↔ Only M z x2 := by
  refine Only.iff (N := [.fab, .frm, .lnA, .lnB, .sup]) ?_ h
  clear h
  simp [trainStep, only_mk_fab_frm_lnA_lnB_sup]

@[simp] theorem only_trainingFrame (x0 x1 x2) (M : List Part) (z : State) (h : [.fab, .frm, .lnA, .lnB, .dlA, .dlB, .sup] ⊆ M) : Only M z (trainingFrame
    x0 x1 x2) ↔ Only M z x2 := by
  refine Only.iff (N := [.fab, .frm, .lnA, .lnB, .dlA, .dlB, .sup]) ?_ h
  clear h
  simp [trainingFrame, only_mk_fab_frm_lnA_lnB_dlA_dlB_sup]

@[simp] theorem only_trainTimeout (x0 x1) (M : List Part) (z : State) (h : [.fab, .lnA, .lnB, .sup] ⊆ M) : Only M z (trainTimeout x0 x1) ↔ Only
    M z x1 := by
  refine Only.iff (N := [.fab, .lnA, .lnB, .sup]) ?_ h
  clear h
  simp [trainTimeout, only_mk_fab_lnA_lnB_sup]

@[simp] theorem only_retrainTrunk (x0 x1 x2) (M : List Part) (z : State) (h : [.fab, .lnA, .lnB, .sup] ⊆ M) : Only M z (retrainTrunk x0 x1 x2)
    ↔ Only M z x2 := by
  refine Only.iff (N := [.fab, .lnA, .lnB, .sup]) ?_ h
  clear h
  simp [retrainTrunk, only_mk_fab_lnA_lnB_sup]

@[simp] theorem only_eyeStart (x0) (M : List Part) (z : State) (h : [.orb, .lnA, .lnB] ⊆ M) : Only M z (eyeStart x0) ↔ Only M z x0 := by
  refine Only.iff (N := [.orb, .lnA, .lnB]) ?_ h
  clear h
  simp [eyeStart, only_mk_orb_lnA_lnB]

@[simp] theorem only_eyeSlot (x0 x1 x2) (M : List Part) (z : State) (h : [.orb, .lnA, .lnB] ⊆ M) : Only M z (eyeSlot x0 x1 x2) ↔ Only M z x2 := by
  refine Only.iff (N := [.orb, .lnA, .lnB]) ?_ h
  clear h
  simp [eyeSlot, only_mk_orb_lnA_lnB]

@[simp] theorem only_eyeEnd (x0 x1) (M : List Part) (z : State) (h : [.lnA, .lnB] ⊆ M) : Only M z (eyeEnd x0 x1) ↔ Only M z x1 := by
  refine Only.iff (N := [.lnA, .lnB]) ?_ h
  clear h
  simp [eyeEnd, only_mk_lnA_lnB]

@[simp] theorem only_eyeShow (x0 x1) (M : List Part) (z : State) (h : [.lnA, .lnB] ⊆ M) : Only M z (eyeShow x0 x1) ↔ Only M z x1 := by
  refine Only.iff (N := [.lnA, .lnB]) ?_ h
  clear h
  simp [eyeShow, only_mk_lnA_lnB]

@[simp] theorem only_testApplied (x0 x1) (M : List Part) (z : State) (h : [.lnA, .lnB] ⊆ M) : Only M z (testApplied x0 x1) ↔ Only M z x1 := by
  refine Only.iff (N := [.lnA, .lnB]) ?_ h
  clear h
  simp [testApplied, only_mk_lnA_lnB]

@[simp] theorem only_testCancel (x0 x1) (M : List Part) (z : State) (h : [.fab, .lnA, .lnB] ⊆ M) : Only M z (testCancel x0 x1) ↔ Only M z x1 := by
  refine Only.iff (N := [.fab, .lnA, .lnB]) ?_ h
  clear h
  simp [testCancel, only_mk_fab_lnA_lnB]

@[simp] theorem only_prbsSync (x0 x1 x2 x3) (M : List Part) (z : State) (h : [.lnA, .lnB] ⊆ M) : Only M z (prbsSync x0 x1 x2 x3) ↔ Only M z x3 := by
  refine Only.iff (N := [.lnA, .lnB]) ?_ h
  clear h
  simp [prbsSync, only_mk_lnA_lnB]

@[simp] theorem only_prbsLoss (x0 x1 x2 x3) (M : List Part) (z : State) (h : [.lnA, .lnB] ⊆ M) : Only M z (prbsLoss x0 x1 x2 x3) ↔ Only M z x3 := by
  refine Only.iff (N := [.lnA, .lnB]) ?_ h
  clear h
  simp [prbsLoss, only_mk_lnA_lnB]

@[simp] theorem only_laneReset (x0 x1) (M : List Part) (z : State) (h : [.fab, .lnA, .lnB] ⊆ M) : Only M z (laneReset x0 x1) ↔ Only M z x1 := by
  refine Only.iff (N := [.fab, .lnA, .lnB]) ?_ h
  clear h
  simp [laneReset, only_mk_fab_lnA_lnB]

@[simp] theorem only_evidenceCycle (x0 x1) (M : List Part) (z : State) (h : [.sup] ⊆ M) : Only M z (evidenceCycle x0 x1) ↔ Only M z x1 := by
  refine Only.iff (N := [.sup]) ?_ h
  clear h
  simp [evidenceCycle, only_mk_sup]

@[simp] theorem only_evidenceChange (x0 x1) (M : List Part) (z : State) (h : [.fab, .sup] ⊆ M) : Only M z (evidenceChange x0 x1) ↔ Only M z x1 := by
  refine Only.iff (N := [.fab, .sup]) ?_ h
  clear h
  simp [evidenceChange, only_mk_fab_sup]

@[simp] theorem only_heartToggle (x0 x1) (M : List Part) (z : State) (h : [.fab, .sup] ⊆ M) : Only M z (heartToggle x0 x1) ↔ Only M z x1 := by
  refine Only.iff (N := [.fab, .sup]) ?_ h
  clear h
  simp [heartToggle, only_mk_fab_sup]

@[simp] theorem only_heartTimeout (x0 x1) (M : List Part) (z : State) (h : [.fab, .sup] ⊆ M) : Only M z (heartTimeout x0 x1) ↔ Only M z x1 := by
  refine Only.iff (N := [.fab, .sup]) ?_ h
  clear h
  simp [heartTimeout, only_mk_fab_sup]

@[simp] theorem only_upsetsPast (x0) (M : List Part) (z : State) (h : [.fab] ⊆ M) : Only M z (upsetsPast x0) ↔ Only M z x0 := by
  refine Only.iff (N := [.fab]) ?_ h
  clear h
  simp [upsetsPast, only_mk_fab]

@[simp] theorem only_setLast (x0 x1 x2 x3) (M : List Part) (z : State) (h : [.sup] ⊆ M) : Only M z (setLast x0 x1 x2 x3) ↔ Only M z x3 := by
  refine Only.iff (N := [.sup]) ?_ h
  clear h
  simp [setLast, only_mk_sup]

@[simp] theorem only_moveToken (x0 x1 x2 x3) (M : List Part) (z : State) (h : [.fab, .sup] ⊆ M) : Only M z (moveToken x0 x1 x2 x3) ↔ Only M z x3 := by
  refine Only.iff (N := [.fab, .sup]) ?_ h
  clear h
  simp [moveToken, only_mk_fab_sup]

@[simp] theorem only_noHolder (x0) (M : List Part) (z : State) (h : [.sup] ⊆ M) : Only M z (noHolder x0) ↔ Only M z x0 := by
  refine Only.iff (N := [.sup]) ?_ h
  clear h
  simp [noHolder, only_mk_sup]

@[simp] theorem only_goDark (x0 x1 x2) (M : List Part) (z : State) (h : [.fab, .ser, .frm, .sup] ⊆ M) : Only M z (goDark x0 x1 x2) ↔ Only M z x2 := by
  refine Only.iff (N := [.fab, .ser, .frm, .sup]) ?_ h
  clear h
  simp [goDark, only_mk_fab_ser_frm_sup]

@[simp] theorem only_latchTrunk (x0 x1 x2) (M : List Part) (z : State) (h : [.sup] ⊆ M) : Only M z (latchTrunk x0 x1 x2) ↔ Only M z x2 := by
  refine Only.iff (N := [.sup]) ?_ h
  clear h
  simp [latchTrunk, only_mk_sup]

@[simp] theorem only_grantRow (x0) (M : List Part) (z : State) (h : [.fab, .sup] ⊆ M) : Only M z (grantRow x0) ↔ Only M z x0 := by
  refine Only.iff (N := [.fab, .sup]) ?_ h
  clear h
  simp [grantRow, only_mk_fab_sup]

@[simp] theorem only_setXdown (x0 x1) (M : List Part) (z : State) (h : [.fab, .sup] ⊆ M) : Only M z (setXdown x0 x1) ↔ Only M z x1 := by
  refine Only.iff (N := [.fab, .sup]) ?_ h
  clear h
  simp [setXdown, only_mk_fab_sup]

@[simp] theorem only_holderRow (x0 x1) (M : List Part) (z : State) (h : [.fab, .ser, .frm, .sup] ⊆ M) : Only M z (holderRow x0 x1) ↔ Only M z x1 := by
  refine Only.iff (N := [.fab, .ser, .frm, .sup]) ?_ h
  clear h
  simp [holderRow, only_mk_fab_ser_frm_sup]

@[simp] theorem only_decide279 (x0) (M : List Part) (z : State) (h : [.fab, .ser, .frm, .sup] ⊆ M) : Only M z (decide279 x0) ↔ Only M z x0 := by
  refine Only.iff (N := [.fab, .ser, .frm, .sup]) ?_ h
  clear h
  unfold decide279
  (try dsimp only)
  repeat' split
  all_goals simp [only_mk_fab_ser_frm_sup]

@[simp] theorem only_qualTrack (x0 x1) (M : List Part) (z : State) (h : [.sup] ⊆ M) : Only M z (qualTrack x0 x1) ↔ Only M z x1 := by
  refine Only.iff (N := [.sup]) ?_ h
  clear h
  simp [qualTrack, only_mk_sup]

@[simp] theorem only_supCycle (x0) (M : List Part) (z : State) (h : [.pw, .fab, .ser, .frm, .sup] ⊆ M) : Only M z (supCycle x0) ↔ Only M z x0 := by
  refine Only.iff (N := [.pw, .fab, .ser, .frm, .sup]) ?_ h
  clear h
  simp [supCycle, only_mk_pw_fab_ser_frm_sup]

@[simp] theorem only_prefWait (x0) (M : List Part) (z : State) (h : [.fab, .sup] ⊆ M) : Only M z (prefWait x0) ↔ Only M z x0 := by
  refine Only.iff (N := [.fab, .sup]) ?_ h
  clear h
  unfold prefWait
  (try dsimp only)
  repeat' split
  all_goals simp [only_mk_fab_sup]

@[simp] theorem only_moveStart (x0) (M : List Part) (z : State) (h : [.fab, .orb, .pll, .ser, .frm, .lnA, .lnB, .dlA, .dlB, .sup] ⊆ M) : Only
    M z (moveStart x0) ↔ Only M z x0 := by
  refine Only.iff (N := [.fab, .orb, .pll, .ser, .frm, .lnA, .lnB, .dlA, .dlB, .sup]) ?_ h
  clear h
  unfold moveStart
  (try dsimp only)
  repeat' split
  all_goals simp [only_mk_but_pending_pw_jtag_conv_chan_ring_ringErr_feat_featErr_flint_fout_flintOn_seams_acq_tb_mg_slow_cal_mon_pls_her]

@[simp] theorem only_latchCmd (x0) (M : List Part) (z : State) (h : [.sup] ⊆ M) : Only M z (latchCmd x0) ↔ Only M z x0 := by
  refine Only.iff (N := [.sup]) ?_ h
  clear h
  unfold latchCmd
  (try dsimp only)
  repeat' split
  all_goals simp [only_mk_sup]

@[simp] theorem only_checkFail (x0 x1) (M : List Part) (z : State) (h : [.fab, .ser, .frm, .sup] ⊆ M) : Only M z (checkFail x0 x1) ↔ Only M z x1 := by
  refine Only.iff (N := [.fab, .ser, .frm, .sup]) ?_ h
  clear h
  unfold checkFail
  (try dsimp only)
  repeat' split
  all_goals simp [only_mk_fab_ser_frm_sup]

@[simp] theorem only_checkPass (x0) (M : List Part) (z : State) (h : [.pw, .fab, .ser, .sup] ⊆ M) : Only M z (checkPass x0) ↔ Only M z x0 := by
  refine Only.iff (N := [.pw, .fab, .ser, .sup]) ?_ h
  clear h
  unfold checkPass
  (try dsimp only)
  repeat' split
  all_goals simp [only_mk_pw_fab_ser_sup]

@[simp] theorem only_checkEnd (x0 x1) (M : List Part) (z : State) (h : [.pw, .fab, .ser, .frm, .sup] ⊆ M) : Only M z (checkEnd x0 x1) ↔ Only
    M z x1 := by
  refine Only.iff (N := [.pw, .fab, .ser, .frm, .sup]) ?_ h
  clear h
  unfold checkEnd
  (try dsimp only)
  repeat' split
  all_goals simp [only_mk_pw_fab_ser_frm_sup]

@[simp] theorem only_coreStop (x0) (M : List Part) (z : State) (h : [.pw, .fab, .orb, .pll, .acq, .ser, .frm] ⊆ M) : Only M z (coreStop x0) ↔
    Only M z x0 := by
  refine Only.iff (N := [.pw, .fab, .orb, .pll, .acq, .ser, .frm]) ?_ h
  clear h
  simp [coreStop, only_mk_pw_fab_orb_pll_acq_ser_frm]

@[simp] theorem only_phaseLock (x0) (M : List Part) (z : State) (h : [.orb, .pll] ⊆ M) : Only M z (phaseLock x0) ↔ Only M z x0 := by
  refine Only.iff (N := [.orb, .pll]) ?_ h
  clear h
  simp [phaseLock, only_mk_orb_pll]

@[simp] theorem only_holdTimeout (x0) (M : List Part) (z : State) (h : [.pw, .fab, .orb, .pll, .acq, .ser, .frm] ⊆ M) : Only M z (holdTimeout
    x0) ↔ Only M z x0 := by
  refine Only.iff (N := [.pw, .fab, .orb, .pll, .acq, .ser, .frm]) ?_ h
  clear h
  simp [holdTimeout, only_mk_pw_fab_orb_pll_acq_ser_frm]

@[simp] theorem only_powerCycle (x0 x1) (M : List Part) (z : State) (h : [.fab, .sup] ⊆ M) : Only M z (powerCycle x0 x1) ↔ Only M z x1 := by
  refine Only.iff (N := [.fab, .sup]) ?_ h
  clear h
  simp [powerCycle, only_mk_fab_sup]

@[simp] theorem only_declined (x0 x1) (M : List Part) (z : State) (h : [.fab, .sup] ⊆ M) : Only M z (declined x0 x1) ↔ Only M z x1 := by
  refine Only.iff (N := [.fab, .sup]) ?_ h
  clear h
  simp [declined, only_mk_fab_sup]

@[simp] theorem only_forceCmd (x0 x1) (M : List Part) (z : State) (h : [.fab, .sup] ⊆ M) : Only M z (forceCmd x0 x1) ↔ Only M z x1 := by
  refine Only.iff (N := [.fab, .sup]) ?_ h
  clear h
  unfold forceCmd
  (try dsimp only)
  repeat' split
  all_goals simp [only_mk_fab_sup]

@[simp] theorem only_pcycleEnd (x0 x1) (M : List Part) (z : State) (h : [.fab, .sup] ⊆ M) : Only M z (pcycleEnd x0 x1) ↔ Only M z x1 := by
  refine Only.iff (N := [.fab, .sup]) ?_ h
  clear h
  simp [pcycleEnd, only_mk_fab_sup]

@[simp] theorem only_repairTimeout (x0 x1) (M : List Part) (z : State) (h : [.fab, .sup] ⊆ M) : Only M z (repairTimeout x0 x1) ↔ Only M z x1 := by
  refine Only.iff (N := [.fab, .sup]) ?_ h
  clear h
  simp [repairTimeout, only_mk_fab_sup]

@[simp] theorem only_autoRepair (x0 x1) (M : List Part) (z : State) (h : [.fab, .sup] ⊆ M) : Only M z (autoRepair x0 x1) ↔ Only M z x1 := by
  refine Only.iff (N := [.fab, .sup]) ?_ h
  clear h
  simp [autoRepair, only_mk_fab_sup]

@[simp] theorem only_supReset (x0) (M : List Part) (z : State) (h : [.sup] ⊆ M) : Only M z (supReset x0) ↔ Only M z x0 := by
  refine Only.iff (N := [.sup]) ?_ h
  clear h
  simp [supReset, only_mk_sup]

@[simp] theorem only_scrubToken (x0) (M : List Part) (z : State) (h : [.sup] ⊆ M) : Only M z ((scrubToken x0).1) ↔ Only M z x0 := by
  refine Only.iff (N := [.sup]) ?_ h
  clear h
  unfold scrubToken
  (try dsimp only)
  repeat' split
  all_goals simp [only_mk_sup]

@[simp] theorem only_scrubPass (x0) (M : List Part) (z : State) (h : [.fab, .sup] ⊆ M) : Only M z (scrubPass x0) ↔ Only M z x0 := by
  refine Only.iff (N := [.fab, .sup]) ?_ h
  clear h
  simp [scrubPass, only_mk_fab_sup]

@[simp] theorem only_incrCommit (x0 x1 x2 x3) (M : List Part) (z : State) (h : [.fab, .tb] ⊆ M) : Only M z (incrCommit x0 x1 x2 x3) ↔ Only M
    z x3 := by
  refine Only.iff (N := [.fab, .tb]) ?_ h
  clear h
  simp [incrCommit, only_mk_fab_tb]

@[simp] theorem only_holdoverSet (x0 x1) (M : List Part) (z : State) (h : [.fab, .tb] ⊆ M) : Only M z (holdoverSet x0 x1) ↔ Only M z x1 := by
  refine Only.iff (N := [.fab, .tb]) ?_ h
  clear h
  unfold holdoverSet
  (try dsimp only)
  repeat' split
  all_goals simp [only_mk_fab_tb]

@[simp] theorem only_stepApply (x0 x1 x2) (M : List Part) (z : State) (h : [.tb] ⊆ M) : Only M z (stepApply x0 x1 x2) ↔ Only M z x2 := by
  refine Only.iff (N := [.tb]) ?_ h
  clear h
  unfold stepApply
  (try dsimp only)
  repeat' split
  all_goals simp [only_mk_tb]

@[simp] theorem only_gapSet (x0) (M : List Part) (z : State) (h : [.fab, .tb] ⊆ M) : Only M z (gapSet x0) ↔ Only M z x0 := by
  refine Only.iff (N := [.fab, .tb]) ?_ h
  clear h
  simp [gapSet, only_mk_fab_tb]

@[simp] theorem only_orbitCapture (x0 x1 x2 x3) (M : List Part) (z : State) (h : [.tb] ⊆ M) : Only M z (orbitCapture x0 x1 x2 x3) ↔ Only M z x3 := by
  refine Only.iff (N := [.tb]) ?_ h
  clear h
  simp [orbitCapture, only_mk_tb]

@[simp] theorem only_latchBases (x0) (M : List Part) (z : State) (h : [.tb] ⊆ M) : Only M z (latchBases x0) ↔ Only M z x0 := by
  refine Only.iff (N := [.tb]) ?_ h
  clear h
  simp [latchBases, only_mk_tb]

@[simp] theorem only_tsePush (x0 x1) (M : List Part) (z : State) (h : [.fab, .tb] ⊆ M) : Only M z (tsePush x0 x1) ↔ Only M z x1 := by
  refine Only.iff (N := [.fab, .tb]) ?_ h
  clear h
  simp [tsePush, only_mk_fab_tb]

@[simp] theorem only_tsePopHead (x0) (M : List Part) (z : State) (h : [.tb] ⊆ M) : Only M z (tsePopHead x0) ↔ Only M z x0 := by
  refine Only.iff (N := [.tb]) ?_ h
  clear h
  simp [tsePopHead, only_mk_tb]

@[simp] theorem only_ttAbort (x0 x1) (M : List Part) (z : State) (h : [.fab, .dlA, .dlB] ⊆ M) : Only M z (ttAbort x0 x1) ↔ Only M z x1 := by
  refine Only.iff (N := [.fab, .dlA, .dlB]) ?_ h
  clear h
  simp [ttAbort, only_mk_fab_dlA_dlB]

@[simp] theorem only_ttCapture (x0 x1) (M : List Part) (z : State) (h : [.dlA, .dlB] ⊆ M) : Only M z (ttCapture x0 x1) ↔ Only M z x1 := by
  refine Only.iff (N := [.dlA, .dlB]) ?_ h
  clear h
  simp [ttCapture, only_mk_dlA_dlB]

@[simp] theorem only_ttByte (x0 x1 x2 x3 x4) (M : List Part) (z : State) (h : [.fab, .dlA, .dlB] ⊆ M) : Only M z (ttByte x0 x1 x2 x3 x4) ↔ Only
    M z x4 := by
  refine Only.iff (N := [.fab, .dlA, .dlB]) ?_ h
  clear h
  simp [ttByte, only_mk_fab_dlA_dlB]

@[simp] theorem only_ttGap (x0 x1) (M : List Part) (z : State) (h : [.fab, .dlA, .dlB] ⊆ M) : Only M z (ttGap x0 x1) ↔ Only M z x1 := by
  refine Only.iff (N := [.fab, .dlA, .dlB]) ?_ h
  clear h
  simp [ttGap, only_mk_fab_dlA_dlB]

@[simp] theorem only_ttMessage (x0 x1) (M : List Part) (z : State) (h : [.fab, .dlA, .dlB, .tb] ⊆ M) : Only M z (ttMessage x0 x1) ↔ Only M z x1 := by
  refine Only.iff (N := [.fab, .dlA, .dlB, .tb]) ?_ h
  clear h
  simp [ttMessage, only_mk_fab_dlA_dlB_tb]

@[simp] theorem only_releaseHead (x0 x1) (M : List Part) (z : State) (h : [.ser] ⊆ M) : Only M z (releaseHead x0 x1) ↔ Only M z x1 := by
  refine Only.iff (N := [.ser]) ?_ h
  clear h
  simp [releaseHead, only_mk_ser]

@[simp] theorem only_removeHead (x0 x1) (M : List Part) (z : State) (h : [.fab, .ser, .frm] ⊆ M) : Only M z (removeHead x0 x1) ↔ Only M z x1 := by
  refine Only.iff (N := [.fab, .ser, .frm]) ?_ h
  clear h
  unfold removeHead
  (try dsimp only)
  repeat' split
  all_goals simp [only_mk_fab_ser_frm]

@[simp] theorem only_lateAct (x0 x1) (M : List Part) (z : State) (h : [.fab, .ser, .frm, .tb] ⊆ M) : Only M z (lateAct x0 x1) ↔ Only M z x1 := by
  refine Only.iff (N := [.fab, .ser, .frm, .tb]) ?_ h
  clear h
  simp [lateAct, only_mk_fab_ser_frm_tb]

@[simp] theorem only_launchRelease (x0 x1) (M : List Part) (z : State) (h : [.fab, .ser, .frm, .tb] ⊆ M) : Only M z (launchRelease x0 x1) ↔ Only
    M z x1 := by
  refine Only.iff (N := [.fab, .ser, .frm, .tb]) ?_ h
  clear h
  simp [launchRelease, only_mk_fab_ser_frm_tb]

@[simp] theorem only_launchLate (x0 x1) (M : List Part) (z : State) (h : [.fab, .ser, .frm, .tb] ⊆ M) : Only M z (launchLate x0 x1) ↔ Only M
    z x1 := by
  refine Only.iff (N := [.fab, .ser, .frm, .tb]) ?_ h
  clear h
  simp [launchLate, only_mk_fab_ser_frm_tb]

@[simp] theorem only_tbReset (x0) (M : List Part) (z : State) (h : [.tb] ⊆ M) : Only M z (tbReset x0) ↔ Only M z x0 := by
  refine Only.iff (N := [.tb]) ?_ h
  clear h
  simp [tbReset, only_mk_tb]

@[simp] theorem only_fuseLoad (x0) (M : List Part) (z : State) (h : [.fab, .cal] ⊆ M) : Only M z (fuseLoad x0) ↔ Only M z x0 := by
  refine Only.iff (N := [.fab, .cal]) ?_ h
  clear h
  simp [fuseLoad, only_mk_fab_cal]

@[simp] theorem only_userLoad (x0 x1) (M : List Part) (z : State) (h : [.slow, .cal] ⊆ M) : Only M z (userLoad x0 x1) ↔ Only M z x1 := by
  refine Only.iff (N := [.slow, .cal]) ?_ h
  clear h
  unfold userLoad
  (try dsimp only)
  repeat' split
  all_goals simp [only_mk_slow_cal]

@[simp] theorem only_stageLoaded (x0) (M : List Part) (z : State) (h : [.pw] ⊆ M) : Only M z (stageLoaded x0) ↔ Only M z x0 := by
  refine Only.iff (N := [.pw]) ?_ h
  clear h
  intro p hp
  cases p <;> first | rfl | exact absurd (by decide) hp

@[simp] theorem only_stageLoaded_stageTo (x0 x1) (M : List Part) (z : State) (h : [.pw] ⊆ M) : Only M z (stageLoaded.stageTo x0 x1) ↔ Only M
    z x1 := by
  refine Only.iff (N := [.pw]) ?_ h
  clear h
  simp [stageLoaded.stageTo, only_mk_pw]

@[simp] theorem only_loadStores (x0 x1) (M : List Part) (z : State) (h : [.pw, .fab, .slow, .cal] ⊆ M) : Only M z (loadStores x0 x1) ↔ Only M
    z x1 := by
  refine Only.iff (N := [.pw, .fab, .slow, .cal]) ?_ h
  clear h
  simp [loadStores, only_mk_pw_fab_slow_cal]

@[simp] theorem only_csWrite (x0 x1 x2 x3) (M : List Part) (z : State) (h : [.fab, .cal] ⊆ M) : Only M z (csWrite x0 x1 x2 x3) ↔ Only M z x3 := by
  refine Only.iff (N := [.fab, .cal]) ?_ h
  clear h
  simp [csWrite, only_mk_fab_cal]

@[simp] theorem only_saveStart (x0) (M : List Part) (z : State) (h : [.slow, .cal] ⊆ M) : Only M z (saveStart x0) ↔ Only M z x0 := by
  refine Only.iff (N := [.slow, .cal]) ?_ h
  clear h
  simp [saveStart, only_mk_slow_cal]

@[simp] theorem only_saveStop (x0) (M : List Part) (z : State) (h : [.pw, .fab, .slow, .cal] ⊆ M) : Only M z (saveStop x0) ↔ Only M z x0 := by
  refine Only.iff (N := [.pw, .fab, .slow, .cal]) ?_ h
  clear h
  unfold saveStop
  (try dsimp only)
  repeat' split
  all_goals simp [only_mk_pw_fab_slow_cal]

@[simp] theorem only_setFlash (x0 x1) (M : List Part) (z : State) (h : [.slow] ⊆ M) : Only M z (setFlash x0 x1) ↔ Only M z x1 := by
  refine Only.iff (N := [.slow]) ?_ h
  clear h
  simp [setFlash, only_mk_slow]

@[simp] theorem only_saveEnd (x0 x1) (M : List Part) (z : State) (h : [.pw, .fab, .slow, .cal] ⊆ M) : Only M z (saveEnd x0 x1) ↔ Only M z x1 := by
  refine Only.iff (N := [.pw, .fab, .slow, .cal]) ?_ h
  clear h
  unfold saveEnd
  (try dsimp only)
  repeat' split
  all_goals simp [only_mk_pw_fab_slow_cal]

@[simp] theorem only_csCommand (x0 x1) (M : List Part) (z : State) (h : [.fab, .slow, .cal] ⊆ M) : Only M z (csCommand x0 x1) ↔ Only M z x1 := by
  refine Only.iff (N := [.fab, .slow, .cal]) ?_ h
  clear h
  simp [csCommand, only_mk_fab_slow_cal]

@[simp] theorem only_loadTrims (x0) (M : List Part) (z : State) (h : [.chan] ⊆ M) : Only M z (loadTrims x0) ↔ Only M z x0 := by
  refine Only.iff (N := [.chan]) ?_ h
  clear h
  simp [loadTrims, only_mk_chan]

@[simp] theorem only_applyEffect (x0) (M : List Part) (z : State) (h : [.fab, .orb, .pll, .chan, .cal] ⊆ M) : Only M z (applyEffect x0) ↔ Only
    M z x0 := by
  refine Only.iff (N := [.fab, .orb, .pll, .chan, .cal]) ?_ h
  clear h
  unfold applyEffect
  (try dsimp only)
  repeat' split
  all_goals simp [only_mk_fab_orb_pll_chan_cal]

@[simp] theorem only_monBegin (x0) (M : List Part) (z : State) (h : [.mon] ⊆ M) : Only M z (monBegin x0) ↔ Only M z x0 := by
  refine Only.iff (N := [.mon]) ?_ h
  clear h
  simp [monBegin, only_mk_mon]

@[simp] theorem only_monHalt (x0) (M : List Part) (z : State) (h : [.mon] ⊆ M) : Only M z (monHalt x0) ↔ Only M z x0 := by
  refine Only.iff (N := [.mon]) ?_ h
  clear h
  simp [monHalt, only_mk_mon]

@[simp] theorem only_monCommand (x0 x1 x2) (M : List Part) (z : State) (h : [.fab, .mon] ⊆ M) : Only M z (monCommand x0 x1 x2) ↔ Only M z x2 := by
  refine Only.iff (N := [.fab, .mon]) ?_ h
  clear h
  simp [monCommand, only_mk_fab_mon]

@[simp] theorem only_monConfig (x0 x1) (M : List Part) (z : State) (h : [.fab, .mon] ⊆ M) : Only M z (monConfig x0 x1) ↔ Only M z x1 := by
  refine Only.iff (N := [.fab, .mon]) ?_ h
  clear h
  simp [monConfig, only_mk_fab_mon]

@[simp] theorem only_monShip (x0 x1 x2 x3 x4 x5) (M : List Part) (z : State) (h : [.fab, .acq, .ser, .frm] ⊆ M) : Only M z (monShip x0 x1 x2
    x3 x4 x5) ↔ Only M z x5 := by
  refine Only.iff (N := [.fab, .acq, .ser, .frm]) ?_ h
  clear h
  simp [monShip, only_mk_fab_acq_ser_frm]

@[simp] theorem only_monReport (x0 x1 x2 x3) (M : List Part) (z : State) (h : [.pw, .fab, .acq, .ser, .frm, .mon] ⊆ M) : Only M z (monReport
    x0 x1 x2 x3) ↔ Only M z x3 := by
  refine Only.iff (N := [.pw, .fab, .acq, .ser, .frm, .mon]) ?_ h
  clear h
  simp [monReport, only_mk_pw_fab_acq_ser_frm_mon]

@[simp] theorem only_monRun (x0 x1) (M : List Part) (z : State) (h : [.pw, .fab, .acq, .ser, .frm, .mon] ⊆ M) : Only M z (monRun x0 x1) ↔ Only
    M z x1 := by
  refine Only.iff (N := [.pw, .fab, .acq, .ser, .frm, .mon]) ?_ h
  clear h
  simp [monRun, only_mk_pw_fab_acq_ser_frm_mon]

@[simp] theorem only_monResult (x0 x1) (M : List Part) (z : State) (h : [.pw, .fab, .acq, .ser, .frm, .mon] ⊆ M) : Only M z (monResult x0 x1)
    ↔ Only M z x1 := by
  refine Only.iff (N := [.pw, .fab, .acq, .ser, .frm, .mon]) ?_ h
  clear h
  unfold monResult
  (try dsimp only)
  repeat' split
  all_goals simp [only_mk_pw_fab_acq_ser_frm_mon]

@[simp] theorem only_monReset (x0) (M : List Part) (z : State) (h : [.mon] ⊆ M) : Only M z (monReset x0) ↔ Only M z x0 := by
  refine Only.iff (N := [.mon]) ?_ h
  clear h
  simp [monReset, only_mk_mon]

@[simp] theorem only_setSite (x0 x1 x2) (M : List Part) (z : State) (h : [.fab, .pls] ⊆ M) : Only M z (setSite x0 x1 x2) ↔ Only M z x2 := by
  refine Only.iff (N := [.fab, .pls]) ?_ h
  clear h
  simp [setSite, only_mk_fab_pls]

@[simp] theorem only_fireRow (x0 x1 x2 x3 x4) (M : List Part) (z : State) (h : [.fab, .pls] ⊆ M) : Only M z (fireRow x0 x1 x2 x3 x4) ↔ Only M
    z x4 := by
  refine Only.iff (N := [.fab, .pls]) ?_ h
  clear h
  simp [fireRow, only_mk_fab_pls]

@[simp] theorem only_countSkip (x0 x1) (M : List Part) (z : State) (h : [.fab, .pls] ⊆ M) : Only M z (countSkip x0 x1) ↔ Only M z x1 := by
  refine Only.iff (N := [.fab, .pls]) ?_ h
  clear h
  simp [countSkip, only_mk_fab_pls]

@[simp] theorem only_slotFiring (x0) (M : List Part) (z : State) (h : [.fab, .pls] ⊆ M) : Only M z (slotFiring x0) ↔ Only M z x0 := by
  refine Only.iff (N := [.fab, .pls]) ?_ h
  clear h
  simp [slotFiring, only_mk_fab_pls]

@[simp] theorem only_testFiring (x0) (M : List Part) (z : State) (h : [.fab, .pls] ⊆ M) : Only M z (testFiring x0) ↔ Only M z x0 := by
  refine Only.iff (N := [.fab, .pls]) ?_ h
  clear h
  simp [testFiring, only_mk_fab_pls]

@[simp] theorem only_rowOpen (x0) (M : List Part) (z : State) (h : [.pls] ⊆ M) : Only M z (rowOpen x0) ↔ Only M z x0 := by
  refine Only.iff (N := [.pls]) ?_ h
  clear h
  simp [rowOpen, only_mk_pls]

@[simp] theorem only_blankEnd (x0) (M : List Part) (z : State) (h : [.pls] ⊆ M) : Only M z (blankEnd x0) ↔ Only M z x0 := by
  refine Only.iff (N := [.pls]) ?_ h
  clear h
  simp [blankEnd, only_mk_pls]

@[simp] theorem only_verdict (x0 x1 x2) (M : List Part) (z : State) (h : [.fab, .pls] ⊆ M) : Only M z (verdict x0 x1 x2) ↔ Only M z x2 := by
  refine Only.iff (N := [.fab, .pls]) ?_ h
  clear h
  unfold verdict
  (try dsimp only)
  repeat' split
  all_goals simp [only_mk_fab_pls]

@[simp] theorem only_diagPulse (x0) (M : List Part) (z : State) (h : [.fab, .pls] ⊆ M) : Only M z (diagPulse x0) ↔ Only M z x0 := by
  refine Only.iff (N := [.fab, .pls]) ?_ h
  clear h
  unfold diagPulse
  (try dsimp only)
  repeat' split
  all_goals simp [only_mk_fab_pls]

@[simp] theorem only_diagDue (x0) (M : List Part) (z : State) (h : [.fab, .pls] ⊆ M) : Only M z (diagDue x0) ↔ Only M z x0 := by
  refine Only.iff (N := [.fab, .pls]) ?_ h
  clear h
  simp [diagDue, only_mk_fab_pls]

@[simp] theorem only_diagSlot (x0) (M : List Part) (z : State) (h : [.fab, .pls] ⊆ M) : Only M z (diagSlot x0) ↔ Only M z x0 := by
  refine Only.iff (N := [.fab, .pls]) ?_ h
  clear h
  simp [diagSlot, only_mk_fab_pls]

@[simp] theorem only_diagStart (x0 x1 x2) (M : List Part) (z : State) (h : [.fab, .pls] ⊆ M) : Only M z (diagStart x0 x1 x2) ↔ Only M z x2 := by
  refine Only.iff (N := [.fab, .pls]) ?_ h
  clear h
  simp [diagStart, only_mk_fab_pls]

@[simp] theorem only_countBars (x0 x1 x2 x3) (M : List Part) (z : State) (h : [.fab] ⊆ M) : Only M z (countBars x0 x1 x2 x3) ↔ Only M z x3 := by
  refine Only.iff (N := [.fab]) ?_ h
  clear h
  simp [countBars, only_mk_fab]

@[simp] theorem only_plsShip (x0) (M : List Part) (z : State) (h : [.fab, .acq, .ser, .frm, .pls] ⊆ M) : Only M z (plsShip x0) ↔ Only M z x0 := by
  refine Only.iff (N := [.fab, .acq, .ser, .frm, .pls]) ?_ h
  clear h
  simp [plsShip, only_mk_fab_acq_ser_frm_pls]

@[simp] theorem only_diagRecord (x0) (M : List Part) (z : State) (h : [.fab, .acq, .ser, .frm, .pls] ⊆ M) : Only M z (diagRecord x0) ↔ Only M
    z x0 := by
  refine Only.iff (N := [.fab, .acq, .ser, .frm, .pls]) ?_ h
  clear h
  simp [diagRecord, only_mk_fab_acq_ser_frm_pls]

@[simp] theorem only_diagClear (x0 x1) (M : List Part) (z : State) (h : [.pls] ⊆ M) : Only M z (diagClear x0 x1) ↔ Only M z x1 := by
  refine Only.iff (N := [.pls]) ?_ h
  clear h
  simp [diagClear, only_mk_pls]

@[simp] theorem only_plsReset (x0) (M : List Part) (z : State) (h : [.acq, .ser, .pls] ⊆ M) : Only M z (plsReset x0) ↔ Only M z x0 := by
  refine Only.iff (N := [.acq, .ser, .pls]) ?_ h
  clear h
  simp [plsReset, only_mk_acq_ser_pls]

@[simp] theorem only_outFall (x0 x1 x2) (M : List Part) (z : State) (h : [.fout] ⊆ M) : Only M z (outFall x0 x1 x2) ↔ Only M z x2 := by
  refine Only.iff (N := [.fout]) ?_ h
  clear h
  simp [outFall, only_mk_fout]

@[simp] theorem only_outRise (x0 x1 x2) (M : List Part) (z : State) (h : [.fout] ⊆ M) : Only M z (outRise x0 x1 x2) ↔ Only M z x2 := by
  refine Only.iff (N := [.fout]) ?_ h
  clear h
  simp [outRise, only_mk_fout]

@[simp] theorem only_bothRise (x0 x1 x2) (M : List Part) (z : State) (h : [.fout] ⊆ M) : Only M z (bothRise x0 x1 x2) ↔ Only M z x2 := by
  refine Only.iff (N := [.fout]) ?_ h
  clear h
  simp [bothRise, only_mk_fout]

@[simp] theorem only_edgeEvent (x0 x1 x2) (M : List Part) (z : State) (h : [.orb, .flint, .fout] ⊆ M) : Only M z (edgeEvent x0 x1 x2) ↔ Only
    M z x2 := by
  refine Only.iff (N := [.orb, .flint, .fout]) ?_ h
  clear h
  simp [edgeEvent, only_mk_orb_flint_fout]

@[simp] theorem only_judgeChan (x0 x1 x2) (M : List Part) (z : State) (h : [.orb, .flint, .fout] ⊆ M) : Only M z (judgeChan x0 x1 x2) ↔ Only
    M z x2 := by
  refine Only.iff (N := [.orb, .flint, .fout]) ?_ h
  clear h
  simp [judgeChan, only_mk_orb_flint_fout]

@[simp] theorem only_leadingEdge (x0 x1 x2 x3) (M : List Part) (z : State) (h : [.orb, .flint, .fout] ⊆ M) : Only M z (leadingEdge x0 x1 x2 x3)
    ↔ Only M z x3 := by
  refine Only.iff (N := [.orb, .flint, .fout]) ?_ h
  clear h
  simp [leadingEdge, only_mk_orb_flint_fout]

@[simp] theorem only_inputPulse (x0 x1 x2 x3 x4 x5) (M : List Part) (z : State) (h : [.orb, .flint, .fout] ⊆ M) : Only M z (inputPulse x0 x1
    x2 x3 x4 x5) ↔ Only M z x5 := by
  refine Only.iff (N := [.orb, .flint, .fout]) ?_ h
  clear h
  simp [inputPulse, only_mk_orb_flint_fout]

@[simp] theorem only_outputFall (x0 x1 x2) (M : List Part) (z : State) (h : [.fout] ⊆ M) : Only M z (outputFall x0 x1 x2) ↔ Only M z x2 := by
  refine Only.iff (N := [.fout]) ?_ h
  clear h
  simp [outputFall, only_mk_fout]

@[simp] theorem only_flintJudge (x0) (M : List Part) (z : State) (h : [.orb, .flint, .fout] ⊆ M) : Only M z (flintJudge x0) ↔ Only M z x0 := by
  refine Only.iff (N := [.orb, .flint, .fout]) ?_ h
  clear h
  simp [flintJudge, only_mk_orb_flint_fout]

@[simp] theorem only_markStuck (x0) (M : List Part) (z : State) (h : [.orb] ⊆ M) : Only M z (markStuck x0) ↔ Only M z x0 := by
  refine Only.iff (N := [.orb]) ?_ h
  clear h
  simp [markStuck, only_mk_orb]

@[simp] theorem only_flintSample (x0) (M : List Part) (z : State) (h : [.orb, .flint, .fout] ⊆ M) : Only M z (flintSample x0) ↔ Only M z x0 := by
  refine Only.iff (N := [.orb, .flint, .fout]) ?_ h
  clear h
  simp [flintSample, only_mk_orb_flint_fout]

@[simp] theorem only_stuckSet (x0 x1) (M : List Part) (z : State) (h : [.fab, .orb, .flint] ⊆ M) : Only M z (stuckSet x0 x1) ↔ Only M z x1 := by
  refine Only.iff (N := [.fab, .orb, .flint]) ?_ h
  clear h
  simp [stuckSet, only_mk_fab_orb_flint]

@[simp] theorem only_stuckClear (x0 x1) (M : List Part) (z : State) (h : [.orb, .flint, .fout] ⊆ M) : Only M z (stuckClear x0 x1) ↔ Only M z x1 := by
  refine Only.iff (N := [.orb, .flint, .fout]) ?_ h
  clear h
  simp [stuckClear, only_mk_orb_flint_fout]

@[simp] theorem only_latchClear (x0 x1) (M : List Part) (z : State) (h : [.fout] ⊆ M) : Only M z (latchClear x0 x1) ↔ Only M z x1 := by
  refine Only.iff (N := [.fout]) ?_ h
  clear h
  simp [latchClear, only_mk_fout]

@[simp] theorem only_flintResume (x0) (M : List Part) (z : State) (h : [.flint, .fout] ⊆ M) : Only M z (flintResume x0) ↔ Only M z x0 := by
  refine Only.iff (N := [.flint, .fout]) ?_ h
  clear h
  simp [flintResume, only_mk_flint_fout]

@[simp] theorem only_outsLow (x0) (M : List Part) (z : State) (h : [.fout] ⊆ M) : Only M z (outsLow x0) ↔ Only M z x0 := by
  refine Only.iff (N := [.fout]) ?_ h
  clear h
  simp [outsLow, only_mk_fout]

@[simp] theorem only_restart (x0 x1) (M : List Part) (z : State) (h : [.fab, .conv, .chan, .seams, .pls, .her] ⊆ M) : Only M z (restart x0 x1)
    ↔ Only M z x1 := by
  refine Only.iff (N := [.fab, .conv, .chan, .seams, .pls, .her]) ?_ h
  clear h
  simp [restart, only_mk_fab_conv_chan_seams_pls_her]

@[simp] theorem only_haltBlock (x0 x1) (M : List Part) (z : State) (h : [.mon, .her] ⊆ M) : Only M z (haltBlock x0 x1) ↔ Only M z x1 := by
  refine Only.iff (N := [.mon, .her]) ?_ h
  clear h
  simp [haltBlock, only_mk_mon_her]

@[simp] theorem only_enApplied (x0 x1) (M : List Part) (z : State) (h : [.fab, .conv, .chan, .seams, .mon, .pls, .her] ⊆ M) : Only M z (enApplied
    x0 x1) ↔ Only M z x1 := by
  refine Only.iff (N := [.fab, .conv, .chan, .seams, .mon, .pls, .her]) ?_ h
  clear h
  simp [enApplied, only_mk_fab_conv_chan_seams_mon_pls_her]

@[simp] theorem only_restartDeferred (x0) (M : List Part) (z : State) (h : [.fab, .conv, .chan, .seams, .ser, .pls, .her] ⊆ M) : Only M z (restartDeferred
    x0) ↔ Only M z x0 := by
  refine Only.iff (N := [.fab, .conv, .chan, .seams, .ser, .pls, .her]) ?_ h
  clear h
  simp [restartDeferred, only_mk_fab_conv_chan_seams_ser_pls_her]

@[simp] theorem only_swapQuarter (x0 x1) (M : List Part) (z : State) (h : [.orb] ⊆ M) : Only M z (swapQuarter x0 x1) ↔ Only M z x1 := by
  refine Only.iff (N := [.orb]) ?_ h
  clear h
  simp [swapQuarter, only_mk_orb]

@[simp] theorem only_pedLoad (x0 x1 x2) (M : List Part) (z : State) (h : [.chan] ⊆ M) : Only M z (pedLoad x0 x1 x2) ↔ Only M z x2 := by
  refine Only.iff (N := [.chan]) ?_ h
  clear h
  simp [pedLoad, only_mk_chan]

@[simp] theorem only_convApplied (x0 x1 x2) (M : List Part) (z : State) (h : [.conv] ⊆ M) : Only M z (convApplied x0 x1 x2) ↔ Only M z x2 := by
  refine Only.iff (N := [.conv]) ?_ h
  clear h
  simp [convApplied, only_mk_conv]

@[simp] theorem only_trackZero (x0) (M : List Part) (z : State) (h : [.fab, .chan] ⊆ M) : Only M z (trackZero x0) ↔ Only M z x0 := by
  refine Only.iff (N := [.fab, .chan]) ?_ h
  clear h
  simp [trackZero, only_mk_fab_chan]

@[simp] theorem only_gridMoved (x0 x1) (M : List Part) (z : State) (h : [.orb, .pll, .frm] ⊆ M) : Only M z (gridMoved x0 x1) ↔ Only M z x1 := by
  refine Only.iff (N := [.orb, .pll, .frm]) ?_ h
  clear h
  simp [gridMoved, only_mk_orb_pll_frm]

@[simp] theorem only_laneApplied (x0 x1) (M : List Part) (z : State) (h : [.lnA, .lnB] ⊆ M) : Only M z (laneApplied x0 x1) ↔ Only M z x1 := by
  refine Only.iff (N := [.lnA, .lnB]) ?_ h
  clear h
  simp [laneApplied, only_mk_lnA_lnB]

@[simp] theorem only_pageApplied (x0 x1 x2 x3) (M : List Part) (z : State) (h : [.fab, .orb, .pll, .conv, .chan, .seams, .ser, .frm, .lnA, .lnB,
    .sup, .tb, .slow, .cal, .mon, .pls, .her] ⊆ M) : Only M z (pageApplied x0 x1 x2 x3) ↔ Only M z x3 := by
  refine Only.iff (N := [.fab, .orb, .pll, .conv, .chan, .seams, .ser, .frm, .lnA, .lnB, .sup, .tb, .slow, .cal, .mon, .pls, .her]) ?_ h
  clear h
  simp [pageApplied, only_mk_but_pending_pw_jtag_ring_ringErr_feat_featErr_flint_fout_flintOn_acq_dlA_dlB_mg]

@[simp] theorem only_pageDone (x0 x1) (M : List Part) (z : State) (h : [.fab] ⊆ M) : Only M z (pageDone x0 x1) ↔ Only M z x1 := by
  refine Only.iff (N := [.fab]) ?_ h
  clear h
  simp [pageDone, only_mk_fab]

@[simp] theorem only_dropApplied (x0 x1) (M : List Part) (z : State) (h : [.fab] ⊆ M) : Only M z (dropApplied x0 x1) ↔ Only M z x1 := by
  refine Only.iff (N := [.fab]) ?_ h
  clear h
  simp [dropApplied, only_mk_fab]

@[simp] theorem only_flintApplied (x0 x1) (M : List Part) (z : State) (h : [.flintOn] ⊆ M) : Only M z (flintApplied x0 x1) ↔ Only M z x1 := by
  refine Only.iff (N := [.flintOn]) ?_ h
  clear h
  simp [flintApplied, only_mk_flintOn]

@[simp] theorem only_applyPages (x0 x1) (M : List Part) (z : State) (h : [.fab, .orb, .pll, .conv, .chan, .seams, .ser, .frm, .lnA, .lnB, .sup,
    .tb, .slow, .cal, .mon, .pls, .her] ⊆ M) : Only M z (applyPages x0 x1) ↔ Only M z x1 := by
  refine Only.iff (N := [.fab, .orb, .pll, .conv, .chan, .seams, .ser, .frm, .lnA, .lnB, .sup, .tb, .slow, .cal, .mon, .pls, .her]) ?_ h
  clear h
  simp [applyPages, only_mk_but_pending_pw_jtag_ring_ringErr_feat_featErr_flint_fout_flintOn_acq_dlA_dlB_mg]

@[simp] theorem only_refuseGroup (x0 x1 x2) (M : List Part) (z : State) (h : [.fab] ⊆ M) : Only M z (refuseGroup x0 x1 x2) ↔ Only M z x2 := by
  refine Only.iff (N := [.fab]) ?_ h
  clear h
  simp [refuseGroup, only_mk_fab]

@[simp] theorem only_applyGroup (x0 x1 x2) (M : List Part) (z : State) (h : [.fab, .orb, .pll, .conv, .chan, .flintOn, .seams, .ser, .frm, .lnA,
    .lnB, .sup, .tb, .slow, .cal, .mon, .pls, .her] ⊆ M) : Only M z (applyGroup x0 x1 x2) ↔ Only M z x1 := by
  refine Only.iff (N := [.fab, .orb, .pll, .conv, .chan, .flintOn, .seams, .ser, .frm, .lnA, .lnB, .sup, .tb, .slow, .cal, .mon, .pls, .her]) ?_ h
  clear h
  simp [applyGroup, only_mk_but_pending_pw_jtag_ring_ringErr_feat_featErr_flint_fout_acq_dlA_dlB_mg]

@[simp] theorem only_chanReset (x0 x1) (M : List Part) (z : State) (h : [.fab, .chan] ⊆ M) : Only M z (chanReset x0 x1) ↔ Only M z x1 := by
  refine Only.iff (N := [.fab, .chan]) ?_ h
  clear h
  simp [chanReset, only_mk_fab_chan]

@[simp] theorem only_dlReset (x0 x1) (M : List Part) (z : State) (h : [.dlA, .dlB] ⊆ M) : Only M z (dlReset x0 x1) ↔ Only M z x1 := by
  refine Only.iff (N := [.dlA, .dlB]) ?_ h
  clear h
  simp [dlReset, only_mk_dlA_dlB]

@[simp] theorem only_noticeReset (x0) (M : List Part) (z : State) (h : [.fab] ⊆ M) : Only M z (noticeReset x0) ↔ Only M z x0 := by
  refine Only.iff (N := [.fab]) ?_ h
  clear h
  simp [noticeReset, only_mk_fab]

@[simp] theorem only_bootReset (x0) (M : List Part) (z : State) (h : [.slow] ⊆ M) : Only M z (bootReset x0) ↔ Only M z x0 := by
  refine Only.iff (N := [.slow]) ?_ h
  clear h
  simp [bootReset, only_mk_slow]

@[simp] theorem only_blockReset (x0 x1) (M : List Part) (z : State) (h : [.fab, .conv, .chan, .seams, .acq, .ser, .frm, .lnA, .lnB, .dlA, .dlB,
    .sup, .tb, .slow, .mon, .pls, .her] ⊆ M) : Only M z (blockReset x0 x1) ↔ Only M z x1 := by
  refine Only.iff (N := [.fab, .conv, .chan, .seams, .acq, .ser, .frm, .lnA, .lnB, .dlA, .dlB, .sup, .tb, .slow, .mon, .pls, .her]) ?_ h
  clear h
  simp [blockReset, only_mk_but_pending_pw_jtag_orb_pll_ring_ringErr_feat_featErr_flint_fout_flintOn_mg_cal]

@[simp] theorem only_resetNow (x0 x1) (M : List Part) (z : State) (h : [.fab, .conv, .chan, .seams, .acq, .ser, .frm, .lnA, .lnB, .dlA, .dlB,
    .sup, .tb, .slow, .mon, .pls, .her] ⊆ M) : Only M z (resetNow x0 x1) ↔ Only M z x1 := by
  refine Only.iff (N := [.fab, .conv, .chan, .seams, .acq, .ser, .frm, .lnA, .lnB, .dlA, .dlB, .sup, .tb, .slow, .mon, .pls, .her]) ?_ h
  clear h
  simp [resetNow, only_mk_but_pending_pw_jtag_orb_pll_ring_ringErr_feat_featErr_flint_fout_flintOn_mg_cal]

@[simp] theorem only_softReset (x0 x1) (M : List Part) (z : State) (h : [.fab, .conv, .chan, .seams, .acq, .ser, .frm, .lnA, .lnB, .dlA, .dlB,
    .sup, .tb, .slow, .mon, .pls, .her] ⊆ M) : Only M z (softReset x0 x1) ↔ Only M z x1 := by
  refine Only.iff (N := [.fab, .conv, .chan, .seams, .acq, .ser, .frm, .lnA, .lnB, .dlA, .dlB, .sup, .tb, .slow, .mon, .pls, .her]) ?_ h
  clear h
  simp [softReset, only_mk_but_pending_pw_jtag_orb_pll_ring_ringErr_feat_featErr_flint_fout_flintOn_mg_cal]

@[simp] theorem only_afterApply (x0 x1 x2) (M : List Part) (z : State) (h : [.fab, .orb, .flint, .fout, .acq, .ser, .frm] ⊆ M) : Only M z (afterApply
    x0 x1 x2) ↔ Only M z x2 := by
  refine Only.iff (N := [.fab, .orb, .flint, .fout, .acq, .ser, .frm]) ?_ h
  clear h
  simp [afterApply, only_mk_fab_orb_flint_fout_acq_ser_frm]

@[simp] theorem only_applyGroups (x0 x1) (M : List Part) (z : State) (h : [.fab, .orb, .pll, .conv, .chan, .flint, .fout, .flintOn, .seams, .acq,
    .ser, .frm, .lnA, .lnB, .dlA, .dlB, .sup, .tb, .slow, .cal, .mon, .pls, .her] ⊆ M) : Only M z (applyGroups x0 x1) ↔ Only M z x1 := by
  refine Only.iff (N := [.fab, .orb, .pll, .conv, .chan, .flint, .fout, .flintOn, .seams, .acq, .ser, .frm, .lnA, .lnB, .dlA, .dlB, .sup, .tb, .slow, .cal, .mon, .pls, .her]) ?_ h
  clear h
  unfold applyGroups
  (try dsimp only)
  repeat' split
  all_goals simp [only_mk_but_pending_pw_jtag_ring_ringErr_feat_featErr_mg]

@[simp] theorem only_drainEnd (x0 x1) (M : List Part) (z : State) (h : [.fab, .conv, .chan, .seams, .pls, .her] ⊆ M) : Only M z (drainEnd x0
    x1) ↔ Only M z x1 := by
  refine Only.iff (N := [.fab, .conv, .chan, .seams, .pls, .her]) ?_ h
  clear h
  simp [drainEnd, only_mk_fab_conv_chan_seams_pls_her]

@[simp] theorem only_withNow (f : State → State) (s) (M : List Part) (z : State) (hf : ∀ v, Only M v (f v)) (h : [.fab, .orb] ⊆ M) :
    Only M z (withNow f s) ↔ Only M z s := by
  have k : Only M s (withNow f s) := by
    intro p hp
    have h1 : p ≠ .fab := fun e => hp (h (by simp [e]))
    have h2 : p ≠ .orb := fun e => hp (h (by simp [e]))
    have := hf { s with fab := { s.fab with frozen := none, frozenPg := [], late := [] }, orb := { s.orb with lateMap := [] } } p hp
    cases p <;> first | exact this | exact absurd rfl h1 | exact absurd rfl h2
  exact Only.iff k (List.Subset.refl _)

@[simp] theorem only_applyPage (x0 x1) (M : List Part) (z : State) (h : [.fab, .orb, .pll, .conv, .chan, .seams, .ser, .frm, .lnA, .lnB, .sup,
    .tb, .slow, .cal, .mon, .pls, .her] ⊆ M) : Only M z (applyPage x0 x1) ↔ Only M z x1 := by
  refine Only.iff (N := [.fab, .orb, .pll, .conv, .chan, .seams, .ser, .frm, .lnA, .lnB, .sup, .tb, .slow, .cal, .mon, .pls, .her]) ?_ h
  clear h
  unfold applyPage
  (try dsimp only)
  repeat' split
  all_goals simp [only_mk_but_pending_pw_jtag_ring_ringErr_feat_featErr_flint_fout_flintOn_acq_dlA_dlB_mg]

@[simp] theorem only_applyWord (x0 x1 x2) (M : List Part) (z : State) (h : [.fab, .orb, .pll, .conv, .chan, .seams, .ser, .frm, .lnA, .lnB, .sup,
    .tb, .slow, .cal, .mon, .pls, .her] ⊆ M) : Only M z (applyWord x0 x1 x2) ↔ Only M z x2 := by
  refine Only.iff (N := [.fab, .orb, .pll, .conv, .chan, .seams, .ser, .frm, .lnA, .lnB, .sup, .tb, .slow, .cal, .mon, .pls, .her]) ?_ h
  clear h
  simp [applyWord, only_mk_but_pending_pw_jtag_ring_ringErr_feat_featErr_flint_fout_flintOn_acq_dlA_dlB_mg]

@[simp] theorem only_applyNow (x0 x1 x2) (M : List Part) (z : State) (h : [.fab, .orb, .pll, .conv, .chan, .seams, .ser, .frm, .lnA, .lnB, .sup,
    .tb, .slow, .cal, .mon, .pls, .her] ⊆ M) : Only M z (applyNow x0 x1 x2) ↔ Only M z x2 := by
  refine Only.iff (N := [.fab, .orb, .pll, .conv, .chan, .seams, .ser, .frm, .lnA, .lnB, .sup, .tb, .slow, .cal, .mon, .pls, .her]) ?_ h
  clear h
  unfold applyNow
  (try dsimp only)
  repeat' split
  all_goals simp [only_mk_but_pending_pw_jtag_ring_ringErr_feat_featErr_flint_fout_flintOn_acq_dlA_dlB_mg]

@[simp] theorem only_retag (x0) (M : List Part) (z : State) (h : [.orb] ⊆ M) : Only M z (retag x0) ↔ Only M z x0 := by
  refine Only.iff (N := [.orb]) ?_ h
  clear h
  simp [retag, only_mk_orb]

@[simp] theorem only_pushTag (x0 x1) (M : List Part) (z : State) (h : [.orb] ⊆ M) : Only M z (pushTag x0 x1) ↔ Only M z x1 := by
  refine Only.iff (N := [.orb]) ?_ h
  clear h
  simp [pushTag, only_mk_orb]

@[simp] theorem only_ctlGap (x0 x1) (M : List Part) (z : State) (h : [.fab, .dlA, .dlB] ⊆ M) : Only M z (ctlGap x0 x1) ↔ Only M z x1 := by
  refine Only.iff (N := [.fab, .dlA, .dlB]) ?_ h
  clear h
  simp [ctlGap, only_mk_fab_dlA_dlB]

@[simp] theorem only_openSlot (x0) (M : List Part) (z : State) (h : [.fab, .orb, .flint, .fout, .ser, .frm, .lnA, .lnB, .dlA, .dlB, .tb, .pls]
    ⊆ M) : Only M z (openSlot x0) ↔ Only M z x0 := by
  refine Only.iff (N := [.fab, .orb, .flint, .fout, .ser, .frm, .lnA, .lnB, .dlA, .dlB, .tb, .pls]) ?_ h
  clear h
  simp [openSlot, only_mk_but_pending_pw_jtag_pll_conv_chan_ring_ringErr_feat_featErr_flintOn_seams_acq_sup_mg_slow_cal_mon_her]

@[simp] theorem only_passSlot (x0 x1) (M : List Part) (z : State) (h : [.pw, .tb] ⊆ M) : Only M z (passSlot x0 x1) ↔ Only M z x1 := by
  refine Only.iff (N := [.pw, .tb]) ?_ h
  clear h
  simp [passSlot, only_mk_pw_tb]

@[simp] theorem only_pedFinish (x0) (M : List Part) (z : State) (h : [.fab, .orb, .chan] ⊆ M) : Only M z (pedFinish x0) ↔ Only M z x0 := by
  refine Only.iff (N := [.fab, .orb, .chan]) ?_ h
  clear h
  simp [pedFinish, only_mk_fab_orb_chan]

@[simp] theorem only_oasisEnd (x0) (M : List Part) (z : State) (h : [.fab, .orb, .pll, .chan, .lnA, .lnB] ⊆ M) : Only M z (oasisEnd x0) ↔ Only
    M z x0 := by
  refine Only.iff (N := [.fab, .orb, .pll, .chan, .lnA, .lnB]) ?_ h
  clear h
  simp [oasisEnd, only_mk_fab_orb_pll_chan_lnA_lnB]

@[simp] theorem only_sweepOver (x0) (M : List Part) (z : State) (h : [.fab, .orb, .pll] ⊆ M) : Only M z (sweepOver x0) ↔ Only M z x0 := by
  refine Only.iff (N := [.fab, .orb, .pll]) ?_ h
  clear h
  simp [sweepOver, only_mk_fab_orb_pll]

@[simp] theorem only_markMissed (x0) (M : List Part) (z : State) (h : [.fab] ⊆ M) : Only M z (markMissed x0) ↔ Only M z x0 := by
  refine Only.iff (N := [.fab]) ?_ h
  clear h
  simp [markMissed, only_mk_fab]

@[simp] theorem only_closeSlot (x0 x1) (M : List Part) (z : State) (h : [.fab, .orb, .pll, .chan, .acq, .lnA, .lnB] ⊆ M) : Only M z (closeSlot
    x0 x1) ↔ Only M z x1 := by
  refine Only.iff (N := [.fab, .orb, .pll, .chan, .acq, .lnA, .lnB]) ?_ h
  clear h
  simp [closeSlot, only_mk_fab_orb_pll_chan_acq_lnA_lnB]

@[simp] theorem only_slotAdvance (x0 x1) (M : List Part) (z : State) (h : [.pw, .fab, .orb, .pll, .chan, .flint, .fout, .acq, .ser, .frm, .lnA,
    .lnB, .dlA, .dlB, .tb, .pls] ⊆ M) : Only M z (slotAdvance x0 x1) ↔ Only M z x1 := by
  refine Only.iff (N := [.pw, .fab, .orb, .pll, .chan, .flint, .fout, .acq, .ser, .frm, .lnA, .lnB, .dlA, .dlB, .tb, .pls]) ?_ h
  clear h
  simp [slotAdvance, only_mk_but_pending_jtag_conv_ring_ringErr_feat_featErr_flintOn_seams_sup_mg_slow_cal_mon_her]

@[simp] theorem only_takeCutoff (x0) (M : List Part) (z : State) (h : [.fab, .orb] ⊆ M) : Only M z (takeCutoff x0) ↔ Only M z x0 := by
  refine Only.iff (N := [.fab, .orb]) ?_ h
  clear h
  simp [takeCutoff, only_mk_fab_orb]

@[simp] theorem only_powerAhead (x0 x1) (M : List Part) (z : State) (h : [.conv] ⊆ M) : Only M z (powerAhead x0 x1) ↔ Only M z x1 := by
  refine Only.iff (N := [.conv]) ?_ h
  clear h
  simp [powerAhead, only_mk_conv]

@[simp] theorem only_cutoffNow (x0) (M : List Part) (z : State) (h : [.fab, .orb, .conv] ⊆ M) : Only M z (cutoffNow x0) ↔ Only M z x0 := by
  refine Only.iff (N := [.fab, .orb, .conv]) ?_ h
  clear h
  simp [cutoffNow, only_mk_fab_orb_conv]

@[simp] theorem only_cutoffAtStart (x0) (M : List Part) (z : State) (h : [.fab, .orb, .conv] ⊆ M) : Only M z (cutoffAtStart x0) ↔ Only M z x0 := by
  refine Only.iff (N := [.fab, .orb, .conv]) ?_ h
  clear h
  simp [cutoffAtStart, only_mk_fab_orb_conv]

@[simp] theorem only_strobe (x0 x1) (M : List Part) (z : State) (h : [.fab, .orb, .conv] ⊆ M) : Only M z (strobe x0 x1) ↔ Only M z x1 := by
  refine Only.iff (N := [.fab, .orb, .conv]) ?_ h
  clear h
  simp [strobe, only_mk_fab_orb_conv]

@[simp] theorem only_copyDone (x0 x1) (M : List Part) (z : State) (h : [.orb] ⊆ M) : Only M z (copyDone x0 x1) ↔ Only M z x1 := by
  refine Only.iff (N := [.orb]) ?_ h
  clear h
  unfold copyDone
  (try dsimp only)
  repeat' split
  all_goals simp [only_mk_orb]

@[simp] theorem only_applyIdle (x0 x1) (M : List Part) (z : State) (h : [.pw, .fab, .orb, .pll, .conv, .chan, .flint, .fout, .flintOn, .seams,
    .acq, .ser, .frm, .lnA, .lnB, .dlA, .dlB, .sup, .tb, .slow, .cal, .mon, .pls, .her] ⊆ M) : Only M z (applyIdle x0 x1) ↔ Only M z x1 := by
  refine Only.iff (N := [.pw, .fab, .orb, .pll, .conv, .chan, .flint, .fout, .flintOn, .seams, .acq, .ser, .frm, .lnA, .lnB, .dlA, .dlB, .sup, .tb, .slow, .cal, .mon, .pls, .her]) ?_ h
  clear h
  simp [applyIdle, only_mk_but_pending_jtag_ring_ringErr_feat_featErr_mg]

@[simp] theorem only_copyEnd (x0 x1) (M : List Part) (z : State) (h : [.pw, .fab, .orb, .pll, .conv, .chan, .flint, .fout, .flintOn, .seams,
    .acq, .ser, .frm, .lnA, .lnB, .dlA, .dlB, .sup, .tb, .slow, .cal, .mon, .pls, .her] ⊆ M) : Only M z (copyEnd x0 x1) ↔ Only M z x1 := by
  refine Only.iff (N := [.pw, .fab, .orb, .pll, .conv, .chan, .flint, .fout, .flintOn, .seams, .acq, .ser, .frm, .lnA, .lnB, .dlA, .dlB, .sup, .tb, .slow, .cal, .mon, .pls, .her]) ?_ h
  clear h
  unfold copyEnd
  (try dsimp only)
  repeat' split
  all_goals simp [only_mk_but_pending_jtag_ring_ringErr_feat_featErr_mg]

@[simp] theorem only_idleApply (x0) (M : List Part) (z : State) (h : [.pw, .fab, .orb, .pll, .conv, .chan, .flint, .fout, .flintOn, .seams, .acq,
    .ser, .frm, .lnA, .lnB, .dlA, .dlB, .sup, .tb, .slow, .cal, .mon, .pls, .her] ⊆ M) : Only M z (idleApply x0) ↔ Only M z x0 := by
  refine Only.iff (N := [.pw, .fab, .orb, .pll, .conv, .chan, .flint, .fout, .flintOn, .seams, .acq, .ser, .frm, .lnA, .lnB, .dlA, .dlB, .sup, .tb, .slow, .cal, .mon, .pls, .her]) ?_ h
  clear h
  unfold idleApply
  (try dsimp only)
  repeat' split
  all_goals simp [only_mk_but_pending_jtag_ring_ringErr_feat_featErr_mg]

@[simp] theorem only_copiesPast (x0) (M : List Part) (z : State) (h : [.orb] ⊆ M) : Only M z (copiesPast x0) ↔ Only M z x0 := by
  refine Only.iff (N := [.orb]) ?_ h
  clear h
  unfold copiesPast
  (try dsimp only)
  refine (only_foldl _ _ _ _ _ (fun s x => ?_)).2 (Only.refl _ _)
  (try dsimp only)
  repeat' split
  all_goals simp [only_mk_orb]

@[simp] theorem only_oasisSkipped (x0) (M : List Part) (z : State) (h : [.fab] ⊆ M) : Only M z (oasisSkipped x0) ↔ Only M z x0 := by
  refine Only.iff (N := [.fab]) ?_ h
  clear h
  simp [oasisSkipped, only_mk_fab]

@[simp] theorem only_rotationStands (x0) (M : List Part) (z : State) (h : [.orb, .conv] ⊆ M) : Only M z (rotationStands x0) ↔ Only M z x0 := by
  refine Only.iff (N := [.orb, .conv]) ?_ h
  clear h
  simp [rotationStands, only_mk_orb_conv]

@[simp] theorem only_oasisResults (x0) (M : List Part) (z : State) (h : [.fab, .orb, .pll, .conv, .chan, .lnA, .lnB] ⊆ M) : Only M z (oasisResults
    x0) ↔ Only M z x0 := by
  refine Only.iff (N := [.fab, .orb, .pll, .conv, .chan, .lnA, .lnB]) ?_ h
  clear h
  simp [oasisResults, only_mk_fab_orb_pll_conv_chan_lnA_lnB]

@[simp] theorem only_eyeRise (x0 x1 x2) (M : List Part) (z : State) (h : [.fab] ⊆ M) : Only M z (eyeRise x0 x1 x2) ↔ Only M z x2 := by
  refine Only.iff (N := [.fab]) ?_ h
  clear h
  simp [eyeRise, only_mk_fab]

@[simp] theorem only_newOrbitMarks (x0) (M : List Part) (z : State) (h : [.fab, .orb] ⊆ M) : Only M z (newOrbitMarks x0) ↔ Only M z x0 := by
  refine Only.iff (N := [.fab, .orb]) ?_ h
  clear h
  simp [newOrbitMarks, only_mk_fab_orb]

@[simp] theorem only_powerBack (x0) (M : List Part) (z : State) (h : [.conv] ⊆ M) : Only M z (powerBack x0) ↔ Only M z x0 := by
  refine Only.iff (N := [.conv]) ?_ h
  clear h
  simp [powerBack, only_mk_conv]

@[simp] theorem only_boundaryCore (x0) (M : List Part) (z : State) (h : [.fab, .orb, .pll, .conv, .chan, .flint, .fout, .flintOn, .seams, .acq,
    .ser, .frm, .lnA, .lnB, .dlA, .dlB, .sup, .tb, .slow, .cal, .mon, .pls, .her] ⊆ M) : Only M z (boundaryCore x0) ↔ Only M z x0 := by
  refine Only.iff (N := [.fab, .orb, .pll, .conv, .chan, .flint, .fout, .flintOn, .seams, .acq, .ser, .frm, .lnA, .lnB, .dlA, .dlB, .sup, .tb, .slow, .cal, .mon, .pls, .her]) ?_ h
  clear h
  simp [boundaryCore, only_mk_but_pending_pw_jtag_ring_ringErr_feat_featErr_mg]

@[simp] theorem only_orbitBoundary (x0 x1) (M : List Part) (z : State) (h : [.pw, .fab, .orb, .pll, .conv, .chan, .flint, .fout, .flintOn, .seams,
    .acq, .ser, .frm, .lnA, .lnB, .dlA, .dlB, .sup, .tb, .slow, .cal, .mon, .pls, .her] ⊆ M) : Only M z (orbitBoundary x0 x1) ↔ Only M z x1 :=
    by
  refine Only.iff (N := [.pw, .fab, .orb, .pll, .conv, .chan, .flint, .fout, .flintOn, .seams, .acq, .ser, .frm, .lnA, .lnB, .dlA, .dlB, .sup, .tb, .slow, .cal, .mon, .pls, .her]) ?_ h
  clear h
  simp [orbitBoundary, only_mk_but_pending_jtag_ring_ringErr_feat_featErr_mg]

@[simp] theorem only_oasisCut (x0) (M : List Part) (z : State) (h : [.orb, .pll, .conv, .chan, .lnA, .lnB, .pls] ⊆ M) : Only M z (oasisCut x0)
    ↔ Only M z x0 := by
  refine Only.iff (N := [.orb, .pll, .conv, .chan, .lnA, .lnB, .pls]) ?_ h
  clear h
  simp [oasisCut, only_mk_orb_pll_conv_chan_lnA_lnB_pls]

@[simp] theorem only_realign (x0) (M : List Part) (z : State) (h : [.fab, .orb, .pll, .conv, .chan, .frm, .lnA, .lnB, .tb, .pls] ⊆ M) : Only
    M z (realign x0) ↔ Only M z x0 := by
  refine Only.iff (N := [.fab, .orb, .pll, .conv, .chan, .frm, .lnA, .lnB, .tb, .pls]) ?_ h
  clear h
  simp [realign, only_mk_but_pending_pw_jtag_ring_ringErr_feat_featErr_flint_fout_flintOn_seams_acq_ser_dlA_dlB_sup_mg_slow_cal_mon_her]

@[simp] theorem only_leaveIdle (x0) (M : List Part) (z : State) (h : [.pw, .fab, .orb, .conv, .frm] ⊆ M) : Only M z (leaveIdle x0) ↔ Only M z x0 := by
  refine Only.iff (N := [.pw, .fab, .orb, .conv, .frm]) ?_ h
  clear h
  simp [leaveIdle, only_mk_pw_fab_orb_conv_frm]

@[simp] theorem only_markAct (x0) (M : List Part) (z : State) (h : [.pw, .fab, .orb, .pll, .conv, .chan, .frm, .lnA, .lnB, .tb, .pls] ⊆ M) :
    Only M z (markAct x0) ↔ Only M z x0 := by
  refine Only.iff (N := [.pw, .fab, .orb, .pll, .conv, .chan, .frm, .lnA, .lnB, .tb, .pls]) ?_ h
  clear h
  unfold markAct
  (try dsimp only)
  repeat' split
  all_goals simp [only_mk_but_pending_jtag_ring_ringErr_feat_featErr_flint_fout_flintOn_seams_acq_ser_dlA_dlB_sup_mg_slow_cal_mon_her]

@[simp] theorem only_resyncAct (x0) (M : List Part) (z : State) (h : [.orb] ⊆ M) : Only M z (resyncAct x0) ↔ Only M z x0 := by
  refine Only.iff (N := [.orb]) ?_ h
  clear h
  simp [resyncAct, only_mk_orb]

@[simp] theorem only_oasisBeginAct (x0) (M : List Part) (z : State) (h : [.fab, .orb] ⊆ M) : Only M z (oasisBeginAct x0) ↔ Only M z x0 := by
  refine Only.iff (N := [.fab, .orb]) ?_ h
  clear h
  simp [oasisBeginAct, only_mk_fab_orb]

@[simp] theorem only_oasisStart (x0 x1) (M : List Part) (z : State) (h : [.pw, .fab, .orb, .pll, .conv, .chan, .lnA, .lnB, .pls] ⊆ M) : Only
    M z (oasisStart x0 x1) ↔ Only M z x1 := by
  refine Only.iff (N := [.pw, .fab, .orb, .pll, .conv, .chan, .lnA, .lnB, .pls]) ?_ h
  clear h
  simp [oasisStart, only_mk_but_pending_jtag_ring_ringErr_feat_featErr_flint_fout_flintOn_seams_acq_ser_frm_dlA_dlB_sup_tb_mg_slow_cal_mon_her]

@[simp] theorem only_rotationEnd (x0 x1) (M : List Part) (z : State) (h : [.orb, .conv] ⊆ M) : Only M z (rotationEnd x0 x1) ↔ Only M z x1 := by
  refine Only.iff (N := [.orb, .conv]) ?_ h
  clear h
  simp [rotationEnd, only_mk_orb_conv]

@[simp] theorem only_pedTracking (x0) (M : List Part) (z : State) (h : [.fab, .orb, .chan] ⊆ M) : Only M z (pedTracking x0) ↔ Only M z x0 := by
  refine Only.iff (N := [.fab, .orb, .chan]) ?_ h
  clear h
  simp [pedTracking, only_mk_fab_orb_chan]

@[simp] theorem only_trimApply (x0) (M : List Part) (z : State) (h : [.fab, .orb, .pll, .chan, .flint, .fout, .cal] ⊆ M) : Only M z (trimApply
    x0) ↔ Only M z x0 := by
  refine Only.iff (N := [.fab, .orb, .pll, .chan, .flint, .fout, .cal]) ?_ h
  clear h
  simp [trimApply, only_mk_fab_orb_pll_chan_flint_fout_cal]

@[simp] theorem only_convReady (x0 x1) (M : List Part) (z : State) (h : [.conv] ⊆ M) : Only M z (convReady x0 x1) ↔ Only M z x1 := by
  refine Only.iff (N := [.conv]) ?_ h
  clear h
  simp [convReady, only_mk_conv]

@[simp] theorem only_count01 (x0 x1) (M : List Part) (z : State) (h : [.fab] ⊆ M) : Only M z (count01 x0 x1) ↔ Only M z x1 := by
  refine Only.iff (N := [.fab]) ?_ h
  clear h
  simp [count01, only_mk_fab]

@[simp] theorem only_bufWrite (x0 x1 x2 x3) (M : List Part) (z : State) (h : [.fab, .orb, .conv] ⊆ M) : Only M z (bufWrite x0 x1 x2 x3) ↔ Only
    M z x3 := by
  refine Only.iff (N := [.fab, .orb, .conv]) ?_ h
  clear h
  simp [bufWrite, only_mk_fab_orb_conv]

@[simp] theorem only_smapWrite (x0 x1 x2 x3) (M : List Part) (z : State) (h : [.fab, .orb, .conv] ⊆ M) : Only M z (smapWrite x0 x1 x2 x3) ↔ Only
    M z x3 := by
  refine Only.iff (N := [.fab, .orb, .conv]) ?_ h
  clear h
  simp [smapWrite, only_mk_fab_orb_conv]

@[simp] theorem only_spiGo (x0 x1 x2 x3) (M : List Part) (z : State) (h : [.slow] ⊆ M) : Only M z (spiGo x0 x1 x2 x3) ↔ Only M z x3 := by
  refine Only.iff (N := [.slow]) ?_ h
  clear h
  simp [spiGo, only_mk_slow]

@[simp] theorem only_spiFields (x0 x1) (M : List Part) (z : State) (h : [.fab] ⊆ M) : Only M z (spiFields x0 x1) ↔ Only M z x1 := by
  refine Only.iff (N := [.fab]) ?_ h
  clear h
  simp [spiFields, only_mk_fab]

@[simp] theorem only_spiCmdWrite (x0 x1) (M : List Part) (z : State) (h : [.pw, .fab, .slow] ⊆ M) : Only M z (spiCmdWrite x0 x1) ↔ Only M z x1 := by
  refine Only.iff (N := [.pw, .fab, .slow]) ?_ h
  clear h
  simp [spiCmdWrite, only_mk_pw_fab_slow]

@[simp] theorem only_pollStatus (x0 x1) (M : List Part) (z : State) (h : [.pw, .slow] ⊆ M) : Only M z (pollStatus x0 x1) ↔ Only M z x1 := by
  refine Only.iff (N := [.pw, .slow]) ?_ h
  clear h
  simp [pollStatus, only_mk_pw_slow]

@[simp] theorem only_spiIdle (x0) (M : List Part) (z : State) (h : [.fab, .conv, .chan, .seams, .acq, .ser, .frm, .lnA, .lnB, .dlA, .dlB, .sup,
    .tb, .slow, .mon, .pls, .her] ⊆ M) : Only M z (spiIdle x0) ↔ Only M z x0 := by
  refine Only.iff (N := [.fab, .conv, .chan, .seams, .acq, .ser, .frm, .lnA, .lnB, .dlA, .dlB, .sup, .tb, .slow, .mon, .pls, .her]) ?_ h
  clear h
  simp [spiIdle, only_mk_but_pending_pw_jtag_orb_pll_ring_ringErr_feat_featErr_flint_fout_flintOn_mg_cal]

@[simp] theorem only_flashAnswer (x0 x1 x2 x3 x4) (M : List Part) (z : State) (h : [.slow] ⊆ M) : Only M z (flashAnswer x0 x1 x2 x3 x4) ↔ Only
    M z x4 := by
  refine Only.iff (N := [.slow]) ?_ h
  clear h
  simp [flashAnswer, only_mk_slow]

@[simp] theorem only_spiTimeout (x0) (M : List Part) (z : State) (h : [.pw, .fab, .conv, .chan, .seams, .acq, .ser, .frm, .lnA, .lnB, .dlA, .dlB,
    .sup, .tb, .slow, .mon, .pls, .her] ⊆ M) : Only M z (spiTimeout x0) ↔ Only M z x0 := by
  refine Only.iff (N := [.pw, .fab, .conv, .chan, .seams, .acq, .ser, .frm, .lnA, .lnB, .dlA, .dlB, .sup, .tb, .slow, .mon, .pls, .her]) ?_ h
  clear h
  simp [spiTimeout, only_mk_but_pending_jtag_orb_pll_ring_ringErr_feat_featErr_flint_fout_flintOn_mg_cal]

@[simp] theorem only_spiDone (x0) (M : List Part) (z : State) (h : [.pw, .fab, .conv, .chan, .seams, .acq, .ser, .frm, .lnA, .lnB, .dlA, .dlB,
    .sup, .tb, .slow, .mon, .pls, .her] ⊆ M) : Only M z (spiDone x0) ↔ Only M z x0 := by
  refine Only.iff (N := [.pw, .fab, .conv, .chan, .seams, .acq, .ser, .frm, .lnA, .lnB, .dlA, .dlB, .sup, .tb, .slow, .mon, .pls, .her]) ?_ h
  clear h
  simp [spiDone, only_mk_but_pending_jtag_orb_pll_ring_ringErr_feat_featErr_flint_fout_flintOn_mg_cal]

@[simp] theorem only_setDue (x0 x1 x2 x3) (M : List Part) (z : State) (h : [.dlA, .dlB] ⊆ M) : Only M z (setDue x0 x1 x2 x3) ↔ Only M z x3 := by
  refine Only.iff (N := [.dlA, .dlB]) ?_ h
  clear h
  simp [setDue, only_mk_dlA_dlB]

@[simp] theorem only_oasisBeginCmd (x0) (M : List Part) (z : State) (h : [.fab, .orb, .dlA, .dlB] ⊆ M) : Only M z (oasisBeginCmd x0) ↔ Only M
    z x0 := by
  refine Only.iff (N := [.fab, .orb, .dlA, .dlB]) ?_ h
  clear h
  unfold oasisBeginCmd onCode
  repeat' split
  all_goals simp

@[simp] theorem only_updateCmd (x0) (M : List Part) (z : State) (h : [.fab, .orb, .conv, .dlA, .dlB] ⊆ M) : Only M z (updateCmd x0) ↔ Only M
    z x0 := by
  refine Only.iff (N := [.fab, .orb, .conv, .dlA, .dlB]) ?_ h
  clear h
  unfold updateCmd onCode
  repeat' split
  all_goals simp

@[simp] theorem only_armFast (x0) (M : List Part) (z : State) (h : [.acq, .dlA, .dlB] ⊆ M) : Only M z (armFast x0) ↔ Only M z x0 := by
  refine Only.iff (N := [.acq, .dlA, .dlB]) ?_ h
  clear h
  unfold armFast onCode
  repeat' split
  all_goals simp

@[simp] theorem only_resyncCmd (x0) (M : List Part) (z : State) (h : [.orb, .dlA, .dlB] ⊆ M) : Only M z (resyncCmd x0) ↔ Only M z x0 := by
  refine Only.iff (N := [.orb, .dlA, .dlB]) ?_ h
  clear h
  unfold resyncCmd onCode
  repeat' split
  all_goals simp

@[simp] theorem only_testPulseCmd (x0) (M : List Part) (z : State) (h : [.fab, .dlA, .dlB, .pls] ⊆ M) : Only M z (testPulseCmd x0) ↔ Only M z x0 := by
  refine Only.iff (N := [.fab, .dlA, .dlB, .pls]) ?_ h
  clear h
  unfold testPulseCmd onCode
  repeat' split
  all_goals simp

@[simp] theorem only_unknownCmd (x0) (M : List Part) (z : State) (h : [.fab, .dlA, .dlB] ⊆ M) : Only M z (unknownCmd x0) ↔ Only M z x0 := by
  refine Only.iff (N := [.fab, .dlA, .dlB]) ?_ h
  clear h
  unfold unknownCmd onCode
  repeat' split
  all_goals simp

@[simp] theorem only_orbitMarkCmd (x0) (M : List Part) (z : State) (h : [.pw, .fab, .orb, .pll, .conv, .chan, .frm, .lnA, .lnB, .dlA, .dlB, .tb,
    .pls] ⊆ M) : Only M z (orbitMarkCmd x0) ↔ Only M z x0 := by
  refine Only.iff (N := [.pw, .fab, .orb, .pll, .conv, .chan, .frm, .lnA, .lnB, .dlA, .dlB, .tb, .pls]) ?_ h
  clear h
  unfold orbitMarkCmd
  (try dsimp only)
  repeat' split
  all_goals simp [only_mk_but_pending_jtag_ring_ringErr_feat_featErr_flint_fout_flintOn_seams_acq_ser_sup_mg_slow_cal_mon_her]

@[simp] theorem only_acceptCmd (x0) (M : List Part) (z : State) (h : [.fab, .acq, .ser, .frm, .dlA, .dlB] ⊆ M) : Only M z (acceptCmd x0) ↔ Only
    M z x0 := by
  refine Only.iff (N := [.fab, .acq, .ser, .frm, .dlA, .dlB]) ?_ h
  clear h
  unfold acceptCmd
  (try dsimp only)
  repeat' split
  all_goals simp [only_mk_fab_acq_ser_frm_dlA_dlB]

@[simp] theorem only_acceptFirst (x0) (M : List Part) (z : State) (h : [.pw, .fab, .orb, .pll, .conv, .chan, .acq, .ser, .frm, .lnA, .lnB, .dlA,
    .dlB, .tb, .pls] ⊆ M) : Only M z (acceptFirst x0) ↔ Only M z x0 := by
  refine Only.iff (N := [.pw, .fab, .orb, .pll, .conv, .chan, .acq, .ser, .frm, .lnA, .lnB, .dlA, .dlB, .tb, .pls]) ?_ h
  clear h
  unfold acceptFirst
  (try dsimp only)
  repeat' split
  all_goals simp [only_mk_but_pending_jtag_ring_ringErr_feat_featErr_flint_fout_flintOn_seams_sup_mg_slow_cal_mon_her]

@[simp] theorem only_tallyClr (x0 x1 x2) (M : List Part) (z : State) (h : [.fab] ⊆ M) : Only M z (tallyClr x0 x1 x2) ↔ Only M z x2 := by
  refine Only.iff (N := [.fab]) ?_ h
  clear h
  simp [tallyClr, only_mk_fab]

@[simp] theorem only_armCmd (x0 x1) (M : List Part) (z : State) (h : [.pw, .fab, .orb, .pll, .conv, .chan, .acq, .ser, .frm, .lnA, .lnB, .dlA,
    .dlB, .tb, .pls] ⊆ M) : Only M z (armCmd x0 x1) ↔ Only M z x1 := by
  refine Only.iff (N := [.pw, .fab, .orb, .pll, .conv, .chan, .acq, .ser, .frm, .lnA, .lnB, .dlA, .dlB, .tb, .pls]) ?_ h
  clear h
  simp [armCmd, only_mk_but_pending_jtag_ring_ringErr_feat_featErr_flint_fout_flintOn_seams_sup_mg_slow_cal_mon_her]

@[simp] theorem only_flushWrite (x0 x1) (M : List Part) (z : State) (h : [.pw, .seams] ⊆ M) : Only M z (flushWrite x0 x1) ↔ Only M z x1 := by
  refine Only.iff (N := [.pw, .seams]) ?_ h
  clear h
  unfold flushWrite
  (try dsimp only)
  repeat' split
  all_goals simp [only_mk_pw_seams]

@[simp] theorem only_dlCtl (x0 x1 x2) (M : List Part) (z : State) (h : [.fab, .dlA, .dlB] ⊆ M) : Only M z (dlCtl x0 x1 x2) ↔ Only M z x2 := by
  refine Only.iff (N := [.fab, .dlA, .dlB]) ?_ h
  clear h
  simp [dlCtl, only_mk_fab_dlA_dlB]

@[simp] theorem only_linkSync (x0) (M : List Part) (z : State) (h : [.fab, .mg] ⊆ M) : Only M z (linkSync x0) ↔ Only M z x0 := by
  refine Only.iff (N := [.fab, .mg]) ?_ h
  clear h
  simp [linkSync, only_mk_fab_mg]

@[simp] theorem only_mgCtl (x0 x1 x2) (M : List Part) (z : State) (h : [.fab, .mg] ⊆ M) : Only M z (mgCtl x0 x1 x2) ↔ Only M z x2 := by
  refine Only.iff (N := [.fab, .mg]) ?_ h
  clear h
  simp [mgCtl, only_mk_fab_mg]

@[simp] theorem only_regOffDone (x0) (M : List Part) (z : State) (h : [.fab, .mg] ⊆ M) : Only M z (regOffDone x0) ↔ Only M z x0 := by
  refine Only.iff (N := [.fab, .mg]) ?_ h
  clear h
  simp [regOffDone, only_mk_fab_mg]

@[simp] theorem only_hostWrite (x0 x1 x2 x3) (M : List Part) (z : State) (h : [.fab, .ser, .frm] ⊆ M) : Only M z (hostWrite x0 x1 x2 x3) ↔ Only
    M z x3 := by
  refine Only.iff (N := [.fab, .ser, .frm]) ?_ h
  clear h
  simp [hostWrite, only_mk_fab_ser_frm]

@[simp] theorem only_ownEffect (x0 x1 x2 x3 x4) (M : List Part) (z : State) (h : [.pw, .fab, .orb, .conv, .ser, .frm, .dlA, .dlB, .tb, .mg, .slow,
    .mon] ⊆ M) : Only M z (ownEffect x0 x1 x2 x3 x4) ↔ Only M z x4 := by
  refine Only.iff (N := [.pw, .fab, .orb, .conv, .ser, .frm, .dlA, .dlB, .tb, .mg, .slow, .mon]) ?_ h
  clear h
  simp [ownEffect, only_mk_but_pending_jtag_pll_chan_ring_ringErr_feat_featErr_flint_fout_flintOn_seams_acq_lnA_lnB_sup_cal_pls_her]

@[simp] theorem only_supResetPair (x0 x1) (M : List Part) (z : State) (h : [.fab, .conv, .chan, .seams, .acq, .ser, .frm, .lnA, .lnB, .dlA, .dlB,
    .sup, .tb, .slow, .mon, .pls, .her] ⊆ M) : Only M z (supResetPair x0 x1) ↔ Only M z x1 := by
  refine Only.iff (N := [.fab, .conv, .chan, .seams, .acq, .ser, .frm, .lnA, .lnB, .dlA, .dlB, .sup, .tb, .slow, .mon, .pls, .her]) ?_ h
  clear h
  simp [supResetPair, only_mk_but_pending_pw_jtag_orb_pll_ring_ringErr_feat_featErr_flint_fout_flintOn_mg_cal]

@[simp] theorem only_overridden (x0 x1) (M : List Part) (z : State) (h : [.fab] ⊆ M) : Only M z (overridden x0 x1) ↔ Only M z x1 := by
  refine Only.iff (N := [.fab]) ?_ h
  clear h
  simp [overridden, only_mk_fab]

@[simp] theorem only_sideEffect (x0 x1 x2 x3 x4) (M : List Part) (z : State) (h : [.pw, .fab, .orb, .pll, .conv, .chan, .seams, .acq, .ser, .frm,
    .lnA, .lnB, .dlA, .dlB, .sup, .tb, .slow, .cal, .mon, .pls, .her] ⊆ M) : Only M z (sideEffect x0 x1 x2 x3 x4) ↔ Only M z x4 := by
  refine Only.iff (N := [.pw, .fab, .orb, .pll, .conv, .chan, .seams, .acq, .ser, .frm, .lnA, .lnB, .dlA, .dlB, .sup, .tb, .slow, .cal, .mon, .pls, .her]) ?_ h
  clear h
  simp [sideEffect, only_mk_but_pending_jtag_ring_ringErr_feat_featErr_flint_fout_flintOn_mg]

@[simp] theorem only_writeEffect (x0 x1 x2 x3 x4) (M : List Part) (z : State) (h : [.pw, .fab, .orb, .pll, .conv, .chan, .seams, .acq, .ser,
    .frm, .lnA, .lnB, .dlA, .dlB, .sup, .tb, .mg, .slow, .cal, .mon, .pls, .her] ⊆ M) : Only M z (writeEffect x0 x1 x2 x3 x4) ↔ Only M z x4 :=
    by
  refine Only.iff (N := [.pw, .fab, .orb, .pll, .conv, .chan, .seams, .acq, .ser, .frm, .lnA, .lnB, .dlA, .dlB, .sup, .tb, .mg, .slow, .cal, .mon, .pls, .her]) ?_ h
  clear h
  simp [writeEffect, only_mk_but_pending_jtag_ring_ringErr_feat_featErr_flint_fout_flintOn]

@[simp] theorem only_applySup (x0 x1 x2) (M : List Part) (z : State) (h : [.fab, .orb, .pll, .conv, .chan, .seams, .ser, .frm, .lnA, .lnB, .sup,
    .tb, .slow, .cal, .mon, .pls, .her] ⊆ M) : Only M z (applySup x0 x1 x2) ↔ Only M z x2 := by
  refine Only.iff (N := [.fab, .orb, .pll, .conv, .chan, .seams, .ser, .frm, .lnA, .lnB, .sup, .tb, .slow, .cal, .mon, .pls, .her]) ?_ h
  clear h
  simp [applySup, only_mk_but_pending_pw_jtag_ring_ringErr_feat_featErr_flint_fout_flintOn_acq_dlA_dlB_mg]

@[simp] theorem only_postedEffect (x0 x1) (M : List Part) (z : State) (h : [.pw, .fab, .orb, .pll, .conv, .chan, .seams, .acq, .ser, .frm, .lnA,
    .lnB, .dlA, .dlB, .sup, .tb, .mg, .slow, .cal, .mon, .pls, .her] ⊆ M) : Only M z (postedEffect x0 x1) ↔ Only M z x1 := by
  refine Only.iff (N := [.pw, .fab, .orb, .pll, .conv, .chan, .seams, .acq, .ser, .frm, .lnA, .lnB, .dlA, .dlB, .sup, .tb, .mg, .slow, .cal, .mon, .pls, .her]) ?_ h
  clear h
  unfold postedEffect
  (try dsimp only)
  repeat' split
  all_goals simp [only_mk_but_pending_jtag_ring_ringErr_feat_featErr_flint_fout_flintOn]

@[simp] theorem only_ownPosted (x0 x1 x2) (M : List Part) (z : State) (h : [.pw, .fab, .orb, .pll, .conv, .chan, .seams, .acq, .ser, .frm, .lnA,
    .lnB, .dlA, .dlB, .sup, .tb, .mg, .slow, .cal, .mon, .pls, .her] ⊆ M) : Only M z (ownPosted x0 x1 x2) ↔ Only M z x2 := by
  refine Only.iff (N := [.pw, .fab, .orb, .pll, .conv, .chan, .seams, .acq, .ser, .frm, .lnA, .lnB, .dlA, .dlB, .sup, .tb, .mg, .slow, .cal, .mon, .pls, .her]) ?_ h
  clear h
  unfold ownPosted
  (try dsimp only)
  repeat' split
  all_goals simp [only_mk_but_pending_jtag_ring_ringErr_feat_featErr_flint_fout_flintOn]

@[simp] theorem only_acceptWrite (x0 x1 x2 x3 x4) (M : List Part) (z : State) (h : [.pw, .fab, .orb, .pll, .conv, .chan, .seams, .acq, .ser,
    .frm, .lnA, .lnB, .dlA, .dlB, .sup, .tb, .mg, .slow, .cal, .mon, .pls, .her] ⊆ M) : Only M z (acceptWrite x0 x1 x2 x3 x4) ↔ Only M z x4 :=
    by
  refine Only.iff (N := [.pw, .fab, .orb, .pll, .conv, .chan, .seams, .acq, .ser, .frm, .lnA, .lnB, .dlA, .dlB, .sup, .tb, .mg, .slow, .cal, .mon, .pls, .her]) ?_ h
  clear h
  simp [acceptWrite, only_mk_but_pending_jtag_ring_ringErr_feat_featErr_flint_fout_flintOn]

@[simp] theorem only_dropGuard (x0 x1 x2) (M : List Part) (z : State) (h : [.fab] ⊆ M) : Only M z (dropGuard x0 x1 x2) ↔ Only M z x2 := by
  refine Only.iff (N := [.fab]) ?_ h
  clear h
  simp [dropGuard, only_mk_fab]

@[simp] theorem only_guardBroken (x0 x1 x2) (M : List Part) (z : State) (h : [.fab] ⊆ M) : Only M z (guardBroken x0 x1 x2) ↔ Only M z x2 := by
  refine Only.iff (N := [.fab]) ?_ h
  clear h
  simp [guardBroken, only_mk_fab]

@[simp] theorem only_breakGuard (x0 x1 x2) (M : List Part) (z : State) (h : [.fab] ⊆ M) : Only M z (breakGuard x0 x1 x2) ↔ Only M z x2 := by
  refine Only.iff (N := [.fab]) ?_ h
  clear h
  simp [breakGuard, only_mk_fab]

@[simp] theorem only_servedWrite (x0 x1 x2 x3 x4) (M : List Part) (z : State) (h : [.pw, .fab, .orb, .pll, .conv, .chan, .seams, .acq, .ser,
    .frm, .lnA, .lnB, .dlA, .dlB, .sup, .tb, .mg, .slow, .cal, .mon, .pls, .her] ⊆ M) : Only M z (servedWrite x0 x1 x2 x3 x4) ↔ Only M z x4 :=
    by
  refine Only.iff (N := [.pw, .fab, .orb, .pll, .conv, .chan, .seams, .acq, .ser, .frm, .lnA, .lnB, .dlA, .dlB, .sup, .tb, .mg, .slow, .cal, .mon, .pls, .her]) ?_ h
  clear h
  unfold servedWrite
  (try dsimp only)
  repeat' split
  all_goals simp [only_mk_but_pending_jtag_ring_ringErr_feat_featErr_flint_fout_flintOn]

@[simp] theorem only_beginAccess (x0 x1) (M : List Part) (z : State) (h : [.fab] ⊆ M) : Only M z (beginAccess x0 x1) ↔ Only M z x1 := by
  refine Only.iff (N := [.fab]) ?_ h
  clear h
  simp [beginAccess, only_mk_fab]

@[simp] theorem only_lostAccess (x0 x1) (M : List Part) (z : State) (h : [.fab] ⊆ M) : Only M z (lostAccess x0 x1) ↔ Only M z x1 := by
  refine Only.iff (N := [.fab]) ?_ h
  clear h
  simp [lostAccess, only_mk_fab]

@[simp] theorem only_alignRefused (x0 x1 x2) (M : List Part) (z : State) (h : [.fab] ⊆ M) : Only M z (alignRefused x0 x1 x2) ↔ Only M z x2 := by
  refine Only.iff (N := [.fab]) ?_ h
  clear h
  simp [alignRefused, only_mk_fab]

@[simp] theorem only_fabWrite (x0 x1 x2 x3) (M : List Part) (z : State) (h : [.pw, .fab, .orb, .pll, .conv, .chan, .seams, .acq, .ser, .frm,
    .lnA, .lnB, .dlA, .dlB, .sup, .tb, .mg, .slow, .cal, .mon, .pls, .her] ⊆ M) : Only M z (fabWrite x0 x1 x2 x3) ↔ Only M z x3 := by
  refine Only.iff (N := [.pw, .fab, .orb, .pll, .conv, .chan, .seams, .acq, .ser, .frm, .lnA, .lnB, .dlA, .dlB, .sup, .tb, .mg, .slow, .cal, .mon, .pls, .her]) ?_ h
  clear h
  simp [fabWrite, only_mk_but_pending_jtag_ring_ringErr_feat_featErr_flint_fout_flintOn]

@[simp] theorem only_rowWrite (x0 x1 x2 x3) (M : List Part) (z : State) (h : [.pw, .fab, .orb, .pll, .conv, .chan, .seams, .acq, .ser, .frm,
    .lnA, .lnB, .dlA, .dlB, .sup, .tb, .mg, .slow, .cal, .mon, .pls, .her] ⊆ M) : Only M z (rowWrite x0 x1 x2 x3) ↔ Only M z x3 := by
  refine Only.iff (N := [.pw, .fab, .orb, .pll, .conv, .chan, .seams, .acq, .ser, .frm, .lnA, .lnB, .dlA, .dlB, .sup, .tb, .mg, .slow, .cal, .mon, .pls, .her]) ?_ h
  clear h
  simp [rowWrite, only_mk_but_pending_jtag_ring_ringErr_feat_featErr_flint_fout_flintOn]

@[simp] theorem only_cmdWrite (x0 x1 x2 x3) (M : List Part) (z : State) (h : [.pw, .fab, .orb, .pll, .conv, .chan, .seams, .acq, .ser, .frm,
    .lnA, .lnB, .dlA, .dlB, .sup, .tb, .mg, .slow, .cal, .mon, .pls, .her] ⊆ M) : Only M z (cmdWrite x0 x1 x2 x3) ↔ Only M z x3 := by
  refine Only.iff (N := [.pw, .fab, .orb, .pll, .conv, .chan, .seams, .acq, .ser, .frm, .lnA, .lnB, .dlA, .dlB, .sup, .tb, .mg, .slow, .cal, .mon, .pls, .her]) ?_ h
  clear h
  simp [cmdWrite, only_mk_but_pending_jtag_ring_ringErr_feat_featErr_flint_fout_flintOn]

@[simp] theorem only_readLow (x0 x1 x2 x3) (M : List Part) (z : State) (h : [.fab] ⊆ M) : Only M z ((readLow x0 x1 x2 x3).2) ↔ Only M z x3 := by
  refine Only.iff (N := [.fab]) ?_ h
  clear h
  simp [readLow, only_mk_fab]

@[simp] theorem only_readHigh (x0 x1 x2 x3) (M : List Part) (z : State) (h : [.fab] ⊆ M) : Only M z ((readHigh x0 x1 x2 x3).2) ↔ Only M z x3 := by
  refine Only.iff (N := [.fab]) ?_ h
  clear h
  unfold readHigh
  (try dsimp only)
  repeat' split
  all_goals simp [only_mk_fab]

@[simp] theorem only_servedRead (x0 x1 x2 x3) (M : List Part) (z : State) (h : [.fab, .seams, .ser, .frm] ⊆ M) : Only M z ((servedRead x0 x1
    x2 x3).2) ↔ Only M z x3 := by
  refine Only.iff (N := [.fab, .seams, .ser, .frm]) ?_ h
  clear h
  unfold servedRead
  (try dsimp only)
  repeat' split
  all_goals simp [only_mk_fab_seams_ser_frm]

@[simp] theorem only_fabRead (x0 x1 x2) (M : List Part) (z : State) (h : [.pw, .fab, .orb, .pll, .conv, .chan, .seams, .acq, .ser, .frm, .lnA,
    .lnB, .dlA, .dlB, .sup, .tb, .mg, .slow, .cal, .mon, .pls, .her] ⊆ M) : Only M z (fabRead x0 x1 x2) ↔ Only M z x2 := by
  refine Only.iff (N := [.pw, .fab, .orb, .pll, .conv, .chan, .seams, .acq, .ser, .frm, .lnA, .lnB, .dlA, .dlB, .sup, .tb, .mg, .slow, .cal, .mon, .pls, .her]) ?_ h
  clear h
  unfold fabRead
  dsimp only
  repeat' split
  all_goals simp [setRdata]

@[simp] theorem only_seqWrite (x0 x1 x2 x3 x4 x5) (M : List Part) (z : State) (h : [.pw, .fab, .orb, .pll, .conv, .chan, .seams, .acq, .ser,
    .frm, .lnA, .lnB, .dlA, .dlB, .sup, .tb, .mg, .slow, .cal, .mon, .pls, .her] ⊆ M) : Only M z ((seqWrite x0 x1 x2 x3 x4 x5).2) ↔ Only M z
    x5 := by
  refine Only.iff (N := [.pw, .fab, .orb, .pll, .conv, .chan, .seams, .acq, .ser, .frm, .lnA, .lnB, .dlA, .dlB, .sup, .tb, .mg, .slow, .cal, .mon, .pls, .her]) ?_ h
  clear h
  induction x3 generalizing x1 x2 x4 x5 with
  | nil => exact Only.refl _ _
  | cons w t ih => exact Only.via (ih _ _ _ _) (List.Subset.refl _) (by simp)

@[simp] theorem only_seqRead (x0 x1 x2 x3 x4 x5) (M : List Part) (z : State) (h : [.pw, .fab, .orb, .pll, .conv, .chan, .seams, .acq, .ser, .frm,
    .lnA, .lnB, .dlA, .dlB, .sup, .tb, .mg, .slow, .cal, .mon, .pls, .her] ⊆ M) : Only M z ((seqRead x0 x1 x2 x3 x4 x5).2) ↔ Only M z x5 := by
  refine Only.iff (N := [.pw, .fab, .orb, .pll, .conv, .chan, .seams, .acq, .ser, .frm, .lnA, .lnB, .dlA, .dlB, .sup, .tb, .mg, .slow, .cal, .mon, .pls, .her]) ?_ h
  clear h
  induction x1 generalizing x2 x3 x4 x5 with
  | zero => exact Only.refl _ _
  | succ n ih => exact Only.via (ih _ _ _ _) (List.Subset.refl _) (by simp)

@[simp] theorem only_bumpNtc (x0) (M : List Part) (z : State) (h : [.acq] ⊆ M) : Only M z (bumpNtc x0) ↔ Only M z x0 := by
  refine Only.iff (N := [.acq]) ?_ h
  clear h
  simp [bumpNtc, only_mk_acq]

@[simp] theorem only_noticeOut (x0) (M : List Part) (z : State) (h : [.fab, .acq, .ser, .frm] ⊆ M) : Only M z (noticeOut x0) ↔ Only M z x0 := by
  refine Only.iff (N := [.fab, .acq, .ser, .frm]) ?_ h
  clear h
  unfold noticeOut
  (try dsimp only)
  repeat' split
  all_goals simp [only_mk_fab_acq_ser_frm]

@[simp] theorem only_landFrame (x0 x1 x2) (M : List Part) (z : State) (h : [.fab, .dlA, .dlB] ⊆ M) : Only M z (landFrame x0 x1 x2) ↔ Only M z x2 := by
  refine Only.iff (N := [.fab, .dlA, .dlB]) ?_ h
  clear h
  simp [landFrame, only_mk_fab_dlA_dlB]

@[simp] theorem only_arrival (x0 x1 x2) (M : List Part) (z : State) (h : [.fab, .dlA, .dlB] ⊆ M) : Only M z (arrival x0 x1 x2) ↔ Only M z x2 := by
  refine Only.iff (N := [.fab, .dlA, .dlB]) ?_ h
  clear h
  simp [arrival, only_mk_fab_dlA_dlB]

@[simp] theorem only_ctlHeader (x0 x1 x2 x3) (M : List Part) (z : State) (h : [.fab, .dlA, .dlB] ⊆ M) : Only M z (ctlHeader x0 x1 x2 x3) ↔ Only
    M z x3 := by
  refine Only.iff (N := [.fab, .dlA, .dlB]) ?_ h
  clear h
  simp [ctlHeader, only_mk_fab_dlA_dlB]

@[simp] theorem only_ctlData (x0 x1 x2 x3 x4) (M : List Part) (z : State) (h : [.dlA, .dlB] ⊆ M) : Only M z (ctlData x0 x1 x2 x3 x4) ↔ Only M
    z x4 := by
  refine Only.iff (N := [.dlA, .dlB]) ?_ h
  clear h
  simp [ctlData, only_mk_dlA_dlB]

@[simp] theorem only_ctlWord (x0 x1 x2 x3) (M : List Part) (z : State) (h : [.fab, .dlA, .dlB] ⊆ M) : Only M z (ctlWord x0 x1 x2 x3) ↔ Only M
    z x3 := by
  refine Only.iff (N := [.fab, .dlA, .dlB]) ?_ h
  clear h
  unfold ctlWord
  (try dsimp only)
  repeat' split
  all_goals simp [only_mk_fab_dlA_dlB]

@[simp] theorem only_ttOther (x0 x1 x2) (M : List Part) (z : State) (h : [.fab, .dlA, .dlB] ⊆ M) : Only M z (ttOther x0 x1 x2) ↔ Only M z x2 := by
  refine Only.iff (N := [.fab, .dlA, .dlB]) ?_ h
  clear h
  simp [ttOther, only_mk_fab_dlA_dlB]

@[simp] theorem only_probeByte (x0 x1 x2 x3 x4) (M : List Part) (z : State) (h : [.fab, .frm, .dlA, .dlB] ⊆ M) : Only M z (probeByte x0 x1 x2
    x3 x4) ↔ Only M z x4 := by
  refine Only.iff (N := [.fab, .frm, .dlA, .dlB]) ?_ h
  clear h
  simp [probeByte, only_mk_fab_frm_dlA_dlB]

@[simp] theorem only_fastByte (x0 x1 x2 x3) (M : List Part) (z : State) (h : [.fab, .dlA, .dlB] ⊆ M) : Only M z (fastByte x0 x1 x2 x3) ↔ Only
    M z x3 := by
  refine Only.iff (N := [.fab, .dlA, .dlB]) ?_ h
  clear h
  simp [fastByte, only_mk_fab_dlA_dlB]

@[simp] theorem only_endRuns (x0 x1) (M : List Part) (z : State) (h : [.lnA, .lnB] ⊆ M) : Only M z (endRuns x0 x1) ↔ Only M z x1 := by
  refine Only.iff (N := [.lnA, .lnB]) ?_ h
  clear h
  simp [endRuns, only_mk_lnA_lnB]

@[simp] theorem only_decodedFrame (x0 x1 x2 x3) (M : List Part) (z : State) (h : [.fab, .frm, .dlA, .dlB] ⊆ M) : Only M z (decodedFrame x0 x1
    x2 x3) ↔ Only M z x3 := by
  refine Only.iff (N := [.fab, .frm, .dlA, .dlB]) ?_ h
  clear h
  simp [decodedFrame, only_mk_fab_frm_dlA_dlB]

@[simp] theorem only_downlinkFrame (x0 x1 x2) (M : List Part) (z : State) (h : [.fab, .frm, .lnA, .lnB, .dlA, .dlB, .sup] ⊆ M) : Only M z (downlinkFrame
    x0 x1 x2) ↔ Only M z x2 := by
  refine Only.iff (N := [.fab, .frm, .lnA, .lnB, .dlA, .dlB, .sup]) ?_ h
  clear h
  simp [downlinkFrame, only_mk_fab_frm_lnA_lnB_dlA_dlB_sup]

@[simp] theorem only_servePacket (x0 x1 x2) (M : List Part) (z : State) (h : [.pw, .fab, .orb, .pll, .conv, .chan, .seams, .acq, .ser, .frm,
    .lnA, .lnB, .dlA, .dlB, .sup, .tb, .mg, .slow, .cal, .mon, .pls, .her] ⊆ M) : Only M z ((servePacket x0 x1 x2).2) ↔ Only M z x2 := by
  refine Only.iff (N := [.pw, .fab, .orb, .pll, .conv, .chan, .seams, .acq, .ser, .frm, .lnA, .lnB, .dlA, .dlB, .sup, .tb, .mg, .slow, .cal, .mon, .pls, .her]) ?_ h
  clear h
  unfold servePacket
  (try dsimp only)
  repeat' split
  all_goals simp [only_mk_but_pending_jtag_ring_ringErr_feat_featErr_flint_fout_flintOn]

@[simp] theorem only_packetStep (x0 x1) (M : List Part) (z : State) (h : [.pw, .fab, .orb, .pll, .conv, .chan, .seams, .acq, .ser, .frm, .lnA,
    .lnB, .dlA, .dlB, .sup, .tb, .mg, .slow, .cal, .mon, .pls, .her] ⊆ M) : Only M z (packetStep x0 x1) ↔ Only M z x1 := by
  refine Only.iff (N := [.pw, .fab, .orb, .pll, .conv, .chan, .seams, .acq, .ser, .frm, .lnA, .lnB, .dlA, .dlB, .sup, .tb, .mg, .slow, .cal, .mon, .pls, .her]) ?_ h
  clear h
  unfold packetStep
  (try dsimp only)
  repeat' split
  all_goals simp [only_mk_but_pending_jtag_ring_ringErr_feat_featErr_flint_fout_flintOn]

@[simp] theorem only_packetsDue (x0 x1) (M : List Part) (z : State) (h : [.pw, .fab, .orb, .pll, .conv, .chan, .seams, .acq, .ser, .frm, .lnA,
    .lnB, .dlA, .dlB, .sup, .tb, .mg, .slow, .cal, .mon, .pls, .her] ⊆ M) : Only M z (packetsDue x0 x1) ↔ Only M z x1 := by
  refine Only.iff (N := [.pw, .fab, .orb, .pll, .conv, .chan, .seams, .acq, .ser, .frm, .lnA, .lnB, .dlA, .dlB, .sup, .tb, .mg, .slow, .cal, .mon, .pls, .her]) ?_ h
  clear h
  simp [packetsDue, only_mk_but_pending_jtag_ring_ringErr_feat_featErr_flint_fout_flintOn]

@[simp] theorem only_downlinksFirst (x0) (M : List Part) (z : State) (h : [.pw, .fab, .orb, .pll, .conv, .chan, .seams, .acq, .ser, .frm, .lnA,
    .lnB, .dlA, .dlB, .sup, .tb, .mg, .slow, .cal, .mon, .pls, .her] ⊆ M) : Only M z (downlinksFirst x0) ↔ Only M z x0 := by
  refine Only.iff (N := [.pw, .fab, .orb, .pll, .conv, .chan, .seams, .acq, .ser, .frm, .lnA, .lnB, .dlA, .dlB, .sup, .tb, .mg, .slow, .cal, .mon, .pls, .her]) ?_ h
  clear h
  simp [downlinksFirst, only_mk_but_pending_jtag_ring_ringErr_feat_featErr_flint_fout_flintOn]

@[simp] theorem only_controlPacket (x0 x1) (M : List Part) (z : State) (h : [.pw, .fab, .orb, .pll, .conv, .chan, .seams, .acq, .ser, .frm, .lnA,
    .lnB, .dlA, .dlB, .sup, .tb, .mg, .slow, .cal, .mon, .pls, .her] ⊆ M) : Only M z (controlPacket x0 x1) ↔ Only M z x1 := by
  refine Only.iff (N := [.pw, .fab, .orb, .pll, .conv, .chan, .seams, .acq, .ser, .frm, .lnA, .lnB, .dlA, .dlB, .sup, .tb, .mg, .slow, .cal, .mon, .pls, .her]) ?_ h
  clear h
  unfold controlPacket
  (try dsimp only)
  repeat' split
  all_goals simp [only_mk_but_pending_jtag_ring_ringErr_feat_featErr_flint_fout_flintOn]

@[simp] theorem only_controlResponse (x0 x1) (M : List Part) (z : State) (h : [.fab, .acq, .ser, .frm, .dlA, .dlB] ⊆ M) : Only M z (controlResponse
    x0 x1) ↔ Only M z x1 := by
  refine Only.iff (N := [.fab, .acq, .ser, .frm, .dlA, .dlB]) ?_ h
  clear h
  unfold controlResponse
  (try dsimp only)
  repeat' split
  all_goals simp [only_mk_fab_acq_ser_frm_dlA_dlB]

@[simp] theorem only_timeTransfer (x0) (M : List Part) (z : State) (h : [.fab, .dlA, .dlB, .tb] ⊆ M) : Only M z (timeTransfer x0) ↔ Only M z x0 := by
  refine Only.iff (N := [.fab, .dlA, .dlB, .tb]) ?_ h
  clear h
  simp [timeTransfer, only_mk_fab_dlA_dlB_tb]

@[simp] theorem only_dropItem (x0 x1) (M : List Part) (z : State) (h : [.fab, .ser, .frm] ⊆ M) : Only M z (dropItem x0 x1) ↔ Only M z x1 := by
  refine Only.iff (N := [.fab, .ser, .frm]) ?_ h
  clear h
  unfold dropItem
  (try dsimp only)
  repeat' split
  all_goals simp [only_mk_fab_ser_frm]

@[simp] theorem only_ingress (x0 x1 x2 x3) (M : List Part) (z : State) (h : [.fab, .ser, .frm] ⊆ M) : Only M z (ingress x0 x1 x2 x3) ↔ Only M
    z x3 := by
  refine Only.iff (N := [.fab, .ser, .frm]) ?_ h
  clear h
  simp [ingress, only_mk_fab_ser_frm]

@[simp] theorem only_toEngine (x0 x1) (M : List Part) (z : State) (h : [.fab, .mg] ⊆ M) : Only M z (toEngine x0 x1) ↔ Only M z x1 := by
  refine Only.iff (N := [.fab, .mg]) ?_ h
  clear h
  simp [toEngine, only_mk_fab_mg]

@[simp] theorem only_mgReceive (x0 x1 x2) (M : List Part) (z : State) (h : [.fab, .ser, .frm, .mg] ⊆ M) : Only M z (mgReceive x0 x1 x2) ↔ Only
    M z x2 := by
  refine Only.iff (N := [.fab, .ser, .frm, .mg]) ?_ h
  clear h
  simp [mgReceive, only_mk_fab_ser_frm_mg]

@[simp] theorem only_queueResponse (x0 x1 x2) (M : List Part) (z : State) (h : [.fab, .mg] ⊆ M) : Only M z (queueResponse x0 x1 x2) ↔ Only M
    z x2 := by
  refine Only.iff (N := [.fab, .mg]) ?_ h
  clear h
  simp [queueResponse, only_mk_fab_mg]

@[simp] theorem only_serveRequest (x0 x1) (M : List Part) (z : State) (h : [.pw, .fab, .orb, .pll, .conv, .chan, .seams, .acq, .ser, .frm, .lnA,
    .lnB, .dlA, .dlB, .sup, .tb, .mg, .slow, .cal, .mon, .pls, .her] ⊆ M) : Only M z (serveRequest x0 x1) ↔ Only M z x1 := by
  refine Only.iff (N := [.pw, .fab, .orb, .pll, .conv, .chan, .seams, .acq, .ser, .frm, .lnA, .lnB, .dlA, .dlB, .sup, .tb, .mg, .slow, .cal, .mon, .pls, .her]) ?_ h
  clear h
  unfold serveRequest
  (try dsimp only)
  repeat' split
  all_goals simp [only_mk_but_pending_jtag_ring_ringErr_feat_featErr_flint_fout_flintOn]

@[simp] theorem only_requestStep (x0) (M : List Part) (z : State) (h : [.pw, .fab, .orb, .pll, .conv, .chan, .seams, .acq, .ser, .frm, .lnA,
    .lnB, .dlA, .dlB, .sup, .tb, .mg, .slow, .cal, .mon, .pls, .her] ⊆ M) : Only M z (requestStep x0) ↔ Only M z x0 := by
  refine Only.iff (N := [.pw, .fab, .orb, .pll, .conv, .chan, .seams, .acq, .ser, .frm, .lnA, .lnB, .dlA, .dlB, .sup, .tb, .mg, .slow, .cal, .mon, .pls, .her]) ?_ h
  clear h
  unfold requestStep
  (try dsimp only)
  repeat' split
  all_goals simp [only_mk_but_pending_jtag_ring_ringErr_feat_featErr_flint_fout_flintOn]

@[simp] theorem only_registerRequest (x0) (M : List Part) (z : State) (h : [.pw, .fab, .orb, .pll, .conv, .chan, .seams, .acq, .ser, .frm, .lnA,
    .lnB, .dlA, .dlB, .sup, .tb, .mg, .slow, .cal, .mon, .pls, .her] ⊆ M) : Only M z (registerRequest x0) ↔ Only M z x0 := by
  refine Only.iff (N := [.pw, .fab, .orb, .pll, .conv, .chan, .seams, .acq, .ser, .frm, .lnA, .lnB, .dlA, .dlB, .sup, .tb, .mg, .slow, .cal, .mon, .pls, .her]) ?_ h
  clear h
  unfold registerRequest
  (try dsimp only)
  repeat' split
  all_goals simp [only_mk_but_pending_jtag_ring_ringErr_feat_featErr_flint_fout_flintOn]

@[simp] theorem only_mastersFirst (x0) (M : List Part) (z : State) (h : [.pw, .fab, .orb, .pll, .conv, .chan, .seams, .acq, .ser, .frm, .lnA,
    .lnB, .dlA, .dlB, .sup, .tb, .mg, .slow, .cal, .mon, .pls, .her] ⊆ M) : Only M z (mastersFirst x0) ↔ Only M z x0 := by
  refine Only.iff (N := [.pw, .fab, .orb, .pll, .conv, .chan, .seams, .acq, .ser, .frm, .lnA, .lnB, .dlA, .dlB, .sup, .tb, .mg, .slow, .cal, .mon, .pls, .her]) ?_ h
  clear h
  simp [mastersFirst, only_mk_but_pending_jtag_ring_ringErr_feat_featErr_flint_fout_flintOn]

@[simp] theorem only_frameOut (x0 x1) (M : List Part) (z : State) (h : [.mg] ⊆ M) : Only M z (frameOut x0 x1) ↔ Only M z x1 := by
  refine Only.iff (N := [.mg]) ?_ h
  clear h
  simp [frameOut, only_mk_mg]

@[simp] theorem only_frameCut (x0 x1) (M : List Part) (z : State) (h : [.mg] ⊆ M) : Only M z (frameCut x0 x1) ↔ Only M z x1 := by
  refine Only.iff (N := [.mg]) ?_ h
  clear h
  simp [frameCut, only_mk_mg]

@[simp] theorem only_discardItem (x0 x1 x2) (M : List Part) (z : State) (h : [.fab, .ser, .frm, .tb] ⊆ M) : Only M z (discardItem x0 x1 x2) ↔
    Only M z x2 := by
  refine Only.iff (N := [.fab, .ser, .frm, .tb]) ?_ h
  clear h
  simp [discardItem, only_mk_fab_ser_frm_tb]

@[simp] theorem only_stampFrame (x0 x1 x2 x3) (M : List Part) (z : State) (h : [.fab, .tb] ⊆ M) : Only M z (stampFrame x0 x1 x2 x3) ↔ Only M
    z x3 := by
  refine Only.iff (N := [.fab, .tb]) ?_ h
  clear h
  simp [stampFrame, only_mk_fab_tb]

@[simp] theorem only_readItem (x0 x1 x2) (M : List Part) (z : State) (h : [.fab] ⊆ M) : Only M z (readItem x0 x1 x2) ↔ Only M z x2 := by
  refine Only.iff (N := [.fab]) ?_ h
  clear h
  unfold readItem
  (try dsimp only)
  repeat' split
  all_goals simp [only_mk_fab]

@[simp] theorem only_beginItem (x0 x1 x2 x3 x4) (M : List Part) (z : State) (h : [.fab, .ser, .frm, .tb, .mg] ⊆ M) : Only M z (beginItem x0 x1
    x2 x3 x4) ↔ Only M z x4 := by
  refine Only.iff (N := [.fab, .ser, .frm, .tb, .mg]) ?_ h
  clear h
  simp [beginItem, only_mk_fab_ser_frm_tb_mg]

@[simp] theorem only_startItem (x0 x1 x2) (M : List Part) (z : State) (h : [.fab, .ser, .frm, .tb, .mg] ⊆ M) : Only M z (startItem x0 x1 x2)
    ↔ Only M z x2 := by
  refine Only.iff (N := [.fab, .ser, .frm, .tb, .mg]) ?_ h
  clear h
  unfold startItem
  (try dsimp only)
  repeat' split
  all_goals simp [only_mk_fab_ser_frm_tb_mg]

@[simp] theorem only_goOn (x0 x1 x2) (M : List Part) (z : State) (h : [.fab, .ser, .frm, .mg] ⊆ M) : Only M z (goOn x0 x1 x2) ↔ Only M z x2 := by
  refine Only.iff (N := [.fab, .ser, .frm, .mg]) ?_ h
  clear h
  unfold goOn
  (try dsimp only)
  repeat' split
  all_goals simp [only_mk_fab_ser_frm_mg]

@[simp] theorem only_cutStopped (x0 x1 x2) (M : List Part) (z : State) (h : [.fab, .ser, .frm, .mg] ⊆ M) : Only M z (cutStopped x0 x1 x2) ↔ Only
    M z x2 := by
  refine Only.iff (N := [.fab, .ser, .frm, .mg]) ?_ h
  clear h
  simp [cutStopped, only_mk_fab_ser_frm_mg]

@[simp] theorem only_sendQueued (x0 x1) (M : List Part) (z : State) (h : [.fab, .ser, .frm, .tb, .mg] ⊆ M) : Only M z (sendQueued x0 x1) ↔ Only
    M z x1 := by
  refine Only.iff (N := [.fab, .ser, .frm, .tb, .mg]) ?_ h
  clear h
  unfold sendQueued
  (try dsimp only)
  repeat' split
  all_goals simp [only_mk_fab_ser_frm_tb_mg]

@[simp] theorem only_mgSend (x0 x1 x2) (M : List Part) (z : State) (h : [.fab, .ser, .frm, .tb, .mg] ⊆ M) : Only M z (mgSend x0 x1 x2) ↔ Only
    M z x2 := by
  refine Only.iff (N := [.fab, .ser, .frm, .tb, .mg]) ?_ h
  clear h
  unfold mgSend
  (try dsimp only)
  repeat' split
  all_goals simp [only_mk_fab_ser_frm_tb_mg]

@[simp] theorem only_linkChange (x0 x1 x2) (M : List Part) (z : State) (h : [.fab, .mg] ⊆ M) : Only M z (linkChange x0 x1 x2) ↔ Only M z x2 := by
  refine Only.iff (N := [.fab, .mg]) ?_ h
  clear h
  simp [linkChange, only_mk_fab_mg]

@[simp] theorem only_partialWord (x0) (M : List Part) (z : State) (h : [.fab] ⊆ M) : Only M z (partialWord x0) ↔ Only M z x0 := by
  refine Only.iff (N := [.fab]) ?_ h
  clear h
  simp [partialWord, only_mk_fab]

@[simp] theorem only_ptrStep (x0) (M : List Part) (z : State) (h : [.slow] ⊆ M) : Only M z (ptrStep x0) ↔ Only M z x0 := by
  refine Only.iff (N := [.slow]) ?_ h
  clear h
  simp [ptrStep, only_mk_slow]

@[simp] theorem only_i2cBegin (x0 x1) (M : List Part) (z : State) (h : [.pw, .fab, .orb, .pll, .conv, .chan, .seams, .acq, .ser, .frm, .lnA,
    .lnB, .dlA, .dlB, .sup, .tb, .mg, .slow, .cal, .mon, .pls, .her] ⊆ M) : Only M z (i2cBegin x0 x1) ↔ Only M z x1 := by
  refine Only.iff (N := [.pw, .fab, .orb, .pll, .conv, .chan, .seams, .acq, .ser, .frm, .lnA, .lnB, .dlA, .dlB, .sup, .tb, .mg, .slow, .cal, .mon, .pls, .her]) ?_ h
  clear h
  simp [i2cBegin, only_mk_but_pending_jtag_ring_ringErr_feat_featErr_flint_fout_flintOn]

@[simp] theorem only_i2cCount (x0) (M : List Part) (z : State) (h : [.slow] ⊆ M) : Only M z (i2cCount x0) ↔ Only M z x0 := by
  refine Only.iff (N := [.slow]) ?_ h
  clear h
  simp [i2cCount, only_mk_slow]

@[simp] theorem only_i2cData (x0 x1 x2) (M : List Part) (z : State) (h : [.pw, .fab, .orb, .pll, .conv, .chan, .seams, .acq, .ser, .frm, .lnA,
    .lnB, .dlA, .dlB, .sup, .tb, .mg, .slow, .cal, .mon, .pls, .her] ⊆ M) : Only M z (i2cData x0 x1 x2) ↔ Only M z x2 := by
  refine Only.iff (N := [.pw, .fab, .orb, .pll, .conv, .chan, .seams, .acq, .ser, .frm, .lnA, .lnB, .dlA, .dlB, .sup, .tb, .mg, .slow, .cal, .mon, .pls, .her]) ?_ h
  clear h
  induction x0 generalizing x1 x2 with
  | zero => exact Only.refl _ _
  | succ n ih =>
    unfold i2cData
    dsimp only
    repeat' split
    · exact Only.refl _ _
    · simp
    · simp
    · exact Only.via (ih _ _) (List.Subset.refl _) (by simp)

@[simp] theorem only_i2cWrite (x0 x1 x2) (M : List Part) (z : State) (h : [.pw, .fab, .orb, .pll, .conv, .chan, .seams, .acq, .ser, .frm, .lnA,
    .lnB, .dlA, .dlB, .sup, .tb, .mg, .slow, .cal, .mon, .pls, .her] ⊆ M) : Only M z (i2cWrite x0 x1 x2) ↔ Only M z x2 := by
  refine Only.iff (N := [.pw, .fab, .orb, .pll, .conv, .chan, .seams, .acq, .ser, .frm, .lnA, .lnB, .dlA, .dlB, .sup, .tb, .mg, .slow, .cal, .mon, .pls, .her]) ?_ h
  clear h
  simp [i2cWrite, only_mk_but_pending_jtag_ring_ringErr_feat_featErr_flint_fout_flintOn]

@[simp] theorem only_i2cBytes (x0 x1 x2 x3) (M : List Part) (z : State) (h : [.pw, .fab, .orb, .pll, .conv, .chan, .seams, .acq, .ser, .frm,
    .lnA, .lnB, .dlA, .dlB, .sup, .tb, .mg, .slow, .cal, .mon, .pls, .her] ⊆ M) : Only M z ((i2cBytes x0 x1 x2 x3).2) ↔ Only M z x3 := by
  refine Only.iff (N := [.pw, .fab, .orb, .pll, .conv, .chan, .seams, .acq, .ser, .frm, .lnA, .lnB, .dlA, .dlB, .sup, .tb, .mg, .slow, .cal, .mon, .pls, .her]) ?_ h
  clear h
  induction x0 generalizing x1 x2 x3 with
  | zero => exact Only.refl _ _
  | succ n ih =>
    unfold i2cBytes
    dsimp only
    split
    · simp
    · exact Only.via (ih _ _ _) (List.Subset.refl _) (by simp)

@[simp] theorem only_i2cRead (x0 x1 x2) (M : List Part) (z : State) (h : [.pw, .fab, .orb, .pll, .conv, .chan, .seams, .acq, .ser, .frm, .lnA,
    .lnB, .dlA, .dlB, .sup, .tb, .mg, .slow, .cal, .mon, .pls, .her] ⊆ M) : Only M z (i2cRead x0 x1 x2) ↔ Only M z x2 := by
  refine Only.iff (N := [.pw, .fab, .orb, .pll, .conv, .chan, .seams, .acq, .ser, .frm, .lnA, .lnB, .dlA, .dlB, .sup, .tb, .mg, .slow, .cal, .mon, .pls, .her]) ?_ h
  clear h
  simp [i2cRead, only_mk_but_pending_jtag_ring_ringErr_feat_featErr_flint_fout_flintOn]

@[simp] theorem only_stretchLimit (x0 x1) (M : List Part) (z : State) (h : [.fab, .slow] ⊆ M) : Only M z (stretchLimit x0 x1) ↔ Only M z x1 := by
  refine Only.iff (N := [.fab, .slow]) ?_ h
  clear h
  simp [stretchLimit, only_mk_fab_slow]

@[simp] theorem only_loadIr (x0 x1 x2 x3) (M : List Part) (z : State) (h : [.jtag] ⊆ M) : Only M z (loadIr x0 x1 x2 x3) ↔ Only M z x3 := by
  refine Only.iff (N := [.jtag]) ?_ h
  clear h
  simp [loadIr, only_mk_jtag]

@[simp] theorem only_tapReset (x0 x1) (M : List Part) (z : State) (h : [.jtag] ⊆ M) : Only M z (tapReset x0 x1) ↔ Only M z x1 := by
  refine Only.iff (N := [.jtag]) ?_ h
  clear h
  simp [tapReset, only_mk_jtag]

@[simp] theorem only_pinLevels (x0) (M : List Part) (z : State) (h : [.pw] ⊆ M) : Only M z ((pinLevels x0).2) ↔ Only M z x0 := by
  refine Only.iff (N := [.pw]) ?_ h
  clear h
  simp [pinLevels, only_mk_pw]

@[simp] theorem only_samplePreload (x0 x1) (M : List Part) (z : State) (h : [.pw, .jtag] ⊆ M) : Only M z (samplePreload x0 x1) ↔ Only M z x1 := by
  refine Only.iff (N := [.pw, .jtag]) ?_ h
  clear h
  simp [samplePreload, only_mk_pw_jtag]

@[simp] theorem only_porRelease (x0 x1 x2) (M : List Part) (z : State) (h : [.pw, .fab, .cal] ⊆ M) : Only M z (porRelease x0 x1 x2) ↔ Only M
    z x2 := by
  refine Only.iff (N := [.pw, .fab, .cal]) ?_ h
  clear h
  simp [porRelease, only_mk_pw_fab_cal]

@[simp] theorem only_leaveAgain (x0 x1) (M : List Part) (z : State) (h : [.fab, .ser] ⊆ M) : Only M z (leaveAgain x0 x1) ↔ Only M z x1 := by
  refine Only.iff (N := [.fab, .ser]) ?_ h
  clear h
  simp [leaveAgain, only_mk_fab_ser]

@[simp] theorem only_xtalLoss (x0) (M : List Part) (z : State) (h : [.pw, .fab, .ser, .frm, .lnA, .lnB, .mg] ⊆ M) : Only M z (xtalLoss x0) ↔
    Only M z x0 := by
  refine Only.iff (N := [.pw, .fab, .ser, .frm, .lnA, .lnB, .mg]) ?_ h
  clear h
  simp [xtalLoss, only_mk_pw_fab_ser_frm_lnA_lnB_mg]

@[simp] theorem only_xtalReturn (x0) (M : List Part) (z : State) (h : [.pw, .fab, .ser, .lnA, .lnB] ⊆ M) : Only M z (xtalReturn x0) ↔ Only M
    z x0 := by
  refine Only.iff (N := [.pw, .fab, .ser, .lnA, .lnB]) ?_ h
  clear h
  simp [xtalReturn, only_mk_pw_fab_ser_lnA_lnB]

@[simp] theorem only_vddaLoss (x0) (M : List Part) (z : State) (h : [.pw, .fab, .orb, .pll, .conv, .fout, .acq, .ser, .frm, .lnA, .lnB, .mg]
    ⊆ M) : Only M z (vddaLoss x0) ↔ Only M z x0 := by
  refine Only.iff (N := [.pw, .fab, .orb, .pll, .conv, .fout, .acq, .ser, .frm, .lnA, .lnB, .mg]) ?_ h
  clear h
  simp [vddaLoss, only_mk_but_pending_jtag_chan_ring_ringErr_feat_featErr_flint_flintOn_seams_dlA_dlB_sup_tb_slow_cal_mon_pls_her]

@[simp] theorem only_vddaReturn (x0) (M : List Part) (z : State) (h : [.pw, .flint, .fout] ⊆ M) : Only M z (vddaReturn x0) ↔ Only M z x0 := by
  refine Only.iff (N := [.pw, .flint, .fout]) ?_ h
  clear h
  simp [vddaReturn, only_mk_pw_flint_fout]

@[simp] theorem only_vddioLoss (x0) (M : List Part) (z : State) (h : [.pw, .fab, .orb, .pll, .fout, .ser, .frm, .lnA, .lnB, .dlA, .dlB, .sup,
    .slow, .cal] ⊆ M) : Only M z (vddioLoss x0) ↔ Only M z x0 := by
  refine Only.iff (N := [.pw, .fab, .orb, .pll, .fout, .ser, .frm, .lnA, .lnB, .dlA, .dlB, .sup, .slow, .cal]) ?_ h
  clear h
  simp [vddioLoss, only_mk_but_pending_jtag_conv_chan_ring_ringErr_feat_featErr_flint_flintOn_seams_acq_tb_mg_mon_pls_her]

@[simp] theorem only_vddaTo (x0 x1) (M : List Part) (z : State) (h : [.pw, .fab, .orb, .pll, .conv, .flint, .fout, .acq, .ser, .frm, .lnA, .lnB,
    .mg] ⊆ M) : Only M z (vddaTo x0 x1) ↔ Only M z x1 := by
  refine Only.iff (N := [.pw, .fab, .orb, .pll, .conv, .flint, .fout, .acq, .ser, .frm, .lnA, .lnB, .mg]) ?_ h
  clear h
  simp [vddaTo, only_mk_but_pending_jtag_chan_ring_ringErr_feat_featErr_flintOn_seams_dlA_dlB_sup_tb_slow_cal_mon_pls_her]

@[simp] theorem only_vddioTo (x0 x1) (M : List Part) (z : State) (h : [.pw, .fab, .orb, .pll, .fout, .ser, .frm, .lnA, .lnB, .dlA, .dlB, .sup,
    .slow, .cal] ⊆ M) : Only M z (vddioTo x0 x1) ↔ Only M z x1 := by
  refine Only.iff (N := [.pw, .fab, .orb, .pll, .fout, .ser, .frm, .lnA, .lnB, .dlA, .dlB, .sup, .slow, .cal]) ?_ h
  clear h
  simp [vddioTo, only_mk_but_pending_jtag_conv_chan_ring_ringErr_feat_featErr_flint_flintOn_seams_acq_tb_mg_mon_pls_her]

@[simp] theorem only_corePagesReset (x0) (M : List Part) (z : State) (h : [.fab, .lnA, .lnB] ⊆ M) : Only M z (corePagesReset x0) ↔ Only M z x0 := by
  refine Only.iff (N := [.fab, .lnA, .lnB]) ?_ h
  clear h
  simp [corePagesReset, only_mk_fab_lnA_lnB]

@[simp] theorem only_coreFollows (x0) (M : List Part) (z : State) (h : [.frm, .lnA, .lnB] ⊆ M) : Only M z (coreFollows x0) ↔ Only M z x0 := by
  refine Only.iff (N := [.frm, .lnA, .lnB]) ?_ h
  clear h
  simp [coreFollows, only_mk_frm_lnA_lnB]

@[simp] theorem only_coreInit (x0 x1) (M : List Part) (z : State) (h : [.pw, .fab, .orb, .pll, .conv, .chan, .flint, .fout, .seams, .frm, .lnA,
    .lnB, .cal] ⊆ M) : Only M z (coreInit x0 x1) ↔ Only M z x1 := by
  refine Only.iff (N := [.pw, .fab, .orb, .pll, .conv, .chan, .flint, .fout, .seams, .frm, .lnA, .lnB, .cal]) ?_ h
  clear h
  simp [coreInit, only_mk_but_pending_jtag_ring_ringErr_feat_featErr_flintOn_acq_ser_dlA_dlB_sup_tb_mg_slow_mon_pls_her]

@[simp] theorem only_coreFirstLock (x0) (M : List Part) (z : State) (h : [.pw, .fab, .orb, .pll, .conv, .chan, .flint, .fout, .seams, .frm, .lnA,
    .lnB, .cal] ⊆ M) : Only M z (coreFirstLock x0) ↔ Only M z x0 := by
  refine Only.iff (N := [.pw, .fab, .orb, .pll, .conv, .chan, .flint, .fout, .seams, .frm, .lnA, .lnB, .cal]) ?_ h
  clear h
  unfold coreFirstLock
  (try dsimp only)
  repeat' split
  all_goals simp [only_mk_but_pending_jtag_ring_ringErr_feat_featErr_flintOn_acq_ser_dlA_dlB_sup_tb_mg_slow_mon_pls_her]

@[simp] theorem only_nextSlot (x0) (M : List Part) (z : State) (h : [.pw, .fab, .orb, .pll, .conv, .chan, .flint, .fout, .flintOn, .seams, .acq,
    .ser, .frm, .lnA, .lnB, .dlA, .dlB, .sup, .tb, .slow, .cal, .mon, .pls, .her] ⊆ M) : Only M z (nextSlot x0) ↔ Only M z x0 := by
  refine Only.iff (N := [.pw, .fab, .orb, .pll, .conv, .chan, .flint, .fout, .flintOn, .seams, .acq, .ser, .frm, .lnA, .lnB, .dlA, .dlB, .sup, .tb, .slow, .cal, .mon, .pls, .her]) ?_ h
  clear h
  simp [nextSlot, only_mk_but_pending_jtag_ring_ringErr_feat_featErr_mg]

@[simp] theorem only_slotOver (x0) (M : List Part) (z : State) (h : [.pw] ⊆ M) : Only M z (slotOver x0) ↔ Only M z x0 := by
  refine Only.iff (N := [.pw]) ?_ h
  clear h
  simp [slotOver, only_mk_pw]

@[simp] theorem only_endInterrupted (x0) (M : List Part) (z : State) (h : [.pw, .fab, .orb, .pll, .conv, .chan, .flint, .fout, .flintOn, .seams,
    .acq, .ser, .frm, .lnA, .lnB, .dlA, .dlB, .sup, .tb, .slow, .cal, .mon, .pls, .her] ⊆ M) : Only M z (endInterrupted x0) ↔ Only M z x0 :=
    by
  refine Only.iff (N := [.pw, .fab, .orb, .pll, .conv, .chan, .flint, .fout, .flintOn, .seams, .acq, .ser, .frm, .lnA, .lnB, .dlA, .dlB, .sup, .tb, .slow, .cal, .mon, .pls, .her]) ?_ h
  clear h
  simp [endInterrupted, only_mk_but_pending_jtag_ring_ringErr_feat_featErr_mg]

@[simp] theorem only_coreReturn (x0 x1) (M : List Part) (z : State) (h : [.pw, .fab, .orb, .pll, .conv, .chan, .flint, .fout, .flintOn, .seams,
    .acq, .ser, .frm, .lnA, .lnB, .dlA, .dlB, .sup, .tb, .slow, .cal, .mon, .pls, .her] ⊆ M) : Only M z (coreReturn x0 x1) ↔ Only M z x1 := by
  refine Only.iff (N := [.pw, .fab, .orb, .pll, .conv, .chan, .flint, .fout, .flintOn, .seams, .acq, .ser, .frm, .lnA, .lnB, .dlA, .dlB, .sup, .tb, .slow, .cal, .mon, .pls, .her]) ?_ h
  clear h
  simp [coreReturn, only_mk_but_pending_jtag_ring_ringErr_feat_featErr_mg]

@[simp] theorem only_coreResume (x0) (M : List Part) (z : State) (h : [.pw, .fab, .orb, .pll, .conv, .chan, .flint, .fout, .flintOn, .seams,
    .acq, .ser, .frm, .lnA, .lnB, .dlA, .dlB, .sup, .tb, .slow, .cal, .mon, .pls, .her] ⊆ M) : Only M z (coreResume x0) ↔ Only M z x0 := by
  refine Only.iff (N := [.pw, .fab, .orb, .pll, .conv, .chan, .flint, .fout, .flintOn, .seams, .acq, .ser, .frm, .lnA, .lnB, .dlA, .dlB, .sup, .tb, .slow, .cal, .mon, .pls, .her]) ?_ h
  clear h
  unfold coreResume
  (try dsimp only)
  repeat' split
  all_goals simp [only_mk_but_pending_jtag_ring_ringErr_feat_featErr_mg]

@[simp] theorem only_flushCmd (x0 x1 x2 x3) (M : List Part) (z : State) (h : [.pw, .fab, .orb, .pll, .conv, .chan, .seams, .acq, .ser, .frm,
    .lnA, .lnB, .dlA, .dlB, .sup, .tb, .mg, .slow, .cal, .mon, .pls, .her] ⊆ M) : Only M z (flushCmd x0 x1 x2 x3) ↔ Only M z x3 := by
  refine Only.iff (N := [.pw, .fab, .orb, .pll, .conv, .chan, .seams, .acq, .ser, .frm, .lnA, .lnB, .dlA, .dlB, .sup, .tb, .mg, .slow, .cal, .mon, .pls, .her]) ?_ h
  clear h
  simp [flushCmd, only_mk_but_pending_jtag_ring_ringErr_feat_featErr_flint_fout_flintOn]

@[simp] theorem only_pinsSeen (x0 x1) (M : List Part) (z : State) (h : [.pw, .fab, .orb, .pll, .conv, .chan, .acq, .ser, .frm, .lnA, .lnB, .dlA,
    .dlB, .tb, .pls] ⊆ M) : Only M z (pinsSeen x0 x1) ↔ Only M z x1 := by
  refine Only.iff (N := [.pw, .fab, .orb, .pll, .conv, .chan, .acq, .ser, .frm, .lnA, .lnB, .dlA, .dlB, .tb, .pls]) ?_ h
  clear h
  simp [pinsSeen, only_mk_but_pending_jtag_ring_ringErr_feat_featErr_flint_fout_flintOn_seams_sup_mg_slow_cal_mon_her]

@[simp] theorem only_serData (x0 x1 x2) (M : List Part) (z : State) (h : [.fab, .seams, .acq, .ser, .frm, .her] ⊆ M) : Only M z (serData x0 x1
    x2) ↔ Only M z x2 := by
  refine Only.iff (N := [.fab, .seams, .acq, .ser, .frm, .her]) ?_ h
  clear h
  simp [serData, only_mk_fab_seams_acq_ser_frm_her]

@[simp] theorem only_serHdr (x0 x1 x2 x3) (M : List Part) (z : State) (h : [.ser] ⊆ M) : Only M z (serHdr x0 x1 x2 x3) ↔ Only M z x3 := by
  refine Only.iff (N := [.ser]) ?_ h
  clear h
  simp [serHdr, only_mk_ser]

@[simp] theorem only_serEnd (x0 x1 x2 x3) (M : List Part) (z : State) (h : [.fab, .seams, .acq, .ser, .frm, .her] ⊆ M) : Only M z (serEnd x0
    x1 x2 x3) ↔ Only M z x3 := by
  refine Only.iff (N := [.fab, .seams, .acq, .ser, .frm, .her]) ?_ h
  clear h
  simp [serEnd, only_mk_fab_seams_acq_ser_frm_her]

@[simp] theorem only_serCancel (x0 x1) (M : List Part) (z : State) (h : [.fab, .seams, .acq, .ser, .frm, .her] ⊆ M) : Only M z (serCancel x0
    x1) ↔ Only M z x1 := by
  refine Only.iff (N := [.fab, .seams, .acq, .ser, .frm, .her]) ?_ h
  clear h
  simp [serCancel, only_mk_fab_seams_acq_ser_frm_her]

@[simp] theorem only_heldDone (x0 x1) (M : List Part) (z : State) (h : [.fab, .seams, .acq, .ser, .frm, .her] ⊆ M) : Only M z (heldDone x0 x1)
    ↔ Only M z x1 := by
  refine Only.iff (N := [.fab, .seams, .acq, .ser, .frm, .her]) ?_ h
  clear h
  simp [heldDone, only_mk_fab_seams_acq_ser_frm_her]

end

end Sys2Proof.Machine
end

