-- ==== Sys2Proof/Laws/Canon.lean ====
section
/-! SUPPORT. The canonical form of the sparse memories is kept by every operation: one lemma per operation, in the order of the
definition files. -/

namespace Sys2Proof.Machine

section
set_option linter.unusedTactic false
set_option linter.unusedSimpArgs false
set_option linter.unusedVariables false
set_option linter.unreachableTactic false

/-- The canonical form, part by part. -/
structure CanonFab (f : Fabric) : Prop where
  regs    : keysFrom 0 f.regs = true
  pages   : keysFrom 0 f.pages = true
  tallies : ∀ e ∈ f.pages, keysFrom 0 e.2.tally = true
structure CanonOrb (o : Orbit) : Prop where
  live    : ramWf 0 o.live = true
  shadow  : ramWf 0 o.shadow = true
def CanonRing (r : Ram (BitVec 16)) : Prop := ramWf 0 r = true
def CanonSlow (w : Slow) : Prop := ramWf 0xFF w.flash = true
theorem canonical_iff (s : State) : Canonical s ↔ CanonFab s.fab ∧ CanonOrb s.orb ∧ CanonRing s.ring ∧ CanonSlow s.slow :=
  ⟨fun h => ⟨⟨h.regs, h.pages, h.tallies⟩, ⟨h.live, h.shadow⟩, h.ring, h.flash⟩,
   fun ⟨a, b, c, d⟩ => ⟨a.regs, a.pages, a.tallies, b.live, b.shadow, c, d⟩⟩
theorem canonical_mk (p w j f o pl cv ch r re ft fe fl fo fon sm acq ser frm la lb da db su tb mg sl ca mo ps he) :
    Canonical (State.mk p w j f o pl cv ch r re ft fe fl fo fon sm acq ser frm la lb da db su tb mg sl ca mo ps he) ↔
      CanonFab f ∧ CanonOrb o ∧ CanonRing r ∧ CanonSlow sl := canonical_iff _
theorem canonFab_mk (a b c d e g p m n o q r i w st l u v) :
    CanonFab (Fabric.mk a b c d e g p m n o q r i w st l u v) ↔ keysFrom 0 a = true ∧ (keysFrom 0 p = true ∧ ∀ e ∈ p, keysFrom 0 e.2.tally = true) :=
  ⟨fun h => ⟨h.regs, h.pages, h.tallies⟩, fun ⟨x, y, z⟩ => ⟨x, y, z⟩⟩
theorem canonOrb_mk (a b c d e f g h i j k l m n o) :
    CanonOrb (Orbit.mk a b c d e f g h i j k l m n o) ↔ ramWf 0 i = true ∧ ramWf 0 j = true :=
  ⟨fun h => ⟨h.live, h.shadow⟩, fun ⟨x, y⟩ => ⟨x, y⟩⟩
theorem canonSlow_mk (a b c d e f g h i j k l m n o p q r) : CanonSlow (Slow.mk a b c d e f g h i j k l m n o p q r) ↔ ramWf 0xFF e = true := Iff.rfl
theorem Canonical.fabOk {s} (h : Canonical s) : CanonFab s.fab := ⟨h.regs, h.pages, h.tallies⟩
theorem Canonical.orbOk {s} (h : Canonical s) : CanonOrb s.orb := ⟨h.live, h.shadow⟩
theorem Canonical.ringOk {s} (h : Canonical s) : CanonRing s.ring := h.ring
theorem Canonical.slowOk {s} (h : Canonical s) : CanonSlow s.slow := h.flash
theorem Canonical.pagesOk {s} (h : Canonical s) : keysFrom 0 s.fab.pages = true ∧ ∀ e ∈ s.fab.pages, keysFrom 0 e.2.tally = true := ⟨h.pages,
    h.tallies⟩
theorem keys_regPut {r : Ram Tri} (h : keysFrom 0 r = true) (p o v) : keysFrom 0 (regPut r p o v) = true := keysFrom_ramPut _ h _ _ (Nat.zero_le _)
theorem canon_foldl {α : Type} {g : State → α → State} {l : List α} {s : State} (h : ∀ v x, Canonical v → Canonical (g v x)) (hs : Canonical s) :
    Canonical (l.foldl g s) := by
  induction l generalizing s with
  | nil => exact hs
  | cons a t ih => exact ih (h s a hs)
theorem canon_iterate {g : State → State} {n : Nat} {s : State} (h : ∀ v, Canonical v → Canonical (g v)) (hs : Canonical s) : Canonical (Nat.iterate
    g n s) := by
  induction n generalizing s with
  | zero => exact hs
  | succ k ih => exact ih (h s hs)

theorem canon_modPage (p : Nat) (f : PageSt → PageSt) (s : State) (hf : ∀ x, keysFrom 0 x.tally = true → keysFrom 0 (f x).tally = true)
    (h : Canonical s) : Canonical (modPage p f s) := by
  have hp : keysFrom 0 (pageSt s p).tally = true := by
    unfold pageSt
    generalize hm : s.fab.pages = m
    have ht := h.tallies
    rw [hm] at ht
    clear hm
    induction m with
    | nil => rfl
    | cons e t ih =>
      unfold ramGet
      split
      · rfl
      · split
        · exact ht _ (List.mem_cons_self ..)
        · exact ih (fun e he => ht e (List.mem_cons_of_mem _ he))
  unfold modPage
  simp only [canonical_mk, canonFab_mk]
  refine ⟨⟨h.regs, keysFrom_ramPut _ h.pages _ _ (Nat.zero_le _), fun e he => ?_⟩, h.orbOk, h.ringOk, h.slowOk⟩
  rcases mem_ramPut _ _ _ _ e he with h1 | ⟨h1, _⟩
  · exact h.tallies e h1
  · rw [h1]; exact hf _ hp
theorem ramWf_puts {α : Type} [DecidableEq α] (d : α) (l : List (Nat × α)) {m : Ram α} (h : ramWf d m = true) :
    ramWf d (l.foldl (fun m e => ramPut d m e.1 e.2) m) = true := by
  induction l generalizing m with
  | nil => exact h
  | cons e t ih => exact ih (ramWf_ramPut d h _ _)
theorem keysFrom_map {α : Type} (f : Nat × α → Nat × α) (hf : ∀ e, (f e).1 = e.1) {lo : Nat} {m : Ram α} (h : keysFrom lo m = true) :
    keysFrom lo (m.map f) = true := by
  induction m generalizing lo with
  | nil => rfl
  | cons e t ih =>
    obtain ⟨k, v⟩ := e
    simp only [keysFrom, Bool.and_eq_true, decide_eq_true_eq] at h
    have hk : (f (k, v)).1 = k := hf (k, v)
    rw [List.map_cons, show f (k, v) = (k, (f (k, v)).2) from Prod.ext hk rfl]
    simp [keysFrom, h.1, ih h.2]
theorem keys_foldl {α β : Type} (g : Ram α → β → Ram α) (hg : ∀ m b, keysFrom 0 m = true → keysFrom 0 (g m b) = true) (l : List β)
    {m : Ram α} (h : keysFrom 0 m = true) : keysFrom 0 (l.foldl g m) = true := by
  induction l generalizing m with
  | nil => exact h
  | cons b t ih => exact ih (hg m b h)
theorem ramWf_foldl {α β : Type} [DecidableEq α] (d : α) (g : Ram α → β → Ram α) (hg : ∀ m b, ramWf d m = true → ramWf d (g m b) = true)
    (l : List β) {m : Ram α} (h : ramWf d m = true) : ramWf d (l.foldl g m) = true := by
  induction l generalizing m with
  | nil => exact h
  | cons b t ih => exact ih (hg m b h)
theorem canon_ite {c : Prop} [Decidable c] {a b : State} (ha : Canonical a) (hb : Canonical b) : Canonical (if c then a else b) := by
  split
  · exact ha
  · exact hb
theorem keys_candRegs (s : State) (ps : List Nat) (h : Canonical s) : keysFrom 0 (candRegs s ps) = true :=
  keys_foldl _ (fun m p hm => keys_foldl _ (fun m e hm => keys_regPut hm _ _ _) _ hm) _ h.regs
theorem canon_parts {u : State} (h : Canonical u) : CanonFab u.fab ∧ CanonOrb u.orb ∧ CanonRing u.ring ∧ CanonSlow u.slow :=
  (canonical_iff u).1 h
/-- What touches neither the fabric nor the orbit, the ring or the flash keeps the canonical form. -/
theorem Canonical.only {M : List Part} {s t : State} (h : Canonical s) (k : Only M s t)
    (hM : Part.fab ∉ M ∧ Part.orb ∉ M ∧ Part.ring ∉ M ∧ Part.slow ∉ M) : Canonical t := by
  have a : t.fab = s.fab := k .fab hM.1
  have b : t.orb = s.orb := k .orb hM.2.1
  have c : t.ring = s.ring := k .ring hM.2.2.1
  have d : t.slow = s.slow := k .slow hM.2.2.2
  rw [canonical_iff, a, b, c, d]
  exact canon_parts h

/-! ### One lemma per operation -/

theorem canon_modLn (x0 x1 x2) (h : Canonical x2) : Canonical (modLn x0 x1 x2) :=
  h.only ((only_modLn x0 x1 x2 [.lnA, .lnB] _ (List.Subset.refl _)).2 (Only.refl _ _)) (by decide)

theorem canon_modDl (x0 x1 x2) (h : Canonical x2) : Canonical (modDl x0 x1 x2) :=
  h.only ((only_modDl x0 x1 x2 [.dlA, .dlB] _ (List.Subset.refl _)).2 (Only.refl _ _)) (by decide)

theorem canon_modTs (x0 x1 x2) (h : Canonical x2) : Canonical (modTs x0 x1 x2) :=
  h.only ((only_modTs x0 x1 x2 [.sup] _ (List.Subset.refl _)).2 (Only.refl _ _)) (by decide)

theorem canon_modConv (x0 x1 x2) (h : Canonical x2) : Canonical (modConv x0 x1 x2) :=
  h.only ((only_modConv x0 x1 x2 [.conv] _ (List.Subset.refl _)).2 (Only.refl _ _)) (by decide)

theorem canon_modChan (x0 x1 x2) (h : Canonical x2) : Canonical (modChan x0 x1 x2) :=
  h.only ((only_modChan x0 x1 x2 [.chan] _ (List.Subset.refl _)).2 (Only.refl _ _)) (by decide)

theorem canon_modFlint (x0 x1 x2) (h : Canonical x2) : Canonical (modFlint x0 x1 x2) :=
  h.only ((only_modFlint x0 x1 x2 [.flint] _ (List.Subset.refl _)).2 (Only.refl _ _)) (by decide)

theorem canon_modFout (x0 x1 x2) (h : Canonical x2) : Canonical (modFout x0 x1 x2) :=
  h.only ((only_modFout x0 x1 x2 [.fout] _ (List.Subset.refl _)).2 (Only.refl _ _)) (by decide)

theorem canon_modSeam (x0 x1 x2) (h : Canonical x2) : Canonical (modSeam x0 x1 x2) :=
  h.only ((only_modSeam x0 x1 x2 [.seams] _ (List.Subset.refl _)).2 (Only.refl _ _)) (by decide)

theorem canon_modQ (x0 x1 x2) (h : Canonical x2) : Canonical (modQ x0 x1 x2) :=
  h.only ((only_modQ x0 x1 x2 [.ser] _ (List.Subset.refl _)).2 (Only.refl _ _)) (by decide)

theorem canon_modMaster (x0 x1 x2) (h : Canonical x2) : Canonical (modMaster x0 x1 x2) := by
  unfold modMaster
  simp only [canonical_mk, canonFab_mk]
  exact ⟨⟨h.regs, h.pagesOk⟩, h.orbOk, h.ringOk, h.slowOk⟩

theorem canon_setReg (x0 x1 x2 x3) (h : Canonical x3) : Canonical (setReg x0 x1 x2 x3) := by
  unfold setReg
  simp only [canonical_mk, canonFab_mk]
  exact ⟨⟨keys_regPut h.regs _ _ _, h.pagesOk⟩, h.orbOk, h.ringOk, h.slowOk⟩

theorem canon_bump (x0 x1 x2) (h : Canonical x2) : Canonical (bump x0 x1 x2) := by
  unfold bump
  (try dsimp only)
  repeat' first
    | with_reducible assumption | (with_reducible refine canon_modPage _ _ _ (fun x hx => ?_) ?_)
    | exact keysFrom_ramPut _ hx _ _ (Nat.zero_le _)

theorem canon_noticeIn (x0 x1 x2) (h : Canonical x2) : Canonical (noticeIn x0 x1 x2) := by
  unfold noticeIn
  (try dsimp only)
  repeat' first
    | with_reducible assumption | (with_reducible refine canon_modPage _ _ _ (fun x hx => ?_) ?_)
    | simp only [canonical_mk, canonFab_mk, canonOrb_mk, canonSlow_mk] | refine ⟨?_, ?_⟩ | with_reducible apply Canonical.ringOk
    | with_reducible apply Canonical.slowOk | with_reducible apply Canonical.regs | with_reducible apply Canonical.pages
    | with_reducible apply Canonical.tallies | with_reducible apply Canonical.live | with_reducible apply Canonical.shadow

theorem canon_noticeLost (x0 x1) (h : Canonical x1) : Canonical (noticeLost x0 x1) := by
  unfold noticeLost
  (try dsimp only)
  repeat' first
    | with_reducible assumption | (with_reducible refine canon_modPage _ _ _ (fun x hx => ?_) ?_) | with_reducible apply canon_bump
    | simp only [canonical_mk, canonFab_mk, canonOrb_mk, canonSlow_mk] | refine ⟨?_, ?_⟩ | with_reducible apply Canonical.ringOk
    | with_reducible apply Canonical.slowOk | with_reducible apply Canonical.regs | with_reducible apply Canonical.pages
    | with_reducible apply Canonical.tallies | with_reducible apply Canonical.live | with_reducible apply Canonical.shadow

theorem canon_noticeDrop (x0) (h : Canonical x0) : Canonical (noticeDrop x0) := by
  unfold noticeDrop
  (try dsimp only)
  repeat' first
    | with_reducible assumption | split | (with_reducible refine canon_modPage _ _ _ (fun x hx => ?_) ?_)
    | with_reducible apply canon_noticeLost | simp only [canonical_mk, canonFab_mk, canonOrb_mk, canonSlow_mk] | refine ⟨?_, ?_⟩
    | with_reducible apply Canonical.ringOk | with_reducible apply Canonical.slowOk | with_reducible apply Canonical.regs
    | with_reducible apply Canonical.pages | with_reducible apply Canonical.tallies | with_reducible apply Canonical.live
    | with_reducible apply Canonical.shadow

theorem canon_storeNotice (x0 x1 x2) (h : Canonical x2) : Canonical (storeNotice x0 x1 x2) := by
  unfold storeNotice
  (try dsimp only)
  repeat' first
    | with_reducible assumption | with_reducible apply canon_ite | with_reducible apply canon_noticeLost
    | with_reducible apply canon_noticeDrop | with_reducible apply canon_noticeIn

theorem canon_gapNotice (x0 x1 x2) (h : Canonical x2) : Canonical (gapNotice x0 x1 x2) := by
  unfold gapNotice
  (try dsimp only)
  repeat' first
    | with_reducible assumption | (with_reducible refine canon_modPage _ _ _ (fun x hx => ?_) ?_) | with_reducible apply canon_bump
    | simp only [canonical_mk, canonFab_mk, canonOrb_mk, canonSlow_mk] | refine ⟨?_, ?_⟩ | with_reducible apply Canonical.ringOk
    | with_reducible apply Canonical.slowOk | with_reducible apply Canonical.regs | with_reducible apply Canonical.pages
    | with_reducible apply Canonical.tallies | with_reducible apply Canonical.live | with_reducible apply Canonical.shadow

theorem canon_postNotice (x0 x1 x2) (h : Canonical x2) : Canonical (postNotice x0 x1 x2) := by
  unfold postNotice
  (try dsimp only)
  repeat' first
    | with_reducible assumption | with_reducible apply canon_ite | with_reducible apply canon_storeNotice
    | with_reducible apply canon_gapNotice | (with_reducible refine canon_modPage _ _ _ (fun x hx => ?_) ?_)

theorem canon_releaseHeld (x0) (h : Canonical x0) : Canonical (releaseHeld x0) := by
  unfold releaseHeld
  (try dsimp only)
  repeat' first
    | with_reducible assumption | split | with_reducible apply canon_storeNotice | with_reducible apply canon_bump
    | (with_reducible refine canon_modPage _ _ _ (fun x hx => ?_) ?_)
    | (with_reducible apply canon_foldl; intro _ _ _; (try dsimp only)) | (with_reducible apply canon_iterate; intro _ _)

theorem canon_countD (x0 x1 x2 x3) (h : Canonical x3) : Canonical (countD x0 x1 x2 x3) := by
  unfold countD
  (try dsimp only)
  repeat' first
    | with_reducible assumption | with_reducible apply canon_ite | with_reducible apply canon_postNotice
    | with_reducible apply canon_bump

theorem canon_count (x0 x1 x2) (h : Canonical x2) : Canonical (count x0 x1 x2) := by
  unfold count
  (try dsimp only)
  repeat' first
    | with_reducible assumption | with_reducible apply canon_countD

theorem canon_countN (x0 x1 x2 x3) (h : Canonical x3) : Canonical (countN x0 x1 x2 x3) := by
  unfold countN
  (try dsimp only)
  repeat' first
    | with_reducible assumption | with_reducible apply canon_count | (with_reducible apply canon_iterate; intro _ _)

theorem canon_refuse (x0 x1 x2 x3) (h : Canonical x3) : Canonical (refuse x0 x1 x2 x3) := by
  unfold refuse
  (try dsimp only)
  repeat' first
    | with_reducible assumption | with_reducible apply canon_postNotice
    | (with_reducible refine canon_modPage _ _ _ (fun x hx => ?_) ?_)

theorem canon_refuseAt (x0 x1 x2 x3) (h : Canonical x3) : Canonical (refuseAt x0 x1 x2 x3) := by
  unfold refuseAt
  (try dsimp only)
  repeat' first
    | with_reducible assumption | with_reducible apply canon_refuse | with_reducible apply canon_modMaster

theorem canon_tbAdvance (x0 x1) (h : Canonical x1) : Canonical (tbAdvance x0 x1) :=
  h.only ((only_tbAdvance x0 x1 [.tb] _ (List.Subset.refl _)).2 (Only.refl _ _)) (by decide)

theorem canon_coreCycles (x0 x1) (h : Canonical x1) : Canonical (coreCycles x0 x1) :=
  h.only ((only_coreCycles x0 x1 [.pw, .tb] _ (List.Subset.refl _)).2 (Only.refl _ _)) (by decide)

theorem canon_idleCycle (x0) (h : Canonical x0) : Canonical (idleCycle x0) :=
  h.only ((only_idleCycle x0 [.pw, .tb] _ (List.Subset.refl _)).2 (Only.refl _ _)) (by decide)

theorem canon_modTag (x0 x1) (h : Canonical x1) : Canonical (modTag x0 x1) := by
  unfold modTag
  (try dsimp only)
  repeat' first
    | with_reducible assumption | simp only [canonical_mk, canonFab_mk, canonOrb_mk, canonSlow_mk] | refine ⟨?_, ?_⟩
    | with_reducible apply Canonical.fabOk | with_reducible apply Canonical.ringOk | with_reducible apply Canonical.slowOk
    | with_reducible apply Canonical.live | with_reducible apply Canonical.shadow

theorem canon_takeFree (x0) (h : Canonical x0) : Canonical ((takeFree x0).2) :=
  h.only ((only_takeFree x0 [.pw] _ (List.Subset.refl _)).2 (Only.refl _ _)) (by decide)

theorem canon_spoilFlash (a n) (x0) (h : Canonical x0) : Canonical (spoilFlash a n x0) :=
  ⟨h.regs, h.pages, h.tallies, h.live, h.shadow, h.ring, ramWf_ramPutBytes _ _ h.flash _⟩

theorem canon_onRise (x0 x1 x2 x3 x4 x5) (h : Canonical x5) : Canonical (onRise x0 x1 x2 x3 x4 x5) := by
  unfold onRise
  (try dsimp only)
  repeat' first
    | with_reducible assumption | with_reducible apply canon_ite | with_reducible apply canon_countD

theorem canon_qSync (x0 x1) (h : Canonical x1) : Canonical (qSync x0 x1) := by
  unfold qSync
  (try dsimp only)
  repeat' first
    | with_reducible assumption | with_reducible apply canon_onRise | with_reducible apply canon_modQ

theorem canon_unfitSync (x0) (h : Canonical x0) : Canonical (unfitSync x0) := by
  unfold unfitSync
  (try dsimp only)
  repeat' first
    | with_reducible assumption | with_reducible apply canon_onRise | simp only [canonical_mk] | with_reducible apply canon_parts

theorem canon_seraiSync (x0) (h : Canonical x0) : Canonical (seraiSync x0) := by
  unfold seraiSync
  (try dsimp only)
  repeat' first
    | with_reducible assumption | with_reducible apply canon_onRise | with_reducible apply canon_unfitSync
    | with_reducible apply canon_qSync | (with_reducible apply canon_foldl; intro _ _ _; (try dsimp only)) | simp only [canonical_mk]
    | with_reducible apply canon_parts

theorem canon_dropRetained (x0 x1 x2) (h : Canonical x2) : Canonical (dropRetained x0 x1 x2) :=
  h.only ((only_dropRetained x0 x1 x2 [.ser] _ (List.Subset.refl _)).2 (Only.refl _ _)) (by decide)

theorem canon_releaseFor (x0 x1 x2) (h : Canonical x2) : Canonical (releaseFor x0 x1 x2) := by
  induction x1 generalizing x2 with
  | zero => exact h
  | succ k ih =>
    unfold releaseFor
    repeat' split
    · exact h
    · exact h
    · exact ih _ (canon_count _ _ _ (canon_dropRetained _ _ _ h))

theorem canon_releaseRetained (x0 x1) (h : Canonical x1) : Canonical (releaseRetained x0 x1) := by
  unfold releaseRetained
  (try dsimp only)
  repeat' first
    | with_reducible assumption | with_reducible apply canon_releaseFor

theorem canon_putBytes (x0 x1 x2) (h : Canonical x2) : Canonical (putBytes x0 x1 x2) :=
  h.only ((only_putBytes x0 x1 x2 [.ser] _ (List.Subset.refl _)).2 (Only.refl _ _)) (by decide)

theorem canon_closeBale (x0 x1) (h : Canonical x1) : Canonical (closeBale x0 x1) :=
  h.only ((only_closeBale x0 x1 [.ser] _ (List.Subset.refl _)).2 (Only.refl _ _)) (by decide)

theorem canon_wrData (x0 x1 x2) (h : Canonical x2) : Canonical (wrData x0 x1 x2) := by
  unfold wrData
  (try dsimp only)
  repeat' first
    | with_reducible assumption | with_reducible apply canon_ite | with_reducible apply canon_modQ
    | with_reducible apply canon_putBytes | with_reducible apply canon_seraiSync

theorem canon_wrEnd (x0 x1 x2 x3) (h : Canonical x3) : Canonical (wrEnd x0 x1 x2 x3) := by
  unfold wrEnd
  (try dsimp only)
  repeat' first
    | with_reducible assumption | with_reducible apply canon_ite | with_reducible apply canon_modQ
    | with_reducible apply canon_putBytes | with_reducible apply canon_closeBale | with_reducible apply canon_seraiSync

theorem canon_wrHdr (x0 x1 x2 x3) (h : Canonical x3) : Canonical (wrHdr x0 x1 x2 x3) :=
  h.only ((only_wrHdr x0 x1 x2 x3 [.ser] _ (List.Subset.refl _)).2 (Only.refl _ _)) (by decide)

theorem canon_cancelBale (x0 x1) (h : Canonical x1) : Canonical (cancelBale x0 x1) := by
  unfold cancelBale
  (try dsimp only)
  repeat' first
    | with_reducible assumption | split | with_reducible apply canon_modQ | with_reducible apply canon_count
    | with_reducible apply canon_seraiSync

theorem canon_stampClose (x0 x1) (h : Canonical x1) : Canonical (stampClose x0 x1) :=
  h.only ((only_stampClose x0 x1 [.ser] _ (List.Subset.refl _)).2 (Only.refl _ _)) (by decide)

theorem canon_pourCell (x0 x1) (h : Canonical x1) : Canonical (pourCell x0 x1) :=
  h.only ((only_pourCell x0 x1 [.ser] _ (List.Subset.refl _)).2 (Only.refl _ _)) (by decide)

theorem canon_pourGo (x0 x1 x2) (h : Canonical x2) : Canonical (pourGo x0 x1 x2) := by
  induction x1 generalizing x2 with
  | zero => exact h
  | succ k ih =>
    unfold pourGo
    split
    · exact ih _ (canon_pourCell _ _ h)
    · exact h

theorem canon_pour (x0 x1) (h : Canonical x1) : Canonical (pour x0 x1) :=
  h.only ((only_pour x0 x1 [.ser] _ (List.Subset.refl _)).2 (Only.refl _ _)) (by decide)

theorem canon_pourHeldGo (x0 x1 x2) (h : Canonical x2) : Canonical (pourHeldGo x0 x1 x2) := by
  induction x1 generalizing x2 with
  | zero => exact h
  | succ k ih =>
    unfold pourHeldGo
    dsimp only
    have h1 := canon_pour x0 _ h
    repeat' split
    · exact h1
    · exact ih _ (canon_releaseRetained _ _ h1)
    · exact canon_releaseRetained _ _ h1
    · exact h1

theorem canon_pourHeld (x0 x1) (h : Canonical x1) : Canonical (pourHeld x0 x1) := by
  unfold pourHeld
  (try dsimp only)
  repeat' first
    | with_reducible assumption | with_reducible apply canon_pourHeldGo

theorem canon_writeBale (x0 x1 x2) (h : Canonical x2) : Canonical (writeBale x0 x1 x2) := by
  unfold writeBale
  (try dsimp only)
  repeat' first
    | with_reducible assumption | with_reducible apply canon_modQ | with_reducible apply canon_pour
    | with_reducible apply canon_seraiSync

theorem canon_heldComplete (x0 x1) (h : Canonical x1) : Canonical (heldComplete x0 x1) := by
  unfold heldComplete
  (try dsimp only)
  repeat' first
    | with_reducible assumption | with_reducible apply canon_ite | split | with_reducible apply canon_pourHeld
    | with_reducible apply canon_closeBale | with_reducible apply canon_putBytes | with_reducible apply canon_seraiSync
    | with_reducible apply canon_releaseRetained

theorem canon_headSent (x0 x1) (h : Canonical x1) : Canonical (headSent x0 x1) := by
  unfold headSent
  (try dsimp only)
  repeat' first
    | with_reducible assumption | split | with_reducible apply canon_modQ | with_reducible apply canon_seraiSync

theorem canon_retentionEnd (x0 x1) (h : Canonical x1) : Canonical (retentionEnd x0 x1) := by
  unfold retentionEnd
  (try dsimp only)
  repeat' first
    | with_reducible assumption | with_reducible apply canon_modQ | with_reducible apply canon_seraiSync

theorem canon_startReplay (x0) (h : Canonical x0) : Canonical (startReplay x0) := by
  unfold startReplay
  (try dsimp only)
  repeat' first
    | with_reducible assumption | with_reducible apply canon_count | simp only [canonical_mk] | with_reducible apply canon_parts

theorem canon_queueDrained (x0 x1) (h : Canonical x1) : Canonical (queueDrained x0 x1) :=
  h.only ((only_queueDrained x0 x1 [.ser] _ (List.Subset.refl _)).2 (Only.refl _ _)) (by decide)

theorem canon_applyQen (x0 x1) (h : Canonical x1) : Canonical (applyQen x0 x1) := by
  unfold applyQen
  (try dsimp only)
  repeat' first
    | with_reducible assumption | with_reducible apply canon_ite | with_reducible apply canon_count | with_reducible apply canon_modQ

theorem canon_discardHost (x0) (h : Canonical x0) : Canonical (discardHost x0) := by
  unfold discardHost
  (try dsimp only)
  repeat' first
    | with_reducible assumption | with_reducible apply canon_count

theorem canon_hostSel (x0 x1 x2) (h : Canonical x2) : Canonical (hostSel x0 x1 x2) := by
  unfold hostSel
  (try dsimp only)
  repeat' first
    | with_reducible assumption | split | with_reducible apply canon_setReg | with_reducible apply canon_cancelBale
    | simp only [canonical_mk] | with_reducible apply canon_parts

theorem canon_hostWord (x0 x1 x2 x3) (h : Canonical x3) : Canonical (hostWord x0 x1 x2 x3) := by
  unfold hostWord
  (try dsimp only)
  repeat' first
    | with_reducible assumption | with_reducible apply canon_ite | split | with_reducible apply canon_cancelBale
    | with_reducible apply canon_wrEnd | with_reducible apply canon_wrData | with_reducible apply canon_discardHost

theorem canon_hostHdr (x0 x1 x2 x3) (h : Canonical x3) : Canonical (hostHdr x0 x1 x2 x3) := by
  unfold hostHdr
  (try dsimp only)
  repeat' first
    | with_reducible assumption | with_reducible apply canon_ite | with_reducible apply canon_wrHdr
    | with_reducible apply canon_discardHost

theorem canon_hostCtl (x0 x1 x2) (h : Canonical x2) : Canonical (hostCtl x0 x1 x2) := by
  unfold hostCtl
  (try dsimp only)
  repeat' first
    | with_reducible assumption | with_reducible apply canon_ite | with_reducible apply canon_cancelBale
    | with_reducible apply canon_setReg | with_reducible apply canon_discardHost

theorem canon_eccRead (x0 x1 x2 x3 x4) (h : Canonical x4) : Canonical (eccRead x0 x1 x2 x3 x4) := by
  unfold eccRead
  (try dsimp only)
  repeat' first
    | with_reducible assumption | with_reducible apply canon_ite | with_reducible apply canon_countD | with_reducible apply canon_count
    | (with_reducible apply canon_foldl; intro _ _ _; (try dsimp only))

theorem canon_setRd (x0 x1 x2 x3) (h : Canonical x3) : Canonical (setRd x0 x1 x2 x3) :=
  h.only ((only_setRd x0 x1 x2 x3 [.ser] _ (List.Subset.refl _)).2 (Only.refl _ _)) (by decide)

theorem canon_hostRead (x0 x1) (h : Canonical x1) : Canonical ((hostRead x0 x1).2) := by
  unfold hostRead
  (try dsimp only)
  repeat' first
    | with_reducible assumption | split | with_reducible apply canon_seraiSync | with_reducible apply canon_eccRead
    | with_reducible apply canon_count | with_reducible apply canon_countD | with_reducible apply canon_modQ
    | with_reducible apply canon_setRd | with_reducible apply canon_discardHost

theorem canon_seraiReset (x0) (h : Canonical x0) : Canonical (seraiReset x0) := by
  unfold seraiReset
  (try dsimp only)
  repeat' first
    | with_reducible assumption | split | with_reducible apply canon_cancelBale | simp only [canonical_mk]
    | with_reducible apply canon_parts

theorem canon_recost (x0) (h : Canonical x0) : Canonical (recost x0) := by
  unfold recost
  (try dsimp only)
  repeat' first
    | with_reducible assumption | with_reducible apply canon_unfitSync | simp only [canonical_mk] | with_reducible apply canon_parts

theorem canon_modEntry (x0 x1 x2) (h : Canonical x2) : Canonical (modEntry x0 x1 x2) :=
  h.only ((only_modEntry x0 x1 x2 [.acq] _ (List.Subset.refl _)).2 (Only.refl _ _)) (by decide)

theorem canon_modRep (x0 x1 x2 x3) (h : Canonical x3) : Canonical (modRep x0 x1 x2 x3) :=
  h.only ((only_modRep x0 x1 x2 x3 [.acq] _ (List.Subset.refl _)).2 (Only.refl _ _)) (by decide)

theorem canon_tookCells (x0 x1 x2 x3) (h : Canonical x3) : Canonical (tookCells x0 x1 x2 x3) :=
  h.only ((only_tookCells x0 x1 x2 x3 [.acq] _ (List.Subset.refl _)).2 (Only.refl _ _)) (by decide)

theorem canon_loadCorr (x0) (h : Canonical x0) : Canonical (loadCorr x0) := by
  unfold loadCorr
  (try dsimp only)
  repeat' first
    | with_reducible assumption | with_reducible apply canon_setReg

theorem canon_ringWrite (x0 x1 x2 x3) (h : Canonical x3) : Canonical (ringWrite x0 x1 x2 x3) := by
  unfold ringWrite
  simp only [canonical_mk]
  exact ⟨h.fabOk, h.orbOk, ramWf_ramPut 0 h.ring _ _, h.slowOk⟩

theorem canon_deliver (x0 x1 x2 x3 x4 x5 x6 x7) (h : Canonical x7) : Canonical (deliver x0 x1 x2 x3 x4 x5 x6 x7) := by
  unfold deliver
  (try dsimp only)
  repeat' first
    | with_reducible assumption | split | with_reducible apply canon_modChan | with_reducible apply canon_onRise
    | with_reducible apply canon_modConv | with_reducible apply canon_ringWrite

theorem canon_recoverCut (x0 x1 x2 x3) (h : Canonical x3) : Canonical (recoverCut x0 x1 x2 x3) :=
  h.only ((only_recoverCut x0 x1 x2 x3 [.conv] _ (List.Subset.refl _)).2 (Only.refl _ _)) (by decide)

theorem canon_sampleAt (x0 x1 x2 x3 x4 x5 x6 x7) (h : Canonical x7) : Canonical (sampleAt x0 x1 x2 x3 x4 x5 x6 x7) := by
  unfold sampleAt
  (try dsimp only)
  repeat' first
    | with_reducible assumption | with_reducible apply canon_ite | split | with_reducible apply canon_deliver
    | with_reducible apply canon_modConv

theorem canon_sampleOut (x0 x1 x2 x3 x4 x5 x6) (h : Canonical x6) : Canonical (sampleOut x0 x1 x2 x3 x4 x5 x6) := by
  unfold sampleOut
  (try dsimp only)
  repeat' first
    | with_reducible assumption | with_reducible apply canon_ite | with_reducible apply canon_takeFree
    | with_reducible apply canon_sampleAt | with_reducible apply canon_recoverCut | with_reducible apply canon_modConv
    | with_reducible apply canon_deliver

theorem canon_filterNext (x0 x1) (h : Canonical x1) : Canonical (filterNext x0 x1) :=
  h.only ((only_filterNext x0 x1 [.chan, .feat, .featErr] _ (List.Subset.refl _)).2 (Only.refl _ _)) (by decide)

theorem canon_peakStore (x0 x1) (h : Canonical x1) : Canonical (peakStore x0 x1) :=
  h.only ((only_peakStore x0 x1 [.chan, .feat] _ (List.Subset.refl _)).2 (Only.refl _ _)) (by decide)

theorem canon_towerSync (x0) (h : Canonical x0) : Canonical (towerSync x0) := by
  unfold towerSync
  (try dsimp only)
  repeat' first
    | with_reducible assumption | with_reducible apply canon_ite | with_reducible apply canon_count
    | (with_reducible apply canon_foldl; intro _ _ _; (try dsimp only)) | simp only [canonical_mk] | with_reducible apply canon_parts

theorem canon_pedEnd (x0) (h : Canonical x0) : Canonical (pedEnd x0) := by
  unfold pedEnd
  (try dsimp only)
  repeat' first
    | with_reducible assumption | with_reducible apply canon_ite | split | with_reducible apply canon_countD
    | with_reducible apply canon_modChan | (with_reducible apply canon_foldl; intro _ _ _; (try dsimp only))

theorem canon_parkedTrims (x0) (h : Canonical x0) : Canonical (parkedTrims x0) :=
  h.only ((only_parkedTrims x0 [.pw, .conv] _ (List.Subset.refl _)).2 (Only.refl _ _)) (by decide)

theorem canon_judgeConv (x0 x1 x2) (h : Canonical x2) : Canonical (judgeConv x0 x1 x2) := by
  unfold judgeConv
  (try dsimp only)
  repeat' first
    | with_reducible assumption | with_reducible apply canon_ite | with_reducible apply canon_count
    | with_reducible apply canon_modConv

theorem canon_rotateAll (x0 x1) (h : Canonical x1) : Canonical (rotateAll x0 x1) := by
  unfold rotateAll
  (try dsimp only)
  repeat' first
    | with_reducible assumption | simp only [canonical_mk, canonFab_mk, canonOrb_mk, canonSlow_mk] | refine ⟨?_, ?_⟩
    | with_reducible apply Canonical.fabOk | with_reducible apply Canonical.ringOk | with_reducible apply Canonical.slowOk
    | with_reducible apply Canonical.live | with_reducible apply Canonical.shadow

theorem canon_convReset (x0 x1 x2) (h : Canonical x2) : Canonical (convReset x0 x1 x2) :=
  h.only ((only_convReset x0 x1 x2 [.conv] _ (List.Subset.refl _)).2 (Only.refl _ _)) (by decide)

theorem canon_markPhase (x0) (h : Canonical x0) : Canonical (markPhase x0) := by
  unfold markPhase
  (try dsimp only)
  repeat' first
    | with_reducible assumption | with_reducible apply canon_ite | with_reducible apply canon_modTag

theorem canon_setPhase (x0 x1 x2) (h : Canonical x2) : Canonical (setPhase x0 x1 x2) := by
  unfold setPhase
  (try dsimp only)
  repeat' first
    | with_reducible assumption | split | with_reducible apply canon_markPhase | simp only [canonical_mk]
    | with_reducible apply canon_parts

theorem canon_setUncomp (x0) (h : Canonical x0) : Canonical (setUncomp x0) := by
  unfold setUncomp
  (try dsimp only)
  repeat' first
    | with_reducible assumption | with_reducible apply canon_setPhase

theorem canon_enterHold (x0) (h : Canonical x0) : Canonical (enterHold x0) := by
  unfold enterHold
  (try dsimp only)
  repeat' first
    | with_reducible assumption | with_reducible apply canon_ite | with_reducible apply canon_count
    | with_reducible apply canon_setPhase | simp only [canonical_mk, canonFab_mk, canonOrb_mk, canonSlow_mk] | refine ⟨?_, ?_⟩
    | with_reducible apply Canonical.fabOk | with_reducible apply Canonical.ringOk | with_reducible apply Canonical.slowOk
    | with_reducible apply Canonical.live | with_reducible apply Canonical.shadow

theorem canon_ackUncomp (x0) (h : Canonical x0) : Canonical (ackUncomp x0) := by
  unfold ackUncomp
  (try dsimp only)
  repeat' first
    | with_reducible assumption | with_reducible apply canon_ite | with_reducible apply canon_setPhase

theorem canon_sweepStart (x0) (h : Canonical x0) : Canonical (sweepStart x0) := by
  unfold sweepStart
  (try dsimp only)
  repeat' first
    | with_reducible assumption | with_reducible apply canon_ite | with_reducible apply canon_count
    | simp only [canonical_mk, canonFab_mk, canonOrb_mk, canonSlow_mk] | refine ⟨?_, ?_⟩ | with_reducible apply Canonical.fabOk
    | with_reducible apply Canonical.ringOk | with_reducible apply Canonical.slowOk | with_reducible apply Canonical.live
    | with_reducible apply Canonical.shadow

theorem canon_sweepSlot (x0 x1) (h : Canonical x1) : Canonical (sweepSlot x0 x1) :=
  h.only ((only_sweepSlot x0 x1 [.pll, .chan] _ (List.Subset.refl _)).2 (Only.refl _ _)) (by decide)

theorem canon_sweepEnd (x0) (h : Canonical x0) : Canonical (sweepEnd x0) := by
  unfold sweepEnd
  (try dsimp only)
  repeat' first
    | with_reducible assumption | with_reducible apply canon_ite | with_reducible apply canon_count
    | simp only [canonical_mk, canonFab_mk, canonOrb_mk, canonSlow_mk] | refine ⟨?_, ?_⟩ | with_reducible apply Canonical.fabOk
    | with_reducible apply Canonical.ringOk | with_reducible apply Canonical.slowOk | with_reducible apply Canonical.live
    | with_reducible apply Canonical.shadow

theorem canon_sweepKeep (x0) (h : Canonical x0) : Canonical (sweepKeep x0) := by
  unfold sweepKeep
  (try dsimp only)
  repeat' first
    | with_reducible assumption | with_reducible apply canon_ite | split
    | simp only [canonical_mk, canonFab_mk, canonOrb_mk, canonSlow_mk] | refine ⟨?_, ?_⟩ | with_reducible apply Canonical.fabOk
    | with_reducible apply Canonical.ringOk | with_reducible apply Canonical.slowOk | with_reducible apply Canonical.live
    | with_reducible apply Canonical.shadow

theorem canon_trackApply (x0) (h : Canonical x0) : Canonical (trackApply x0) := by
  unfold trackApply
  (try dsimp only)
  repeat' first
    | with_reducible assumption | split | with_reducible apply canon_onRise
    | simp only [canonical_mk, canonFab_mk, canonOrb_mk, canonSlow_mk] | refine ⟨?_, ?_⟩ | with_reducible apply Canonical.fabOk
    | with_reducible apply Canonical.ringOk | with_reducible apply Canonical.slowOk | with_reducible apply Canonical.live
    | with_reducible apply Canonical.shadow

theorem canon_zeroTracks (x0) (h : Canonical x0) : Canonical (zeroTracks x0) :=
  h.only ((only_zeroTracks x0 [.chan] _ (List.Subset.refl _)).2 (Only.refl _ _)) (by decide)

theorem canon_phaseReset (x0) (h : Canonical x0) : Canonical (phaseReset x0) :=
  h.only ((only_phaseReset x0 [.chan] _ (List.Subset.refl _)).2 (Only.refl _ _)) (by decide)

theorem canon_serveProbe (x0 x1 x2 x3 x4) (h : Canonical x4) : Canonical (serveProbe x0 x1 x2 x3 x4) := by
  unfold serveProbe
  (try dsimp only)
  repeat' first
    | with_reducible assumption | with_reducible apply canon_ite | with_reducible apply canon_count | simp only [canonical_mk]
    | with_reducible apply canon_parts

theorem canon_spoilProbe (x0) (h : Canonical x0) : Canonical (spoilProbe x0) :=
  h.only ((only_spoilProbe x0 [.frm] _ (List.Subset.refl _)).2 (Only.refl _ _)) (by decide)

theorem canon_acqSync (x0) (h : Canonical x0) : Canonical (acqSync x0) := by
  unfold acqSync
  (try dsimp only)
  repeat' first
    | with_reducible assumption | with_reducible apply canon_onRise | simp only [canonical_mk] | with_reducible apply canon_parts

theorem canon_freeEntry (x0 x1) (h : Canonical x1) : Canonical (freeEntry x0 x1) := by
  unfold freeEntry
  (try dsimp only)
  repeat' first
    | with_reducible assumption | with_reducible apply canon_acqSync | simp only [canonical_mk] | with_reducible apply canon_parts

theorem canon_manifestIn (x0 x1) (h : Canonical x1) : Canonical (manifestIn x0 x1) := by
  unfold manifestIn
  (try dsimp only)
  repeat' first
    | with_reducible assumption | with_reducible apply canon_ite | with_reducible apply canon_freeEntry | simp only [canonical_mk]
    | with_reducible apply canon_parts

theorem canon_putManifest (x0 x1) (h : Canonical x1) : Canonical (putManifest x0 x1) := by
  unfold putManifest
  (try dsimp only)
  repeat' first
    | with_reducible assumption | with_reducible apply canon_ite | with_reducible apply canon_manifestIn
    | with_reducible apply canon_writeBale

theorem canon_manifestHeld (x0) (h : Canonical x0) : Canonical (manifestHeld x0) := by
  unfold manifestHeld
  (try dsimp only)
  repeat' first
    | with_reducible assumption | with_reducible apply canon_ite | split | with_reducible apply canon_manifestIn
    | with_reducible apply canon_heldComplete

theorem canon_manifestNext (x0) (h : Canonical x0) : Canonical (manifestNext x0) := by
  unfold manifestNext
  (try dsimp only)
  repeat' first
    | with_reducible assumption | with_reducible apply canon_ite | split | with_reducible apply canon_putManifest
    | simp only [canonical_mk] | with_reducible apply canon_parts

theorem canon_takeSeq (x0) (h : Canonical x0) : Canonical (takeSeq x0) :=
  h.only ((only_takeSeq x0 [.acq] _ (List.Subset.refl _)).2 (Only.refl _ _)) (by decide)

theorem canon_countDisabled (x0 x1 x2) (h : Canonical x2) : Canonical (countDisabled x0 x1 x2) := by
  unfold countDisabled
  (try dsimp only)
  repeat' first
    | with_reducible assumption | with_reducible apply canon_ite | with_reducible apply canon_countD
    | (with_reducible apply canon_foldl; intro _ _ _; (try dsimp only))

theorem canon_createEntry (x0 x1 x2) (h : Canonical x2) : Canonical (createEntry x0 x1 x2) := by
  unfold createEntry
  (try dsimp only)
  repeat' first
    | with_reducible assumption | with_reducible apply canon_acqSync | with_reducible apply canon_countDisabled
    | with_reducible apply canon_takeSeq | simp only [canonical_mk] | with_reducible apply canon_parts

theorem canon_refuseTrigger (x0 x1 x2) (h : Canonical x2) : Canonical (refuseTrigger x0 x1 x2) := by
  unfold refuseTrigger
  (try dsimp only)
  repeat' first
    | with_reducible assumption | with_reducible apply canon_ite | with_reducible apply canon_putManifest
    | with_reducible apply canon_takeSeq | with_reducible apply canon_count | simp only [canonical_mk]
    | with_reducible apply canon_parts

theorem canon_herJoin (x0 x1 x2) (h : Canonical x2) : Canonical (herJoin x0 x1 x2) := by
  unfold herJoin
  (try dsimp only)
  repeat' first
    | with_reducible assumption | with_reducible apply canon_ite | split | with_reducible apply canon_modEntry
    | with_reducible apply canon_countDisabled

theorem canon_joinEntry (x0 x1 x2) (h : Canonical x2) : Canonical (joinEntry x0 x1 x2) := by
  unfold joinEntry
  (try dsimp only)
  repeat' first
    | with_reducible assumption | with_reducible apply canon_herJoin | with_reducible apply canon_modEntry
    | with_reducible apply canon_count

theorem canon_acceptAt (x0 x1) (h : Canonical x1) : Canonical (acceptAt x0 x1) := by
  unfold acceptAt
  (try dsimp only)
  repeat' first
    | with_reducible assumption | with_reducible apply canon_ite | split | with_reducible apply canon_createEntry
    | with_reducible apply canon_refuseTrigger | with_reducible apply canon_joinEntry | with_reducible apply canon_count
    | simp only [canonical_mk] | with_reducible apply canon_parts

theorem canon_armEvent (x0) (h : Canonical x0) : Canonical (armEvent x0) :=
  h.only ((only_armEvent x0 [.acq] _ (List.Subset.refl _)).2 (Only.refl _ _)) (by decide)

theorem canon_disarmNow (x0) (h : Canonical x0) : Canonical (disarmNow x0) :=
  h.only ((only_disarmNow x0 [.acq] _ (List.Subset.refl _)).2 (Only.refl _ _)) (by decide)

theorem canon_rearmFlush (x0) (h : Canonical x0) : Canonical (rearmFlush x0) := by
  unfold rearmFlush
  (try dsimp only)
  repeat' first
    | with_reducible assumption | with_reducible apply canon_countN | simp only [canonical_mk] | with_reducible apply canon_parts

theorem canon_primingOver (x0) (h : Canonical x0) : Canonical (primingOver x0) :=
  h.only ((only_primingOver x0 [.acq] _ (List.Subset.refl _)).2 (Only.refl _ _)) (by decide)

theorem canon_holdoffOver (x0) (h : Canonical x0) : Canonical (holdoffOver x0) :=
  h.only ((only_holdoffOver x0 [.acq] _ (List.Subset.refl _)).2 (Only.refl _ _)) (by decide)

theorem canon_trigOutRise (x0 x1) (h : Canonical x1) : Canonical (trigOutRise x0 x1) :=
  h.only ((only_trigOutRise x0 x1 [.acq] _ (List.Subset.refl _)).2 (Only.refl _ _)) (by decide)

theorem canon_trigOutFall (x0) (h : Canonical x0) : Canonical (trigOutFall x0) :=
  h.only ((only_trigOutFall x0 [.acq] _ (List.Subset.refl _)).2 (Only.refl _ _)) (by decide)

theorem canon_noteLocal (x0 x1 x2 x3) (h : Canonical x3) : Canonical (noteLocal x0 x1 x2 x3) :=
  h.only ((only_noteLocal x0 x1 x2 x3 [.acq] _ (List.Subset.refl _)).2 (Only.refl _ _)) (by decide)

theorem canon_afterTaken (x0 x1 x2) (h : Canonical x2) : Canonical (afterTaken x0 x1 x2) := by
  unfold afterTaken
  (try dsimp only)
  repeat' first
    | with_reducible assumption | with_reducible apply canon_ite | split | with_reducible apply canon_count
    | with_reducible apply canon_noteLocal | simp only [canonical_mk] | with_reducible apply canon_parts

theorem canon_takeLocal (x0 x1 x2) (h : Canonical x2) : Canonical (takeLocal x0 x1 x2) := by
  unfold takeLocal
  (try dsimp only)
  repeat' first
    | with_reducible assumption | with_reducible apply canon_ite | split | with_reducible apply canon_refuseTrigger
    | with_reducible apply canon_noteLocal | with_reducible apply canon_count | with_reducible apply canon_createEntry
    | with_reducible apply canon_joinEntry | with_reducible apply canon_trigOutRise | with_reducible apply canon_afterTaken

theorem canon_joinRefused (x0 x1 x2) (h : Canonical x2) : Canonical (joinRefused x0 x1 x2) := by
  unfold joinRefused
  (try dsimp only)
  repeat' first
    | with_reducible assumption | with_reducible apply canon_count | simp only [canonical_mk] | with_reducible apply canon_parts

theorem canon_joinLocal (x0 x1 x2) (h : Canonical x2) : Canonical (joinLocal x0 x1 x2) := by
  unfold joinLocal
  (try dsimp only)
  repeat' first
    | with_reducible assumption | with_reducible apply canon_ite | split | with_reducible apply canon_joinRefused
    | with_reducible apply canon_joinEntry | with_reducible apply canon_trigOutRise | with_reducible apply canon_count

theorem canon_ignoreLocal (x0 x1 x2) (h : Canonical x2) : Canonical (ignoreLocal x0 x1 x2) := by
  unfold ignoreLocal
  (try dsimp only)
  repeat' first
    | with_reducible assumption | with_reducible apply canon_noteLocal | with_reducible apply canon_count

theorem canon_localTrigger (x0 x1 x2) (h : Canonical x2) : Canonical (localTrigger x0 x1 x2) := by
  unfold localTrigger
  (try dsimp only)
  repeat' first
    | with_reducible assumption | with_reducible apply canon_ite | split | with_reducible apply canon_takeLocal
    | with_reducible apply canon_ignoreLocal | with_reducible apply canon_joinLocal | simp only [canonical_mk]
    | with_reducible apply canon_parts

theorem canon_selfTrig (x0) (h : Canonical x0) : Canonical (selfTrig x0) := by
  unfold selfTrig
  (try dsimp only)
  repeat' first
    | with_reducible assumption | with_reducible apply canon_ite | with_reducible apply canon_localTrigger

theorem canon_trigInSeen (x0) (h : Canonical x0) : Canonical (trigInSeen x0) := by
  unfold trigInSeen
  (try dsimp only)
  repeat' first
    | with_reducible assumption | with_reducible apply canon_ite | with_reducible apply canon_armEvent
    | with_reducible apply canon_localTrigger

theorem canon_trigInEdge (x0 x1 x2) (h : Canonical x2) : Canonical (trigInEdge x0 x1 x2) := by
  unfold trigInEdge
  (try dsimp only)
  repeat' first
    | with_reducible assumption | with_reducible apply canon_ite | with_reducible apply canon_trigInSeen | simp only [canonical_mk]
    | with_reducible apply canon_parts

theorem canon_softTrigger (x0) (h : Canonical x0) : Canonical (softTrigger x0) := by
  unfold softTrigger
  (try dsimp only)
  repeat' first
    | with_reducible assumption | with_reducible apply canon_localTrigger

theorem canon_liftEcc (x0 x1 x2) (h : Canonical x2) : Canonical (liftEcc x0 x1 x2) := by
  unfold liftEcc
  (try dsimp only)
  repeat' first
    | with_reducible assumption | with_reducible apply canon_ite | with_reducible apply canon_count | with_reducible apply canon_countN
    | (with_reducible apply canon_foldl; intro _ _ _; (try dsimp only))

theorem canon_liftNothing (x0 x1 x2 x3 x4) (h : Canonical x4) : Canonical (liftNothing x0 x1 x2 x3 x4) := by
  unfold liftNothing
  (try dsimp only)
  repeat' first
    | with_reducible assumption | with_reducible apply canon_modRep | with_reducible apply canon_countD

theorem canon_liftBegin (x0 x1) (h : Canonical x1) : Canonical (liftBegin x0 x1) := by
  unfold liftBegin
  (try dsimp only)
  repeat' first
    | with_reducible assumption | with_reducible apply canon_ite | split | with_reducible apply canon_modRep
    | with_reducible apply canon_modSeam | with_reducible apply canon_liftEcc | with_reducible apply canon_liftNothing
    | simp only [canonical_mk] | with_reducible apply canon_parts

theorem canon_tpAbort (x0 x1) (h : Canonical x1) : Canonical (tpAbort x0 x1) := by
  unfold tpAbort
  (try dsimp only)
  repeat' first
    | with_reducible assumption | with_reducible apply canon_ite | with_reducible apply canon_modSeam
    | with_reducible apply canon_count

theorem canon_engineStart (x0 x1) (h : Canonical x1) : Canonical (engineStart x0 x1) := by
  unfold engineStart
  (try dsimp only)
  repeat' first
    | with_reducible assumption | with_reducible apply canon_ite | split | with_reducible apply canon_modRep
    | with_reducible apply canon_tpAbort | with_reducible apply canon_modSeam

theorem canon_liftEnd (x0 x1) (h : Canonical x1) : Canonical (liftEnd x0 x1) := by
  unfold liftEnd
  (try dsimp only)
  repeat' first
    | with_reducible assumption | with_reducible apply canon_ite | split | with_reducible apply canon_modSeam
    | with_reducible apply canon_engineStart

theorem canon_modJobs (x0 x1 x2 x3) (h : Canonical x3) : Canonical (modJobs x0 x1 x2 x3) :=
  h.only ((only_modJobs x0 x1 x2 x3 [.seams] _ (List.Subset.refl _)).2 (Only.refl _ _)) (by decide)

theorem canon_flushSync (x0 x1) (h : Canonical x1) : Canonical (flushSync x0 x1) :=
  h.only ((only_flushSync x0 x1 [.seams] _ (List.Subset.refl _)).2 (Only.refl _ _)) (by decide)

theorem canon_charge (x0 x1 x2 x3) (h : Canonical x3) : Canonical (charge x0 x1 x2 x3) :=
  h.only ((only_charge x0 x1 x2 x3 [.acq] _ (List.Subset.refl _)).2 (Only.refl _ _)) (by decide)

theorem canon_engineWord (x0 x1) (h : Canonical x1) : Canonical (engineWord x0 x1) := by
  unfold engineWord
  (try dsimp only)
  repeat' first
    | with_reducible assumption | with_reducible apply canon_ite | split | with_reducible apply canon_modJobs
    | with_reducible apply canon_charge | with_reducible apply canon_flushSync | with_reducible apply canon_wrData

theorem canon_jobClosed (x0 x1 x2 x3 x4 x5) (h : Canonical x5) : Canonical (jobClosed x0 x1 x2 x3 x4 x5) := by
  unfold jobClosed
  (try dsimp only)
  repeat' first
    | with_reducible assumption | with_reducible apply canon_ite | split | with_reducible apply canon_tpAbort
    | with_reducible apply canon_engineStart | with_reducible apply canon_modSeam | with_reducible apply canon_modJobs
    | with_reducible apply canon_modRep

theorem canon_finalHdr (x0 x1 x2) (h : Canonical x2) : Canonical (finalHdr x0 x1 x2) :=
  h.only ((only_finalHdr x0 x1 x2 [.ser] _ (List.Subset.refl _)).2 (Only.refl _ _)) (by decide)

theorem canon_engineClose (x0 x1 x2) (h : Canonical x2) : Canonical (engineClose x0 x1 x2) := by
  unfold engineClose
  (try dsimp only)
  repeat' first
    | with_reducible assumption | with_reducible apply canon_ite | split | with_reducible apply canon_charge
    | with_reducible apply canon_tookCells | with_reducible apply canon_wrEnd | with_reducible apply canon_jobClosed
    | with_reducible apply canon_finalHdr

theorem canon_engineHeld (x0 x1) (h : Canonical x1) : Canonical (engineHeld x0 x1) := by
  unfold engineHeld
  (try dsimp only)
  repeat' first
    | with_reducible assumption | with_reducible apply canon_ite | split | with_reducible apply canon_jobClosed
    | with_reducible apply canon_tookCells | with_reducible apply canon_heldComplete

theorem canon_engineHdr (x0 x1 x2) (h : Canonical x2) : Canonical (engineHdr x0 x1 x2) :=
  h.only ((only_engineHdr x0 x1 x2 [.ser] _ (List.Subset.refl _)).2 (Only.refl _ _)) (by decide)

theorem canon_engineRewind (x0 x1) (h : Canonical x1) : Canonical (engineRewind x0 x1) := by
  unfold engineRewind
  (try dsimp only)
  repeat' first
    | with_reducible assumption | split | with_reducible apply canon_modSeam | with_reducible apply canon_modJobs
    | with_reducible apply canon_modEntry | with_reducible apply canon_modQ | with_reducible apply canon_cancelBale

theorem canon_engineCancel (x0 x1) (h : Canonical x1) : Canonical (engineCancel x0 x1) := by
  unfold engineCancel
  (try dsimp only)
  repeat' first
    | with_reducible assumption | with_reducible apply canon_ite | with_reducible apply canon_engineRewind

theorem canon_verifyFail (x0 x1 x2) (h : Canonical x2) : Canonical (verifyFail x0 x1 x2) := by
  unfold verifyFail
  (try dsimp only)
  repeat' first
    | with_reducible assumption | with_reducible apply canon_ite | split | with_reducible apply canon_modSeam
    | with_reducible apply canon_countD | with_reducible apply canon_engineRewind | with_reducible apply canon_modJobs

theorem canon_flushBale (x0 x1 x2) (h : Canonical x2) : Canonical (flushBale x0 x1 x2) :=
  h.only ((only_flushBale x0 x1 x2 [.seams] _ (List.Subset.refl _)).2 (Only.refl _ _)) (by decide)

theorem canon_tpStartJob (x0 x1) (h : Canonical x1) : Canonical (tpStartJob x0 x1) :=
  h.only ((only_tpStartJob x0 x1 [.seams] _ (List.Subset.refl _)).2 (Only.refl _ _)) (by decide)

theorem canon_tpIn (x0 x1 x2) (h : Canonical x2) : Canonical (tpIn x0 x1 x2) :=
  h.only ((only_tpIn x0 x1 x2 [.seams] _ (List.Subset.refl _)).2 (Only.refl _ _)) (by decide)

theorem canon_tpDone (x0 x1) (h : Canonical x1) : Canonical (tpDone x0 x1) :=
  h.only ((only_tpDone x0 x1 [.seams] _ (List.Subset.refl _)).2 (Only.refl _ _)) (by decide)

theorem canon_tpOut (x0 x1) (h : Canonical x1) : Canonical ((tpOut x0 x1).2) :=
  h.only ((only_tpOut x0 x1 [.seams] _ (List.Subset.refl _)).2 (Only.refl _ _)) (by decide)

theorem canon_cmpReset (x0 x1) (h : Canonical x1) : Canonical (cmpReset x0 x1) :=
  h.only ((only_cmpReset x0 x1 [.seams] _ (List.Subset.refl _)).2 (Only.refl _ _)) (by decide)

theorem canon_herClosed (x0) (h : Canonical x0) : Canonical (herClosed x0) := by
  unfold herClosed
  (try dsimp only)
  repeat' first
    | with_reducible assumption | split | with_reducible apply canon_engineStart | with_reducible apply canon_modEntry
    | with_reducible apply canon_modRep | with_reducible apply canon_modSeam | simp only [canonical_mk]
    | with_reducible apply canon_parts

theorem canon_herFormat (x0) (h : Canonical x0) : Canonical (herFormat x0) := by
  unfold herFormat
  (try dsimp only)
  repeat' first
    | with_reducible assumption | with_reducible apply canon_ite | split | with_reducible apply canon_count
    | with_reducible apply canon_modEntry | with_reducible apply canon_modRep | simp only [canonical_mk]
    | with_reducible apply canon_parts

theorem canon_herForm (x0) (h : Canonical x0) : Canonical (herForm x0) := by
  unfold herForm
  (try dsimp only)
  repeat' first
    | with_reducible assumption | with_reducible apply canon_ite | with_reducible apply canon_count | simp only [canonical_mk]
    | with_reducible apply canon_parts

theorem canon_herNext (x0) (h : Canonical x0) : Canonical (herNext x0) := by
  unfold herNext
  (try dsimp only)
  repeat' first
    | with_reducible assumption | with_reducible apply canon_ite | with_reducible apply canon_charge
    | with_reducible apply canon_wrData | with_reducible apply canon_herForm | simp only [canonical_mk]
    | with_reducible apply canon_parts

theorem canon_herHdr (x0 x1) (h : Canonical x1) : Canonical (herHdr x0 x1) :=
  h.only ((only_herHdr x0 x1 [.ser] _ (List.Subset.refl _)).2 (Only.refl _ _)) (by decide)

theorem canon_herEnd (x0) (h : Canonical x0) : Canonical (herEnd x0) := by
  unfold herEnd
  (try dsimp only)
  repeat' first
    | with_reducible assumption | with_reducible apply canon_ite | split | with_reducible apply canon_charge
    | with_reducible apply canon_tookCells | with_reducible apply canon_herClosed | with_reducible apply canon_wrEnd
    | with_reducible apply canon_finalHdr

theorem canon_herHeld (x0) (h : Canonical x0) : Canonical (herHeld x0) := by
  unfold herHeld
  (try dsimp only)
  repeat' first
    | with_reducible assumption | with_reducible apply canon_ite | split | with_reducible apply canon_herClosed
    | with_reducible apply canon_tookCells | with_reducible apply canon_heldComplete

theorem canon_herRewind (x0) (h : Canonical x0) : Canonical (herRewind x0) := by
  unfold herRewind
  (try dsimp only)
  repeat' first
    | with_reducible assumption | with_reducible apply canon_ite | with_reducible apply canon_modEntry
    | with_reducible apply canon_cancelBale | with_reducible apply canon_modQ | simp only [canonical_mk]
    | with_reducible apply canon_parts

theorem canon_writerCancel (x0 x1) (h : Canonical x1) : Canonical (writerCancel x0 x1) := by
  unfold writerCancel
  (try dsimp only)
  repeat' first
    | with_reducible assumption | with_reducible apply canon_ite | split | with_reducible apply canon_modQ
    | with_reducible apply canon_cancelBale

theorem canon_setG (x0 x1 x2) (h : Canonical x2) : Canonical (setG x0 x1 x2) :=
  h.only ((only_setG x0 x1 x2 [.frm] _ (List.Subset.refl _)).2 (Only.refl _ _)) (by decide)

theorem canon_setF (x0 x1 x2) (h : Canonical x2) : Canonical (setF x0 x1 x2) :=
  h.only ((only_setF x0 x1 x2 [.frm] _ (List.Subset.refl _)).2 (Only.refl _ _)) (by decide)

theorem canon_replayed (x0 x1 x2) (h : Canonical x2) : Canonical (replayed x0 x1 x2) := by
  unfold replayed
  (try dsimp only)
  repeat' first
    | with_reducible assumption | with_reducible apply canon_ite | with_reducible apply canon_headSent
    | with_reducible apply canon_modQ | simp only [canonical_mk] | with_reducible apply canon_parts

theorem canon_takeReplay (x0 x1 x2) (h : Canonical x2) : Canonical ((takeReplay x0 x1 x2).2) := by
  unfold takeReplay
  (try dsimp only)
  repeat' first
    | with_reducible assumption | with_reducible apply canon_ite | with_reducible apply canon_replayed
    | with_reducible apply canon_eccRead | simp only [canonical_mk] | with_reducible apply canon_parts

theorem canon_takeHead (x0 x1 x2) (h : Canonical x2) : Canonical ((takeHead x0 x1 x2).2) := by
  unfold takeHead
  (try dsimp only)
  repeat' first
    | with_reducible assumption | with_reducible apply canon_ite | split | with_reducible apply canon_headSent
    | with_reducible apply canon_eccRead | with_reducible apply canon_modQ | simp only [canonical_mk]
    | with_reducible apply canon_parts

theorem canon_takeGrant (x0) (h : Canonical x0) : Canonical ((takeGrant x0).2) := by
  unfold takeGrant
  (try dsimp only)
  repeat' first
    | with_reducible assumption | split | with_reducible apply canon_takeHead | with_reducible apply canon_takeReplay

theorem canon_unsend (x0) (h : Canonical x0) : Canonical (unsend x0) := by
  unfold unsend
  (try dsimp only)
  repeat' first
    | with_reducible assumption | with_reducible apply canon_ite | split | with_reducible apply canon_modQ
    | with_reducible apply canon_seraiSync | simp only [canonical_mk] | with_reducible apply canon_parts

theorem canon_sendCaravan (x0) (h : Canonical x0) : Canonical (sendCaravan x0) := by
  unfold sendCaravan
  (try dsimp only)
  repeat' first
    | with_reducible assumption | with_reducible apply canon_ite | split | with_reducible apply canon_setF
    | with_reducible apply canon_takeGrant | simp only [canonical_mk] | with_reducible apply canon_parts

theorem canon_sendTowers (x0) (h : Canonical x0) : Canonical (sendTowers x0) :=
  h.only ((only_sendTowers x0 [.frm] _ (List.Subset.refl _)).2 (Only.refl _ _)) (by decide)

theorem canon_sendEcho (x0 x1) (h : Canonical x1) : Canonical (sendEcho x0 x1) :=
  h.only ((only_sendEcho x0 x1 [.frm] _ (List.Subset.refl _)).2 (Only.refl _ _)) (by decide)

theorem canon_markerSync (x0) (h : Canonical x0) : Canonical (markerSync x0) :=
  h.only ((only_markerSync x0 [.frm] _ (List.Subset.refl _)).2 (Only.refl _ _)) (by decide)

theorem canon_txSync (x0 x1) (h : Canonical x1) : Canonical (txSync x0 x1) :=
  h.only ((only_txSync x0 x1 [.lnA, .lnB] _ (List.Subset.refl _)).2 (Only.refl _ _)) (by decide)

theorem canon_txBoth (x0) (h : Canonical x0) : Canonical (txBoth x0) :=
  h.only ((only_txBoth x0 [.lnA, .lnB] _ (List.Subset.refl _)).2 (Only.refl _ _)) (by decide)

theorem canon_groupSlot (x0) (h : Canonical x0) : Canonical (groupSlot x0) := by
  unfold groupSlot
  (try dsimp only)
  repeat' first
    | with_reducible assumption | split | with_reducible apply canon_markerSync | with_reducible apply canon_txBoth
    | with_reducible apply canon_unsend | with_reducible apply canon_setG | simp only [canonical_mk] | with_reducible apply canon_parts

theorem canon_creditStep (x0) (h : Canonical x0) : Canonical (creditStep x0) :=
  h.only ((only_creditStep x0 [.frm] _ (List.Subset.refl _)).2 (Only.refl _ _)) (by decide)

theorem canon_replayOver (x0) (h : Canonical x0) : Canonical (replayOver x0) := by
  unfold replayOver
  (try dsimp only)
  repeat' first
    | with_reducible assumption | with_reducible apply canon_ite | with_reducible apply canon_manifestNext | simp only [canonical_mk]
    | with_reducible apply canon_parts

theorem canon_roleStep (x0 x1 x2) (h : Canonical x2) : Canonical (roleStep x0 x1 x2) := by
  unfold roleStep
  (try dsimp only)
  repeat' first
    | with_reducible assumption | with_reducible apply canon_ite | split | with_reducible apply canon_postNotice
    | with_reducible apply canon_modTs | with_reducible apply canon_count

theorem canon_darkSync (x0) (h : Canonical x0) : Canonical (darkSync x0) := by
  unfold darkSync
  (try dsimp only)
  repeat' first
    | with_reducible assumption | with_reducible apply canon_onRise | simp only [canonical_mk] | with_reducible apply canon_parts

theorem canon_roleSync (x0) (h : Canonical x0) : Canonical (roleSync x0) := by
  unfold roleSync
  (try dsimp only)
  repeat' first
    | with_reducible assumption | with_reducible apply canon_modTs | with_reducible apply canon_roleStep
    | with_reducible apply canon_darkSync

theorem canon_setToken (x0 x1) (h : Canonical x1) : Canonical (setToken x0 x1) :=
  h.only ((only_setToken x0 x1 [.sup] _ (List.Subset.refl _)).2 (Only.refl _ _)) (by decide)

theorem canon_dueSlot (x0 x1) (h : Canonical x1) : Canonical (dueSlot x0 x1) := by
  unfold dueSlot
  (try dsimp only)
  repeat' first
    | with_reducible assumption | with_reducible apply canon_ite | split | with_reducible apply canon_countN
    | with_reducible apply canon_modDl

theorem canon_changeRef (x0 x1) (h : Canonical x1) : Canonical (changeRef x0 x1) := by
  unfold changeRef
  (try dsimp only)
  repeat' first
    | with_reducible assumption | with_reducible apply canon_ite | split | with_reducible apply canon_setUncomp
    | with_reducible apply canon_count | with_reducible apply canon_enterHold | simp only [canonical_mk]
    | with_reducible apply canon_parts

theorem canon_startLost (x0 x1) (h : Canonical x1) : Canonical (startLost x0 x1) :=
  h.only ((only_startLost x0 x1 [.pll] _ (List.Subset.refl _)).2 (Only.refl _ _)) (by decide)

theorem canon_refLost (x0 x1) (h : Canonical x1) : Canonical (refLost x0 x1) := by
  unfold refLost
  (try dsimp only)
  repeat' first
    | with_reducible assumption | with_reducible apply canon_ite | with_reducible apply canon_enterHold
    | with_reducible apply canon_startLost | simp only [canonical_mk] | with_reducible apply canon_parts

theorem canon_enterDetect (x0 x1) (h : Canonical x1) : Canonical (enterDetect x0 x1) :=
  h.only ((only_enterDetect x0 x1 [.lnA, .lnB] _ (List.Subset.refl _)).2 (Only.refl _ _)) (by decide)

theorem canon_beginDetect (x0 x1) (h : Canonical x1) : Canonical (beginDetect x0 x1) :=
  h.only ((only_beginDetect x0 x1 [.lnA, .lnB, .sup] _ (List.Subset.refl _)).2 (Only.refl _ _)) (by decide)

theorem canon_trainFail (x0 x1) (h : Canonical x1) : Canonical (trainFail x0 x1) := by
  unfold trainFail
  (try dsimp only)
  repeat' first
    | with_reducible assumption | with_reducible apply canon_ite | with_reducible apply canon_enterDetect
    | with_reducible apply canon_count | with_reducible apply canon_roleSync

theorem canon_enterSt (x0 x1 x2) (h : Canonical x2) : Canonical (enterSt x0 x1 x2) :=
  h.only ((only_enterSt x0 x1 x2 [.lnA, .lnB] _ (List.Subset.refl _)).2 (Only.refl _ _)) (by decide)

theorem canon_detectJudge (x0 x1) (h : Canonical x1) : Canonical (detectJudge x0 x1) :=
  h.only ((only_detectJudge x0 x1 [.lnA, .lnB] _ (List.Subset.refl _)).2 (Only.refl _ _)) (by decide)

theorem canon_enterService (x0 x1 x2 x3 x4) (h : Canonical x4) : Canonical (enterService x0 x1 x2 x3 x4) := by
  unfold enterService
  (try dsimp only)
  repeat' first
    | with_reducible assumption | with_reducible apply canon_modTs | with_reducible apply canon_roleSync
    | with_reducible apply canon_modLn

theorem canon_stageClock (x0) (h : Canonical x0) : Canonical (stageClock x0) :=
  h.only ((only_stageClock x0 [.pw] _ (List.Subset.refl _)).2 (Only.refl _ _)) (by decide)

theorem canon_refFirst (x0 x1) (h : Canonical x1) : Canonical (refFirst x0 x1) :=
  h.only ((only_refFirst x0 x1 [.pll] _ (List.Subset.refl _)).2 (Only.refl _ _)) (by decide)

theorem canon_fwdSync (x0 x1) (h : Canonical x1) : Canonical (fwdSync x0 x1) := by
  unfold fwdSync
  (try dsimp only)
  repeat' first
    | with_reducible assumption | with_reducible apply canon_ite | with_reducible apply canon_refFirst
    | with_reducible apply canon_stageClock | with_reducible apply canon_detectJudge | with_reducible apply canon_modLn
    | with_reducible apply canon_count | with_reducible apply canon_refLost | with_reducible apply canon_trainFail

theorem canon_fwdLoss (x0 x1) (h : Canonical x1) : Canonical (fwdLoss x0 x1) := by
  unfold fwdLoss
  (try dsimp only)
  repeat' first
    | with_reducible assumption | with_reducible apply canon_modLn | with_reducible apply canon_fwdSync

theorem canon_fwdReturn (x0 x1) (h : Canonical x1) : Canonical (fwdReturn x0 x1) := by
  unfold fwdReturn
  (try dsimp only)
  repeat' first
    | with_reducible assumption | with_reducible apply canon_ite | with_reducible apply canon_modLn
    | with_reducible apply canon_fwdSync

theorem canon_fwdWindow (x0 x1 x2) (h : Canonical x2) : Canonical (fwdWindow x0 x1 x2) := by
  unfold fwdWindow
  (try dsimp only)
  repeat' first
    | with_reducible assumption | with_reducible apply canon_modLn | with_reducible apply canon_fwdSync

theorem canon_ctlAbort (x0 x1) (h : Canonical x1) : Canonical (ctlAbort x0 x1) := by
  unfold ctlAbort
  (try dsimp only)
  repeat' first
    | with_reducible assumption | split | with_reducible apply canon_modDl | with_reducible apply canon_count

theorem canon_ctlLost (x0 x1) (h : Canonical x1) : Canonical (ctlLost x0 x1) := by
  unfold ctlLost
  (try dsimp only)
  repeat' first
    | with_reducible assumption | with_reducible apply canon_ite | with_reducible apply canon_ctlAbort
    | with_reducible apply canon_modDl

theorem canon_lockFall (x0 x1) (h : Canonical x1) : Canonical (lockFall x0 x1) := by
  unfold lockFall
  (try dsimp only)
  repeat' first
    | with_reducible assumption | with_reducible apply canon_ite | with_reducible apply canon_countD | with_reducible apply canon_modLn
    | with_reducible apply canon_ctlLost

theorem canon_bitLose (x0 x1) (h : Canonical x1) : Canonical (bitLose x0 x1) := by
  unfold bitLose
  (try dsimp only)
  repeat' first
    | with_reducible assumption | with_reducible apply canon_modLn | with_reducible apply canon_lockFall

theorem canon_signalChange (x0 x1 x2) (h : Canonical x2) : Canonical (signalChange x0 x1 x2) := by
  unfold signalChange
  (try dsimp only)
  repeat' first
    | with_reducible assumption | with_reducible apply canon_ite | with_reducible apply canon_bitLose
    | with_reducible apply canon_trainFail | with_reducible apply canon_modLn | with_reducible apply canon_detectJudge

theorem canon_signalLevel (x0 x1 x2) (h : Canonical x2) : Canonical (signalLevel x0 x1 x2) := by
  unfold signalLevel
  (try dsimp only)
  repeat' first
    | with_reducible assumption | with_reducible apply canon_ite | with_reducible apply canon_takeFree
    | with_reducible apply canon_signalChange

theorem canon_lockAcquire (x0 x1) (h : Canonical x1) : Canonical (lockAcquire x0 x1) :=
  h.only ((only_lockAcquire x0 x1 [.lnA, .lnB] _ (List.Subset.refl _)).2 (Only.refl _ _)) (by decide)

theorem canon_lockLose (x0 x1 x2) (h : Canonical x2) : Canonical (lockLose x0 x1 x2) := by
  unfold lockLose
  (try dsimp only)
  repeat' first
    | with_reducible assumption | with_reducible apply canon_ite | split | with_reducible apply canon_lockFall
    | with_reducible apply canon_bitLose | with_reducible apply canon_signalChange

theorem canon_setVddl (x0 x1 x2) (h : Canonical x2) : Canonical (setVddl x0 x1 x2) :=
  h.only ((only_setVddl x0 x1 x2 [.pw] _ (List.Subset.refl _)).2 (Only.refl _ _)) (by decide)

theorem canon_supplyUp (x0 x1) (h : Canonical x1) : Canonical (supplyUp x0 x1) := by
  unfold supplyUp
  (try dsimp only)
  repeat' first
    | with_reducible assumption | with_reducible apply canon_ite | with_reducible apply canon_beginDetect
    | with_reducible apply canon_enterDetect | with_reducible apply canon_roleSync | with_reducible apply canon_setVddl

theorem canon_supplyLoss (x0 x1) (h : Canonical x1) : Canonical (supplyLoss x0 x1) := by
  unfold supplyLoss
  (try dsimp only)
  repeat' first
    | with_reducible assumption | split | with_reducible apply canon_fwdLoss | with_reducible apply canon_signalChange
    | with_reducible apply canon_roleSync | with_reducible apply canon_modLn | with_reducible apply canon_unsend
    | with_reducible apply canon_setVddl

theorem canon_vddlTo (x0 x1 x2) (h : Canonical x2) : Canonical (vddlTo x0 x1 x2) := by
  unfold vddlTo
  (try dsimp only)
  repeat' first
    | with_reducible assumption | with_reducible apply canon_ite | with_reducible apply canon_supplyUp
    | with_reducible apply canon_supplyLoss

theorem canon_detectPulse (x0 x1 x2) (h : Canonical x2) : Canonical (detectPulse x0 x1 x2) :=
  h.only ((only_detectPulse x0 x1 x2 [.lnA, .lnB] _ (List.Subset.refl _)).2 (Only.refl _ _)) (by decide)

theorem canon_frameErrs (x0 x1 x2) (h : Canonical x2) : Canonical (frameErrs x0 x1 x2) := by
  unfold frameErrs
  (try dsimp only)
  repeat' first
    | with_reducible assumption | with_reducible apply canon_ite | split | with_reducible apply canon_lockFall
    | with_reducible apply canon_modLn

theorem canon_deskewJudge (x0 x1) (h : Canonical x1) : Canonical (deskewJudge x0 x1) :=
  h.only ((only_deskewJudge x0 x1 [.frm, .lnA, .lnB] _ (List.Subset.refl _)).2 (Only.refl _ _)) (by decide)

theorem canon_trainStep (x0 x1 x2) (h : Canonical x2) : Canonical (trainStep x0 x1 x2) := by
  unfold trainStep
  (try dsimp only)
  repeat' first
    | with_reducible assumption | with_reducible apply canon_ite | with_reducible apply canon_modLn | with_reducible apply canon_count
    | with_reducible apply canon_enterService | with_reducible apply canon_deskewJudge | with_reducible apply canon_enterSt

theorem canon_trainingFrame (x0 x1 x2) (h : Canonical x2) : Canonical (trainingFrame x0 x1 x2) := by
  unfold trainingFrame
  (try dsimp only)
  repeat' first
    | with_reducible assumption | with_reducible apply canon_ite | with_reducible apply canon_trainStep
    | with_reducible apply canon_modLn | with_reducible apply canon_frameErrs

theorem canon_trainTimeout (x0 x1) (h : Canonical x1) : Canonical (trainTimeout x0 x1) := by
  unfold trainTimeout
  (try dsimp only)
  repeat' first
    | with_reducible assumption | with_reducible apply canon_ite | with_reducible apply canon_trainFail

theorem canon_retrainTrunk (x0 x1 x2) (h : Canonical x2) : Canonical (retrainTrunk x0 x1 x2) := by
  unfold retrainTrunk
  (try dsimp only)
  repeat' first
    | with_reducible assumption | with_reducible apply canon_ite | with_reducible apply canon_beginDetect
    | with_reducible apply canon_roleSync | with_reducible apply canon_modLn | with_reducible apply canon_count
    | with_reducible apply canon_refuseAt

theorem canon_eyeStart (x0) (h : Canonical x0) : Canonical (eyeStart x0) := by
  unfold eyeStart
  (try dsimp only)
  repeat' first
    | with_reducible assumption | with_reducible apply canon_modLn | simp only [canonical_mk, canonFab_mk, canonOrb_mk, canonSlow_mk]
    | refine ⟨?_, ?_⟩ | with_reducible apply Canonical.fabOk | with_reducible apply Canonical.ringOk
    | with_reducible apply Canonical.slowOk | with_reducible apply Canonical.live | with_reducible apply Canonical.shadow

theorem canon_eyeSlot (x0 x1 x2) (h : Canonical x2) : Canonical (eyeSlot x0 x1 x2) := by
  unfold eyeSlot
  (try dsimp only)
  repeat' first
    | with_reducible assumption | with_reducible apply canon_ite | with_reducible apply canon_modLn
    | simp only [canonical_mk, canonFab_mk, canonOrb_mk, canonSlow_mk] | refine ⟨?_, ?_⟩ | with_reducible apply Canonical.fabOk
    | with_reducible apply Canonical.ringOk | with_reducible apply Canonical.slowOk | with_reducible apply Canonical.live
    | with_reducible apply Canonical.shadow

theorem canon_eyeEnd (x0 x1) (h : Canonical x1) : Canonical (eyeEnd x0 x1) :=
  h.only ((only_eyeEnd x0 x1 [.lnA, .lnB] _ (List.Subset.refl _)).2 (Only.refl _ _)) (by decide)

theorem canon_eyeShow (x0 x1) (h : Canonical x1) : Canonical (eyeShow x0 x1) :=
  h.only ((only_eyeShow x0 x1 [.lnA, .lnB] _ (List.Subset.refl _)).2 (Only.refl _ _)) (by decide)

theorem canon_testApplied (x0 x1) (h : Canonical x1) : Canonical (testApplied x0 x1) :=
  h.only ((only_testApplied x0 x1 [.lnA, .lnB] _ (List.Subset.refl _)).2 (Only.refl _ _)) (by decide)

theorem canon_testCancel (x0 x1) (h : Canonical x1) : Canonical (testCancel x0 x1) := by
  unfold testCancel
  (try dsimp only)
  repeat' first
    | with_reducible assumption | with_reducible apply canon_setReg | with_reducible apply canon_testApplied

theorem canon_prbsSync (x0 x1 x2 x3) (h : Canonical x3) : Canonical (prbsSync x0 x1 x2 x3) :=
  h.only ((only_prbsSync x0 x1 x2 x3 [.lnA, .lnB] _ (List.Subset.refl _)).2 (Only.refl _ _)) (by decide)

theorem canon_prbsLoss (x0 x1 x2 x3) (h : Canonical x3) : Canonical (prbsLoss x0 x1 x2 x3) :=
  h.only ((only_prbsLoss x0 x1 x2 x3 [.lnA, .lnB] _ (List.Subset.refl _)).2 (Only.refl _ _)) (by decide)

theorem canon_laneReset (x0 x1) (h : Canonical x1) : Canonical (laneReset x0 x1) := by
  unfold laneReset
  (try dsimp only)
  repeat' first
    | with_reducible assumption | with_reducible apply canon_testCancel | with_reducible apply canon_modLn

theorem canon_evidenceCycle (x0 x1) (h : Canonical x1) : Canonical (evidenceCycle x0 x1) :=
  h.only ((only_evidenceCycle x0 x1 [.sup] _ (List.Subset.refl _)).2 (Only.refl _ _)) (by decide)

theorem canon_evidenceChange (x0 x1) (h : Canonical x1) : Canonical (evidenceChange x0 x1) := by
  unfold evidenceChange
  (try dsimp only)
  repeat' first
    | with_reducible assumption | with_reducible apply canon_ite | with_reducible apply canon_modTs
    | with_reducible apply canon_roleSync

theorem canon_heartToggle (x0 x1) (h : Canonical x1) : Canonical (heartToggle x0 x1) := by
  unfold heartToggle
  (try dsimp only)
  repeat' first
    | with_reducible assumption | with_reducible apply canon_ite | with_reducible apply canon_modTs
    | with_reducible apply canon_roleSync

theorem canon_heartTimeout (x0 x1) (h : Canonical x1) : Canonical (heartTimeout x0 x1) := by
  unfold heartTimeout
  (try dsimp only)
  repeat' first
    | with_reducible assumption | with_reducible apply canon_ite | with_reducible apply canon_modTs
    | with_reducible apply canon_roleSync

theorem canon_upsetsPast (x0) (h : Canonical x0) : Canonical (upsetsPast x0) := by
  unfold upsetsPast
  (try dsimp only)
  repeat' first
    | with_reducible assumption | simp only [canonical_mk, canonFab_mk, canonOrb_mk, canonSlow_mk] | refine ⟨?_, ?_⟩
    | with_reducible apply Canonical.ringOk | with_reducible apply Canonical.slowOk | with_reducible apply Canonical.regs
    | with_reducible apply Canonical.pages | with_reducible apply Canonical.tallies | with_reducible apply Canonical.live
    | with_reducible apply Canonical.shadow

theorem canon_setLast (x0 x1 x2 x3) (h : Canonical x3) : Canonical (setLast x0 x1 x2 x3) :=
  h.only ((only_setLast x0 x1 x2 x3 [.sup] _ (List.Subset.refl _)).2 (Only.refl _ _)) (by decide)

theorem canon_moveToken (x0 x1 x2 x3) (h : Canonical x3) : Canonical (moveToken x0 x1 x2 x3) := by
  unfold moveToken
  (try dsimp only)
  repeat' first
    | with_reducible assumption | split | with_reducible apply canon_setLast | with_reducible apply canon_count
    | with_reducible apply canon_setToken | simp only [canonical_mk] | with_reducible apply canon_parts

theorem canon_noHolder (x0) (h : Canonical x0) : Canonical (noHolder x0) :=
  h.only ((only_noHolder x0 [.sup] _ (List.Subset.refl _)).2 (Only.refl _ _)) (by decide)

theorem canon_goDark (x0 x1 x2) (h : Canonical x2) : Canonical (goDark x0 x1 x2) := by
  unfold goDark
  (try dsimp only)
  repeat' first
    | with_reducible assumption | with_reducible apply canon_unsend | with_reducible apply canon_noHolder
    | with_reducible apply canon_setLast

theorem canon_latchTrunk (x0 x1 x2) (h : Canonical x2) : Canonical (latchTrunk x0 x1 x2) :=
  h.only ((only_latchTrunk x0 x1 x2 [.sup] _ (List.Subset.refl _)).2 (Only.refl _ _)) (by decide)

theorem canon_grantRow (x0) (h : Canonical x0) : Canonical (grantRow x0) := by
  unfold grantRow
  (try dsimp only)
  repeat' first
    | with_reducible assumption | with_reducible apply canon_ite | split | with_reducible apply canon_moveToken

theorem canon_setXdown (x0 x1) (h : Canonical x1) : Canonical (setXdown x0 x1) := by
  unfold setXdown
  (try dsimp only)
  repeat' first
    | with_reducible assumption | with_reducible apply canon_onRise | simp only [canonical_mk] | with_reducible apply canon_parts

theorem canon_holderRow (x0 x1) (h : Canonical x1) : Canonical (holderRow x0 x1) := by
  unfold holderRow
  (try dsimp only)
  repeat' first
    | with_reducible assumption | with_reducible apply canon_ite | with_reducible apply canon_setXdown
    | with_reducible apply canon_goDark | with_reducible apply canon_latchTrunk | with_reducible apply canon_moveToken

theorem canon_decide279 (x0) (h : Canonical x0) : Canonical (decide279 x0) := by
  unfold decide279
  (try dsimp only)
  repeat' first
    | with_reducible assumption | with_reducible apply canon_ite | split | with_reducible apply canon_holderRow
    | with_reducible apply canon_grantRow

theorem canon_qualTrack (x0 x1) (h : Canonical x1) : Canonical (qualTrack x0 x1) :=
  h.only ((only_qualTrack x0 x1 [.sup] _ (List.Subset.refl _)).2 (Only.refl _ _)) (by decide)

theorem canon_supCycle (x0) (h : Canonical x0) : Canonical (supCycle x0) := by
  unfold supCycle
  (try dsimp only)
  repeat' first
    | with_reducible assumption | split | with_reducible apply canon_qualTrack | with_reducible apply canon_decide279
    | with_reducible apply canon_evidenceCycle | with_reducible apply canon_roleSync | with_reducible apply canon_upsetsPast
    | simp only [canonical_mk] | with_reducible apply canon_parts

theorem canon_prefWait (x0) (h : Canonical x0) : Canonical (prefWait x0) := by
  unfold prefWait
  (try dsimp only)
  repeat' first
    | with_reducible assumption | with_reducible apply canon_ite | split | with_reducible apply canon_moveToken
    | with_reducible apply canon_roleSync

theorem canon_moveStart (x0) (h : Canonical x0) : Canonical (moveStart x0) := by
  unfold moveStart
  (try dsimp only)
  repeat' first
    | with_reducible assumption | with_reducible apply canon_ite | split | with_reducible apply canon_dueSlot
    | with_reducible apply canon_modLn | with_reducible apply canon_testCancel | with_reducible apply canon_changeRef
    | with_reducible apply canon_setUncomp | with_reducible apply canon_count | with_reducible apply canon_unsend
    | simp only [canonical_mk] | with_reducible apply canon_parts

theorem canon_latchCmd (x0) (h : Canonical x0) : Canonical (latchCmd x0) :=
  h.only ((only_latchCmd x0 [.sup] _ (List.Subset.refl _)).2 (Only.refl _ _)) (by decide)

theorem canon_checkFail (x0 x1) (h : Canonical x1) : Canonical (checkFail x0 x1) := by
  unfold checkFail
  (try dsimp only)
  repeat' first
    | with_reducible assumption | split | with_reducible apply canon_latchCmd | with_reducible apply canon_goDark
    | with_reducible apply canon_modTs | with_reducible apply canon_moveToken | with_reducible apply canon_latchTrunk
    | with_reducible apply canon_count | simp only [canonical_mk] | with_reducible apply canon_parts

theorem canon_checkPass (x0) (h : Canonical x0) : Canonical (checkPass x0) := by
  unfold checkPass
  (try dsimp only)
  repeat' first
    | with_reducible assumption | with_reducible apply canon_startReplay | with_reducible apply canon_latchCmd
    | simp only [canonical_mk] | with_reducible apply canon_parts

theorem canon_checkEnd (x0 x1) (h : Canonical x1) : Canonical (checkEnd x0 x1) := by
  unfold checkEnd
  (try dsimp only)
  repeat' first
    | with_reducible assumption | with_reducible apply canon_ite | split | with_reducible apply canon_checkPass
    | with_reducible apply canon_checkFail | with_reducible apply canon_roleSync | simp only [canonical_mk]
    | with_reducible apply canon_parts

theorem canon_coreStop (x0) (h : Canonical x0) : Canonical (coreStop x0) := by
  unfold coreStop
  (try dsimp only)
  repeat' first
    | with_reducible assumption | split | with_reducible apply canon_modTag | with_reducible apply canon_unsend
    | simp only [canonical_mk, canonFab_mk, canonOrb_mk, canonSlow_mk] | refine ⟨?_, ?_⟩ | with_reducible apply Canonical.fabOk
    | with_reducible apply Canonical.ringOk | with_reducible apply Canonical.slowOk | with_reducible apply Canonical.live
    | with_reducible apply Canonical.shadow

theorem canon_phaseLock (x0) (h : Canonical x0) : Canonical (phaseLock x0) := by
  unfold phaseLock
  (try dsimp only)
  repeat' first
    | with_reducible assumption | with_reducible apply canon_ite | with_reducible apply canon_setPhase | simp only [canonical_mk]
    | with_reducible apply canon_parts

theorem canon_holdTimeout (x0) (h : Canonical x0) : Canonical (holdTimeout x0) := by
  unfold holdTimeout
  (try dsimp only)
  repeat' first
    | with_reducible assumption | with_reducible apply canon_ite | split | with_reducible apply canon_coreStop
    | with_reducible apply canon_changeRef | with_reducible apply canon_setUncomp | with_reducible apply canon_count
    | simp only [canonical_mk] | with_reducible apply canon_parts

theorem canon_powerCycle (x0 x1) (h : Canonical x1) : Canonical (powerCycle x0 x1) := by
  unfold powerCycle
  (try dsimp only)
  repeat' first
    | with_reducible assumption | with_reducible apply canon_modTs | with_reducible apply canon_count

theorem canon_declined (x0 x1) (h : Canonical x1) : Canonical (declined x0 x1) := by
  unfold declined
  (try dsimp only)
  repeat' first
    | with_reducible assumption | with_reducible apply canon_setLast | with_reducible apply canon_count

theorem canon_forceCmd (x0 x1) (h : Canonical x1) : Canonical (forceCmd x0 x1) := by
  unfold forceCmd
  (try dsimp only)
  repeat' first
    | with_reducible assumption | with_reducible apply canon_ite | split | with_reducible apply canon_powerCycle
    | with_reducible apply canon_setLast | with_reducible apply canon_latchTrunk | with_reducible apply canon_declined
    | with_reducible apply canon_moveToken | with_reducible apply canon_roleSync | with_reducible apply canon_setReg
    | simp only [canonical_mk] | with_reducible apply canon_parts

theorem canon_pcycleEnd (x0 x1) (h : Canonical x1) : Canonical (pcycleEnd x0 x1) := by
  unfold pcycleEnd
  (try dsimp only)
  repeat' first
    | with_reducible assumption | with_reducible apply canon_ite | with_reducible apply canon_modTs
    | with_reducible apply canon_roleSync

theorem canon_repairTimeout (x0 x1) (h : Canonical x1) : Canonical (repairTimeout x0 x1) := by
  unfold repairTimeout
  (try dsimp only)
  repeat' first
    | with_reducible assumption | with_reducible apply canon_ite | with_reducible apply canon_modTs | with_reducible apply canon_count
    | with_reducible apply canon_roleSync

theorem canon_autoRepair (x0 x1) (h : Canonical x1) : Canonical (autoRepair x0 x1) := by
  unfold autoRepair
  (try dsimp only)
  repeat' first
    | with_reducible assumption | with_reducible apply canon_ite | with_reducible apply canon_powerCycle
    | with_reducible apply canon_roleSync

theorem canon_supReset (x0) (h : Canonical x0) : Canonical (supReset x0) :=
  h.only ((only_supReset x0 [.sup] _ (List.Subset.refl _)).2 (Only.refl _ _)) (by decide)

theorem canon_scrubToken (x0) (h : Canonical x0) : Canonical ((scrubToken x0).1) :=
  h.only ((only_scrubToken x0 [.sup] _ (List.Subset.refl _)).2 (Only.refl _ _)) (by decide)

theorem canon_scrubPass (x0) (h : Canonical x0) : Canonical (scrubPass x0) := by
  unfold scrubPass
  dsimp only
  apply canon_roleSync
  unfold countN
  apply canon_iterate (fun v hv => canon_count _ _ _ hv)
  simp only [canonical_mk, canonFab_mk]
  refine ⟨⟨?_, h.pages, h.tallies⟩, ?_, ?_, ?_⟩
  · unfold normRegs scrubRam
    exact keysFrom_filter _ (keysFrom_map _ (fun e => by dsimp only; split <;> rfl) h.regs)
  all_goals unfold scrubToken
  all_goals dsimp only
  all_goals repeat' split
  all_goals first | exact h.orbOk | exact h.ringOk | exact h.slowOk

theorem canon_incrCommit (x0 x1 x2 x3) (h : Canonical x3) : Canonical (incrCommit x0 x1 x2 x3) := by
  unfold incrCommit
  (try dsimp only)
  repeat' first
    | with_reducible assumption | with_reducible apply canon_ite | with_reducible apply canon_setReg
    | with_reducible apply canon_refuseAt | simp only [canonical_mk] | with_reducible apply canon_parts

theorem canon_holdoverSet (x0 x1) (h : Canonical x1) : Canonical (holdoverSet x0 x1) := by
  unfold holdoverSet
  (try dsimp only)
  repeat' first
    | with_reducible assumption | with_reducible apply canon_ite | split | with_reducible apply canon_count | simp only [canonical_mk]
    | with_reducible apply canon_parts

theorem canon_stepApply (x0 x1 x2) (h : Canonical x2) : Canonical (stepApply x0 x1 x2) :=
  h.only ((only_stepApply x0 x1 x2 [.tb] _ (List.Subset.refl _)).2 (Only.refl _ _)) (by decide)

theorem canon_gapSet (x0) (h : Canonical x0) : Canonical (gapSet x0) := by
  unfold gapSet
  (try dsimp only)
  repeat' first
    | with_reducible assumption | with_reducible apply canon_ite | with_reducible apply canon_count | simp only [canonical_mk]
    | with_reducible apply canon_parts

theorem canon_orbitCapture (x0 x1 x2 x3) (h : Canonical x3) : Canonical (orbitCapture x0 x1 x2 x3) :=
  h.only ((only_orbitCapture x0 x1 x2 x3 [.tb] _ (List.Subset.refl _)).2 (Only.refl _ _)) (by decide)

theorem canon_latchBases (x0) (h : Canonical x0) : Canonical (latchBases x0) :=
  h.only ((only_latchBases x0 [.tb] _ (List.Subset.refl _)).2 (Only.refl _ _)) (by decide)

theorem canon_tsePush (x0 x1) (h : Canonical x1) : Canonical (tsePush x0 x1) := by
  unfold tsePush
  (try dsimp only)
  repeat' first
    | with_reducible assumption | with_reducible apply canon_ite | with_reducible apply canon_count | simp only [canonical_mk]
    | with_reducible apply canon_parts

theorem canon_tsePopHead (x0) (h : Canonical x0) : Canonical (tsePopHead x0) :=
  h.only ((only_tsePopHead x0 [.tb] _ (List.Subset.refl _)).2 (Only.refl _ _)) (by decide)

theorem canon_ttAbort (x0 x1) (h : Canonical x1) : Canonical (ttAbort x0 x1) := by
  unfold ttAbort
  (try dsimp only)
  repeat' first
    | with_reducible assumption | with_reducible apply canon_ite | with_reducible apply canon_modDl | with_reducible apply canon_count

theorem canon_ttCapture (x0 x1) (h : Canonical x1) : Canonical (ttCapture x0 x1) :=
  h.only ((only_ttCapture x0 x1 [.dlA, .dlB] _ (List.Subset.refl _)).2 (Only.refl _ _)) (by decide)

theorem canon_ttByte (x0 x1 x2 x3 x4) (h : Canonical x4) : Canonical (ttByte x0 x1 x2 x3 x4) := by
  unfold ttByte
  (try dsimp only)
  repeat' first
    | with_reducible assumption | with_reducible apply canon_ite | with_reducible apply canon_modDl
    | with_reducible apply canon_ttAbort | with_reducible apply canon_count

theorem canon_ttGap (x0 x1) (h : Canonical x1) : Canonical (ttGap x0 x1) := by
  unfold ttGap
  (try dsimp only)
  repeat' first
    | with_reducible assumption | with_reducible apply canon_ite | with_reducible apply canon_ttAbort

theorem canon_ttMessage (x0 x1) (h : Canonical x1) : Canonical (ttMessage x0 x1) := by
  unfold ttMessage
  (try dsimp only)
  repeat' first
    | with_reducible assumption | with_reducible apply canon_ite | split | with_reducible apply canon_modDl
    | with_reducible apply canon_ttAbort | simp only [canonical_mk] | with_reducible apply canon_parts

theorem canon_releaseHead (x0 x1) (h : Canonical x1) : Canonical (releaseHead x0 x1) :=
  h.only ((only_releaseHead x0 x1 [.ser] _ (List.Subset.refl _)).2 (Only.refl _ _)) (by decide)

theorem canon_removeHead (x0 x1) (h : Canonical x1) : Canonical (removeHead x0 x1) := by
  unfold removeHead
  (try dsimp only)
  repeat' first
    | with_reducible assumption | split | with_reducible apply canon_modQ | with_reducible apply canon_seraiSync

theorem canon_lateAct (x0 x1) (h : Canonical x1) : Canonical (lateAct x0 x1) := by
  unfold lateAct
  (try dsimp only)
  repeat' first
    | with_reducible assumption | with_reducible apply canon_ite | split | with_reducible apply canon_modQ
    | with_reducible apply canon_removeHead | with_reducible apply canon_countD | with_reducible apply canon_tsePush

theorem canon_launchRelease (x0 x1) (h : Canonical x1) : Canonical (launchRelease x0 x1) := by
  unfold launchRelease
  (try dsimp only)
  repeat' first
    | with_reducible assumption | with_reducible apply canon_ite | with_reducible apply canon_releaseHead
    | with_reducible apply canon_lateAct

theorem canon_launchLate (x0 x1) (h : Canonical x1) : Canonical (launchLate x0 x1) := by
  unfold launchLate
  (try dsimp only)
  repeat' first
    | with_reducible assumption | with_reducible apply canon_ite | with_reducible apply canon_lateAct

theorem canon_tbReset (x0) (h : Canonical x0) : Canonical (tbReset x0) :=
  h.only ((only_tbReset x0 [.tb] _ (List.Subset.refl _)).2 (Only.refl _ _)) (by decide)

theorem canon_fuseLoad (x0) (h : Canonical x0) : Canonical (fuseLoad x0) := by
  unfold fuseLoad
  (try dsimp only)
  repeat' first
    | with_reducible assumption | with_reducible apply canon_setReg | simp only [canonical_mk] | with_reducible apply canon_parts

theorem canon_userLoad (x0 x1) (h : Canonical x1) : Canonical (userLoad x0 x1) := by
  unfold userLoad
  (try dsimp only)
  repeat' first
    | with_reducible assumption | split | simp only [canonical_mk, canonFab_mk, canonOrb_mk, canonSlow_mk] | refine ⟨?_, ?_⟩
    | with_reducible apply Canonical.fabOk | with_reducible apply Canonical.ringOk | with_reducible apply Canonical.live
    | with_reducible apply Canonical.shadow | with_reducible apply Canonical.flash

theorem canon_stageLoaded (x0) (h : Canonical x0) : Canonical (stageLoaded x0) := by
  unfold stageLoaded stageLoaded.stageTo
  simp only [canonical_mk]
  exact ⟨h.fabOk, h.orbOk, h.ringOk, h.slowOk⟩

theorem canon_stageLoaded_stageTo (x0 x1) (h : Canonical x1) : Canonical (stageLoaded.stageTo x0 x1) :=
  h.only ((only_stageLoaded_stageTo x0 x1 [.pw] _ (List.Subset.refl _)).2 (Only.refl _ _)) (by decide)

theorem canon_loadStores (x0 x1) (h : Canonical x1) : Canonical (loadStores x0 x1) := by
  unfold loadStores
  (try dsimp only)
  repeat' first
    | with_reducible assumption | with_reducible apply canon_ite | with_reducible apply canon_countN
    | with_reducible apply canon_stageLoaded | with_reducible apply canon_userLoad

theorem canon_csWrite (x0 x1 x2 x3) (h : Canonical x3) : Canonical (csWrite x0 x1 x2 x3) := by
  unfold csWrite
  (try dsimp only)
  repeat' first
    | with_reducible assumption | with_reducible apply canon_ite | with_reducible apply canon_refuseAt | simp only [canonical_mk]
    | with_reducible apply canon_parts

theorem canon_saveStart (x0) (h : Canonical x0) : Canonical (saveStart x0) := by
  unfold saveStart
  simp only [canonical_mk, canonSlow_mk]
  refine ⟨h.fabOk, h.orbOk, h.ringOk, ?_⟩
  split
  · exact ramWf_ramDrop _ h.flash _
  · exact h.flash

theorem ramWf_programRecords (s : State) (u : Ram Byte) (n : Nat) (h : ramWf 0xFF s.slow.flash = true) :
    ramWf 0xFF (programRecords s u n) = true :=
  ramWf_foldl _ _ (fun _ _ hm => ramWf_ramPutBytes _ _ hm _) _ h
theorem canon_saveStop (x0) (h : Canonical x0) : Canonical (saveStop x0) := by
  unfold saveStop
  split
  · exact h
  · apply canon_count
    have hf := canon_spoilFlash (slotBase x0 x0.cal.target) 0x2000 x0 h
    exact ⟨hf.regs, hf.pages, hf.tallies, hf.live, hf.shadow, hf.ring, hf.flash⟩

theorem canon_setFlash (f : Ram Byte) (s : State) (h : Canonical s) (hw : ramWf 0xFF f = true) : Canonical (setFlash f s) := by
  unfold setFlash
  simp only [canonical_mk, canonSlow_mk]
  exact ⟨h.fabOk, h.orbOk, h.ringOk, hw⟩

theorem canon_saveEnd (x0 x1) (h : Canonical x1) : Canonical (saveEnd x0 x1) := by
  unfold saveEnd
  split
  · exact h
  · rename_i u _
    split
    · exact canon_saveStop _ h
    · split
      · exact h
      · dsimp only
        simp only [canonical_mk]
        generalize (if x1.cal.newGen = 0xFFFFFFFF then (1 : Nat) else x1.cal.newGen) = w
        have h1 := canon_setFlash _ x1 h (ramWf_programRecords x1 u 8 h.flash)
        generalize setFlash (programRecords x1 u 8) x1 = y at *
        have h2 := canon_setFlash _ _ h1 (ramWf_ramPutBytes _ (slotHeader w) h1.flash (slotBase y x1.cal.target))
        generalize setFlash (ramPutBytes 0xFF y.slow.flash (slotBase y x1.cal.target) (slotHeader w)) y = z at *
        split
        · have h3 := canon_setFlash (eraseSlot z (1 - x1.cal.target)) _ h2 (ramWf_ramDrop _ h2.flash _)
          exact ⟨h3.fabOk, h3.orbOk, h3.ringOk, h3.slowOk⟩
        · exact ⟨h2.fabOk, h2.orbOk, h2.ringOk, h2.slowOk⟩

theorem canon_csCommand (x0 x1) (h : Canonical x1) : Canonical (csCommand x0 x1) := by
  unfold csCommand
  (try dsimp only)
  repeat' first
    | with_reducible assumption | with_reducible apply canon_ite | split | with_reducible apply canon_saveStart
    | with_reducible apply canon_setReg | simp only [canonical_mk] | with_reducible apply canon_parts

theorem canon_loadTrims (x0) (h : Canonical x0) : Canonical (loadTrims x0) :=
  h.only ((only_loadTrims x0 [.chan] _ (List.Subset.refl _)).2 (Only.refl _ _)) (by decide)

theorem canon_applyEffect (x0) (h : Canonical x0) : Canonical (applyEffect x0) := by
  unfold applyEffect
  (try dsimp only)
  repeat' first
    | with_reducible assumption | with_reducible apply canon_ite | split | with_reducible apply canon_setUncomp
    | with_reducible apply canon_loadTrims | with_reducible apply canon_loadCorr | with_reducible apply canon_refuse
    | with_reducible apply canon_count | simp only [canonical_mk] | with_reducible apply canon_parts

theorem canon_monBegin (x0) (h : Canonical x0) : Canonical (monBegin x0) :=
  h.only ((only_monBegin x0 [.mon] _ (List.Subset.refl _)).2 (Only.refl _ _)) (by decide)

theorem canon_monHalt (x0) (h : Canonical x0) : Canonical (monHalt x0) :=
  h.only ((only_monHalt x0 [.mon] _ (List.Subset.refl _)).2 (Only.refl _ _)) (by decide)

theorem canon_monCommand (x0 x1 x2) (h : Canonical x2) : Canonical (monCommand x0 x1 x2) := by
  unfold monCommand
  (try dsimp only)
  repeat' first
    | with_reducible assumption | with_reducible apply canon_ite | with_reducible apply canon_monBegin
    | with_reducible apply canon_monHalt | with_reducible apply canon_count

theorem canon_monConfig (x0 x1) (h : Canonical x1) : Canonical (monConfig x0 x1) := by
  unfold monConfig
  (try dsimp only)
  repeat' first
    | with_reducible assumption | with_reducible apply canon_ite | with_reducible apply canon_count
    | with_reducible apply canon_monBegin | with_reducible apply canon_setReg | simp only [canonical_mk]
    | with_reducible apply canon_parts

theorem canon_monShip (x0 x1 x2 x3 x4 x5) (h : Canonical x5) : Canonical (monShip x0 x1 x2 x3 x4 x5) := by
  unfold monShip
  (try dsimp only)
  repeat' first
    | with_reducible assumption | with_reducible apply canon_ite | with_reducible apply canon_writeBale
    | with_reducible apply canon_count | simp only [canonical_mk] | with_reducible apply canon_parts

theorem canon_monReport (x0 x1 x2 x3) (h : Canonical x3) : Canonical (monReport x0 x1 x2 x3) := by
  unfold monReport
  (try dsimp only)
  repeat' first
    | with_reducible assumption | split | with_reducible apply canon_monShip | with_reducible apply canon_count
    | with_reducible apply canon_takeFree | simp only [canonical_mk] | with_reducible apply canon_parts

theorem canon_monRun (x0 x1) (h : Canonical x1) : Canonical (monRun x0 x1) := by
  unfold monRun
  (try dsimp only)
  repeat' first
    | with_reducible assumption | with_reducible apply canon_ite | with_reducible apply canon_monReport | simp only [canonical_mk]
    | with_reducible apply canon_parts

theorem canon_monResult (x0 x1) (h : Canonical x1) : Canonical (monResult x0 x1) := by
  unfold monResult
  (try dsimp only)
  repeat' first
    | with_reducible assumption | with_reducible apply canon_ite | split | with_reducible apply canon_monReport
    | with_reducible apply canon_monRun | simp only [canonical_mk] | with_reducible apply canon_parts

theorem canon_monReset (x0) (h : Canonical x0) : Canonical (monReset x0) :=
  h.only ((only_monReset x0 [.mon] _ (List.Subset.refl _)).2 (Only.refl _ _)) (by decide)

theorem canon_setSite (x0 x1 x2) (h : Canonical x2) : Canonical (setSite x0 x1 x2) := by
  unfold setSite
  (try dsimp only)
  repeat' first
    | with_reducible assumption | with_reducible apply canon_ite | with_reducible apply canon_countD | simp only [canonical_mk]
    | with_reducible apply canon_parts

theorem canon_fireRow (x0 x1 x2 x3 x4) (h : Canonical x4) : Canonical (fireRow x0 x1 x2 x3 x4) := by
  unfold fireRow
  (try dsimp only)
  repeat' first
    | with_reducible assumption | with_reducible apply canon_ite | with_reducible apply canon_setSite
    | (with_reducible apply canon_foldl; intro _ _ _; (try dsimp only)) | simp only [canonical_mk] | with_reducible apply canon_parts

theorem canon_countSkip (x0 x1) (h : Canonical x1) : Canonical (countSkip x0 x1) := by
  unfold countSkip
  (try dsimp only)
  repeat' first
    | with_reducible assumption | with_reducible apply canon_count | simp only [canonical_mk] | with_reducible apply canon_parts

theorem canon_slotFiring (x0) (h : Canonical x0) : Canonical (slotFiring x0) := by
  unfold slotFiring
  (try dsimp only)
  repeat' first
    | with_reducible assumption | with_reducible apply canon_ite | with_reducible apply canon_fireRow
    | with_reducible apply canon_countSkip | simp only [canonical_mk] | with_reducible apply canon_parts

theorem canon_testFiring (x0) (h : Canonical x0) : Canonical (testFiring x0) := by
  unfold testFiring
  (try dsimp only)
  repeat' first
    | with_reducible assumption | with_reducible apply canon_ite | with_reducible apply canon_fireRow
    | with_reducible apply canon_countSkip

theorem canon_rowOpen (x0) (h : Canonical x0) : Canonical (rowOpen x0) :=
  h.only ((only_rowOpen x0 [.pls] _ (List.Subset.refl _)).2 (Only.refl _ _)) (by decide)

theorem canon_blankEnd (x0) (h : Canonical x0) : Canonical (blankEnd x0) :=
  h.only ((only_blankEnd x0 [.pls] _ (List.Subset.refl _)).2 (Only.refl _ _)) (by decide)

theorem canon_verdict (x0 x1 x2) (h : Canonical x2) : Canonical (verdict x0 x1 x2) := by
  unfold verdict
  (try dsimp only)
  repeat' first
    | with_reducible assumption | with_reducible apply canon_ite | split | with_reducible apply canon_setSite
    | simp only [canonical_mk] | with_reducible apply canon_parts

theorem canon_diagPulse (x0) (h : Canonical x0) : Canonical (diagPulse x0) := by
  unfold diagPulse
  (try dsimp only)
  repeat' first
    | with_reducible assumption | split | with_reducible apply canon_fireRow | simp only [canonical_mk]
    | with_reducible apply canon_parts

theorem canon_diagDue (x0) (h : Canonical x0) : Canonical (diagDue x0) := by
  unfold diagDue
  (try dsimp only)
  repeat' first
    | with_reducible assumption | with_reducible apply canon_ite | with_reducible apply canon_diagPulse

theorem canon_diagSlot (x0) (h : Canonical x0) : Canonical (diagSlot x0) := by
  unfold diagSlot
  (try dsimp only)
  repeat' first
    | with_reducible assumption | with_reducible apply canon_ite | with_reducible apply canon_diagDue | simp only [canonical_mk]
    | with_reducible apply canon_parts

theorem canon_diagStart (x0 x1 x2) (h : Canonical x2) : Canonical (diagStart x0 x1 x2) := by
  unfold diagStart
  (try dsimp only)
  repeat' first
    | with_reducible assumption | with_reducible apply canon_ite | with_reducible apply canon_diagDue
    | with_reducible apply canon_count | simp only [canonical_mk] | with_reducible apply canon_parts

theorem canon_countBars (x0 x1 x2 x3) (h : Canonical x3) : Canonical (countBars x0 x1 x2 x3) := by
  unfold countBars
  (try dsimp only)
  repeat' first
    | with_reducible assumption | with_reducible apply canon_ite | with_reducible apply canon_countD
    | (with_reducible apply canon_foldl; intro _ _ _; (try dsimp only))

theorem canon_plsShip (x0) (h : Canonical x0) : Canonical (plsShip x0) := by
  unfold plsShip
  (try dsimp only)
  repeat' first
    | with_reducible assumption | with_reducible apply canon_ite | with_reducible apply canon_writeBale
    | with_reducible apply canon_count | simp only [canonical_mk] | with_reducible apply canon_parts

theorem canon_diagRecord (x0) (h : Canonical x0) : Canonical (diagRecord x0) := by
  unfold diagRecord
  (try dsimp only)
  repeat' first
    | with_reducible assumption | with_reducible apply canon_ite | with_reducible apply canon_plsShip
    | with_reducible apply canon_countBars | with_reducible apply canon_setSite
    | (with_reducible apply canon_foldl; intro _ _ _; (try dsimp only)) | simp only [canonical_mk] | with_reducible apply canon_parts

theorem canon_diagClear (x0 x1) (h : Canonical x1) : Canonical (diagClear x0 x1) :=
  h.only ((only_diagClear x0 x1 [.pls] _ (List.Subset.refl _)).2 (Only.refl _ _)) (by decide)

theorem canon_plsReset (x0) (h : Canonical x0) : Canonical (plsReset x0) :=
  h.only ((only_plsReset x0 [.acq, .ser, .pls] _ (List.Subset.refl _)).2 (Only.refl _ _)) (by decide)

theorem canon_outFall (x0 x1 x2) (h : Canonical x2) : Canonical (outFall x0 x1 x2) :=
  h.only ((only_outFall x0 x1 x2 [.fout] _ (List.Subset.refl _)).2 (Only.refl _ _)) (by decide)

theorem canon_outRise (x0 x1 x2) (h : Canonical x2) : Canonical (outRise x0 x1 x2) :=
  h.only ((only_outRise x0 x1 x2 [.fout] _ (List.Subset.refl _)).2 (Only.refl _ _)) (by decide)

theorem canon_bothRise (x0 x1 x2) (h : Canonical x2) : Canonical (bothRise x0 x1 x2) :=
  h.only ((only_bothRise x0 x1 x2 [.fout] _ (List.Subset.refl _)).2 (Only.refl _ _)) (by decide)

theorem canon_edgeEvent (x0 x1 x2) (h : Canonical x2) : Canonical (edgeEvent x0 x1 x2) := by
  unfold edgeEvent
  (try dsimp only)
  repeat' first
    | with_reducible assumption | with_reducible apply canon_ite | split | with_reducible apply canon_modTag
    | with_reducible apply canon_bothRise | with_reducible apply canon_modFlint

theorem canon_judgeChan (x0 x1 x2) (h : Canonical x2) : Canonical (judgeChan x0 x1 x2) := by
  unfold judgeChan
  (try dsimp only)
  repeat' first
    | with_reducible assumption | with_reducible apply canon_ite | with_reducible apply canon_bothRise
    | with_reducible apply canon_edgeEvent | with_reducible apply canon_modFlint

theorem canon_leadingEdge (x0 x1 x2 x3) (h : Canonical x3) : Canonical (leadingEdge x0 x1 x2 x3) := by
  unfold leadingEdge
  (try dsimp only)
  repeat' first
    | with_reducible assumption | with_reducible apply canon_ite | with_reducible apply canon_outFall
    | with_reducible apply canon_modFlint | with_reducible apply canon_judgeChan

theorem canon_inputPulse (x0 x1 x2 x3 x4 x5) (h : Canonical x5) : Canonical (inputPulse x0 x1 x2 x3 x4 x5) := by
  unfold inputPulse
  (try dsimp only)
  repeat' first
    | with_reducible assumption | with_reducible apply canon_ite | with_reducible apply canon_leadingEdge

theorem canon_outputFall (x0 x1 x2) (h : Canonical x2) : Canonical (outputFall x0 x1 x2) :=
  h.only ((only_outputFall x0 x1 x2 [.fout] _ (List.Subset.refl _)).2 (Only.refl _ _)) (by decide)

theorem canon_flintJudge (x0) (h : Canonical x0) : Canonical (flintJudge x0) := by
  unfold flintJudge
  (try dsimp only)
  repeat' first
    | with_reducible assumption | with_reducible apply canon_ite | with_reducible apply canon_judgeChan
    | (with_reducible apply canon_foldl; intro _ _ _; (try dsimp only))

theorem canon_markStuck (x0) (h : Canonical x0) : Canonical (markStuck x0) := by
  unfold markStuck
  (try dsimp only)
  repeat' first
    | with_reducible assumption | with_reducible apply canon_modTag

theorem canon_flintSample (x0) (h : Canonical x0) : Canonical (flintSample x0) := by
  unfold flintSample
  (try dsimp only)
  repeat' first
    | with_reducible assumption | with_reducible apply canon_markStuck | with_reducible apply canon_flintJudge
    | simp only [canonical_mk] | with_reducible apply canon_parts

theorem canon_stuckSet (x0 x1) (h : Canonical x1) : Canonical (stuckSet x0 x1) := by
  unfold stuckSet
  (try dsimp only)
  repeat' first
    | with_reducible assumption | with_reducible apply canon_ite | with_reducible apply canon_modFlint
    | with_reducible apply canon_markStuck | with_reducible apply canon_countD

theorem canon_stuckClear (x0 x1) (h : Canonical x1) : Canonical (stuckClear x0 x1) := by
  unfold stuckClear
  (try dsimp only)
  repeat' first
    | with_reducible assumption | with_reducible apply canon_ite | with_reducible apply canon_modFlint
    | with_reducible apply canon_markStuck | with_reducible apply canon_judgeChan

theorem canon_latchClear (x0 x1) (h : Canonical x1) : Canonical (latchClear x0 x1) :=
  h.only ((only_latchClear x0 x1 [.fout] _ (List.Subset.refl _)).2 (Only.refl _ _)) (by decide)

theorem canon_flintResume (x0) (h : Canonical x0) : Canonical (flintResume x0) :=
  h.only ((only_flintResume x0 [.flint, .fout] _ (List.Subset.refl _)).2 (Only.refl _ _)) (by decide)

theorem canon_outsLow (x0) (h : Canonical x0) : Canonical (outsLow x0) :=
  h.only ((only_outsLow x0 [.fout] _ (List.Subset.refl _)).2 (Only.refl _ _)) (by decide)

theorem canon_restart (x0 x1) (h : Canonical x1) : Canonical (restart x0 x1) := by
  unfold restart
  (try dsimp only)
  repeat' first
    | with_reducible assumption | with_reducible apply canon_ite | with_reducible apply canon_modSeam
    | (with_reducible refine canon_modPage _ _ _ (fun x hx => ?_) ?_) | simp only [canonical_mk] | with_reducible apply canon_parts

theorem canon_haltBlock (x0 x1) (h : Canonical x1) : Canonical (haltBlock x0 x1) :=
  h.only ((only_haltBlock x0 x1 [.mon, .her] _ (List.Subset.refl _)).2 (Only.refl _ _)) (by decide)

theorem canon_enApplied (x0 x1) (h : Canonical x1) : Canonical (enApplied x0 x1) := by
  unfold enApplied
  (try dsimp only)
  repeat' first
    | with_reducible assumption | with_reducible apply canon_ite | with_reducible apply canon_restart
    | with_reducible apply canon_count | (with_reducible refine canon_modPage _ _ _ (fun x hx => ?_) ?_)
    | with_reducible apply canon_haltBlock

theorem canon_restartDeferred (x0) (h : Canonical x0) : Canonical (restartDeferred x0) := by
  unfold restartDeferred
  (try dsimp only)
  repeat' first
    | with_reducible assumption | with_reducible apply canon_ite | with_reducible apply canon_modQ | with_reducible apply canon_restart
    | (with_reducible apply canon_foldl; intro _ _ _; (try dsimp only))

theorem canon_swapQuarter (x0 x1) (h : Canonical x1) : Canonical (swapQuarter x0 x1) := by
  unfold swapQuarter
  simp only [canonical_mk, canonOrb_mk]
  refine ⟨h.fabOk, ⟨?_, ?_⟩, h.ringOk, h.slowOk⟩
  · exact ramWf_puts _ _ (ramWf_ramDrop _ h.live _)
  · exact ramWf_puts _ _ (ramWf_ramDrop _ h.shadow _)

theorem canon_pedLoad (x0 x1 x2) (h : Canonical x2) : Canonical (pedLoad x0 x1 x2) :=
  h.only ((only_pedLoad x0 x1 x2 [.chan] _ (List.Subset.refl _)).2 (Only.refl _ _)) (by decide)

theorem canon_convApplied (x0 x1 x2) (h : Canonical x2) : Canonical (convApplied x0 x1 x2) :=
  h.only ((only_convApplied x0 x1 x2 [.conv] _ (List.Subset.refl _)).2 (Only.refl _ _)) (by decide)

theorem canon_trackZero (x0) (h : Canonical x0) : Canonical (trackZero x0) := by
  unfold trackZero
  (try dsimp only)
  repeat' first
    | with_reducible assumption | with_reducible apply canon_ite | with_reducible apply canon_zeroTracks
    | with_reducible apply canon_setReg

theorem canon_gridMoved (x0 x1) (h : Canonical x1) : Canonical (gridMoved x0 x1) := by
  unfold gridMoved
  (try dsimp only)
  repeat' first
    | with_reducible assumption | with_reducible apply canon_ite | with_reducible apply canon_setUncomp
    | with_reducible apply canon_spoilProbe

theorem canon_laneApplied (x0 x1) (h : Canonical x1) : Canonical (laneApplied x0 x1) :=
  h.only ((only_laneApplied x0 x1 [.lnA, .lnB] _ (List.Subset.refl _)).2 (Only.refl _ _)) (by decide)

theorem canon_pageApplied (x0 x1 x2 x3) (h : Canonical x3) : Canonical (pageApplied x0 x1 x2 x3) := by
  unfold pageApplied
  (try dsimp only)
  repeat' first
    | with_reducible assumption | with_reducible apply canon_ite | split | with_reducible apply canon_csCommand
    | with_reducible apply canon_stepApply | with_reducible apply canon_forceCmd | with_reducible apply canon_roleSync
    | with_reducible apply canon_testApplied | with_reducible apply canon_laneApplied | with_reducible apply canon_applyQen
    | with_reducible apply canon_seraiSync | with_reducible apply canon_trackZero | with_reducible apply canon_convApplied
    | with_reducible apply canon_pedLoad | with_reducible apply canon_swapQuarter | with_reducible apply canon_gridMoved
    | with_reducible apply canon_setReg | with_reducible apply canon_enApplied
    | (with_reducible apply canon_foldl; intro _ _ _; (try dsimp only))

theorem canon_pageDone (x0 x1) (h : Canonical x1) : Canonical (pageDone x0 x1) := by
  unfold pageDone
  (try dsimp only)
  repeat' first
    | with_reducible assumption | (with_reducible refine canon_modPage _ _ _ (fun x hx => ?_) ?_)

theorem canon_dropApplied (x0 x1) (h : Canonical x1) : Canonical (dropApplied x0 x1) := by
  unfold dropApplied
  (try dsimp only)
  repeat' first
    | with_reducible assumption | simp only [canonical_mk, canonFab_mk, canonOrb_mk, canonSlow_mk] | refine ⟨?_, ?_⟩
    | with_reducible apply Canonical.ringOk | with_reducible apply Canonical.slowOk | with_reducible apply Canonical.regs
    | with_reducible apply Canonical.pages | with_reducible apply Canonical.tallies | with_reducible apply Canonical.live
    | with_reducible apply Canonical.shadow

theorem canon_flintApplied (x0 x1) (h : Canonical x1) : Canonical (flintApplied x0 x1) :=
  h.only ((only_flintApplied x0 x1 [.flintOn] _ (List.Subset.refl _)).2 (Only.refl _ _)) (by decide)

theorem canon_applyPages (x0 x1) (h : Canonical x1) : Canonical (applyPages x0 x1) := by
  unfold applyPages
  (try dsimp only)
  repeat' first
    | with_reducible assumption | with_reducible apply canon_dropApplied | with_reducible apply canon_pageApplied
    | with_reducible apply canon_pageDone | (with_reducible apply canon_foldl; intro _ _ _; (try dsimp only))
    | simp only [canonical_mk, canonFab_mk, canonOrb_mk, canonSlow_mk] | refine ⟨?_, ?_⟩ | with_reducible apply Canonical.ringOk
    | with_reducible apply Canonical.slowOk | with_reducible apply Canonical.pages | with_reducible apply Canonical.tallies
    | with_reducible apply Canonical.live | with_reducible apply Canonical.shadow | with_reducible apply keys_candRegs

theorem canon_refuseGroup (x0 x1 x2) (h : Canonical x2) : Canonical (refuseGroup x0 x1 x2) := by
  unfold refuseGroup
  (try dsimp only)
  repeat' first
    | with_reducible assumption | split | with_reducible apply canon_refuse | with_reducible apply canon_count
    | (with_reducible apply canon_foldl; intro _ _ _; (try dsimp only))
    | simp only [canonical_mk, canonFab_mk, canonOrb_mk, canonSlow_mk] | refine ⟨?_, ?_⟩ | with_reducible apply Canonical.ringOk
    | with_reducible apply Canonical.slowOk | with_reducible apply Canonical.regs | with_reducible apply Canonical.pages
    | with_reducible apply Canonical.tallies | with_reducible apply Canonical.live | with_reducible apply Canonical.shadow

theorem canon_applyGroup (x0 x1 x2) (h : Canonical x1) : Canonical (applyGroup x0 x1 x2) := by
  unfold applyGroup
  (try dsimp only)
  repeat' first
    | with_reducible assumption | with_reducible apply canon_ite | with_reducible apply canon_flintApplied
    | with_reducible apply canon_applyPages | with_reducible apply canon_refuseGroup
    | simp only [canonical_mk, canonFab_mk, canonOrb_mk, canonSlow_mk] | refine ⟨?_, ?_⟩ | with_reducible apply Canonical.ringOk
    | with_reducible apply Canonical.slowOk | with_reducible apply Canonical.regs | with_reducible apply Canonical.pages
    | with_reducible apply Canonical.tallies | with_reducible apply Canonical.live | with_reducible apply Canonical.shadow

theorem canon_chanReset (x0 x1) (h : Canonical x1) : Canonical (chanReset x0 x1) := by
  unfold chanReset
  (try dsimp only)
  repeat' first
    | with_reducible assumption | with_reducible apply canon_setReg | (with_reducible apply canon_foldl; intro _ _ _; (try dsimp only))
    | simp only [canonical_mk] | with_reducible apply canon_parts

theorem canon_dlReset (x0 x1) (h : Canonical x1) : Canonical (dlReset x0 x1) :=
  h.only ((only_dlReset x0 x1 [.dlA, .dlB] _ (List.Subset.refl _)).2 (Only.refl _ _)) (by decide)

theorem canon_noticeReset (x0) (h : Canonical x0) : Canonical (noticeReset x0) := by
  unfold noticeReset
  (try dsimp only)
  repeat' first
    | with_reducible assumption | simp only [canonical_mk, canonFab_mk, canonOrb_mk, canonSlow_mk] | refine ⟨?_, ?_⟩
    | with_reducible apply Canonical.ringOk | with_reducible apply Canonical.slowOk | with_reducible apply Canonical.regs
    | with_reducible apply Canonical.pages | with_reducible apply Canonical.tallies | with_reducible apply Canonical.live
    | with_reducible apply Canonical.shadow

theorem canon_bootReset (x0) (h : Canonical x0) : Canonical (bootReset x0) := by
  unfold bootReset
  (try dsimp only)
  repeat' first
    | with_reducible assumption | simp only [canonical_mk, canonFab_mk, canonOrb_mk, canonSlow_mk] | refine ⟨?_, ?_⟩
    | with_reducible apply Canonical.fabOk | with_reducible apply Canonical.ringOk | with_reducible apply Canonical.live
    | with_reducible apply Canonical.shadow | with_reducible apply Canonical.flash

theorem canon_blockReset (x0 x1) (h : Canonical x1) : Canonical (blockReset x0 x1) := by
  unfold blockReset
  (try dsimp only)
  repeat' first
    | with_reducible assumption | with_reducible apply canon_ite | with_reducible apply canon_noticeReset
    | with_reducible apply canon_plsReset | with_reducible apply canon_monReset | with_reducible apply canon_bootReset
    | with_reducible apply canon_tbReset | with_reducible apply canon_supReset | with_reducible apply canon_dlReset
    | with_reducible apply canon_laneReset | with_reducible apply canon_seraiReset | with_reducible apply canon_cmpReset
    | with_reducible apply canon_phaseReset | with_reducible apply canon_convReset | with_reducible apply canon_chanReset
    | simp only [canonical_mk] | with_reducible apply canon_parts

theorem canon_resetNow (x0 x1) (h : Canonical x1) : Canonical (resetNow x0 x1) := by
  unfold resetNow
  exact canon_modPage _ _ _ (fun _ _ => rfl) (canon_blockReset _ _ h)

theorem canon_softReset (x0 x1) (h : Canonical x1) : Canonical (softReset x0 x1) := by
  unfold softReset
  (try dsimp only)
  repeat' first
    | with_reducible assumption | with_reducible apply canon_ite | with_reducible apply canon_resetNow
    | simp only [canonical_mk, canonFab_mk, canonOrb_mk, canonSlow_mk] | refine ⟨?_, ?_⟩ | with_reducible apply Canonical.fabOk
    | with_reducible apply Canonical.ringOk | with_reducible apply Canonical.live | with_reducible apply Canonical.shadow
    | with_reducible apply Canonical.flash

theorem canon_afterApply (x0 x1 x2) (h : Canonical x2) : Canonical (afterApply x0 x1 x2) := by
  unfold afterApply
  (try dsimp only)
  repeat' first
    | with_reducible assumption | with_reducible apply canon_seraiSync | with_reducible apply canon_acqSync
    | with_reducible apply canon_recost | with_reducible apply canon_onRise | with_reducible apply canon_outsLow
    | with_reducible apply canon_flintJudge | (with_reducible apply canon_foldl; intro _ _ _; (try dsimp only))

theorem canon_applyGroups (x0 x1) (h : Canonical x1) : Canonical (applyGroups x0 x1) := by
  unfold applyGroups
  (try dsimp only)
  repeat' first
    | with_reducible assumption | with_reducible apply canon_ite | split | with_reducible apply canon_afterApply
    | with_reducible apply canon_softReset | with_reducible apply canon_applyGroup
    | (with_reducible apply canon_foldl; intro _ _ _; (try dsimp only))
    | simp only [canonical_mk, canonFab_mk, canonOrb_mk, canonSlow_mk] | refine ⟨?_, ?_⟩ | with_reducible apply Canonical.ringOk
    | with_reducible apply Canonical.slowOk | with_reducible apply Canonical.regs | with_reducible apply Canonical.pages
    | with_reducible apply Canonical.tallies | with_reducible apply Canonical.live | with_reducible apply Canonical.shadow

theorem canon_drainEnd (x0 x1) (h : Canonical x1) : Canonical (drainEnd x0 x1) := by
  unfold drainEnd
  (try dsimp only)
  repeat' first
    | with_reducible assumption | with_reducible apply canon_ite | with_reducible apply canon_restart
    | (with_reducible refine canon_modPage _ _ _ (fun x hx => ?_) ?_)

theorem canon_withNow (f : State → State) (s : State) (hf : ∀ u, Canonical u → Canonical (f u)) (h : Canonical s) :
    Canonical (withNow f s) := by
  have := hf { s with fab := { s.fab with frozen := none, frozenPg := [], late := [] }, orb := { s.orb with lateMap := [] } }
    ⟨h.regs, h.pages, h.tallies, h.live, h.shadow, h.ring, h.flash⟩
  exact ⟨this.regs, this.pages, this.tallies, this.live, this.shadow, this.ring, this.flash⟩

theorem canon_applyPage (x0 x1) (h : Canonical x1) : Canonical (applyPage x0 x1) := by
  unfold applyPage
  (try dsimp only)
  repeat' first
    | with_reducible assumption | split | with_reducible apply canon_applyPages | with_reducible apply canon_refuse

theorem canon_applyWord (x0 x1 x2) (h : Canonical x2) : Canonical (applyWord x0 x1 x2) := by
  unfold applyWord
  (try dsimp only)
  repeat' first
    | with_reducible assumption | with_reducible apply canon_applyPage
    | simp only [canonical_mk, canonFab_mk, canonOrb_mk, canonSlow_mk] | refine ⟨?_, ?_⟩ | with_reducible apply Canonical.ringOk
    | with_reducible apply Canonical.slowOk | with_reducible apply Canonical.regs | with_reducible apply Canonical.pages
    | with_reducible apply Canonical.tallies | with_reducible apply Canonical.live | with_reducible apply Canonical.shadow

theorem canon_applyNow (x0 x1 x2) (h : Canonical x2) : Canonical (applyNow x0 x1 x2) := by
  unfold applyNow
  (try dsimp only)
  repeat' first
    | with_reducible assumption | with_reducible apply canon_applyWord | with_reducible apply canon_withNow

theorem canon_retag (x0) (h : Canonical x0) : Canonical (retag x0) := by
  unfold retag
  (try dsimp only)
  repeat' first
    | with_reducible assumption | with_reducible apply canon_modTag

theorem canon_pushTag (x0 x1) (h : Canonical x1) : Canonical (pushTag x0 x1) := by
  unfold pushTag
  (try dsimp only)
  repeat' first
    | with_reducible assumption | simp only [canonical_mk, canonFab_mk, canonOrb_mk, canonSlow_mk] | refine ⟨?_, ?_⟩
    | with_reducible apply Canonical.fabOk | with_reducible apply Canonical.ringOk | with_reducible apply Canonical.slowOk
    | with_reducible apply Canonical.live | with_reducible apply Canonical.shadow

theorem canon_ctlGap (x0 x1) (h : Canonical x1) : Canonical (ctlGap x0 x1) := by
  unfold ctlGap
  (try dsimp only)
  repeat' first
    | with_reducible assumption | with_reducible apply canon_ite | with_reducible apply canon_ctlAbort

theorem canon_openSlot (x0) (h : Canonical x0) : Canonical (openSlot x0) := by
  unfold openSlot
  (try dsimp only)
  repeat' first
    | with_reducible assumption | with_reducible apply canon_diagSlot | with_reducible apply canon_upsetsPast
    | with_reducible apply canon_ttCapture | with_reducible apply canon_dueSlot | with_reducible apply canon_ctlGap
    | with_reducible apply canon_ttGap | with_reducible apply canon_groupSlot | with_reducible apply canon_flintSample
    | with_reducible apply canon_towerSync | simp only [canonical_mk] | with_reducible apply canon_parts

theorem canon_passSlot (x0 x1) (h : Canonical x1) : Canonical (passSlot x0 x1) :=
  h.only ((only_passSlot x0 x1 [.pw, .tb] _ (List.Subset.refl _)).2 (Only.refl _ _)) (by decide)

theorem canon_pedFinish (x0) (h : Canonical x0) : Canonical (pedFinish x0) := by
  unfold pedFinish
  (try dsimp only)
  repeat' first
    | with_reducible assumption | with_reducible apply canon_ite | with_reducible apply canon_pedEnd
    | simp only [canonical_mk, canonFab_mk, canonOrb_mk, canonSlow_mk] | refine ⟨?_, ?_⟩ | with_reducible apply Canonical.fabOk
    | with_reducible apply Canonical.ringOk | with_reducible apply Canonical.slowOk | with_reducible apply Canonical.live
    | with_reducible apply Canonical.shadow

theorem canon_oasisEnd (x0) (h : Canonical x0) : Canonical (oasisEnd x0) := by
  unfold oasisEnd
  (try dsimp only)
  repeat' first
    | with_reducible assumption | with_reducible apply canon_ite | with_reducible apply canon_sweepKeep
    | with_reducible apply canon_eyeEnd | with_reducible apply canon_pedFinish
    | simp only [canonical_mk, canonFab_mk, canonOrb_mk, canonSlow_mk] | refine ⟨?_, ?_⟩ | with_reducible apply Canonical.fabOk
    | with_reducible apply Canonical.ringOk | with_reducible apply Canonical.slowOk | with_reducible apply Canonical.live
    | with_reducible apply Canonical.shadow

theorem canon_sweepOver (x0) (h : Canonical x0) : Canonical (sweepOver x0) := by
  unfold sweepOver
  (try dsimp only)
  repeat' first
    | with_reducible assumption | with_reducible apply canon_ite | with_reducible apply canon_sweepEnd

theorem canon_markMissed (x0) (h : Canonical x0) : Canonical (markMissed x0) := by
  unfold markMissed
  (try dsimp only)
  repeat' first
    | with_reducible assumption | with_reducible apply canon_ite | with_reducible apply canon_count

theorem canon_closeSlot (x0 x1) (h : Canonical x1) : Canonical (closeSlot x0 x1) := by
  unfold closeSlot
  (try dsimp only)
  repeat' first
    | with_reducible assumption | with_reducible apply canon_sweepOver | with_reducible apply canon_oasisEnd
    | with_reducible apply canon_rearmFlush | with_reducible apply canon_markMissed | with_reducible apply canon_sweepSlot
    | with_reducible apply canon_eyeSlot | with_reducible apply canon_upsetsPast

theorem canon_slotAdvance (x0 x1) (h : Canonical x1) : Canonical (slotAdvance x0 x1) := by
  unfold slotAdvance
  (try dsimp only)
  repeat' first
    | with_reducible assumption | with_reducible apply canon_ite | with_reducible apply canon_closeSlot
    | with_reducible apply canon_passSlot | with_reducible apply canon_pushTag | with_reducible apply canon_openSlot
    | simp only [canonical_mk, canonFab_mk, canonOrb_mk, canonSlow_mk] | refine ⟨?_, ?_⟩ | with_reducible apply Canonical.fabOk
    | with_reducible apply Canonical.ringOk | with_reducible apply Canonical.slowOk | with_reducible apply Canonical.live
    | with_reducible apply Canonical.shadow

theorem canon_takeCutoff (x0) (h : Canonical x0) : Canonical (takeCutoff x0) := by
  unfold takeCutoff
  (try dsimp only)
  repeat' first
    | with_reducible assumption | simp only [canonical_mk, canonFab_mk, canonOrb_mk, canonSlow_mk] | refine ⟨?_, ?_⟩
    | with_reducible apply Canonical.ringOk | with_reducible apply Canonical.slowOk | with_reducible apply Canonical.regs
    | with_reducible apply Canonical.pages | with_reducible apply Canonical.tallies | with_reducible apply Canonical.live
    | with_reducible apply Canonical.shadow

theorem canon_powerAhead (x0 x1) (h : Canonical x1) : Canonical (powerAhead x0 x1) :=
  h.only ((only_powerAhead x0 x1 [.conv] _ (List.Subset.refl _)).2 (Only.refl _ _)) (by decide)

theorem canon_cutoffNow (x0) (h : Canonical x0) : Canonical (cutoffNow x0) := by
  unfold cutoffNow
  (try dsimp only)
  repeat' first
    | with_reducible assumption | with_reducible apply canon_ite | with_reducible apply canon_takeCutoff
    | with_reducible apply canon_powerAhead

theorem canon_cutoffAtStart (x0) (h : Canonical x0) : Canonical (cutoffAtStart x0) := by
  unfold cutoffAtStart
  (try dsimp only)
  repeat' first
    | with_reducible assumption | with_reducible apply canon_ite | with_reducible apply canon_takeCutoff
    | with_reducible apply canon_powerAhead

theorem canon_strobe (x0 x1) (h : Canonical x1) : Canonical (strobe x0 x1) := by
  unfold strobe
  (try dsimp only)
  repeat' first
    | with_reducible assumption | with_reducible apply canon_ite | with_reducible apply canon_count
    | with_reducible apply canon_cutoffNow | simp only [canonical_mk, canonFab_mk, canonOrb_mk, canonSlow_mk] | refine ⟨?_, ?_⟩
    | with_reducible apply Canonical.ringOk | with_reducible apply Canonical.slowOk | with_reducible apply Canonical.regs
    | with_reducible apply Canonical.pages | with_reducible apply Canonical.tallies | with_reducible apply Canonical.live
    | with_reducible apply Canonical.shadow

theorem canon_copyDone (x0 x1) (h : Canonical x1) : Canonical (copyDone x0 x1) := by
  unfold copyDone
  split
  · exact h
  · simp only [canonical_mk, canonOrb_mk]
    exact ⟨h.fabOk, ⟨h.live, ramWf_puts _ _ (ramWf_ramDrop _ h.shadow _)⟩, h.ringOk, h.slowOk⟩

theorem canon_applyIdle (x0 x1) (h : Canonical x1) : Canonical (applyIdle x0 x1) := by
  unfold applyIdle
  (try dsimp only)
  repeat' first
    | with_reducible assumption | with_reducible apply canon_retag | with_reducible apply canon_applyGroups
    | simp only [canonical_mk, canonFab_mk, canonOrb_mk, canonSlow_mk] | refine ⟨?_, ?_⟩ | with_reducible apply Canonical.ringOk
    | with_reducible apply Canonical.slowOk | with_reducible apply Canonical.regs | with_reducible apply Canonical.pages
    | with_reducible apply Canonical.tallies | with_reducible apply Canonical.live | with_reducible apply Canonical.shadow

theorem canon_copyEnd (x0 x1) (h : Canonical x1) : Canonical (copyEnd x0 x1) := by
  unfold copyEnd
  (try dsimp only)
  repeat' first
    | with_reducible assumption | with_reducible apply canon_ite | split | with_reducible apply canon_applyIdle
    | with_reducible apply canon_withNow | with_reducible apply canon_copyDone

theorem canon_idleApply (x0) (h : Canonical x0) : Canonical (idleApply x0) := by
  unfold idleApply
  (try dsimp only)
  repeat' first
    | with_reducible assumption | with_reducible apply canon_ite | with_reducible apply canon_applyIdle
    | with_reducible apply canon_copyEnd | (with_reducible apply canon_foldl; intro _ _ _; (try dsimp only))
    | simp only [canonical_mk, canonFab_mk, canonOrb_mk, canonSlow_mk] | refine ⟨?_, ?_⟩ | with_reducible apply Canonical.ringOk
    | with_reducible apply Canonical.slowOk | with_reducible apply Canonical.regs | with_reducible apply Canonical.pages
    | with_reducible apply Canonical.tallies | with_reducible apply Canonical.live | with_reducible apply Canonical.shadow

theorem canon_copiesPast (x0) (h : Canonical x0) : Canonical (copiesPast x0) := by
  unfold copiesPast
  (try dsimp only)
  repeat' first
    | with_reducible assumption | with_reducible apply canon_ite | split | with_reducible apply canon_copyDone
    | (with_reducible apply canon_foldl; intro _ _ _; (try dsimp only))

theorem canon_oasisSkipped (x0) (h : Canonical x0) : Canonical (oasisSkipped x0) := by
  unfold oasisSkipped
  (try dsimp only)
  repeat' first
    | with_reducible assumption | with_reducible apply canon_ite | with_reducible apply canon_count

theorem canon_rotationStands (x0) (h : Canonical x0) : Canonical (rotationStands x0) := by
  unfold rotationStands
  (try dsimp only)
  repeat' first
    | with_reducible assumption | with_reducible apply canon_ite | with_reducible apply canon_rotateAll

theorem canon_oasisResults (x0) (h : Canonical x0) : Canonical (oasisResults x0) := by
  unfold oasisResults
  (try dsimp only)
  repeat' first
    | with_reducible assumption | split | with_reducible apply canon_eyeShow | with_reducible apply canon_trackApply
    | with_reducible apply canon_rotationStands | simp only [canonical_mk] | with_reducible apply canon_parts

theorem canon_eyeRise (x0 x1 x2) (h : Canonical x2) : Canonical (eyeRise x0 x1 x2) := by
  unfold eyeRise
  (try dsimp only)
  repeat' first
    | with_reducible assumption | with_reducible apply canon_onRise

theorem canon_newOrbitMarks (x0) (h : Canonical x0) : Canonical (newOrbitMarks x0) := by
  unfold newOrbitMarks
  (try dsimp only)
  repeat' first
    | with_reducible assumption | simp only [canonical_mk, canonFab_mk, canonOrb_mk, canonSlow_mk] | refine ⟨?_, ?_⟩
    | with_reducible apply Canonical.ringOk | with_reducible apply Canonical.slowOk | with_reducible apply Canonical.regs
    | with_reducible apply Canonical.pages | with_reducible apply Canonical.tallies | with_reducible apply Canonical.live
    | with_reducible apply Canonical.shadow

theorem canon_powerBack (x0) (h : Canonical x0) : Canonical (powerBack x0) :=
  h.only ((only_powerBack x0 [.conv] _ (List.Subset.refl _)).2 (Only.refl _ _)) (by decide)

theorem canon_boundaryCore (x0) (h : Canonical x0) : Canonical (boundaryCore x0) := by
  unfold boundaryCore
  (try dsimp only)
  repeat' first
    | with_reducible assumption | with_reducible apply canon_restartDeferred | with_reducible apply canon_eyeRise
    | with_reducible apply canon_recost | with_reducible apply canon_applyGroups | with_reducible apply canon_powerBack
    | with_reducible apply canon_onRise | with_reducible apply canon_oasisResults | with_reducible apply canon_applyEffect
    | with_reducible apply canon_orbitCapture | with_reducible apply canon_copiesPast
    | (with_reducible apply canon_foldl; intro _ _ _; (try dsimp only))
    | simp only [canonical_mk, canonFab_mk, canonOrb_mk, canonSlow_mk] | refine ⟨?_, ?_⟩ | with_reducible apply Canonical.fabOk
    | with_reducible apply Canonical.ringOk | with_reducible apply Canonical.slowOk | with_reducible apply Canonical.regs
    | with_reducible apply Canonical.pages | with_reducible apply Canonical.tallies | with_reducible apply Canonical.live
    | with_reducible apply Canonical.shadow

theorem canon_orbitBoundary (x0 x1) (h : Canonical x1) : Canonical (orbitBoundary x0 x1) := by
  unfold orbitBoundary
  (try dsimp only)
  repeat' first
    | with_reducible assumption | with_reducible apply canon_ite | with_reducible apply canon_passSlot
    | with_reducible apply canon_pushTag | with_reducible apply canon_boundaryCore | with_reducible apply canon_newOrbitMarks
    | with_reducible apply canon_retag | with_reducible apply canon_openSlot | with_reducible apply canon_closeSlot
    | with_reducible apply canon_oasisSkipped | with_reducible apply canon_cutoffNow

theorem canon_oasisCut (x0) (h : Canonical x0) : Canonical (oasisCut x0) := by
  unfold oasisCut
  (try dsimp only)
  repeat' first
    | with_reducible assumption | with_reducible apply canon_ite | with_reducible apply canon_diagClear
    | with_reducible apply canon_modLn | with_reducible apply canon_rotationStands
    | simp only [canonical_mk, canonFab_mk, canonOrb_mk, canonSlow_mk] | refine ⟨?_, ?_⟩ | with_reducible apply Canonical.fabOk
    | with_reducible apply Canonical.ringOk | with_reducible apply Canonical.slowOk | with_reducible apply Canonical.live
    | with_reducible apply Canonical.shadow

theorem canon_realign (x0) (h : Canonical x0) : Canonical (realign x0) := by
  unfold realign
  (try dsimp only)
  repeat' first
    | with_reducible assumption | with_reducible apply canon_count | with_reducible apply canon_cutoffAtStart
    | with_reducible apply canon_markerSync | with_reducible apply canon_modTag | with_reducible apply canon_retag
    | with_reducible apply canon_orbitCapture | with_reducible apply canon_oasisSkipped | with_reducible apply canon_oasisCut
    | simp only [canonical_mk, canonFab_mk, canonOrb_mk, canonSlow_mk] | refine ⟨?_, ?_⟩ | with_reducible apply Canonical.ringOk
    | with_reducible apply Canonical.slowOk | with_reducible apply Canonical.regs | with_reducible apply Canonical.pages
    | with_reducible apply Canonical.tallies | with_reducible apply Canonical.live | with_reducible apply Canonical.shadow

theorem canon_leaveIdle (x0) (h : Canonical x0) : Canonical (leaveIdle x0) := by
  unfold leaveIdle
  (try dsimp only)
  repeat' first
    | with_reducible assumption | with_reducible apply canon_modTag | with_reducible apply canon_retag
    | with_reducible apply canon_cutoffAtStart | with_reducible apply canon_markerSync
    | simp only [canonical_mk, canonFab_mk, canonOrb_mk, canonSlow_mk] | refine ⟨?_, ?_⟩ | with_reducible apply Canonical.ringOk
    | with_reducible apply Canonical.slowOk | with_reducible apply Canonical.regs | with_reducible apply Canonical.pages
    | with_reducible apply Canonical.tallies | with_reducible apply Canonical.live | with_reducible apply Canonical.shadow

theorem canon_markAct (x0) (h : Canonical x0) : Canonical (markAct x0) := by
  unfold markAct
  (try dsimp only)
  repeat' first
    | with_reducible assumption | with_reducible apply canon_ite | split | with_reducible apply canon_realign
    | with_reducible apply canon_count | with_reducible apply canon_leaveIdle
    | simp only [canonical_mk, canonFab_mk, canonOrb_mk, canonSlow_mk] | refine ⟨?_, ?_⟩ | with_reducible apply Canonical.fabOk
    | with_reducible apply Canonical.ringOk | with_reducible apply Canonical.slowOk | with_reducible apply Canonical.live
    | with_reducible apply Canonical.shadow

theorem canon_resyncAct (x0) (h : Canonical x0) : Canonical (resyncAct x0) := by
  unfold resyncAct
  (try dsimp only)
  repeat' first
    | with_reducible assumption | with_reducible apply canon_ite | simp only [canonical_mk, canonFab_mk, canonOrb_mk, canonSlow_mk]
    | refine ⟨?_, ?_⟩ | with_reducible apply Canonical.fabOk | with_reducible apply Canonical.ringOk
    | with_reducible apply Canonical.slowOk | with_reducible apply Canonical.live | with_reducible apply Canonical.shadow

theorem canon_oasisBeginAct (x0) (h : Canonical x0) : Canonical (oasisBeginAct x0) := by
  unfold oasisBeginAct
  (try dsimp only)
  repeat' first
    | with_reducible assumption | with_reducible apply canon_ite | with_reducible apply canon_count
    | simp only [canonical_mk, canonFab_mk, canonOrb_mk, canonSlow_mk] | refine ⟨?_, ?_⟩ | with_reducible apply Canonical.fabOk
    | with_reducible apply Canonical.ringOk | with_reducible apply Canonical.slowOk | with_reducible apply Canonical.live
    | with_reducible apply Canonical.shadow

theorem canon_oasisStart (x0 x1) (h : Canonical x1) : Canonical (oasisStart x0 x1) := by
  unfold oasisStart
  split
  · exact h
  · have hf : Canonical ((List.range 384).foldl (fun s c => judgeConv (sliceOk s x0 c) c s) (parkedTrims x1)) :=
      canon_foldl (fun _ _ hv => canon_judgeConv _ _ _ hv) (canon_parkedTrims _ h)
    generalize (List.range 384).foldl (fun s c => judgeConv (sliceOk s x0 c) c s) (parkedTrims x1) = u at hf
    dsimp only
    refine canon_retag _ (canon_diagClear _ _ (canon_eyeStart _ (canon_sweepStart _ ?_)))
    simp only [canonical_mk, canonOrb_mk]
    exact ⟨hf.fabOk, ⟨hf.live, hf.shadow⟩, hf.ringOk, hf.slowOk⟩

theorem canon_rotationEnd (x0 x1) (h : Canonical x1) : Canonical (rotationEnd x0 x1) := by
  unfold rotationEnd
  (try dsimp only)
  repeat' first
    | with_reducible assumption | with_reducible apply canon_ite | with_reducible apply canon_rotateAll

theorem canon_pedTracking (x0) (h : Canonical x0) : Canonical (pedTracking x0) := by
  unfold pedTracking
  (try dsimp only)
  repeat' first
    | with_reducible assumption | with_reducible apply canon_ite | with_reducible apply canon_pedFinish

theorem canon_trimApply (x0) (h : Canonical x0) : Canonical (trimApply x0) := by
  unfold trimApply
  (try dsimp only)
  repeat' first
    | with_reducible assumption | with_reducible apply canon_ite | with_reducible apply canon_applyEffect
    | with_reducible apply canon_flintJudge

theorem canon_convReady (x0 x1) (h : Canonical x1) : Canonical (convReady x0 x1) :=
  h.only ((only_convReady x0 x1 [.conv] _ (List.Subset.refl _)).2 (Only.refl _ _)) (by decide)

theorem canon_count01 (x0 x1) (h : Canonical x1) : Canonical (count01 x0 x1) := by
  unfold count01
  (try dsimp only)
  repeat' first
    | with_reducible assumption | with_reducible apply canon_ite | with_reducible apply canon_count

theorem canon_bufWrite (x0 x1 x2 x3) (h : Canonical x3) : Canonical (bufWrite x0 x1 x2 x3) := by
  unfold bufWrite
  (try dsimp only)
  repeat' first
    | with_reducible assumption | split | with_reducible apply canon_cutoffNow
    | simp only [canonical_mk, canonFab_mk, canonOrb_mk, canonSlow_mk] | refine ⟨?_, ?_⟩ | with_reducible apply Canonical.ringOk
    | with_reducible apply Canonical.slowOk | with_reducible apply Canonical.regs | with_reducible apply Canonical.pages
    | with_reducible apply Canonical.tallies | with_reducible apply Canonical.live | with_reducible apply Canonical.shadow

theorem canon_smapWrite (x0 x1 x2 x3) (h : Canonical x3) : Canonical (smapWrite x0 x1 x2 x3) := by
  unfold smapWrite
  (try dsimp only)
  repeat' first
    | with_reducible assumption | split | with_reducible apply canon_cutoffNow
    | simp only [canonical_mk, canonFab_mk, canonOrb_mk, canonSlow_mk] | refine ⟨?_, ?_⟩ | with_reducible apply Canonical.fabOk
    | with_reducible apply Canonical.ringOk | with_reducible apply Canonical.slowOk | with_reducible apply Canonical.live
    | with_reducible apply Canonical.shadow | with_reducible apply ramWf_ramPut

theorem canon_spiGo (x0 x1 x2 x3) (h : Canonical x3) : Canonical (spiGo x0 x1 x2 x3) := by
  unfold spiGo
  (try dsimp only)
  repeat' first
    | with_reducible assumption | with_reducible apply canon_ite | simp only [canonical_mk, canonFab_mk, canonOrb_mk, canonSlow_mk]
    | refine ⟨?_, ?_⟩ | with_reducible apply Canonical.fabOk | with_reducible apply Canonical.ringOk
    | with_reducible apply Canonical.live | with_reducible apply Canonical.shadow | with_reducible apply Canonical.flash

theorem canon_spiFields (x0 x1) (h : Canonical x1) : Canonical (spiFields x0 x1) := by
  unfold spiFields
  (try dsimp only)
  repeat' first
    | with_reducible assumption | with_reducible apply canon_setReg

theorem canon_spiCmdWrite (x0 x1) (h : Canonical x1) : Canonical (spiCmdWrite x0 x1) := by
  unfold spiCmdWrite
  (try dsimp only)
  repeat' first
    | with_reducible assumption | with_reducible apply canon_ite | with_reducible apply canon_spiGo
    | with_reducible apply canon_takeFree | with_reducible apply canon_spiFields

theorem canon_pollStatus (x0 x1) (h : Canonical x1) : Canonical (pollStatus x0 x1) := by
  unfold pollStatus
  (try dsimp only)
  repeat' first
    | with_reducible assumption | with_reducible apply canon_takeFree
    | simp only [canonical_mk, canonFab_mk, canonOrb_mk, canonSlow_mk] | refine ⟨?_, ?_⟩ | with_reducible apply Canonical.fabOk
    | with_reducible apply Canonical.ringOk | with_reducible apply Canonical.live | with_reducible apply Canonical.shadow
    | with_reducible apply Canonical.flash

theorem canon_spiIdle (x0) (h : Canonical x0) : Canonical (spiIdle x0) := by
  unfold spiIdle
  (try dsimp only)
  repeat' first
    | with_reducible assumption | with_reducible apply canon_ite | with_reducible apply canon_resetNow
    | simp only [canonical_mk, canonFab_mk, canonOrb_mk, canonSlow_mk] | refine ⟨?_, ?_⟩ | with_reducible apply Canonical.fabOk
    | with_reducible apply Canonical.ringOk | with_reducible apply Canonical.live | with_reducible apply Canonical.shadow
    | with_reducible apply Canonical.flash

theorem canon_flashAnswer (x0 x1 x2 x3 x4) (h : Canonical x4) : Canonical (flashAnswer x0 x1 x2 x3 x4) := by
  unfold flashAnswer
  (try dsimp only)
  repeat' first
    | with_reducible assumption | with_reducible apply canon_ite | simp only [canonical_mk, canonFab_mk, canonOrb_mk, canonSlow_mk]
    | refine ⟨?_, ?_⟩ | with_reducible apply Canonical.fabOk | with_reducible apply Canonical.ringOk
    | with_reducible apply Canonical.live | with_reducible apply Canonical.shadow | with_reducible apply Canonical.flash

theorem canon_spiTimeout (x0) (h : Canonical x0) : Canonical (spiTimeout x0) := by
  unfold spiTimeout
  (try dsimp only)
  repeat' first
    | with_reducible assumption | with_reducible apply canon_ite | with_reducible apply canon_count
    | with_reducible apply canon_spiIdle | with_reducible apply canon_spoilFlash | with_reducible apply canon_pollStatus
    | simp only [canonical_mk, canonFab_mk, canonOrb_mk, canonSlow_mk] | refine ⟨?_, ?_⟩ | with_reducible apply Canonical.fabOk
    | with_reducible apply Canonical.ringOk | with_reducible apply Canonical.live | with_reducible apply Canonical.shadow
    | with_reducible apply Canonical.flash

theorem canon_spiDone (x0) (h : Canonical x0) : Canonical (spiDone x0) := by
  unfold spiDone
  split
  · exact h
  · split
    · exact canon_spiTimeout _ h
    dsimp only
    apply canon_spiIdle
    repeat' with_reducible apply canon_ite
    · simp only [canonical_mk, canonSlow_mk]
      exact canon_parts h
    · apply canon_pollStatus
      simp only [canonical_mk, canonSlow_mk]
      exact ⟨h.fabOk, h.orbOk, h.ringOk, ramWf_ramPutBytes _ _ h.flash _⟩
    · apply canon_pollStatus
      simp only [canonical_mk, canonSlow_mk]
      exact ⟨h.fabOk, h.orbOk, h.ringOk, ramWf_ramDrop _ h.flash _⟩
    · simp only [canonical_mk, canonSlow_mk]
      exact canon_parts h
    · simp only [canonical_mk, canonSlow_mk]
      exact canon_parts h

theorem canon_setDue (x0 x1 x2 x3) (h : Canonical x3) : Canonical (setDue x0 x1 x2 x3) :=
  h.only ((only_setDue x0 x1 x2 x3 [.dlA, .dlB] _ (List.Subset.refl _)).2 (Only.refl _ _)) (by decide)

theorem canon_oasisBeginCmd (x0) (h : Canonical x0) : Canonical (oasisBeginCmd x0) := by
  unfold oasisBeginCmd onCode
  repeat' split
  all_goals with_reducible first
    | exact h
    | (repeat' first
        | with_reducible assumption
        | split
        | dsimp only
        | exact h
        | apply canon_oasisBeginAct | apply canon_strobe | apply canon_armEvent | apply canon_resyncAct | apply canon_testFiring
        | apply canon_count | apply canon_setDue)

theorem canon_updateCmd (x0) (h : Canonical x0) : Canonical (updateCmd x0) := by
  unfold updateCmd onCode
  repeat' split
  all_goals with_reducible first
    | exact h
    | (repeat' first
        | with_reducible assumption
        | split
        | dsimp only
        | exact h
        | apply canon_oasisBeginAct | apply canon_strobe | apply canon_armEvent | apply canon_resyncAct | apply canon_testFiring
        | apply canon_count | apply canon_setDue)

theorem canon_armFast (x0) (h : Canonical x0) : Canonical (armFast x0) := by
  unfold armFast onCode
  repeat' split
  all_goals with_reducible first
    | exact h
    | (repeat' first
        | with_reducible assumption
        | split
        | dsimp only
        | exact h
        | apply canon_oasisBeginAct | apply canon_strobe | apply canon_armEvent | apply canon_resyncAct | apply canon_testFiring
        | apply canon_count | apply canon_setDue)

theorem canon_resyncCmd (x0) (h : Canonical x0) : Canonical (resyncCmd x0) := by
  unfold resyncCmd onCode
  repeat' split
  all_goals with_reducible first
    | exact h
    | (repeat' first
        | with_reducible assumption
        | split
        | dsimp only
        | exact h
        | apply canon_oasisBeginAct | apply canon_strobe | apply canon_armEvent | apply canon_resyncAct | apply canon_testFiring
        | apply canon_count | apply canon_setDue)

theorem canon_testPulseCmd (x0) (h : Canonical x0) : Canonical (testPulseCmd x0) := by
  unfold testPulseCmd onCode
  repeat' split
  all_goals with_reducible first
    | exact h
    | (repeat' first
        | with_reducible assumption
        | split
        | dsimp only
        | exact h
        | apply canon_oasisBeginAct | apply canon_strobe | apply canon_armEvent | apply canon_resyncAct | apply canon_testFiring
        | apply canon_count | apply canon_setDue)

theorem canon_unknownCmd (x0) (h : Canonical x0) : Canonical (unknownCmd x0) := by
  unfold unknownCmd onCode
  repeat' split
  all_goals with_reducible first
    | exact h
    | (repeat' first
        | with_reducible assumption
        | split
        | dsimp only
        | exact h
        | apply canon_oasisBeginAct | apply canon_strobe | apply canon_armEvent | apply canon_resyncAct | apply canon_testFiring
        | apply canon_count | apply canon_setDue)

theorem canon_orbitMarkCmd (x0) (h : Canonical x0) : Canonical (orbitMarkCmd x0) := by
  unfold orbitMarkCmd
  (try dsimp only)
  repeat' first
    | with_reducible assumption | with_reducible apply canon_ite | split | with_reducible apply canon_setDue
    | with_reducible apply canon_markAct

theorem canon_acceptCmd (x0) (h : Canonical x0) : Canonical (acceptCmd x0) := by
  unfold acceptCmd
  (try dsimp only)
  repeat' first
    | with_reducible assumption | with_reducible apply canon_ite | split | with_reducible apply canon_setDue
    | with_reducible apply canon_acceptAt

theorem canon_acceptFirst (x0) (h : Canonical x0) : Canonical (acceptFirst x0) := by
  unfold acceptFirst
  (try dsimp only)
  repeat' first
    | with_reducible assumption | with_reducible apply canon_ite | split | with_reducible apply canon_oasisBeginCmd
    | with_reducible apply canon_updateCmd | with_reducible apply canon_armFast | with_reducible apply canon_resyncCmd
    | with_reducible apply canon_testPulseCmd | with_reducible apply canon_unknownCmd | with_reducible apply canon_orbitMarkCmd
    | with_reducible apply canon_acceptCmd

theorem canon_tallyClr (x0 x1 x2) (h : Canonical x2) : Canonical (tallyClr x0 x1 x2) := by
  have hc : Canonical (modPage x0 (fun x =>
      let x := { x with tally := (metClear x0 x1 x2).foldl (fun t b => ramPut 0 t b.1 1) (ramDrop (fun i => x1.testBit i) x.tally),
                        held := x.held.map (metNotice x0 (metClear x0 x1 x2)) }
      if x1.testBit 16 then { x with refused := false, cause := 0 } else x) x2) := by
    refine canon_modPage _ _ _ (fun x hx => ?_) h
    dsimp only
    split <;> exact keys_foldl _ (fun m b hm => keysFrom_ramPut _ hm _ _ (Nat.zero_le _)) _ (keysFrom_filter _ hx)
  unfold tallyClr
  exact ⟨hc.regs, hc.pages, hc.tallies, hc.live, hc.shadow, hc.ring, hc.flash⟩

theorem canon_armCmd (x0 x1) (h : Canonical x1) : Canonical (armCmd x0 x1) := by
  unfold armCmd
  (try dsimp only)
  repeat' first
    | with_reducible assumption | with_reducible apply canon_ite | split | with_reducible apply canon_acceptFirst
    | with_reducible apply canon_softTrigger | with_reducible apply canon_disarmNow | with_reducible apply canon_armEvent

theorem canon_flushWrite (x0 x1) (h : Canonical x1) : Canonical (flushWrite x0 x1) :=
  h.only ((only_flushWrite x0 x1 [.pw, .seams] _ (List.Subset.refl _)).2 (Only.refl _ _)) (by decide)

theorem canon_dlCtl (x0 x1 x2) (h : Canonical x2) : Canonical (dlCtl x0 x1 x2) := by
  unfold dlCtl
  (try dsimp only)
  repeat' first
    | with_reducible assumption | with_reducible apply canon_ite | with_reducible apply canon_ctlAbort
    | with_reducible apply canon_modDl | with_reducible apply canon_setReg

theorem canon_linkSync (x0) (h : Canonical x0) : Canonical (linkSync x0) := by
  unfold linkSync
  (try dsimp only)
  repeat' first
    | with_reducible assumption | with_reducible apply canon_ite | with_reducible apply canon_count | simp only [canonical_mk]
    | with_reducible apply canon_parts

theorem canon_mgCtl (x0 x1 x2) (h : Canonical x2) : Canonical (mgCtl x0 x1 x2) := by
  unfold mgCtl
  (try dsimp only)
  repeat' first
    | with_reducible assumption | with_reducible apply canon_ite | with_reducible apply canon_setReg
    | with_reducible apply canon_linkSync | simp only [canonical_mk] | with_reducible apply canon_parts

theorem canon_regOffDone (x0) (h : Canonical x0) : Canonical (regOffDone x0) := by
  unfold regOffDone
  (try dsimp only)
  repeat' first
    | with_reducible assumption | with_reducible apply canon_ite | with_reducible apply canon_setReg | simp only [canonical_mk]
    | with_reducible apply canon_parts

theorem canon_hostWrite (x0 x1 x2 x3) (h : Canonical x3) : Canonical (hostWrite x0 x1 x2 x3) := by
  unfold hostWrite
  (try dsimp only)
  repeat' first
    | with_reducible assumption | with_reducible apply canon_ite | with_reducible apply canon_hostHdr
    | with_reducible apply canon_hostWord | with_reducible apply canon_hostCtl | with_reducible apply canon_hostSel

theorem canon_ownEffect (x0 x1 x2 x3 x4) (h : Canonical x4) : Canonical (ownEffect x0 x1 x2 x3 x4) := by
  unfold ownEffect
  (try dsimp only)
  repeat' first
    | with_reducible assumption | with_reducible apply canon_ite | split | with_reducible apply canon_smapWrite
    | with_reducible apply canon_spiCmdWrite | with_reducible apply canon_incrCommit | with_reducible apply canon_monConfig
    | with_reducible apply canon_mgCtl | with_reducible apply canon_dlCtl | with_reducible apply canon_hostWrite

theorem canon_supResetPair (x0 x1) (h : Canonical x1) : Canonical (supResetPair x0 x1) := by
  unfold supResetPair
  (try dsimp only)
  repeat' first
    | with_reducible assumption | with_reducible apply canon_ite | with_reducible apply canon_softReset
    | simp only [canonical_mk, canonFab_mk, canonOrb_mk, canonSlow_mk] | refine ⟨?_, ?_⟩ | with_reducible apply Canonical.ringOk
    | with_reducible apply Canonical.slowOk | with_reducible apply Canonical.regs | with_reducible apply Canonical.pages
    | with_reducible apply Canonical.tallies | with_reducible apply Canonical.live | with_reducible apply Canonical.shadow

theorem canon_overridden (x0 x1) (h : Canonical x1) : Canonical (overridden x0 x1) := by
  unfold overridden
  (try dsimp only)
  repeat' first
    | with_reducible assumption | with_reducible apply canon_ite | with_reducible apply canon_count01

theorem canon_sideEffect (x0 x1 x2 x3 x4) (h : Canonical x4) : Canonical (sideEffect x0 x1 x2 x3 x4) := by
  unfold sideEffect
  (try dsimp only)
  repeat' first
    | with_reducible assumption | with_reducible apply canon_ite | with_reducible apply canon_csWrite
    | with_reducible apply canon_monCommand | with_reducible apply canon_tsePopHead | with_reducible apply canon_latchBases
    | with_reducible apply canon_retrainTrunk | with_reducible apply canon_seraiSync | with_reducible apply canon_overridden
    | with_reducible apply canon_modSeam | with_reducible apply canon_tpIn | with_reducible apply canon_tpStartJob
    | with_reducible apply canon_flushWrite | with_reducible apply canon_armCmd | with_reducible apply canon_acqSync
    | with_reducible apply canon_ackUncomp | with_reducible apply canon_resyncAct | with_reducible apply canon_supResetPair
    | with_reducible apply canon_strobe | with_reducible apply canon_tallyClr
    | simp only [canonical_mk, canonFab_mk, canonOrb_mk, canonSlow_mk] | refine ⟨?_, ?_⟩ | with_reducible apply Canonical.fabOk
    | with_reducible apply Canonical.ringOk | with_reducible apply Canonical.slowOk | with_reducible apply Canonical.live
    | with_reducible apply Canonical.shadow | with_reducible apply Canonical.flash

theorem canon_writeEffect (x0 x1 x2 x3 x4) (h : Canonical x4) : Canonical (writeEffect x0 x1 x2 x3 x4) := by
  unfold writeEffect
  (try dsimp only)
  repeat' first
    | with_reducible assumption | with_reducible apply canon_ite | split | with_reducible apply canon_sideEffect
    | with_reducible apply canon_bufWrite | with_reducible apply canon_setReg | with_reducible apply canon_ownEffect

theorem canon_applySup (x0 x1 x2) (h : Canonical x2) : Canonical (applySup x0 x1 x2) := by
  unfold applySup
  (try dsimp only)
  repeat' first
    | with_reducible assumption | with_reducible apply canon_ite | with_reducible apply canon_applyNow

theorem canon_postedEffect (x0 x1) (h : Canonical x1) : Canonical (postedEffect x0 x1) := by
  unfold postedEffect
  (try dsimp only)
  repeat' first
    | with_reducible assumption | with_reducible apply canon_ite | split | with_reducible apply canon_writeEffect
    | with_reducible apply canon_applySup | (with_reducible refine canon_modPage _ _ _ (fun x hx => ?_) ?_)

theorem canon_ownPosted (x0 x1 x2) (h : Canonical x2) : Canonical (ownPosted x0 x1 x2) := by
  unfold ownPosted
  (try dsimp only)
  repeat' first
    | with_reducible assumption | with_reducible apply canon_ite | split | with_reducible apply canon_postedEffect

theorem canon_acceptWrite (x0 x1 x2 x3 x4) (h : Canonical x4) : Canonical (acceptWrite x0 x1 x2 x3 x4) := by
  unfold acceptWrite
  (try dsimp only)
  repeat' first
    | with_reducible assumption | with_reducible apply canon_ite | with_reducible apply canon_writeEffect
    | (with_reducible refine canon_modPage _ _ _ (fun x hx => ?_) ?_)

theorem canon_dropGuard (x0 x1 x2) (h : Canonical x2) : Canonical (dropGuard x0 x1 x2) := by
  unfold dropGuard
  (try dsimp only)
  repeat' first
    | with_reducible assumption | with_reducible apply canon_modMaster

theorem canon_guardBroken (x0 x1 x2) (h : Canonical x2) : Canonical (guardBroken x0 x1 x2) := by
  unfold guardBroken
  (try dsimp only)
  repeat' first
    | with_reducible assumption | with_reducible apply canon_dropGuard | with_reducible apply canon_refuseAt
    | with_reducible apply canon_count01

theorem canon_breakGuard (x0 x1 x2) (h : Canonical x2) : Canonical (breakGuard x0 x1 x2) := by
  unfold breakGuard
  (try dsimp only)
  repeat' first
    | with_reducible assumption | with_reducible apply canon_ite | with_reducible apply canon_guardBroken

theorem canon_servedWrite (x0 x1 x2 x3 x4) (h : Canonical x4) : Canonical (servedWrite x0 x1 x2 x3 x4) := by
  unfold servedWrite
  (try dsimp only)
  repeat' first
    | with_reducible assumption | with_reducible apply canon_ite | split | with_reducible apply canon_modMaster
    | with_reducible apply canon_breakGuard | with_reducible apply canon_guardBroken | with_reducible apply canon_acceptWrite
    | with_reducible apply canon_refuseAt | with_reducible apply canon_count01 | with_reducible apply canon_dropGuard

theorem canon_beginAccess (x0 x1) (h : Canonical x1) : Canonical (beginAccess x0 x1) := by
  unfold beginAccess
  (try dsimp only)
  repeat' first
    | with_reducible assumption | with_reducible apply canon_modMaster

theorem canon_lostAccess (x0 x1) (h : Canonical x1) : Canonical (lostAccess x0 x1) := by
  unfold lostAccess
  (try dsimp only)
  repeat' first
    | with_reducible assumption | with_reducible apply canon_ite | split | with_reducible apply canon_count01
    | with_reducible apply canon_count

theorem canon_alignRefused (x0 x1 x2) (h : Canonical x2) : Canonical (alignRefused x0 x1 x2) := by
  unfold alignRefused
  (try dsimp only)
  repeat' first
    | with_reducible assumption | with_reducible apply canon_breakGuard | with_reducible apply canon_refuseAt
    | with_reducible apply canon_count01

theorem canon_fabWrite (x0 x1 x2 x3) (h : Canonical x3) : Canonical (fabWrite x0 x1 x2 x3) := by
  unfold fabWrite
  (try dsimp only)
  repeat' first
    | with_reducible assumption | with_reducible apply canon_ite | with_reducible apply canon_servedWrite
    | with_reducible apply canon_alignRefused | with_reducible apply canon_ownPosted | with_reducible apply canon_lostAccess
    | with_reducible apply canon_beginAccess

theorem canon_rowWrite (x0 x1 x2 x3) (h : Canonical x3) : Canonical (rowWrite x0 x1 x2 x3) := by
  unfold rowWrite
  (try dsimp only)
  repeat' first
    | with_reducible assumption | with_reducible apply canon_fabWrite | with_reducible apply canon_ownPosted

theorem canon_cmdWrite (x0 x1 x2 x3) (h : Canonical x3) : Canonical (cmdWrite x0 x1 x2 x3) := by
  unfold cmdWrite
  (try dsimp only)
  repeat' first
    | with_reducible assumption | with_reducible apply canon_rowWrite

theorem canon_readLow (x0 x1 x2 x3) (h : Canonical x3) : Canonical ((readLow x0 x1 x2 x3).2) := by
  unfold readLow
  (try dsimp only)
  repeat' first
    | with_reducible assumption | with_reducible apply canon_modMaster

theorem canon_readHigh (x0 x1 x2 x3) (h : Canonical x3) : Canonical ((readHigh x0 x1 x2 x3).2) := by
  unfold readHigh
  (try dsimp only)
  repeat' first
    | with_reducible assumption | split | with_reducible apply canon_count01 | with_reducible apply canon_modMaster

theorem canon_servedRead (x0 x1 x2 x3) (h : Canonical x3) : Canonical ((servedRead x0 x1 x2 x3).2) := by
  unfold servedRead
  (try dsimp only)
  repeat' first
    | with_reducible assumption | split | with_reducible apply canon_tpOut | with_reducible apply canon_hostRead
    | with_reducible apply canon_readHigh | with_reducible apply canon_readLow

theorem canon_fabRead (x0 x1 x2) (h : Canonical x2) : Canonical (fabRead x0 x1 x2) := by
  have hr : ∀ m (r : Nat × State), Canonical r.2 → Canonical (setRdata m r) := fun m r hr => canon_modMaster _ _ _ hr
  unfold fabRead
  dsimp only
  repeat' split
  · exact hr _ _ (canon_lostAccess _ _ (canon_beginAccess _ _ h))
  · exact hr _ _ (canon_alignRefused _ _ _ (canon_ownPosted _ _ _ (canon_beginAccess _ _ h)))
  · exact hr _ _ (canon_servedRead _ _ _ _ (canon_breakGuard _ _ _ (canon_ownPosted _ _ _ (canon_beginAccess _ _ h))))

theorem canon_seqWrite (x0 x1 x2 x3 x4 x5) (h : Canonical x5) : Canonical ((seqWrite x0 x1 x2 x3 x4 x5).2) := by
  induction x3 generalizing x1 x2 x4 x5 with
  | nil => exact h
  | cons w t ih => exact ih _ _ _ _ (canon_fabWrite _ _ _ _ h)

theorem canon_seqRead (x0 x1 x2 x3 x4 x5) (h : Canonical x5) : Canonical ((seqRead x0 x1 x2 x3 x4 x5).2) := by
  induction x1 generalizing x2 x3 x4 x5 with
  | zero => exact h
  | succ n ih => exact ih _ _ _ _ (canon_fabRead _ _ _ h)

theorem canon_bumpNtc (x0) (h : Canonical x0) : Canonical (bumpNtc x0) :=
  h.only ((only_bumpNtc x0 [.acq] _ (List.Subset.refl _)).2 (Only.refl _ _)) (by decide)

theorem canon_noticeOut (x0) (h : Canonical x0) : Canonical (noticeOut x0) := by
  unfold noticeOut
  (try dsimp only)
  repeat' first
    | with_reducible assumption | with_reducible apply canon_ite | split | with_reducible apply canon_bumpNtc
    | with_reducible apply canon_writeBale | simp only [canonical_mk, canonFab_mk, canonOrb_mk, canonSlow_mk] | refine ⟨?_, ?_⟩
    | with_reducible apply Canonical.ringOk | with_reducible apply Canonical.slowOk | with_reducible apply Canonical.regs
    | with_reducible apply Canonical.pages | with_reducible apply Canonical.tallies | with_reducible apply Canonical.live
    | with_reducible apply Canonical.shadow

theorem canon_landFrame (x0 x1 x2) (h : Canonical x2) : Canonical (landFrame x0 x1 x2) := by
  unfold landFrame
  (try dsimp only)
  repeat' first
    | with_reducible assumption | with_reducible apply canon_ite | with_reducible apply canon_count | with_reducible apply canon_modDl

theorem canon_arrival (x0 x1 x2) (h : Canonical x2) : Canonical (arrival x0 x1 x2) := by
  unfold arrival
  (try dsimp only)
  repeat' first
    | with_reducible assumption | with_reducible apply canon_modDl | with_reducible apply canon_onRise

theorem canon_ctlHeader (x0 x1 x2 x3) (h : Canonical x3) : Canonical (ctlHeader x0 x1 x2 x3) := by
  unfold ctlHeader
  (try dsimp only)
  repeat' first
    | with_reducible assumption | with_reducible apply canon_ite | split | with_reducible apply canon_modDl
    | with_reducible apply canon_count

theorem canon_ctlData (x0 x1 x2 x3 x4) (h : Canonical x4) : Canonical (ctlData x0 x1 x2 x3 x4) :=
  h.only ((only_ctlData x0 x1 x2 x3 x4 [.dlA, .dlB] _ (List.Subset.refl _)).2 (Only.refl _ _)) (by decide)

theorem canon_ctlWord (x0 x1 x2 x3) (h : Canonical x3) : Canonical (ctlWord x0 x1 x2 x3) := by
  unfold ctlWord
  (try dsimp only)
  repeat' first
    | with_reducible assumption | with_reducible apply canon_ite | split | with_reducible apply canon_ctlData
    | with_reducible apply canon_ctlAbort | with_reducible apply canon_ctlHeader | with_reducible apply canon_modDl
    | with_reducible apply canon_ctlLost

theorem canon_ttOther (x0 x1 x2) (h : Canonical x2) : Canonical (ttOther x0 x1 x2) := by
  unfold ttOther
  (try dsimp only)
  repeat' first
    | with_reducible assumption | with_reducible apply canon_ite | with_reducible apply canon_ttAbort

theorem canon_probeByte (x0 x1 x2 x3 x4) (h : Canonical x4) : Canonical (probeByte x0 x1 x2 x3 x4) := by
  unfold probeByte
  (try dsimp only)
  repeat' first
    | with_reducible assumption | with_reducible apply canon_ite | with_reducible apply canon_ttByte | with_reducible apply canon_count
    | with_reducible apply canon_serveProbe | with_reducible apply canon_ttOther

theorem canon_fastByte (x0 x1 x2 x3) (h : Canonical x3) : Canonical (fastByte x0 x1 x2 x3) := by
  unfold fastByte
  (try dsimp only)
  repeat' first
    | with_reducible assumption | with_reducible apply canon_ite | split | with_reducible apply canon_count
    | with_reducible apply canon_modDl

theorem canon_endRuns (x0 x1) (h : Canonical x1) : Canonical (endRuns x0 x1) :=
  h.only ((only_endRuns x0 x1 [.lnA, .lnB] _ (List.Subset.refl _)).2 (Only.refl _ _)) (by decide)

theorem canon_decodedFrame (x0 x1 x2 x3) (h : Canonical x3) : Canonical (decodedFrame x0 x1 x2 x3) := by
  unfold decodedFrame
  (try dsimp only)
  repeat' first
    | with_reducible assumption | split | with_reducible apply canon_ctlWord | with_reducible apply canon_probeByte
    | with_reducible apply canon_fastByte | with_reducible apply canon_arrival | with_reducible apply canon_modDl

theorem canon_downlinkFrame (x0 x1 x2) (h : Canonical x2) : Canonical (downlinkFrame x0 x1 x2) := by
  unfold downlinkFrame
  (try dsimp only)
  repeat' first
    | with_reducible assumption | with_reducible apply canon_ite | split | with_reducible apply canon_modDl
    | with_reducible apply canon_count | with_reducible apply canon_decodedFrame | with_reducible apply canon_endRuns
    | with_reducible apply canon_frameErrs | with_reducible apply canon_landFrame | with_reducible apply canon_trainingFrame
    | with_reducible apply canon_ctlLost

theorem canon_servePacket (x0 x1 x2) (h : Canonical x2) : Canonical ((servePacket x0 x1 x2).2) := by
  unfold servePacket
  (try dsimp only)
  repeat' first
    | with_reducible assumption | split | with_reducible apply canon_seqRead | with_reducible apply canon_seqWrite

theorem canon_packetStep (x0 x1) (h : Canonical x1) : Canonical (packetStep x0 x1) := by
  unfold packetStep
  (try dsimp only)
  repeat' first
    | with_reducible assumption | with_reducible apply canon_ite | split | with_reducible apply canon_modDl
    | with_reducible apply canon_servePacket

theorem canon_packetsDue (x0 x1) (h : Canonical x1) : Canonical (packetsDue x0 x1) := by
  unfold packetsDue
  (try dsimp only)
  repeat' first
    | with_reducible assumption | with_reducible apply canon_packetStep | (with_reducible apply canon_iterate; intro _ _)

theorem canon_downlinksFirst (x0) (h : Canonical x0) : Canonical (downlinksFirst x0) := by
  unfold downlinksFirst
  (try dsimp only)
  repeat' first
    | with_reducible assumption | with_reducible apply canon_packetsDue

theorem canon_controlPacket (x0 x1) (h : Canonical x1) : Canonical (controlPacket x0 x1) := by
  unfold controlPacket
  (try dsimp only)
  repeat' first
    | with_reducible assumption | split | with_reducible apply canon_packetsDue | with_reducible apply canon_packetStep

theorem canon_controlResponse (x0 x1) (h : Canonical x1) : Canonical (controlResponse x0 x1) := by
  unfold controlResponse
  (try dsimp only)
  repeat' first
    | with_reducible assumption | with_reducible apply canon_ite | split | with_reducible apply canon_seraiSync
    | with_reducible apply canon_modDl | with_reducible apply canon_bumpNtc | with_reducible apply canon_writeBale
    | with_reducible apply canon_releaseRetained

theorem canon_timeTransfer (x0) (h : Canonical x0) : Canonical (timeTransfer x0) := by
  unfold timeTransfer
  (try dsimp only)
  repeat' first
    | with_reducible assumption | with_reducible apply canon_ttMessage

theorem canon_dropItem (x0 x1) (h : Canonical x1) : Canonical (dropItem x0 x1) := by
  unfold dropItem
  (try dsimp only)
  repeat' first
    | with_reducible assumption | with_reducible apply canon_ite | split | with_reducible apply canon_modQ
    | with_reducible apply canon_seraiSync | with_reducible apply canon_cancelBale

theorem canon_ingress (x0 x1 x2 x3) (h : Canonical x3) : Canonical (ingress x0 x1 x2 x3) := by
  unfold ingress
  (try dsimp only)
  repeat' first
    | with_reducible assumption | with_reducible apply canon_ite | with_reducible apply canon_dropItem
    | with_reducible apply canon_writeBale | with_reducible apply canon_count

theorem canon_toEngine (x0 x1) (h : Canonical x1) : Canonical (toEngine x0 x1) := by
  unfold toEngine
  (try dsimp only)
  repeat' first
    | with_reducible assumption | with_reducible apply canon_ite | with_reducible apply canon_count | simp only [canonical_mk]
    | with_reducible apply canon_parts

theorem canon_mgReceive (x0 x1 x2) (h : Canonical x2) : Canonical (mgReceive x0 x1 x2) := by
  unfold mgReceive
  (try dsimp only)
  repeat' first
    | with_reducible assumption | with_reducible apply canon_ite | with_reducible apply canon_ingress
    | with_reducible apply canon_toEngine | with_reducible apply canon_count | simp only [canonical_mk]
    | with_reducible apply canon_parts

theorem canon_queueResponse (x0 x1 x2) (h : Canonical x2) : Canonical (queueResponse x0 x1 x2) := by
  unfold queueResponse
  (try dsimp only)
  repeat' first
    | with_reducible assumption | with_reducible apply canon_regOffDone | simp only [canonical_mk] | with_reducible apply canon_parts

theorem canon_serveRequest (x0 x1) (h : Canonical x1) : Canonical (serveRequest x0 x1) := by
  unfold serveRequest
  (try dsimp only)
  repeat' first
    | with_reducible assumption | with_reducible apply canon_ite | split | with_reducible apply canon_seqRead
    | with_reducible apply canon_seqWrite | with_reducible apply canon_queueResponse | with_reducible apply canon_count

theorem canon_requestStep (x0) (h : Canonical x0) : Canonical (requestStep x0) := by
  unfold requestStep
  (try dsimp only)
  repeat' first
    | with_reducible assumption | with_reducible apply canon_ite | split | with_reducible apply canon_serveRequest
    | simp only [canonical_mk] | with_reducible apply canon_parts

theorem canon_registerRequest (x0) (h : Canonical x0) : Canonical (registerRequest x0) := by
  unfold registerRequest
  (try dsimp only)
  repeat' first
    | with_reducible assumption | with_reducible apply canon_downlinksFirst | with_reducible apply canon_requestStep

theorem canon_mastersFirst (x0) (h : Canonical x0) : Canonical (mastersFirst x0) := by
  unfold mastersFirst
  (try dsimp only)
  repeat' first
    | with_reducible assumption | with_reducible apply canon_downlinksFirst | with_reducible apply canon_requestStep
    | (with_reducible apply canon_iterate; intro _ _)

theorem canon_frameOut (x0 x1) (h : Canonical x1) : Canonical (frameOut x0 x1) :=
  h.only ((only_frameOut x0 x1 [.mg] _ (List.Subset.refl _)).2 (Only.refl _ _)) (by decide)

theorem canon_frameCut (x0 x1) (h : Canonical x1) : Canonical (frameCut x0 x1) :=
  h.only ((only_frameCut x0 x1 [.mg] _ (List.Subset.refl _)).2 (Only.refl _ _)) (by decide)

theorem canon_discardItem (x0 x1 x2) (h : Canonical x2) : Canonical (discardItem x0 x1 x2) := by
  unfold discardItem
  (try dsimp only)
  repeat' first
    | with_reducible assumption | split | with_reducible apply canon_removeHead | with_reducible apply canon_count
    | with_reducible apply canon_tsePush

theorem canon_stampFrame (x0 x1 x2 x3) (h : Canonical x3) : Canonical (stampFrame x0 x1 x2 x3) := by
  unfold stampFrame
  (try dsimp only)
  repeat' first
    | with_reducible assumption | with_reducible apply canon_ite | split | with_reducible apply canon_count
    | with_reducible apply canon_tsePush

theorem canon_readItem (x0 x1 x2) (h : Canonical x2) : Canonical (readItem x0 x1 x2) := by
  unfold readItem
  (try dsimp only)
  repeat' first
    | with_reducible assumption | split | with_reducible apply canon_eccRead

theorem canon_beginItem (x0 x1 x2 x3 x4) (h : Canonical x4) : Canonical (beginItem x0 x1 x2 x3 x4) := by
  unfold beginItem
  (try dsimp only)
  repeat' first
    | with_reducible assumption | with_reducible apply canon_ite | split | with_reducible apply canon_modQ
    | with_reducible apply canon_frameOut | with_reducible apply canon_headSent | with_reducible apply canon_stampFrame
    | with_reducible apply canon_readItem | simp only [canonical_mk] | with_reducible apply canon_parts

theorem canon_startItem (x0 x1 x2) (h : Canonical x2) : Canonical (startItem x0 x1 x2) := by
  unfold startItem
  (try dsimp only)
  repeat' first
    | with_reducible assumption | with_reducible apply canon_ite | split | with_reducible apply canon_beginItem
    | with_reducible apply canon_lateAct | with_reducible apply canon_discardItem

theorem canon_goOn (x0 x1 x2) (h : Canonical x2) : Canonical (goOn x0 x1 x2) := by
  unfold goOn
  (try dsimp only)
  repeat' first
    | with_reducible assumption | with_reducible apply canon_ite | split | with_reducible apply canon_countD
    | with_reducible apply canon_frameOut | with_reducible apply canon_headSent | with_reducible apply canon_readItem
    | with_reducible apply canon_modQ | with_reducible apply canon_frameCut | with_reducible apply canon_count
    | simp only [canonical_mk] | with_reducible apply canon_parts

theorem canon_cutStopped (x0 x1 x2) (h : Canonical x2) : Canonical (cutStopped x0 x1 x2) := by
  unfold cutStopped
  (try dsimp only)
  repeat' first
    | with_reducible assumption | split | with_reducible apply canon_frameCut | with_reducible apply canon_count
    | with_reducible apply canon_removeHead

theorem canon_sendQueued (x0 x1) (h : Canonical x1) : Canonical (sendQueued x0 x1) := by
  unfold sendQueued
  (try dsimp only)
  repeat' first
    | with_reducible assumption | with_reducible apply canon_ite | split | with_reducible apply canon_startItem

theorem canon_mgSend (x0 x1 x2) (h : Canonical x2) : Canonical (mgSend x0 x1 x2) := by
  unfold mgSend
  (try dsimp only)
  repeat' first
    | with_reducible assumption | with_reducible apply canon_ite | split | with_reducible apply canon_sendQueued
    | with_reducible apply canon_frameOut | with_reducible apply canon_cutStopped | with_reducible apply canon_goOn
    | simp only [canonical_mk] | with_reducible apply canon_parts

theorem canon_linkChange (x0 x1 x2) (h : Canonical x2) : Canonical (linkChange x0 x1 x2) := by
  unfold linkChange
  (try dsimp only)
  repeat' first
    | with_reducible assumption | with_reducible apply canon_ite | with_reducible apply canon_linkSync | simp only [canonical_mk]
    | with_reducible apply canon_parts

theorem canon_partialWord (x0) (h : Canonical x0) : Canonical (partialWord x0) := by
  unfold partialWord
  (try dsimp only)
  repeat' first
    | with_reducible assumption | with_reducible apply canon_refuse | with_reducible apply canon_count

theorem canon_ptrStep (x0) (h : Canonical x0) : Canonical (ptrStep x0) := by
  unfold ptrStep
  (try dsimp only)
  repeat' first
    | with_reducible assumption | simp only [canonical_mk, canonFab_mk, canonOrb_mk, canonSlow_mk] | refine ⟨?_, ?_⟩
    | with_reducible apply Canonical.fabOk | with_reducible apply Canonical.ringOk | with_reducible apply Canonical.live
    | with_reducible apply Canonical.shadow | with_reducible apply Canonical.flash

theorem canon_i2cBegin (x0 x1) (h : Canonical x1) : Canonical (i2cBegin x0 x1) := by
  unfold i2cBegin
  (try dsimp only)
  repeat' first
    | with_reducible assumption | with_reducible apply canon_mastersFirst
    | simp only [canonical_mk, canonFab_mk, canonOrb_mk, canonSlow_mk] | refine ⟨?_, ?_⟩ | with_reducible apply Canonical.fabOk
    | with_reducible apply Canonical.ringOk | with_reducible apply Canonical.live | with_reducible apply Canonical.shadow
    | with_reducible apply Canonical.flash

theorem canon_i2cCount (x0) (h : Canonical x0) : Canonical (i2cCount x0) := by
  unfold i2cCount
  (try dsimp only)
  repeat' first
    | with_reducible assumption | simp only [canonical_mk, canonFab_mk, canonOrb_mk, canonSlow_mk] | refine ⟨?_, ?_⟩
    | with_reducible apply Canonical.fabOk | with_reducible apply Canonical.ringOk | with_reducible apply Canonical.live
    | with_reducible apply Canonical.shadow | with_reducible apply Canonical.flash

theorem canon_i2cData (x0 x1 x2) (h : Canonical x2) : Canonical (i2cData x0 x1 x2) := by
  induction x0 generalizing x1 x2 with
  | zero => exact h
  | succ n ih =>
    unfold i2cData
    dsimp only
    repeat' split
    · exact h
    · exact canon_partialWord _ h
    · exact canon_i2cCount _ (canon_fabWrite _ _ _ _ h)
    · exact ih _ _ (canon_ptrStep _ (canon_i2cCount _ (canon_fabWrite _ _ _ _ h)))

theorem canon_i2cWrite (x0 x1 x2) (h : Canonical x2) : Canonical (i2cWrite x0 x1 x2) := by
  unfold i2cWrite
  (try dsimp only)
  repeat' first
    | with_reducible assumption | with_reducible apply canon_ite | with_reducible apply canon_i2cData
    | with_reducible apply canon_partialWord | with_reducible apply canon_i2cBegin
    | simp only [canonical_mk, canonFab_mk, canonOrb_mk, canonSlow_mk] | refine ⟨?_, ?_⟩ | with_reducible apply Canonical.fabOk
    | with_reducible apply Canonical.ringOk | with_reducible apply Canonical.live | with_reducible apply Canonical.shadow
    | with_reducible apply Canonical.flash

theorem canon_i2cBytes (x0 x1 x2 x3) (h : Canonical x3) : Canonical ((i2cBytes x0 x1 x2 x3).2) := by
  induction x0 generalizing x1 x2 x3 with
  | zero => exact h
  | succ n ih =>
    unfold i2cBytes
    dsimp only
    split
    · exact canon_i2cCount _ (canon_fabRead _ _ _ h)
    · exact ih _ _ _ (canon_ptrStep _ (canon_i2cCount _ (canon_fabRead _ _ _ h)))

theorem canon_i2cRead (x0 x1 x2) (h : Canonical x2) : Canonical (i2cRead x0 x1 x2) := by
  unfold i2cRead
  (try dsimp only)
  repeat' first
    | with_reducible assumption | with_reducible apply canon_ite | with_reducible apply canon_i2cBegin
    | with_reducible apply canon_i2cBytes | simp only [canonical_mk, canonFab_mk, canonOrb_mk, canonSlow_mk] | refine ⟨?_, ?_⟩
    | with_reducible apply Canonical.fabOk | with_reducible apply Canonical.ringOk | with_reducible apply Canonical.live
    | with_reducible apply Canonical.shadow | with_reducible apply Canonical.flash

theorem canon_stretchLimit (x0 x1) (h : Canonical x1) : Canonical (stretchLimit x0 x1) := by
  unfold stretchLimit
  (try dsimp only)
  repeat' first
    | with_reducible assumption | with_reducible apply canon_ite | split | with_reducible apply canon_count
    | simp only [canonical_mk, canonFab_mk, canonOrb_mk, canonSlow_mk] | refine ⟨?_, ?_⟩ | with_reducible apply Canonical.fabOk
    | with_reducible apply Canonical.ringOk | with_reducible apply Canonical.live | with_reducible apply Canonical.shadow
    | with_reducible apply Canonical.flash

theorem canon_loadIr (x0 x1 x2 x3) (h : Canonical x3) : Canonical (loadIr x0 x1 x2 x3) :=
  h.only ((only_loadIr x0 x1 x2 x3 [.jtag] _ (List.Subset.refl _)).2 (Only.refl _ _)) (by decide)

theorem canon_tapReset (x0 x1) (h : Canonical x1) : Canonical (tapReset x0 x1) :=
  h.only ((only_tapReset x0 x1 [.jtag] _ (List.Subset.refl _)).2 (Only.refl _ _)) (by decide)

theorem canon_pinLevels (x0) (h : Canonical x0) : Canonical ((pinLevels x0).2) :=
  h.only ((only_pinLevels x0 [.pw] _ (List.Subset.refl _)).2 (Only.refl _ _)) (by decide)

theorem canon_samplePreload (x0 x1) (h : Canonical x1) : Canonical (samplePreload x0 x1) :=
  h.only ((only_samplePreload x0 x1 [.pw, .jtag] _ (List.Subset.refl _)).2 (Only.refl _ _)) (by decide)

theorem canon_heldState (x0) (h : Canonical x0) : Canonical (heldState x0) := by
  unfold heldState
  simp only [canonical_mk, canonSlow_mk]
  exact ⟨⟨rfl, rfl, fun e he => absurd he (List.not_mem_nil)⟩, ⟨rfl, rfl⟩, rfl, h.flash⟩

theorem canon_porAssert (x0 x1) (h : Canonical x1) : Canonical (porAssert x0 x1) := by
  unfold porAssert
  (try dsimp only)
  repeat' first
    | with_reducible assumption | with_reducible apply canon_ite | split | with_reducible apply canon_heldState
    | simp only [canonical_mk] | with_reducible apply canon_parts

theorem canon_porRelease (x0 x1 x2) (h : Canonical x2) : Canonical (porRelease x0 x1 x2) := by
  unfold porRelease
  (try dsimp only)
  repeat' first
    | with_reducible assumption | with_reducible apply canon_ite | with_reducible apply canon_fuseLoad | simp only [canonical_mk]
    | with_reducible apply canon_parts

theorem canon_leaveAgain (x0 x1) (h : Canonical x1) : Canonical (leaveAgain x0 x1) := by
  unfold leaveAgain
  (try dsimp only)
  repeat' first
    | with_reducible assumption | with_reducible apply canon_ite | with_reducible apply canon_startReplay

theorem canon_xtalLoss (x0) (h : Canonical x0) : Canonical (xtalLoss x0) := by
  unfold xtalLoss
  (try dsimp only)
  repeat' first
    | with_reducible assumption | with_reducible apply canon_ite | with_reducible apply canon_count | with_reducible apply canon_txBoth
    | with_reducible apply canon_unsend | with_reducible apply canon_linkSync | simp only [canonical_mk]
    | with_reducible apply canon_parts

theorem canon_xtalReturn (x0) (h : Canonical x0) : Canonical (xtalReturn x0) := by
  unfold xtalReturn
  (try dsimp only)
  repeat' first
    | with_reducible assumption | with_reducible apply canon_ite | with_reducible apply canon_detectJudge
    | with_reducible apply canon_leaveAgain | with_reducible apply canon_txBoth | simp only [canonical_mk]
    | with_reducible apply canon_parts

theorem canon_vddaLoss (x0) (h : Canonical x0) : Canonical (vddaLoss x0) := by
  unfold vddaLoss
  (try dsimp only)
  repeat' first
    | with_reducible assumption | split | with_reducible apply canon_xtalLoss | with_reducible apply canon_takeFree
    | with_reducible apply canon_coreStop | simp only [canonical_mk] | with_reducible apply canon_parts

theorem canon_vddaReturn (x0) (h : Canonical x0) : Canonical (vddaReturn x0) :=
  h.only ((only_vddaReturn x0 [.pw, .flint, .fout] _ (List.Subset.refl _)).2 (Only.refl _ _)) (by decide)

theorem canon_vddioLoss (x0) (h : Canonical x0) : Canonical (vddioLoss x0) := by
  unfold vddioLoss
  (try dsimp only)
  repeat' first
    | with_reducible assumption | with_reducible apply canon_supplyLoss | with_reducible apply canon_saveStop
    | with_reducible apply canon_outsLow | simp only [canonical_mk] | with_reducible apply canon_parts

theorem canon_vddTo (x0 x1) (h : Canonical x1) : Canonical (vddTo x0 x1) := by
  unfold vddTo
  (try dsimp only)
  repeat' first
    | with_reducible assumption | with_reducible apply canon_ite | with_reducible apply canon_porAssert | simp only [canonical_mk]
    | with_reducible apply canon_parts

theorem canon_vddaTo (x0 x1) (h : Canonical x1) : Canonical (vddaTo x0 x1) := by
  unfold vddaTo
  (try dsimp only)
  repeat' first
    | with_reducible assumption | with_reducible apply canon_ite | with_reducible apply canon_vddaLoss
    | with_reducible apply canon_vddaReturn | simp only [canonical_mk] | with_reducible apply canon_parts

theorem canon_vddioTo (x0 x1) (h : Canonical x1) : Canonical (vddioTo x0 x1) := by
  unfold vddioTo
  (try dsimp only)
  repeat' first
    | with_reducible assumption | with_reducible apply canon_ite | with_reducible apply canon_vddioLoss
    | with_reducible apply canon_txBoth | simp only [canonical_mk] | with_reducible apply canon_parts

theorem canon_railTo (x0 x1 x2) (h : Canonical x2) : Canonical (railTo x0 x1 x2) := by
  unfold railTo lanesAfter running
  repeat' first
    | exact h
    | split
    | with_reducible apply canon_vddTo
    | with_reducible apply canon_vddaTo
    | with_reducible apply canon_vddioTo
    | with_reducible apply canon_txBoth
    | with_reducible apply canon_vddlTo
    | exact ⟨h.regs, h.pages, h.tallies, h.live, h.shadow, h.ring, h.flash⟩

theorem canon_corePagesReset (x0) (h : Canonical x0) : Canonical (corePagesReset x0) := by
  unfold corePagesReset
  dsimp only
  refine canon_modLn _ _ _ (canon_modLn _ _ _ ?_)
  exact canon_foldl (fun u p hu => canon_modPage _ _ _ (fun _ _ => rfl) hu) h

theorem canon_coreFollows (x0) (h : Canonical x0) : Canonical (coreFollows x0) :=
  h.only ((only_coreFollows x0 [.frm, .lnA, .lnB] _ (List.Subset.refl _)).2 (Only.refl _ _)) (by decide)

theorem canon_coreInit (x0 x1) (h : Canonical x1) : Canonical (coreInit x0 x1) := by
  unfold coreInit
  (try dsimp only)
  repeat' first
    | with_reducible assumption | with_reducible apply canon_setPhase | with_reducible apply canon_loadTrims
    | with_reducible apply canon_loadCorr | with_reducible apply canon_retag | with_reducible apply canon_recost
    | with_reducible apply canon_applyEffect | with_reducible apply canon_flintJudge | with_reducible apply canon_releaseHeld
    | with_reducible apply canon_coreFollows | with_reducible apply canon_corePagesReset
    | simp only [canonical_mk, canonFab_mk, canonOrb_mk, canonSlow_mk] | refine ⟨?_, ?_⟩ | with_reducible apply Canonical.fabOk
    | with_reducible apply Canonical.ringOk | with_reducible apply Canonical.slowOk | with_reducible apply Canonical.live
    | with_reducible apply Canonical.shadow

theorem canon_coreFirstLock (x0) (h : Canonical x0) : Canonical (coreFirstLock x0) := by
  unfold coreFirstLock
  (try dsimp only)
  repeat' first
    | with_reducible assumption | with_reducible apply canon_ite | split | with_reducible apply canon_coreInit

theorem canon_nextSlot (x0) (h : Canonical x0) : Canonical (nextSlot x0) := by
  unfold nextSlot
  (try dsimp only)
  repeat' first
    | with_reducible assumption | with_reducible apply canon_ite | with_reducible apply canon_slotAdvance
    | with_reducible apply canon_orbitBoundary

theorem canon_slotOver (x0) (h : Canonical x0) : Canonical (slotOver x0) :=
  h.only ((only_slotOver x0 [.pw] _ (List.Subset.refl _)).2 (Only.refl _ _)) (by decide)

theorem canon_endInterrupted (x0) (h : Canonical x0) : Canonical (endInterrupted x0) := by
  unfold endInterrupted
  (try dsimp only)
  repeat' first
    | with_reducible assumption | with_reducible apply canon_slotOver | with_reducible apply canon_nextSlot

theorem canon_coreReturn (x0 x1) (h : Canonical x1) : Canonical (coreReturn x0 x1) := by
  unfold coreReturn
  (try dsimp only)
  repeat' first
    | with_reducible assumption | split | with_reducible apply canon_flintResume | with_reducible apply canon_setPhase
    | with_reducible apply canon_gapSet | with_reducible apply canon_applyEffect | with_reducible apply canon_flintJudge
    | with_reducible apply canon_endInterrupted | with_reducible apply canon_releaseHeld | with_reducible apply canon_coreFollows
    | simp only [canonical_mk] | with_reducible apply canon_parts

theorem canon_coreResume (x0) (h : Canonical x0) : Canonical (coreResume x0) := by
  unfold coreResume
  (try dsimp only)
  repeat' first
    | with_reducible assumption | with_reducible apply canon_ite | split | with_reducible apply canon_coreReturn
    | with_reducible apply canon_leaveAgain

theorem canon_flushCmd (x0 x1 x2 x3) (h : Canonical x3) : Canonical (flushCmd x0 x1 x2 x3) := by
  unfold flushCmd
  (try dsimp only)
  repeat' first
    | with_reducible assumption | with_reducible apply canon_ite | with_reducible apply canon_flushBale
    | with_reducible apply canon_rowWrite

theorem canon_pinsSeen (x0 x1) (h : Canonical x1) : Canonical (pinsSeen x0 x1) := by
  unfold pinsSeen
  (try dsimp only)
  repeat' first
    | with_reducible assumption | with_reducible apply canon_ite | with_reducible apply canon_acceptFirst
    | with_reducible apply canon_trigInSeen | (with_reducible apply canon_iterate; intro _ _) | simp only [canonical_mk]
    | with_reducible apply canon_parts

theorem canon_serData (x0 x1 x2) (h : Canonical x2) : Canonical (serData x0 x1 x2) := by
  unfold serData
  (try dsimp only)
  repeat' first
    | with_reducible assumption | with_reducible apply canon_ite | with_reducible apply canon_wrData
    | with_reducible apply canon_herNext | with_reducible apply canon_engineWord

theorem canon_serHdr (x0 x1 x2 x3) (h : Canonical x3) : Canonical (serHdr x0 x1 x2 x3) :=
  h.only ((only_serHdr x0 x1 x2 x3 [.ser] _ (List.Subset.refl _)).2 (Only.refl _ _)) (by decide)

theorem canon_serEnd (x0 x1 x2 x3) (h : Canonical x3) : Canonical (serEnd x0 x1 x2 x3) := by
  unfold serEnd
  (try dsimp only)
  repeat' first
    | with_reducible assumption | with_reducible apply canon_ite | with_reducible apply canon_wrEnd | with_reducible apply canon_herEnd
    | with_reducible apply canon_engineClose

theorem canon_serCancel (x0 x1) (h : Canonical x1) : Canonical (serCancel x0 x1) := by
  unfold serCancel
  (try dsimp only)
  repeat' first
    | with_reducible assumption | with_reducible apply canon_ite | with_reducible apply canon_cancelBale
    | with_reducible apply canon_herRewind | with_reducible apply canon_writerCancel | with_reducible apply canon_engineCancel

theorem canon_heldDone (x0 x1) (h : Canonical x1) : Canonical (heldDone x0 x1) := by
  unfold heldDone
  (try dsimp only)
  repeat' first
    | with_reducible assumption | with_reducible apply canon_ite | with_reducible apply canon_heldComplete
    | with_reducible apply canon_herHeld | with_reducible apply canon_manifestHeld | with_reducible apply canon_engineHeld


end

end Sys2Proof.Machine
end

