-- ==== Sys2Proof/Laws/Exec.lean ====
section
/-! SUPPORT. What one command, and one step, keeps: the skeleton but for the commands of power and reset, clocks and supplies in
agreement, every unit in place, the canonical form. -/

namespace Sys2Proof.Machine

section
set_option linter.unusedTactic false
set_option linter.unusedSimpArgs false
set_option linter.unreachableTactic false
set_option linter.unusedVariables false
set_option linter.unnecessarySeqFocus false

/-- The commands that change power flags. -/
def powerCmd : Instr → Bool
  | .porAssert _ => true
  | .porRelease _ _ => true
  | .corePllFirstLock => true
  | .railLoss _ _ => true
  | .railReturn _ _ => true
  | .xtalLoss => true
  | .xtalReturn => true
  | .pllHoldTimeout => true
  | .coreResume => true
  | _ => false

/-- No other command changes the skeleton. -/
theorem exec_skel (c : Instr) (s t : State) (hc : powerCmd c = false) (h : exec c s = .next t) : skel t = skel s := by
  cases c
  case sampleConversion =>
    simp only [exec, execSampleConversion] at h
    split at h
    · cases h
    · injection h with h
      subst h
      unfold coreOnly
      split <;> simp
  all_goals first
    | (cases hc; done)
    | (injection h with h
       subst h
       first
       | rfl
       | (unfold coreOnly
          split
          · rfl
          · first | (simp; done) | (dsimp only; split <;> simp))
       | (unfold running
          split
          · rfl
          · simp)
       | (unfold lanesAfter running
          split
          · rfl
          · simp)
       | simp)

/-! ### The commands of power and reset -/

/-- Clocks and supplies of a skeleton. -/
def ClockedK (k : Skel) : Prop :=
  (k.por = true → k.coreRun = false ∧ k.xtal = false) ∧ (k.coreRun = true → k.vdda = true ∧ k.coreEver = true) ∧
    (k.xtal = true → k.vdda = true) ∧ (k.por = false → k.released = true)

/-- Sizes of a skeleton. -/
def ShapedK (k : Skel) : Prop :=
  k.nConv = 384 ∧ k.nChan = 384 ∧ k.nFlint = 384 ∧ k.nFout = 7 ∧ k.nSeams = 6 ∧ k.nQs = 32 ∧ k.nMasters = 4

theorem clocked_iff (s : State) : Clocked s ↔ ClockedK (skel s) :=
  ⟨fun h => ⟨h.held, h.core, h.crystal, h.released⟩, fun ⟨a, b, c, d⟩ => ⟨a, b, c, d⟩⟩

theorem shaped_iff (s : State) : Shaped s ↔ ShapedK (skel s) :=
  ⟨fun h => ⟨h.conv, h.chan, h.flint, h.fout, h.seams, h.queues, h.masters⟩, fun ⟨a, b, c, d, e, f, g⟩ => ⟨a, b, c, d, e, f, g⟩⟩

/-- What a command of power or reset keeps. -/
structure Kept (s t : State) : Prop where
  pending : t.pending = s.pending
  clocked : Clocked s → Clocked t
  shaped  : Shaped s → Shaped t

theorem kept_of {s t : State} {k : Skel} (e : skel t = k) (hp : k.pending = (skel s).pending)
    (hc : ClockedK (skel s) → ClockedK k) (hs : ShapedK (skel s) → ShapedK k) : Kept s t :=
  ⟨(congrArg Skel.pending e).trans hp, fun h => (clocked_iff t).2 (e ▸ hc ((clocked_iff s).1 h)),
    fun h => (shaped_iff t).2 (e ▸ hs ((shaped_iff s).1 h))⟩

theorem kept_same {s t : State} (e : skel t = skel s) : Kept s t := kept_of e rfl id id

theorem kept_held {s t : State} (e : skel t = skel (heldState s)) : Kept s t := by
  rw [skel_heldState] at e
  exact kept_of e rfl (fun _ => by simp [ClockedK]) (fun _ => by simp [ShapedK])

theorem kept_porAssert (cause : PorCause) (s : State) : Kept s (porAssert cause s) := by
  cases cause
  · exact kept_held rfl
  · unfold porAssert
    dsimp only
    split
    · exact kept_same rfl
    · exact kept_held rfl
  · unfold porAssert
    dsimp only
    split
    · exact kept_same rfl
    · exact kept_held rfl

theorem kept_porRelease (adr : Nat) (r : Bool) (s : State) : Kept s (porRelease adr r s) := by
  unfold porRelease
  split
  · exact kept_same rfl
  · dsimp only
    split
    · exact kept_same rfl
    · rename_i h _
      have hp : (skel s).por = true := by
        cases hq : s.pw.por
        · simp [hq] at h
        · exact hq
      refine kept_of (k := { skel s with por := false, released := true }) (by simp [sk]) rfl (fun hc => ?_) id
      obtain ⟨a, b, c, d⟩ := hc
      exact ⟨fun h => (by cases h), b, c, fun _ => rfl⟩

theorem kept_xtalOff {s t : State} (e : skel t = { skel s with xtal := false }) : Kept s t :=
  kept_of e rfl (fun ⟨a, b, c, d⟩ => ⟨fun h => ⟨(a h).1, rfl⟩, b, fun h => (by cases h), d⟩) id

theorem kept_coreOff {s t : State} (e : skel t = { skel s with coreRun := false }) : Kept s t :=
  kept_of e rfl (fun ⟨a, b, c, d⟩ => ⟨fun h => ⟨rfl, (a h).2⟩, fun h => (by cases h), c, d⟩) id

theorem kept_coreOn {s t : State} (hp : s.pw.por = false) (hv : s.pw.vdda = true)
    (e : skel t = { skel s with coreRun := true, coreEver := true }) : Kept s t :=
  kept_of e rfl (fun ⟨a, b, c, d⟩ => ⟨fun h => absurd (hp.symm.trans h) (by decide), fun _ => ⟨hv, rfl⟩, c, d⟩) id

theorem kept_coreBack {s t : State} (hp : s.pw.por = false) (hv : s.pw.vdda = true) (he : s.pw.coreEver = true)
    (e : skel t = { skel s with coreRun := true }) : Kept s t :=
  kept_of e rfl (fun ⟨a, b, c, d⟩ => ⟨fun h => absurd (hp.symm.trans h) (by decide), fun _ => ⟨hv, he⟩, c, d⟩) id

theorem kept_vddaLoss (s : State) : Kept s (vddaLoss s) :=
  kept_of (skel_vddaLoss s) rfl
    (fun ⟨a, b, c, d⟩ => ⟨fun _ => ⟨rfl, rfl⟩, fun h => (by cases h), fun h => (by cases h), d⟩) id

theorem kept_vddaReturn (s : State) : Kept s (vddaReturn s) :=
  kept_of (skel_vddaReturn s) rfl (fun ⟨a, b, c, d⟩ => ⟨a, fun h => ⟨rfl, (b h).2⟩, fun _ => rfl, d⟩) id

theorem kept_lanesAfter {f : State → State} {s : State} (h : ∀ u, skel (f u) = skel u) : Kept s (lanesAfter f s) := by
  unfold lanesAfter running
  split
  · exact kept_same rfl
  · exact kept_same (by simp [h])

theorem kept_vddTo (mv : Nat) (s : State) : Kept s (vddTo mv s) := by
  unfold vddTo
  repeat' split
  · exact kept_same rfl
  · exact kept_porAssert _ s
  · exact kept_same rfl

theorem kept_vddaTo (up : Bool) (s : State) : Kept s (vddaTo up s) := by
  unfold vddaTo
  split
  · rename_i hp
    exact kept_of (k := { skel s with vdda := up }) rfl rfl
      (fun ⟨a, b, c, d⟩ => ⟨a, fun h => absurd ((a hp).1.symm.trans h) (by decide), fun h => absurd ((a hp).2.symm.trans h) (by decide), d⟩) id
  · repeat' split
    · exact kept_vddaReturn s
    · exact kept_vddaLoss s
    · exact kept_same rfl

theorem kept_vddioTo (mv : Nat) (s : State) : Kept s (vddioTo mv s) := by
  unfold vddioTo
  dsimp only
  split
  · exact kept_same (by rw [skel_txBoth, skel_vddioLoss]; rfl)
  · exact kept_same rfl

theorem kept_railTo (r : Rail) (mv : Nat) (s : State) : Kept s (railTo r mv s) := by
  cases r
  · exact kept_vddTo mv s
  · exact kept_vddaTo _ s
  · exact kept_lanesAfter (fun u => by simp)
  · exact kept_lanesAfter (fun u => by simp)
  · exact kept_vddioTo mv s
  · exact kept_same rfl

theorem kept_xtalReturn (s : State) (hp : s.pw.por = false) : Kept s (xtalReturn s) :=
  kept_of (skel_xtalReturn s) rfl
    (fun ⟨a, b, c, d⟩ => ⟨fun h => absurd (hp.symm.trans h) (by decide), b, fun h => by
      cases hx : s.pw.xtal
      · have h' : (s.pw.xtal || s.pw.vdda) = true := h
        rw [hx] at h'
        exact h'
      · exact c hx, d⟩) id

theorem kept_coreFirstLock (s : State) (hp : s.pw.por = false) : Kept s (coreFirstLock s) := by
  unfold coreFirstLock
  split
  · exact kept_same rfl
  · rename_i h
    have hv : s.pw.vdda = true := by
      cases hq : s.pw.vdda
      · simp [hq] at h
      · rfl
    split
    · exact kept_coreOn hp hv (skel_coreInit _ s)
    · exact kept_same rfl

theorem kept_coreResume (s : State) (hp : s.pw.por = false) : Kept s (coreResume s) := by
  unfold coreResume
  split
  · exact kept_same rfl
  · rename_i h
    have hv : s.pw.vdda = true ∧ s.pw.coreEver = true := by
      cases hq : s.pw.vdda <;> cases he : s.pw.coreEver <;> simp [hq, he] at h; exact ⟨rfl, rfl⟩
    split
    · exact kept_coreBack hp hv.1 hv.2 (by simp)
    · exact kept_same rfl

theorem kept_holdTimeout (s : State) : Kept s (holdTimeout s) := by
  rcases skel_holdTimeout s with e | e
  · exact kept_same e
  · exact kept_coreOff e

theorem kept_running {f : State → State} {s : State} (h : s.pw.por = false → Kept s (f s)) : Kept s (running f s) :=
  running_ind Kept f s (kept_same rfl) h

/-- A command of power or reset keeps the queue, and what agreed still agrees. -/
theorem exec_power (c : Instr) (s t : State) (hc : powerCmd c = true) (h : exec c s = .next t) : Kept s t := by
  cases c <;> first | (cases hc; done) | (injection h with h; subst h)
  · exact kept_porAssert _ s
  · exact kept_porRelease _ _ s
  · exact kept_running (kept_coreFirstLock s)
  · exact kept_railTo _ _ s
  · exact kept_railTo _ _ s
  · exact kept_running (fun _ => kept_xtalOff (skel_xtalLoss s))
  · exact kept_running (kept_xtalReturn s)
  · exact coreOnly_ind Kept _ s (kept_same rfl) (fun _ _ => kept_holdTimeout s)
  · exact kept_running (kept_coreResume s)

/-- What every command keeps. -/
theorem exec_kept (c : Instr) (s t : State) (h : exec c s = .next t) : Kept s t := by
  cases hc : powerCmd c
  · exact kept_same (exec_skel c s t hc h)
  · exact exec_power c s t hc h

theorem kept_idle (s : State) : Kept s (idleCycle s) := kept_same (by simp)

theorem step_clocked (s t : State) (hs : Clocked s) (h : step s = .next t) : Clocked t := by
  unfold step at h
  split at h
  · injection h with h; subst h; exact (kept_idle s).clocked hs
  · exact (exec_kept _ _ t h).clocked ⟨hs.held, hs.core, hs.crystal, hs.released⟩

theorem step_shaped (s t : State) (hs : Shaped s) (h : step s = .next t) : Shaped t := by
  unfold step at h
  split at h
  · injection h with h; subst h; exact (kept_idle s).shaped hs
  · exact (exec_kept _ _ t h).shaped ⟨hs.conv, hs.chan, hs.flint, hs.fout, hs.seams, hs.queues, hs.masters⟩

/-! ### The canonical form -/

theorem canon_running {f : State → State} {s : State} (hf : ∀ u, Canonical u → Canonical (f u)) (h : Canonical s) :
    Canonical (running f s) := by
  unfold running; split
  · exact h
  · exact hf s h

theorem canon_lanesAfter {f : State → State} {s : State} (hf : ∀ u, Canonical u → Canonical (f u)) (h : Canonical s) :
    Canonical (lanesAfter f s) := canon_running (fun u hu => canon_txBoth _ (hf u hu)) h

theorem canon_coreOnly {f : State → State} {s : State} (hf : ∀ u, Canonical u → Canonical (f u)) (h : Canonical s) :
    Canonical (coreOnly f s) := by
  unfold coreOnly; split
  · exact h
  · exact hf s h

/-- Every command keeps the canonical form. -/
theorem exec_canonical (c : Instr) (s t : State) (hs : Canonical s) (h : exec c s = .next t) : Canonical t := by
  cases c
  case sampleConversion =>
    simp only [exec, execSampleConversion] at h
    split at h
    · cases h
    · injection h with h
      subst h
      exact canon_coreOnly (fun u hu => canon_sampleOut _ _ _ _ _ _ u hu) hs
  all_goals (injection h with h; subst h)
  · exact canon_porAssert _ s hs
  · exact canon_porRelease _ _ s hs
  · exact canon_running (fun u hu => canon_loadStores _ u hu) hs
  · exact canon_running (fun u hu => canon_coreFirstLock u hu) hs
  · exact canon_railTo _ _ s hs
  · exact canon_railTo _ _ s hs
  · exact canon_running (fun u hu => canon_xtalLoss u hu) hs
  · exact canon_running (fun u hu => canon_xtalReturn u hu) hs
  · refine canon_coreOnly (fun u hu => ?_) hs
    (try dsimp only)
    repeat' first | exact hu | with_reducible apply canon_ite | with_reducible apply canon_pinsSeen | with_reducible apply canon_slotAdvance
  · exact canon_coreOnly (fun u hu => canon_cutoffNow u hu) hs
  · refine canon_coreOnly (fun u hu => ?_) hs
    (try dsimp only)
    repeat' first | exact hu | with_reducible apply canon_ite | with_reducible apply canon_pinsSeen | with_reducible apply canon_orbitBoundary
  · exact canon_coreOnly (fun u hu => canon_idleApply u hu) hs
  · exact canon_coreOnly (fun u hu => canon_copyEnd _ u hu) hs
  · exact canon_coreOnly (fun u hu => canon_orbitMarkCmd u hu) hs
  · exact canon_coreOnly (fun u hu => canon_resyncCmd u hu) hs
  · exact canon_running (fun u hu => canon_cmdWrite _ _ _ u hu) hs
  · exact canon_coreOnly (fun u hu => canon_oasisBeginCmd u hu) hs
  · exact canon_coreOnly (fun u hu => canon_oasisStart _ u hu) hs
  · exact canon_coreOnly (fun u hu => canon_rotationEnd _ u hu) hs
  · exact canon_coreOnly (fun u hu => canon_pedTracking u hu) hs
  · exact canon_coreOnly (fun u hu => canon_diagStart _ _ u hu) hs
  · exact canon_coreOnly (fun u hu => canon_diagRecord u hu) hs
  · exact canon_coreOnly (fun u hu => canon_convReady _ u hu) hs
  · exact canon_coreOnly (fun u hu => canon_filterNext _ u hu) hs
  · exact canon_coreOnly (fun u hu => canon_peakStore _ u hu) hs
  · exact canon_running (fun u hu => canon_inputPulse _ _ _ _ _ u hu) hs
  · exact canon_running (fun u hu => canon_outputFall _ _ u hu) hs
  · exact canon_coreOnly (fun u hu => canon_stuckSet _ u hu) hs
  · exact canon_coreOnly (fun u hu => canon_stuckClear _ u hu) hs
  · exact canon_coreOnly (fun u hu => canon_latchClear _ u hu) hs
  · refine canon_running (fun u hu => ?_) hs
    (try dsimp only)
    repeat' first | exact hu | with_reducible apply canon_ite | with_reducible apply canon_txBoth | with_reducible apply canon_downlinkFrame
  · exact canon_coreOnly (fun u hu => canon_acceptCmd u hu) hs
  · exact canon_coreOnly (fun u hu => canon_updateCmd u hu) hs
  · exact canon_coreOnly (fun u hu => canon_armFast u hu) hs
  · exact canon_coreOnly (fun u hu => canon_testPulseCmd u hu) hs
  · exact hs
  · exact canon_coreOnly (fun u hu => canon_unknownCmd u hu) hs
  · exact canon_coreOnly (fun u hu => canon_sendEcho _ u hu) hs
  · exact canon_running (fun u hu => canon_controlPacket _ u hu) hs
  · exact canon_coreOnly (fun u hu => canon_controlResponse _ u hu) hs
  · exact canon_running (fun u hu => canon_rowWrite _ _ _ u hu) hs
  · exact canon_coreOnly (fun u hu => canon_timeTransfer u hu) hs
  · refine canon_coreOnly (fun u hu => ?_) hs
    (try dsimp only)
    repeat' first | exact hu | with_reducible apply canon_ite | with_reducible apply canon_selfTrig | with_reducible apply canon_acceptFirst
  · refine canon_coreOnly (fun u hu => ?_) hs
    (try dsimp only)
    repeat' first | exact hu | with_reducible apply canon_ite | with_reducible apply canon_trigInEdge | with_reducible apply canon_acceptFirst
  · exact canon_running (fun u hu => canon_cmdWrite _ _ _ u hu) hs
  · exact canon_running (fun u hu => canon_cmdWrite _ _ _ u hu) hs
  · exact canon_running (fun u hu => canon_cmdWrite _ _ _ u hu) hs
  · exact canon_coreOnly (fun u hu => canon_primingOver u hu) hs
  · exact canon_coreOnly (fun u hu => canon_holdoffOver u hu) hs
  · exact canon_coreOnly (fun u hu => canon_trigOutFall u hu) hs
  · exact canon_coreOnly (fun u hu => canon_liftBegin _ u hu) hs
  · exact canon_coreOnly (fun u hu => canon_liftEnd _ u hu) hs
  · exact canon_coreOnly (fun u hu => canon_verifyFail _ _ u hu) hs
  · exact canon_coreOnly (fun u hu => canon_engineClose _ _ u hu) hs
  · exact canon_running (fun u hu => canon_flushCmd _ _ _ u hu) hs
  · exact canon_running (fun u hu => canon_rowWrite _ _ _ u hu) hs
  · exact canon_coreOnly (fun u hu => canon_tpDone _ u hu) hs
  · exact canon_running (fun u hu => canon_rowWrite _ _ _ u hu) hs
  · exact canon_running (fun u hu => canon_fabRead _ _ u hu) hs
  · exact canon_coreOnly (fun u hu => canon_serData _ _ u hu) hs
  · exact canon_coreOnly (fun u hu => canon_serHdr _ _ _ u hu) hs
  · exact canon_coreOnly (fun u hu => canon_serEnd _ _ _ u hu) hs
  · exact canon_coreOnly (fun u hu => canon_serCancel _ u hu) hs
  · exact canon_coreOnly (fun u hu => canon_heldDone _ u hu) hs
  · exact canon_coreOnly (fun u hu => canon_retentionEnd _ u hu) hs
  · exact canon_coreOnly (fun u hu => canon_replayOver u hu) hs
  · exact canon_coreOnly (fun u hu => canon_queueDrained _ u hu) hs
  · exact canon_running (fun u hu => canon_rowWrite _ _ _ u hu) hs
  · exact canon_running (fun u hu => canon_rowWrite _ _ _ u hu) hs
  · exact canon_running (fun u hu => canon_rowWrite _ _ _ u hu) hs
  · exact canon_running (fun u hu => canon_rowWrite _ _ _ u hu) hs
  · exact canon_running (fun u hu => canon_rowWrite _ _ _ u hu) hs
  · exact canon_running (fun u hu => canon_fabRead _ _ u hu) hs
  · exact canon_coreOnly (fun u hu => canon_launchRelease _ u hu) hs
  · exact canon_coreOnly (fun u hu => canon_launchLate _ u hu) hs
  · exact canon_coreOnly (fun u hu => canon_sendCaravan u hu) hs
  · exact canon_coreOnly (fun u hu => canon_sendTowers u hu) hs
  · exact canon_coreOnly (fun u hu => canon_manifestNext u hu) hs
  · exact canon_coreOnly (fun u hu => canon_creditStep u hu) hs
  · exact canon_lanesAfter (fun u hu => canon_vddlTo _ _ u hu) hs
  · exact canon_lanesAfter (fun u hu => canon_vddlTo _ _ u hu) hs
  · exact canon_lanesAfter (fun u hu => canon_detectPulse _ _ u hu) hs
  · exact canon_lanesAfter (fun u hu => canon_trainingFrame _ _ u hu) hs
  · exact canon_lanesAfter (fun u hu => canon_trainTimeout _ u hu) hs
  · exact canon_lanesAfter (fun u hu => canon_fwdLoss _ u hu) hs
  · exact canon_lanesAfter (fun u hu => canon_fwdReturn _ u hu) hs
  · exact canon_lanesAfter (fun u hu => canon_fwdWindow _ _ u hu) hs
  · exact canon_lanesAfter (fun u hu => canon_signalLevel _ _ u hu) hs
  · exact canon_lanesAfter (fun u hu => canon_lockAcquire _ u hu) hs
  · exact canon_lanesAfter (fun u hu => canon_lockLose _ _ u hu) hs
  · exact canon_lanesAfter (fun u hu => canon_rowWrite _ _ _ u hu) hs
  · exact canon_coreOnly (fun u hu => canon_phaseLock u hu) hs
  · exact canon_coreOnly (fun u hu => canon_holdTimeout u hu) hs
  · exact canon_running (fun u hu => canon_coreResume u hu) hs
  · exact canon_running (fun u hu => canon_cmdWrite _ _ _ u hu) hs
  · exact canon_running (fun u hu => canon_evidenceChange _ u hu) hs
  · exact canon_running (fun u hu => canon_heartToggle _ u hu) hs
  · exact canon_running (fun u hu => canon_heartTimeout _ u hu) hs
  · exact canon_running (fun u hu => canon_supCycle u hu) hs
  · exact canon_running (fun u hu => canon_prefWait u hu) hs
  · exact canon_coreOnly (fun u hu => canon_moveStart u hu) hs
  · exact canon_running (fun u hu => canon_checkEnd _ u hu) hs
  · exact canon_running (fun u hu => canon_pcycleEnd _ u hu) hs
  · exact canon_running (fun u hu => canon_repairTimeout _ u hu) hs
  · exact canon_running (fun u hu => canon_autoRepair _ u hu) hs
  · exact canon_running (fun u hu => canon_scrubPass u hu) hs
  · exact canon_running (fun u hu => canon_rowWrite _ _ _ u hu) hs
  · exact canon_running (fun u hu => canon_rowWrite _ _ _ u hu) hs
  · exact canon_running (fun u hu => canon_holdoverSet _ u hu) hs
  · exact canon_running (fun u hu => canon_cmdWrite _ _ _ u hu) hs
  · exact canon_running (fun u hu => canon_cmdWrite _ _ _ u hu) hs
  · exact canon_running (fun u hu => canon_mgReceive _ _ u hu) hs
  · exact canon_running (fun u hu => canon_registerRequest u hu) hs
  · exact canon_running (fun u hu => canon_mgSend _ _ u hu) hs
  · exact canon_running (fun u hu => canon_linkChange _ _ u hu) hs
  · exact canon_running (fun u hu => canon_i2cWrite _ _ u hu) hs
  · exact canon_running (fun u hu => canon_i2cRead _ _ u hu) hs
  · exact canon_running (fun u hu => canon_stretchLimit _ u hu) hs
  · exact canon_running (fun u hu => canon_rowWrite _ _ _ u hu) hs
  · exact canon_running (fun u hu => canon_rowWrite _ _ _ u hu) hs
  · exact canon_running (fun u hu => canon_rowWrite _ _ _ u hu) hs
  · refine canon_running (fun u hu => ?_) hs
    (try dsimp only)
    repeat' first | exact hu | with_reducible apply canon_ite | with_reducible apply canon_flashAnswer | with_reducible apply canon_rowWrite
  · refine canon_running (fun u hu => ?_) hs
    (try dsimp only)
    repeat' first | exact hu | with_reducible apply canon_ite | with_reducible apply canon_flashAnswer | with_reducible apply canon_rowWrite
  · exact canon_running (fun u hu => canon_spiDone u hu) hs
  · exact canon_running (fun u hu => canon_spiTimeout u hu) hs
  · exact canon_loadIr _ _ _ s hs
  · exact canon_loadIr _ _ _ s hs
  · exact canon_samplePreload _ s hs
  · exact canon_loadIr _ _ _ s hs
  · exact canon_loadIr _ _ _ s hs
  · exact canon_running (fun u hu => canon_fabWrite _ _ _ u hu) hs
  · exact canon_running (fun u hu => canon_postedEffect _ u hu) hs
  · exact canon_running (fun u hu => canon_rowWrite _ _ _ u hu) hs
  · exact canon_running (fun u hu => canon_fabRead _ _ u hu) hs
  · exact canon_running (fun u hu => canon_fabRead _ _ u hu) hs
  · exact canon_running (fun u hu => canon_rowWrite _ _ _ u hu) hs
  · exact canon_running (fun u hu => canon_rowWrite _ _ _ u hu) hs
  · exact canon_running (fun u hu => canon_rowWrite _ _ _ u hu) hs
  · exact canon_coreOnly (fun u hu => canon_noticeOut u hu) hs
  · exact canon_running (fun u hu => canon_drainEnd _ u hu) hs
  · exact canon_running (fun u hu => canon_rowWrite _ _ _ u hu) hs
  · exact canon_running (fun u hu => canon_saveEnd _ u hu) hs
  · exact canon_coreOnly (fun u hu => canon_trimApply u hu) hs
  · exact canon_running (fun u hu => canon_rowWrite _ _ _ u hu) hs
  · exact canon_running (fun u hu => canon_rowWrite _ _ _ u hu) hs
  · exact canon_running (fun u hu => canon_rowWrite _ _ _ u hu) hs
  · exact canon_running (fun u hu => canon_monResult _ u hu) hs
  · exact canon_coreOnly (fun u hu => canon_slotFiring u hu) hs
  · exact canon_coreOnly (fun u hu => canon_rowOpen u hu) hs
  · exact canon_coreOnly (fun u hu => canon_blankEnd u hu) hs
  · exact canon_coreOnly (fun u hu => canon_verdict _ _ u hu) hs
  · exact canon_coreOnly (fun u hu => canon_herFormat u hu) hs
  · exact canon_running (fun u hu => canon_prbsSync _ _ _ u hu) hs
  · exact canon_running (fun u hu => canon_prbsLoss _ _ _ u hu) hs
  · exact canon_tapReset _ s hs

theorem step_canonical (s t : State) (hs : Canonical s) (h : step s = .next t) : Canonical t := by
  unfold step at h
  split at h
  · injection h with h; subst h; exact canon_idleCycle s hs
  · rename_i c rest _
    exact exec_canonical c { s with pending := rest } t ⟨hs.regs, hs.pages, hs.tallies, hs.live, hs.shadow, hs.ring, hs.flash⟩ h

end

end Sys2Proof.Machine
end

