-- ==== Sys2Proof/Tests/Slice0.lean ====
section
/-! SUPPORT. The smoke tests of the model: ill-formed commands that WellFormed refuses, small facts of single commands taken from the
rules, and for every statement that has hypotheses a named theorem with states and operands that meet them. -/

namespace Sys2Proof.Tests

open Sys2Proof Sys2Proof.Machine

set_option Elab.async false

/-! ### Well-formed and ill-formed commands -/

/-- A frame of eight idle symbols. -/
def idleFrame : DlFrame := ⟨List.replicate 8 ⟨true, 0xBC, false⟩, 65535⟩

theorem test_wf_frame : (Instr.downlinkFrame .a idleFrame).wf = true := by decide
theorem test_wf_frame_short : (Instr.downlinkFrame .a { idleFrame with syms := idleFrame.syms.take 7 }).wf = false := by decide
theorem test_wf_frame_phase : (Instr.downlinkFrame .b { idleFrame with phase := 65536 }).wf = false := by decide
theorem test_wf_training_short : (Instr.trainingFrame .a { idleFrame with syms := [] }).wf = false := by decide
theorem test_wf_training_phase : (Instr.trainingFrame .a { idleFrame with phase := 65536 }).wf = false := by decide
theorem test_wf_slot_tap : (Instr.slotAdvance { taps := [⟨384, 0, 0⟩] }).wf = false := by decide
theorem test_wf_slot_eyeA : (Instr.slotAdvance { eyeA := 81 }).wf = false := by decide
theorem test_wf_slot_eyeB : (Instr.slotAdvance { eyeB := 81 }).wf = false := by decide
theorem test_wf_slot : (Instr.slotAdvance { taps := [⟨383, -1, 1⟩], eyeA := 80, eyeB := 80 }).wf = true := by decide
theorem test_wf_boundary_tap : (Instr.orbitBoundary { taps := [⟨384, 0, 0⟩] }).wf = false := by decide
theorem test_wf_boundary_eyeA : (Instr.orbitBoundary { eyeA := 81 }).wf = false := by decide
theorem test_wf_boundary_eyeB : (Instr.orbitBoundary { eyeB := 81 }).wf = false := by decide
theorem test_wf_oasis_channel : (Instr.oasisStart [⟨384, 0, 0⟩]).wf = false := by decide
theorem test_wf_oasis_twice : (Instr.oasisStart [⟨5, 0, 0⟩, ⟨5, 1, 2⟩]).wf = false := by decide
theorem test_wf_rotation_channel : (Instr.rotationEnd [(384, 0)]).wf = false := by decide
theorem test_wf_rotation_twice : (Instr.rotationEnd [(3, 0), (3, 1)]).wf = false := by decide
theorem test_wf_diag_column : (Instr.pulserDiagnostics [15] []).wf = false := by decide
theorem test_wf_diag_row : (Instr.pulserDiagnostics [] [7]).wf = false := by decide
theorem test_wf_diag : (Instr.pulserDiagnostics [14] [6]).wf = true := by decide
theorem test_wf_pulse : (Instr.flintLeadingEdge 0 0 24000 1000).wf = false := by decide
theorem test_wf_pin_instant : (Instr.trigInEdge 46875 false).wf = false := by decide
theorem test_wf_rail_loss : (Instr.railLoss .vddio 1800).wf = false := by decide
theorem test_wf_rail_return : (Instr.railReturn .vddlA 850).wf = false := by decide
theorem test_wf_echo : (Instr.probeEcho 65536).wf = false := by decide
theorem test_wf_i2c_write : (Instr.i2cWriteTransaction [] 0x60).wf = false := by decide
theorem test_wf_i2c_read : (Instr.i2cReadTransaction 0 0x60).wf = false := by decide
theorem test_wf_verify_low : (Instr.verifyError 0 0x1F).wf = false := by decide
theorem test_wf_verify_high : (Instr.verifyError 0 0x26).wf = false := by decide
theorem test_wf_ingress : (Instr.mgFrameReceive [] 0).wf = false := by decide

/-- The table gives no command any bits, so no word spells one. -/
theorem test_no_word_spells_a_command : decodeTableWord 8 0xFF = none := by decide

/-! ### States -/

/-- Out of the POR in stage 5: the supplies present, CK_CORE and the crystal running. -/
def upPw : Power :=
  { State.reset.pw with por := false, released := true, vddlA := true, vddlB := true, xtal := true, xtalLost := false, coreRun := true,
                        coreEver := true, stage := 5 }

def up : State := { State.reset with pw := upPw }

/-- The counter LOCKED at a slot. -/
def locked (n : Nat) (s : State) : State := { s with orb := { s.orb with st := .locked, slot := n } }

/-- Trunk A holds the token. -/
def tokA (s : State) : State := { s with sup := { s.sup with tok0 := 1, tok1 := 1, tok2 := 1 } }

/-- Register words in force. -/
def withRegs (l : List (Nat × Nat)) (s : State) : State :=
  { s with fab := { s.fab with regs := l.map (fun e => (e.1, ⟨BitVec.ofNat 32 e.2, BitVec.ofNat 32 e.2, BitVec.ofNat 32 e.2⟩)) } }

/-- The oldest due frame of downlink A. -/
def withDue (d : Due) (s : State) : State := { s with dlA := { s.dlA with due := [d] } }

def modPw (f : Power → Power) (s : State) : State := { s with pw := f s.pw }

theorem canonical_of (s : State)
    (h : (keysFrom 0 s.fab.regs && keysFrom 0 s.fab.pages && s.fab.pages.all (fun e => keysFrom 0 e.2.tally) && ramWf 0 s.orb.live
      && ramWf 0 s.orb.shadow && ramWf 0 s.ring && ramWf 0xFF s.slow.flash) = true) : Canonical s := by
  simp only [Bool.and_eq_true, List.all_eq_true] at h
  obtain ⟨⟨⟨⟨⟨⟨h1, h2⟩, h3⟩, h4⟩, h5⟩, h6⟩, h7⟩ := h
  exact ⟨h1, h2, h3, h4, h5, h6, h7⟩

theorem shaped_of (s : State)
    (h : (s.conv.length == 384 && s.chan.length == 384 && s.flint.length == 384 && s.fout.length == 7 && s.seams.length == 6
      && s.ser.qs.length == 32 && s.fab.masters.length == 4) = true) : Shaped s := by
  simp only [Bool.and_eq_true, beq_iff_eq] at h
  obtain ⟨⟨⟨⟨⟨⟨h1, h2⟩, h3⟩, h4⟩, h5⟩, h6⟩, h7⟩ := h
  exact ⟨h1, h2, h3, h4, h5, h6, h7⟩

theorem serves_of (s : State) (m : Master) (p : Nat)
    (h : (pageRuns s p && (openGuard s m p).isNone && (pageSt s p).posted.isNone) = true) : Serves s m p := by
  simp only [Bool.and_eq_true, Option.isNone_iff_eq_none] at h
  exact ⟨h.1.1, h.1.2, h.2⟩

theorem clocked_of (s : State)
    (h : ((!s.pw.por || (!s.pw.coreRun && !s.pw.xtal)) && (!s.pw.coreRun || (s.pw.vdda && s.pw.coreEver)) && (!s.pw.xtal || s.pw.vdda)
      && (s.pw.por || s.pw.released)) = true) : Clocked s := by
  constructor <;> revert h <;> cases s.pw.por <;> cases s.pw.coreRun <;> cases s.pw.xtal <;> simp <;> grind

/-! ### Witnesses: power, start-up, orbit -/

theorem wit_StepRunsTheFrontCommand : ({ up with pending := [.nop, .arm] } : State).pending = .nop :: [.arm] := rfl

theorem wit_EmptyQueueLetsOneCoreCyclePass :
    (up.pending = [] ∧ up.pw.coreRun = true ∧ up.pw.cyc + 1 < up.pw.slotLen) ∧
    (∃ s : State, s.pending = [] ∧ s.pw.coreRun = true ∧ s.pw.slotLen ≤ s.pw.cyc + 1) ∧
    (State.reset.pending = [] ∧ State.reset.pw.coreRun = false) :=
  ⟨by decide, ⟨modPw (fun p => { p with cyc := 7 }) up, by decide⟩, by decide⟩

/-- The first step from a sound state: a NOP. -/
theorem wit_step_next (s : State) (h : s.pending = [.nop]) : ∃ t, step s = .next t := by
  refine ⟨{ s with pending := [] }, ?_⟩
  simp only [step, h]; rfl

theorem wit_QueueIsTheSendersAlone : ∃ t, exec .nop up = .next t := ⟨up, rfl⟩

theorem wit_ClocksAndSuppliesAgree : ∃ s t : State, Clocked s ∧ step s = .next t ∧ s.pw.coreRun = true :=
  let ⟨t, h⟩ := wit_step_next { up with pending := [.nop] } rfl
  ⟨_, t, clocked_of _ (by decide), h, by decide⟩

theorem wit_EveryUnitStaysInPlace : ∃ s t : State, Shaped s ∧ step s = .next t ∧ s.pw.coreRun = true :=
  let ⟨t, h⟩ := wit_step_next { up with pending := [.nop] } rfl
  ⟨_, t, shaped_of _ (by decide +kernel), h, by decide⟩

theorem wit_MemoriesStayCanonical : ∃ s t : State, Canonical s ∧ step s = .next t ∧ s.fab.regs ≠ [] :=
  let ⟨t, h⟩ := wit_step_next (withRegs [(0x03040, 1024), (0xFFFFC, 1)] { up with pending := [.nop] }) rfl
  ⟨_, t, canonical_of _ (by decide), h, by decide⟩

theorem wit_SparseMemoryReadAfterWrite : ramWf 0xFF [(0, (1 : Byte)), (7, 2)] = true ∧ (7 : Nat) ≠ 6 := by decide

theorem wit_PowerOnResetHoldsAndReleases :
    (State.reset.pw.released = false ∧ up.pw.released = true ∧ up.pw.por = false) ∧
    (State.reset.pw.por = true ∧ State.reset.pw.vdd = true ∧ State.reset.pw.vddioPor = true) ∧
    (∃ s : State, s.pw.por = true ∧ s.pw.vdd = true ∧ s.pw.released = true) ∧ (∃ s : State, s.pw.por = true ∧ s.pw.vdd = false) :=
  ⟨by decide, by decide, ⟨modPw (fun p => { p with released := true }) State.reset, by decide⟩,
    modPw (fun p => { p with vdd := false }) State.reset, by decide⟩

/-- Stage 1, the first thing out of the POR. -/
def stage1 : State := modPw (fun p => { p with por := false, released := true, stage := 1 }) State.reset

/-- A flash with the boot header alone (R370), and one whose user slot 0 has eight records of 0xFF bytes and GEN 1 (R371). -/
def bootFlash : Ram Byte :=
  (List.range 16).zip (([0x54, 0x59, 0x4D, 0x52, 1, 0, 0, 0x10, 0, 0, 0, 0] : List Byte) ++
    leBytes 4 (crc32 [0x54, 0x59, 0x4D, 0x52, 1, 0, 0, 0x10, 0, 0, 0, 0]))
def slotFlash : Ram Byte :=
  bootFlash ++ ((List.range 4).map (· + 0x1004)).zip (leBytes 4 1)
    ++ ((List.range 4).map (· + 0x10FC)).zip (leBytes 4 (crc32 (List.replicate 4 (0xFF : Byte) ++ [1, 0, 0, 0] ++ List.replicate 244 0xFF)))
    ++ (List.range 8).flatMap (fun r =>
      ((List.range 4).map (· + 0x11FC + 0x100 * r)).zip (leBytes 4 (crc32 (List.replicate 252 (0xFF : Byte)))))
def withFlash (f : Ram Byte) (s : State) : State := { s with slow := { s.slow with flash := f } }
/-- The state pickSlot sees. -/
def based (s : State) : State := { s with slow := { s.slow with usrBase := leNat (flashBytes s 6 3) } }

theorem wit_StartupLoadReportsTheStores :
    (stage1.pw.por = false ∧ stage1.pw.stage < 3 ∧ bootHdrOk stage1 0 = false) ∧
    (bootHdrOk (withFlash bootFlash stage1) 0x123456 = true ∧ pickSlot (based (withFlash bootFlash stage1)) = none) ∧
    (bootHdrOk (withFlash slotFlash stage1) 0x123456 = true ∧ pickSlot (based (withFlash slotFlash stage1)) = some (0, 1)) := by
  decide +kernel

/-- Stage 4 before the first lock: only trunk B's forwarded clock is good. -/
def stage4 : State :=
  { stage1 with pw := { stage1.pw with stage := 4, vddlA := true, vddlB := true }, lnB := { stage1.lnB with fwdPres := true, fwdOk := true, fwdCnt := 1480 } }

theorem wit_FirstLockOfTheCorePll :
    Canonical stage4 ∧ stage4.pw.por = false ∧ stage4.pw.coreEver = false ∧ 4 ≤ stage4.pw.stage ∧ stage4.pw.vdda = true ∧
      (fwdOk stage4 stage4.pll.start = true ∨ fwdOk stage4 (peer stage4.pll.start) = true) := ⟨canonical_of _ (by decide), by decide⟩

theorem wit_RailLossOutOfThePor :
    (up.pw.por = false ∧ up.pw.vdd = true ∧ up.pw.vdda = true ∧ up.pw.coreRun = true ∧ up.pw.vddio = true) ∧
    (railInRange .vdda 1139 = false ∧ railInRange .vdda 1261 = false ∧ railInRange .vddio 1709 = false ∧ railInRange .vddp 3466 = false) ∧
    ∀ x, vddlOk up x = true := ⟨by decide, by decide, fun x => by cases x <;> decide⟩

theorem wit_RailReturnAndRailsUnderThePor :
    (∃ s : State, s.pw.por = false ∧ s.pw.vdda = false) ∧
    (railInRange .vdda 1140 = true ∧ railInRange .vddio 1890 = true ∧ railInRange .vddp 3135 = true) ∧
    (stage1.pw.por = false ∧ ∀ x, vddlOk stage1 x = false ∧ (getLn stage1 x).st = 0) ∧
    (State.reset.pw.por = true ∧ ∃ s : State, s.pw.por = true ∧ s.pw.vdd = false) :=
  ⟨⟨modPw (fun p => { p with vdda := false, coreRun := false, xtal := false }) up, by decide⟩, by decide,
    ⟨by decide, fun x => by cases x <;> decide⟩, by decide, modPw (fun p => { p with vdd := false }) State.reset, by decide⟩

theorem wit_CrystalLossAndReturn :
    (up.pw.por = false ∧ Canonical up ∧ up.pw.xtal = true) ∧
    (stage1.pw.por = false ∧ Canonical stage1 ∧ stage1.pw.xtal = false ∧ stage1.pw.vdda = true) :=
  ⟨⟨by decide, canonical_of _ (by decide), by decide⟩, by decide, canonical_of _ (by decide), by decide⟩

/-- The shortest orbit: ORB_LEN.LEN of 1,024 slots (R18). -/
def orbiting (n : Nat) : State := locked n (withRegs [(0x03040, 1024)] up)

theorem wit_SlotsAndOrbitsAdvance :
    (up.pw.por = false ∧ up.pw.coreRun = true ∧ up.orb.st = .idle ∧ up.acq.pinNext = 0 ∧ up.pw.cyc < up.pw.slotLen ∧ up.tb.nx1 = none ∧
      up.tb.ni1 = none ∧ up.tb.nx3 = none ∧ up.tb.ni3 = none ∧ (orbiting 1023).acq.pinNext = 0) ∧
    ((orbiting 1022).orb.st ≠ .idle ∧ (orbiting 1022).orb.slot + 1 < orbLen (orbiting 1022)) ∧
    ((orbiting 1023).pw.por = false ∧ (orbiting 1023).pw.coreRun = true ∧ (orbiting 1023).orb.st ≠ .idle ∧ orbLen (orbiting 1023) ≤ (orbiting 1023).orb.slot + 1) := by
  decide

theorem wit_CutoffFreezesWhatIsPending :
    (orbiting 1008).pw.por = false ∧ (orbiting 1008).pw.coreRun = true ∧ (orbiting 1008).orb.st ≠ .idle ∧ (orbiting 1008).orb.pastCut = false ∧
      orbLen (orbiting 1008) ≤ (orbiting 1008).orb.slot + 16 := by decide

theorem wit_OrbitBoundaryStartsTheNextOrbit :
    (orbiting 1023).acq.pinNext = 0 ∧ (orbiting 1023).orb.copies = [] ∧ (orbiting 1023).pw.por = false ∧ (orbiting 1023).pw.coreRun = true ∧ (orbiting 1023).orb.st ≠ .idle ∧ orbLen (orbiting 1023) ≤ (orbiting 1023).orb.slot + 1 := by
  decide

/-- In IDLE with group `g` marked and due; the copy of quarter 0 runs, its page in group 0; the copy of quarter `k` may end. -/
def idleMarked (g : Fin 16) : State :=
  { up with fab := { up.fab with marked := groupBit g, idleAt := [(0, groupBit g)] } }
def idleCopies (g : Fin 16) : State :=
  { idleMarked g with orb := { up.orb with copies := [(0, { start := 0, written := [] })] } }
def copying (k : Fin 4) (waiting : BitVec 16) : State :=
  modPw (fun p => { p with cc := 1024 }) { up with
    orb := { up.orb with copies := [(k.val, { start := 0, written := [1] })] }, fab := { up.fab with waiting := waiting } }

theorem wit_IdleApplicationIsWholeOrNot :
    (∀ g : Fin 16, Canonical (idleMarked g) ∧ Canonical (idleCopies g) ∧ (idleMarked g).fab.frozen = none ∧ (idleMarked g).pw.por = false ∧ (idleMarked g).pw.coreRun = true ∧ (idleMarked g).orb.st = .idle ∧
      (idleMarked g).fab.idleAt = [(0, groupBit g)] ∧ 0 ≤ (idleMarked g).pw.cc ∧ (idleMarked g).fab.marked = groupBit g ∧
      (∀ k c, k < 4 → ramFind (idleMarked g).orb.copies k = some c → (idleMarked g).pw.cc < c.start + 1024) ∧
      heldBack (idleMarked g) [g.val] = [] ∧ ramFind (takenBuf (idleMarked g)) 0x01050 = none) ∧
    (heldBack (idleCopies 0) [(0 : Fin 16).val] = [(0 : Fin 16).val] ∧
      ramFind (idleCopies 0).orb.copies 0 = some { start := 0, written := [] } ∧ (idleCopies 0).pw.cc < 0 + 1024) ∧
    (∀ k : Fin 4, ∀ w ∈ [(0 : BitVec 16), groupBit 0, groupBit 15], Canonical (copying k w) ∧ (copying k w).pw.por = false ∧ (copying k w).pw.coreRun = true ∧
      ramFind (copying k w).orb.copies k = some { start := 0, written := [1] } ∧ 0 + 1024 ≤ (copying k w).pw.cc ∧
      (copying k w).fab.waiting = w ∧ heldBack (buffersOfNow (copyDone k (copying k w))) [0] = [] ∧
      heldBack (buffersOfNow (copyDone k (copying k w))) [15] = [] ∧
      ramFind (buffersOfNow (copyDone k (copying k w))).fab.buf 0x01050 = none) := by
  refine ⟨fun g => ⟨canonical_of _ rfl, canonical_of _ rfl, rfl, rfl, rfl, rfl, rfl, Nat.zero_le _, rfl, (fun k c _ h => nomatch (show (none : Option SmapCopy) = some c from h)), ?_, rfl⟩, by decide +kernel, ?_⟩
  · revert g; decide
  · intro k w hw
    refine ⟨canonical_of _ rfl, ?_⟩
    fin_cases hw <;> revert k <;> decide +kernel

/-- The counter of `s` with a due frame on trunk A. -/
def due (d : Due) (s : State) : State := tokA (withDue d s)
def mark : Due := ⟨2048, none, true, false⟩

theorem wit_OrbitMarkFollowsTheTable :
    (∀ s ∈ [up, orbiting 0, orbiting 5, { orbiting 0 with orb := { (orbiting 0).orb with st := .seek } },
        { orbiting 5 with orb := { (orbiting 5).orb with st := .seek } }],
      (due mark s).pw.por = false ∧ (due mark s).pw.coreRun = true ∧ dueHead (due mark s) = some (.a, mark)) ∧
    mark.code = none ∧ mark.orbit = true ∧ orbOfs (orbiting 0) = 0 ∧ Canonical (due mark (orbiting 0)) := by
  refine ⟨by decide, rfl, rfl, by decide, canonical_of _ (by decide)⟩

theorem wit_ResyncSeeksAMark :
    (∀ s ∈ [up, orbiting 0], (due ⟨2048, some 4, false, false⟩ s).pw.por = false ∧ (due ⟨2048, some 4, false, false⟩ s).pw.coreRun = true ∧
      dueHead (due ⟨2048, some 4, false, false⟩ s) = some (.a, ⟨2048, some 4, false, false⟩)) ∧
    (∀ m : Master, Serves (orbiting 0) m 0x03) := by
  refine ⟨by decide, fun m => serves_of _ _ _ ?_⟩
  cases m <;> decide

/-- An oasis of the slots 960–1023 in the live map. -/
def withOasis (n : Nat) : State :=
  { orbiting n with orb := { (orbiting n).orb with live := (List.range 64).map (fun k => (k + 960, (1 : Word))) } }

theorem wit_OasisBeginsOnlyInItsFirstSlot :
    (∀ s ∈ [up, withOasis 959, withOasis 960],
      (due ⟨2048, some 1, false, false⟩ s).pw.por = false ∧ (due ⟨2048, some 1, false, false⟩ s).pw.coreRun = true ∧
      dueHead (due ⟨2048, some 1, false, false⟩ s) = some (.a, ⟨2048, some 1, false, false⟩)) ∧
    firstOasisSlot (withOasis 959) = false ∧ firstOasisSlot (withOasis 960) = true ∧ Canonical (withOasis 960) := by
  refine ⟨by decide, by decide, by decide, canonical_of _ (by decide)⟩

/-- Oasis work under way for 64 slots from slot 2048, at elapsed slot `e`. -/
def working (e : Nat) : State :=
  modPw (fun p => { p with elapsed := e }) { withOasis 1000 with orb := { (withOasis 1000).orb with
    oasis := { running := true, whole := true, start := 2048, len := 64, rotating := true } } }

theorem wit_OasisWorkOfTheConverters :
    ((withOasis 960).pw.por = false ∧ (withOasis 960).pw.coreRun = true ∧ oasisMay (withOasis 960) = true) ∧
    ((working 2064).orb.oasis.running = true ∧ (working 2064).orb.oasis.rotating = true ∧
      (working 2064).orb.oasis.start + 16 ≤ (working 2064).pw.elapsed ∧ (working 2064).conv.length = 384) ∧
    pedReady (working 2102) = true ∧ (working 2102).pw.por = false ∧ (working 2102).pw.coreRun = true := by
  decide +kernel

theorem wit_OasisWorkOfThePulser :
    (∃ s : State, Canonical s ∧ s.pw.por = false ∧ s.pw.coreRun = true ∧ s.orb.oasis.running = true ∧ s.pls.diagRan = false ∧
      (regAt s 0x64 0x040).testBit 0 = true ∧ plsActive s = true ∧ s.orb.oasis.start + s.orb.oasis.len ≤ s.pw.elapsed + 16) ∧
    (∃ s : State, Canonical s ∧ s.pw.por = false ∧ s.pw.coreRun = true ∧ s.pls.diagRan = true ∧ s.pls.diagDone = false ∧
      s.orb.oasis.start + s.orb.oasis.len ≤ s.pw.elapsed + 9) :=
  ⟨⟨{ withRegs [(0x03040, 1024), (0x64040, 1)] (working 2096) with fab := { (withRegs [(0x03040, 1024), (0x64040, 1)] (working 2096)).fab with pages := [(0x64, { active := true })] } },
    canonical_of _ (by decide), by decide⟩,
   ⟨{ working 2103 with pls := { diagRan := true } }, canonical_of _ (by decide), by decide⟩⟩

/-! ### Witnesses: samples, flint, acquisition -/

/-- At elapsed slot 2054, with a window of the last slots' tags. -/
def later (e : Nat) : State :=
  modPw (fun p => { p with elapsed := e, cc := 8 * e }) { orbiting 5 with orb := { (orbiting 5).orb with tags := List.replicate 12 { idle := false } } }

/-- Converter 383 delivers. -/
def sampling : State := modConv 383 (fun k => { k with on := true, ready := true, readyT := 0 }) (later 2100)

theorem wit_SampleReachesRingAndFilter :
    ((later 2054).pw.por = false ∧ (later 2054).pw.coreRun = true ∧ Canonical (later 2054) ∧ Shaped (later 2054) ∧
      2054 ≤ (later 2054).pw.elapsed ∧ beyondMax (later 2054) 0 24577 = true ∧ beyondMax (later 2054) 0 24576 = false ∧
      beyondMax (later 2054) 0 (-24577) = true ∧ (convLive (later 2054) 0 2048 0 && !instMissing (later 2054) 0 2048 0) = false) ∧
    (2054 ≤ sampling.pw.elapsed ∧ beyondMax sampling 383 (-24576) = false ∧ Shaped sampling ∧ Canonical sampling ∧
      (convLive sampling 383 2094 1 && !instMissing sampling 383 2094 1) = true ∧ ringOn sampling 5 2094 = true ∧
      inSel sampling 383 2094 = 0) ∧
    (∀ x ∈ [1, 2], inSel (withRegs [(0x03040, 1024), (0x2504C, 4 * x)] (later 2100)) 383 2094 = x ∧
      beyondMax (withRegs [(0x03040, 1024), (0x2504C, 4 * x)] (later 2100)) 383 24576 = false) := by
  refine ⟨⟨by decide, by decide, canonical_of _ (by decide), shaped_of _ (by decide +kernel), by decide, by decide +kernel,
    by decide +kernel, by decide +kernel, by decide +kernel⟩, ⟨by decide, by decide +kernel, shaped_of _ (by decide +kernel),
    canonical_of _ (by decide), by decide +kernel, by decide +kernel, by decide +kernel⟩, by decide +kernel⟩

theorem wit_ConverterClampsAndRecovers :
    (8192 : Int) < 8193 ∧ (-8193 : Int) < -8192 ∧ (-8192 : Int) ≤ 8192 ∧ ({} : Conv).recov = 0 ∧ ({ recov := 5 } : Conv).recov = 4 + 1 := by
  decide

/-- A sample and a peak wait at channel 383. -/
def filtering : State :=
  modChan 383 (fun x => { x with inq := [⟨2094, 1, 0x2005, true⟩], peaks := [⟨4000, 9, 3, false, false, false, false, false⟩] }) (later 2100)

theorem wit_FilterPeakAndReadyConverter :
    (filtering.pw.por = false ∧ filtering.pw.coreRun = true ∧ Shaped filtering ∧
      (getChan filtering 383).inq = [⟨2094, 1, 0x2005, true⟩] ∧
      (getChan filtering 383).peaks = [⟨4000, 9, 3, false, false, false, false, false⟩] ∧
      peakDone filtering 383 ⟨4000, 9, 3, false, false, false, false, false⟩ = true) ∧
    (∃ s : State, s.pw.por = false ∧ s.pw.coreRun = true ∧ Shaped s ∧ (getConv s 383).on = true ∧ (getConv s 383).ready = false) := by
  refine ⟨⟨by decide, by decide, shaped_of _ (by decide +kernel), by decide +kernel, by decide +kernel, by decide +kernel⟩,
    modConv 383 (fun k => { k with on := true }) (later 2100), by decide, by decide, shaped_of _ (by decide +kernel), by decide +kernel,
    by decide +kernel⟩

/-- The discriminator of channel 383 as `x` in elapsed slot 2100, with a threshold in force. -/
def edgy (x : Flint) : State :=
  modFlint 383 (fun _ => x) (withRegs [(0x03040, 1024), (0x1B000 + chOff 383 0x074, 0x1021F)] (later 2100))

/-- The discriminator `x`, with every output driven and last risen 4.0 ns before slot 2100. -/
def edgyOut (x : Flint) (k : FlintOut) : State :=
  { modFlint 383 (fun _ => x) (withRegs [(0x03040, 1024), (0x1A000 + 0x07C, 0x103), (0x1B000 + chOff 383 0x074, 0x1021F)] (later 2100)) with
    flintOn := 0x3F, fout := List.replicate 7 k }

theorem wit_FlintEdgesAndOutputs :
    (∀ x ∈ [({} : Flint), { last := some (52500000 - 3999) }, { last := some (52500000 - 4000) }],
      (edgy x).pw.por = false ∧ (edgy x).pw.coreRun = true ∧ (edgy x).pw.vdda = true ∧ flintAt (edgy x) 0 = 52500000 ∧
      comparator (flCtl (edgy x) 383 (edgy x).pw.elapsed) (flThr (edgy x) 383 (edgy x).pw.elapsed) false 1000000 = true ∧
      mayContribute (edgy x) 383 (edgy x).pw.elapsed = true ∧ (edgy x).orb.tags ≠ []) ∧ Shaped (edgy {}) ∧
    comparator (flCtl (edgy {}) 383 2100) (flThr (edgy {}) 383 2100) true 0 = false ∧
    (Shaped (edgyOut {} {}) ∧ (∀ k ∈ [({} : FlintOut), { t0 := some (52500000 - 4000) }], mayRise (edgyOut {} k) 5 52500000) ∧
      ¬ mayRise (edgyOut {} { latch := true }) 5 52500000 ∧ ¬ mayRise (edgyOut {} { t0 := some (52500000 - 3999) }) 6 52500000 ∧
      contribution (edgyOut { contrib := true } { high := true }) 5 = true) ∧
    (∀ o : Fin 7, ∃ s : State, s.pw.por = false ∧ s.pw.vdda = true ∧ (getFout s o).high = true ∧ (getFout s o).t0 = none ∧
      contribution s o = false) := by
  refine ⟨by decide +kernel, shaped_of _ (by decide +kernel), by decide +kernel, ⟨shaped_of _ (by decide +kernel), ?_, ?_, ?_, by decide +kernel⟩,
    fun o => ⟨modFout o (fun f => { f with high := true }) (later 2100), ?_⟩⟩
  · intro k hk
    rcases List.mem_pair.mp hk with rfl | rfl
    · exact ⟨by decide +kernel, rfl, by simp [edgyOut, getFout], fun _ => rfl⟩
    · exact ⟨by decide +kernel, rfl, by simp [edgyOut, getFout], fun _ => rfl⟩
  · exact fun h => absurd (h.2.2.2 (by decide)) (by simp [edgyOut, getFout])
  · exact fun h => absurd (h.2.2.1 _ rfl) (by decide)
  · revert o; decide +kernel

/-- A first rise raises the seam's output and the ALL output at its instant (R119, R120). -/
theorem test_flint_raises : ∃ t, exec (.flintLeadingEdge 383 1000000 500) (edgyOut {} {}) = .next t ∧
    ((getFout t 5).high, (getFout t 5).latch, (getFout t 6).t0, (getFlint t 383).hits) = (true, true, some 52500500, 1) :=
  ⟨_, rfl, by decide +kernel⟩

/-- Every seam output driven, with HOLDOFF `h` and a last edge 4.0 ns before slot 2100. -/
def seamOut (h : Nat) : State :=
  { withRegs ((0x03040, 1024) :: (List.range 6).map (fun i => ((0x10 + 2 * i) * 0x1000 + 0x07C, 0x100 + h))) (later 2100) with
    flintOn := 0x3F, fout := List.replicate 7 { t0 := some (52500000 - 4000) } }

theorem wit_StuckMaskingAndHoldoffLatch :
    ((edgy { cnt := 2 }).pw.por = false ∧ (edgy { cnt := 2 }).pw.coreRun = true ∧ (getFlint (edgy { cnt := 2 }) 383).stuck = false ∧
      fld (flCtl (edgy { cnt := 2 }) 383 (edgy { cnt := 2 }).pw.elapsed) 16 8 < (getFlint (edgy { cnt := 2 }) 383).cnt) ∧
    ((getFlint (edgy { stuck := true, clr := 16 }) 383).stuck = true ∧ 16 ≤ (getFlint (edgy { stuck := true, clr := 16 }) 383).clr) ∧
    Shaped (edgy {}) ∧ Canonical (edgy {}) ∧
    (∀ i : Fin 6, ∃ s : State, s.pw.por = false ∧ s.pw.coreRun = true ∧ (getFout s i).latch = true ∧
      (getFout s i).slot ≤ s.pw.elapsed) ∧
    (∀ i : Fin 6, ∀ h ∈ [0, 255], outEn (seamOut h) i 2100 = true ∧ (getFout (seamOut h) i).high = false ∧ (getFout (seamOut h) i).latch = false ∧
      (getFout (seamOut h) i).t0 = some (52500000 - 4000) ∧ 52500000 - 4000 + 4000 ≤ 52500000 ∧ 52500000 / 25000 = 2100 ∧
      fld (flSeam (seamOut h) i 2100) 0 8 = h) := by
  refine ⟨by decide +kernel, by decide +kernel, shaped_of _ (by decide +kernel), canonical_of _ (by decide),
    fun i => ⟨modFout i (fun f => { f with latch := true, slot := 0 }) (later 2400), ?_⟩, ?_⟩
  · revert i; decide +kernel
  · decide +kernel

/-- An entry of the accept FIFO that names slot 2000. -/
def entry0 : Entry := { seq := 5, named := 2000, slot := 12, orbit := 3, created := 2010, seams := 0x3F, pre := 8, post := 8, reps := List.replicate 6 {} }

def withFifo (l : List Entry) (s : State) : State := { s with acq := { s.acq with fifo := l } }

theorem wit_AcceptsEnterTheFifo :
    (∀ s ∈ [up, later 2100, withFifo (List.replicate 63 entry0) (later 2100), withFifo (List.replicate 64 entry0) (later 2100)],
      (due ⟨2048, none, false, true⟩ s).pw.por = false ∧ (due ⟨2048, none, false, true⟩ s).pw.coreRun = true ∧
      dueHead (due ⟨2048, none, false, true⟩ s) = some (.a, ⟨2048, none, false, true⟩) ∧
      sameNamed (due ⟨2048, none, false, true⟩ s) (2048 - latOf (regsIn (due ⟨2048, none, false, true⟩ s) 2048)) = none) ∧
    ((later 2100).orb.st ≠ .idle ∧ Canonical (due ⟨2048, none, false, true⟩ up) ∧
      Canonical (due ⟨2048, none, false, true⟩ (withFifo (List.replicate 64 entry0) (later 2100)))) :=
  ⟨by decide +kernel, by decide, canonical_of _ (by decide), canonical_of _ (by decide)⟩

/-- Armed since slot 0. -/
def armedAt (s : State) : State := { s with acq := { s.acq with arm := .armed, armAt := 0 } }
/-- The tag of the slot eight back lets the seams trigger, and seam 0's first source has a hit there. -/
def selfTrig : State :=
  armedAt { withRegs [(0x03040, 1024), (0x3104C, 1), (0x31060, 2)] (later 2100) with orb := { (orbiting 5).orb with
    tags := List.replicate 12 { idle := false, self := true, flint := 1 } } }

theorem fresh_of (s : State) (n : Nat) (h : s.orb.st ≠ .idle ∧ s.acq.arm = .armed ∧ readyFrom s ≤ n ∧ s.acq.hoTo = none ∧ s.acq.hoN = 0 ∧
    s.acq.locals = [] ∧ s.acq.extIn = none ∧ (dueHead s).isNone = true ∧ sameNamed s n = none ∧ creditOk s = true) : FreshLocal s n := by
  obtain ⟨h1, h2, h3, h4, h5, h6, h7, h8, h9, h10⟩ := h
  refine ⟨h1, h2, h3, by simp [h4], h5, by simp [localOf, h6], by simp [extEntry, h7], fun t d h => ?_, h9, h10⟩
  simp [h] at h8

theorem wit_LocalTriggersMakeAnEntry :
    (selfTrig.pw.por = false ∧ selfTrig.pw.coreRun = true ∧ (tagOf selfTrig (selfTrig.pw.elapsed - 8)).idle = false ∧
      (tagOf selfTrig (selfTrig.pw.elapsed - 8)).self = true ∧ (∃ i < 6, selfFires selfTrig i (selfTrig.pw.elapsed - 8) = true) ∧
      FreshLocal selfTrig (selfTrig.pw.elapsed - 8)) ∧
    (pinsOk selfTrig = true ∧ regF selfTrig 0x31 0x04C 0 2 = 1 ∧ FreshLocal selfTrig (selfTrig.pw.elapsed - regF selfTrig 0x31 0x04C 4 4) ∧
      seenCycle 0 false < selfTrig.pw.slotLen ∧ selfTrig.pw.slotLen ≤ seenCycle 20000 true) ∧
    (∀ m, Serves selfTrig m 0x31 ∧ FreshLocal selfTrig selfTrig.pw.elapsed) ∧
    ((later 2100).acq.arm = .disarmed ∧ (later 2100).orb.st ≠ .idle ∧ (∀ x, localOf (later 2100) x = none) ∧ NoAccept (later 2100) ∧
      regF selfTrig 0x31 0x04C 0 2 = 1 ∧ ∀ m, Serves (later 2100) m 0x31) := by
  refine ⟨⟨by decide, by decide, by decide, by decide, ⟨0, by decide, by decide +kernel⟩, fresh_of _ _ (by decide +kernel)⟩,
    ⟨by decide, by decide +kernel, fresh_of _ _ (by decide +kernel), by decide, by decide⟩, fun m => ⟨serves_of _ _ _ ?_, fresh_of _ _ (by decide +kernel)⟩,
    by decide, by decide, fun _ => rfl, fun t d h => by (have : dueHead (later 2100) = none := by decide +kernel); simp [this] at h, by decide +kernel, fun m => serves_of _ _ _ ?_⟩
  all_goals cases m <;> decide +kernel

theorem wit_ArmingStates :
    (∀ s ∈ [later 2100, armedAt (later 2100), { later 2100 with acq := { disIn := some 2100 } }],
      dueHead (due ⟨2048, some 3, false, false⟩ s) = some (.a, ⟨2048, some 3, false, false⟩)) ∧
    (∀ m, Serves (later 2100) m 0x31) ∧
    ((later 2100).acq.armUndo = none ∧ ∃ (s : State) (x : ArmUndo), s.pw.por = false ∧ s.acq.armUndo = some x ∧ s.acq.armAt = s.pw.elapsed) ∧
    (∃ s : State, s.pw.por = false ∧ s.pw.coreRun = true ∧ s.acq.arm = .priming ∧ s.acq.armAt + (preOf s.fab.regs + 1) / 2 ≤ s.pw.elapsed) ∧
    (∃ s : State, s.pw.coreRun = true ∧ s.acq.hoTo = some 2000 ∧ 2000 + 16 ≤ s.pw.elapsed) ∧
    (∃ s : State, s.pw.coreRun = true ∧ s.acq.trigOut = true ∧ s.acq.trigEnd ≤ s.pw.elapsed) := by
  refine ⟨by decide, fun m => serves_of _ _ _ ?_,
    ⟨rfl, { later 2100 with acq := { armAt := 2100, armUndo := some ⟨0, 0, 0, 0, none, 0⟩ } }, ⟨0, 0, 0, 0, none, 0⟩, by decide, rfl, rfl⟩,
    ⟨{ later 2100 with acq := { arm := .priming, armAt := 0 } }, by decide +kernel⟩,
    ⟨{ later 2100 with acq := { hoTo := some 2000 } }, by decide⟩, ⟨{ later 2100 with acq := { trigOut := true } }, by decide⟩⟩
  cases m <;> decide +kernel

/-- Seam 0 may lift the window of `entry0`, whose samples run from 3992 to 4007, after sample `wr - 1` has been written. -/
def lifting (start wr : Nat) : State :=
  withFifo [entry0] (modConv 63 (fun k => { k with wr := wr }) (modSeam 0 (fun x => { x with startN := start }) (later 2700)))

theorem wit_LiftsCopyTheWindow :
    (∀ p ∈ [(0, 6040), (3992, 6040), (3993, 6040), (0, 6041)],
      (lifting p.1 p.2).pw.por = false ∧ (lifting p.1 p.2).pw.coreRun = true ∧ nextLift (lifting p.1 p.2) 0 = some entry0 ∧
      entry0.created < (lifting p.1 p.2).pw.elapsed ∧ bufUsed (getSeam (lifting p.1 p.2) 0) < 2 ∧
      winComplete (lifting p.1 p.2) entry0 0 = true) ∧
    (rewritten (lifting 0 6040) 0 (winStart entry0 0) = false ∧ rewritten (lifting 0 6041) 0 (winStart entry0 0) = true) ∧
    ((getSeam (lifting 3992 6040) 0).startN ≤ winStart entry0 0 ∧ winStart entry0 0 < (getSeam (lifting 3993 6040) 0).startN) ∧
    Shaped (lifting 0 6040) ∧
    (∃ s : State, ∃ l : Lift, s.pw.por = false ∧ s.pw.coreRun = true ∧ Shaped s ∧ (getSeam s 0).lifts = l :: [] ∧ l.start + l.len ≤ s.pw.cc) := by
  refine ⟨by decide +kernel, by decide +kernel, by decide +kernel, shaped_of _ (by decide +kernel),
    modSeam 0 (fun x => { x with lifts := [{ seq := 5, start := 0, len := 16, win := { seq := 5 } }] }) (later 2100),
    { seq := 5, start := 0, len := 16, win := { seq := 5 } }, by decide, by decide, shaped_of _ (by decide +kernel), by decide, by decide⟩

/-! ### Witnesses: Serai, engines, host port, uplink -/

/-- A bale in progress with a whole header and another word: 20 bytes. -/
def bale20 : Bale := { id := 3, seq := 0, typ := 0, bytes := List.replicate 20 7 }

def inProgress (q : Nat) (b : Option Bale) (s : State) : State := modQ q (fun x => { x with cur := b }) s

theorem wit_WordsReachTheBale :
    (∀ q ∈ [(12 : Fin 32), 13, 16, 31], (later 2100).pw.por = false ∧ (later 2100).pw.coreRun = true ∧ 11 < q.val ∧
      (getQ (later 2100) q).held = none ∧ (getQ (later 2100) q).discard = false ∧
      (getQ (inProgress q (some bale20) (later 2100)) q).cur = some bale20 ∧ 16 ≤ bale20.bytes.length ∧
      wordOk (inProgress q (some bale20) (later 2100)) q = true) ∧
    wordOk (later 2100) 12 = true ∧
    (∃ s : State, Shaped s ∧ (getQ s 12).held = none ∧ wordOk s 12 = false) ∧
    Shaped (inProgress 12 (some bale20) (later 2100)) ∧
    (∃ (s : State) (b c : Bale), Shaped s ∧ ((15 : Fin 32).val ≤ 15 ∨ (15 : Fin 32).val = 26) ∧ (getQ s 15).waiting = b :: [] ∧ b.ord ≠ 0 ∧
      (getQ s 15).cur = some c) := by
  refine ⟨by decide +kernel, by decide +kernel, ⟨modQ 12 (fun x => { x with active := false }) (later 2100), shaped_of _ (by decide +kernel),
    by decide, by decide +kernel⟩, shaped_of _ (by decide +kernel),
    modQ 15 (fun x => { x with waiting := [{ bale20 with ord := 20 }] }) (inProgress 15 (some bale20) (later 2100)), { bale20 with ord := 20 }, bale20,
    shaped_of _ (by decide +kernel), by decide, by decide, by decide, by decide⟩

/-- Seam 0's engine codes entry0's window: a raw job of eight image bytes, a feature job, `n` bytes presented. -/
def job8 (n : Nat) : Job := { image := [1, 2, 3, 4, 5, 6, 7, 8], coded := [1, 2, 3, 4, 5, 6, 7, 8], sent := n, last := true }
def coding (n : Nat) (b : Option Bale) : State :=
  inProgress 0 b (withFifo [{ entry0 with reps := List.replicate 6 { started := true } }]
    (modSeam 0 (fun x => { x with bufs := [{ seq := 5 }], started := true, raw := [job8 n], feat := [job8 n] }) (later 2700)))

/-- The bale that `coding` presents. -/
def baleOf (n : Nat) : List Byte := jobBale { entry0 with reps := List.replicate 6 { started := true } } 0 .raw false (job8 n)

theorem wit_EnginesWriteTheirOwnWords :
    (∀ n ∈ [0, 4, 20, 24], (coding n none).pw.por = false ∧ (coding n none).pw.coreRun = true ∧ (0 : Fin 32).val = jobQ 0 .raw ∧
      engineBale (coding n none) 0 .raw = some ({ entry0 with reps := List.replicate 6 { started := true } }, job8 n, baleOf n) ∧
      (getQ (coding n none) 0).held = none ∧ (job8 n).fallback = false ∧ (getQ (coding n none) 0).discard = false) ∧
    wordOk (coding 0 none) 0 = true ∧ Shaped (coding 0 none) ∧ (job8 0).sent < dataBytes (baleOf 0).length ∧
    dataBytes (baleOf 24).length ≤ (job8 24).sent ∧ wordOk (coding 24 (some { bale20 with bytes := (baleOf 0).take 24 })) 0 = true ∧
    (getQ (coding 24 (some { bale20 with bytes := (baleOf 0).take 24 })) 0).cur = some { bale20 with bytes := (baleOf 0).take 24 } ∧
    16 ≤ ({ bale20 with bytes := (baleOf 0).take 24 } : Bale).bytes.length ∧
    engineBale (coding 0 none) 0 .feat ≠ none ∧ (6 : Fin 32).val = jobQ 0 .feat ∧
    wordOk (modQ 0 (fun x => { x with active := false }) (coding 0 none)) 0 = false ∧ (0x20 : Byte).toNat = 0x20 ∧ (0x25 : Byte).toNat = 0x25 := by
  refine ⟨by decide +kernel, by decide +kernel, shaped_of _ (by decide +kernel), by decide +kernel, by decide +kernel, by decide +kernel,
    by decide +kernel, by decide +kernel, by decide +kernel, by decide, by decide +kernel, by decide, by decide⟩

/-- The formatter has a bale of 8 payload bytes, `n` of its bytes presented. -/
def formatting (n : Nat) : State :=
  { inProgress 26 (some bale20) (later 2100) with her := { fmt := true, bale := List.replicate 28 3, sent := n } }

theorem wit_FormatterWrites :
    (∀ n ∈ [16, 20, 24], (formatting n).pw.por = false ∧ (formatting n).pw.coreRun = true ∧ (formatting n).her.fmt = true ∧
      (getQ (formatting n) 26).held = none ∧ (getQ (formatting n) 26).cur = some bale20 ∧ wordOk (formatting n) 26 = true ∧
      (getQ (formatting n) 26).discard = false) ∧ Shaped (formatting 16) ∧
    ((formatting 20).her.sent < dataBytes (formatting 20).her.bale.length ∧ (formatting 20).her.sent + 8 = (formatting 20).her.bale.length ∧
      (formatting 16).her.sent + 8 ≠ (formatting 16).her.bale.length ∧ dataBytes (formatting 24).her.bale.length ≤ (formatting 24).her.sent) ∧
    ((later 2100).her.fmt = false ∧ (getQ (later 2100) 26).cur = none) := by
  refine ⟨by decide +kernel, shaped_of _ (by decide +kernel), by decide, by decide⟩

theorem wit_FlushesAndTheTestPort :
    (∀ m, Serves (later 2100) m 0x34 ∧ Serves (later 2100) m 0x39) ∧ Shaped (later 2100) ∧ Canonical (later 2100) ∧
    engineBale (later 2100) 5 .raw = none ∧ (getSeam (later 2100) 5).tp.running = false ∧
    (engineBale (coding 0 none) 0 .raw = some ({ entry0 with reps := List.replicate 6 { started := true } }, job8 0, baleOf 0) ∧
      (job8 0).fallback = false ∧ takenAt { entry0 with reps := List.replicate 6 { started := true } } 0 (job8 0) 3 < (job8 0).image.length) ∧
    (∃ s : State, s.pw.por = false ∧ s.pw.coreRun = true ∧ Shaped s ∧ Canonical s ∧ (getSeam s 5).tp.running = true ∧
      (getSeam s 5).started = false) := by
  refine ⟨fun m => ⟨serves_of _ _ _ ?_, serves_of _ _ _ ?_⟩, shaped_of _ (by decide +kernel), canonical_of _ (by decide), by decide, by decide,
    ⟨by decide +kernel, by decide, by decide +kernel⟩,
    modSeam 5 (fun x => { x with tp := { x.tp with running := true } }) (later 2100), by decide, by decide, shaped_of _ (by decide +kernel),
    canonical_of _ (by decide), by decide, by decide⟩
  all_goals cases m <;> decide +kernel

theorem wit_QueuesReleaseAndRetain :
    (∀ q ∈ [(13 : Fin 32), 25, 27, 31], ∃ s : State, s.pw.por = false ∧ s.pw.coreRun = true ∧ 12 < q.val ∧ q.val ≠ 26 ∧
      (getQ s q).held = some ⟨9, none⟩ ∧ wordOk s q = true) ∧
    Shaped (later 2100) ∧
    (∀ s ∈ [up, later 2100], ∀ d ∈ [true, false], (getQ (modQ 31 (fun x => { x with draining := true, deferred := d }) s) 31).draining = true ∧
      (getQ (modQ 31 (fun x => { x with draining := true, deferred := d }) s) 31).ready = [] ∧
      (getQ (modQ 31 (fun x => { x with draining := true, deferred := d }) s) 31).cur = none) ∧
    (∃ s : State, s.pw.coreRun = true ∧ s.ser.replaying = true ∧ s.ser.rlist = []) := by
  refine ⟨fun q hq => ⟨modQ q (fun x => { x with held := some ⟨9, none⟩ }) (later 2100), ?_⟩, shaped_of _ (by decide +kernel),
    by decide +kernel, ⟨{ later 2100 with ser := { (later 2100).ser with replaying := true } }, by decide⟩⟩
  revert q; decide +kernel

/-- The management port owns the host port with queue `q` selected. -/
def hosting (q : Nat) (f : Queue → Queue) : State :=
  let s := modQ q f (withRegs [(0x03040, 1024), (0x40080, q)] (later 2100))
  { s with ser := { s.ser with owner := some .mgmt } }

theorem wit_HostPortMovesWords :
    ((hosting 16 id).pw.por = false ∧ Shaped (hosting 16 id) ∧ Canonical (hosting 16 id) ∧ (∀ m, Serves (hosting 16 id) m 0x40)) ∧
    (∀ q ∈ [16, 23, 27, 31], ∀ f ∈ [id, fun x : Queue => { x with cur := some bale20 }],
      (hosting q f).ser.owner = some .mgmt ∧ hostQ (hosting q f) = q ∧ hostWrites (hostQ (hosting q f)) = true ∧
      (getQ (hosting q f) q).held = none ∧ wordOk (hosting q f) q = true ∧ (getQ (hosting q f) q).discard = false) ∧
    ((getQ (hosting 16 (fun x => { x with cur := some bale20 })) 16).cur = some bale20 ∧ 16 ≤ bale20.bytes.length) ∧
    (∀ q ∈ [24, 25], ∀ n ∈ [0, 16], hostReads (hosting q id) (hostQ (hosting q id)) = true ∧
      (getQ (hosting q (fun x => { x with ready := [bale20], sent := n })) q).ready = bale20 :: [] ∧
      (getQ (hosting q (fun x => { x with ready := [bale20], sent := n })) q).abort = false ∧
      (getQ (hosting q (fun x => { x with ready := [bale20], sent := n })) q).sent < bale20.bytes.length) ∧
    (hosting 16 id).ser.owner ≠ some .i2c := by
  refine ⟨⟨by decide, shaped_of _ (by decide +kernel), canonical_of _ (by decide), fun m => serves_of _ _ _ ?_⟩, ?_, by decide,
    by decide +kernel, by decide⟩
  · cases m <;> decide +kernel
  · intro q hq f hf
    fin_cases hq <;> fin_cases hf <;> decide +kernel

/-- A launch item of 16 bytes for orbit 3, slot 5, and one for launch instant 1,000 ns. -/
def upItem : List Byte := List.replicate 7 0 ++ [5, 0, 3, 0, 0, 0, 0, 0, 0]
def mgItem : List Byte := List.replicate 8 0 ++ [0xE8, 3, 0, 0, 0, 0, 0, 0]
/-- One for 1,009 ns. -/
def mgLater : List Byte := List.replicate 8 0 ++ [0xF1, 3, 0, 0, 0, 0, 0, 0]
def waitsOn (q : Nat) (l : List Byte) (orbit slot : Nat) : State :=
  let s := modQ q (fun x => { x with ready := [{ bale20 with bytes := l }] }) (later 2100)
  { s with orb := { s.orb with orbit := orbit, slot := slot, live := [(5, 0x40)] }, tb := { s.tb with set1 := true, t1 := 1000 * 2 ^ 32 } }

theorem wit_LaunchedHeadsLeaveInTheirTime :
    (∀ q ∈ [(16 : Fin 32), 19], headWaits (waitsOn q upItem 3 5) q = true ∧ headBytes (waitsOn q upItem 3 5) q = upItem ∧
      launchSlot (waitsOn q upItem 3 5) = true ∧ lateHead (waitsOn q upItem 3 5) q 0 = false ∧ (waitsOn q upItem 3 5).pw.cyc = 0 ∧
      0 ≤ sinceLaunch (waitsOn q upItem 3 5) (upLaunch upItem).1 (upLaunch upItem).2) ∧
    (lateHead (waitsOn 16 upItem 2 5) 16 0 = false ∧ headWaits (waitsOn 16 upItem 2 5) 16 = true ∧
      sinceLaunch (waitsOn 16 upItem 2 5) (upLaunch upItem).1 (upLaunch upItem).2 < 0) ∧
    (∀ q ∈ [(22 : Fin 32), 23], headWaits (waitsOn q mgItem 3 5) q = true ∧ headBytes (waitsOn q mgItem 3 5) q = mgItem ∧
      16 ≤ mgItem.length ∧ lateHead (waitsOn q mgItem 3 5) q 0 = false ∧
      ((mgLaunch mgItem * 2 ^ 32 : Nat) : Int) ≤ pinAt (waitsOn q mgItem 3 5) (launchBase (waitsOn q mgItem 3 5) q) 0) ∧
    (headWaits (waitsOn 22 mgLater 3 5) 22 = true ∧ headBytes (waitsOn 22 mgLater 3 5) 22 = mgLater ∧ lateHead (waitsOn 22 mgLater 3 5) 22 0 = false ∧
      pinAt (waitsOn 22 mgLater 3 5) (launchBase (waitsOn 22 mgLater 3 5) 22) 0 < ((mgLaunch mgLater * 2 ^ 32 : Nat) : Int)) ∧
    (isTimed 16 = true ∧ isTimed 23 = true ∧ lateHead (waitsOn 16 upItem 100 5) 16 0 = true ∧ headWaits (waitsOn 16 upItem 100 5) 16 = true ∧
      regF (waitsOn 16 upItem 100 5) 0x54 0x074 8 1 ≠ 1 ∧
      (getQ (waitsOn 16 upItem 100 5) 16).ready = { bale20 with bytes := upItem } :: [] ∧
      (∃ s : State, lateHead s 16 0 = true ∧ headWaits s 16 = true ∧ regF s 0x54 0x074 8 1 = 1)) ∧
    (waitsOn 16 upItem 3 5).pw.por = false ∧ (waitsOn 16 upItem 3 5).pw.coreRun = true ∧ Shaped (waitsOn 16 upItem 3 5) ∧
    Canonical (waitsOn 16 upItem 100 5) := by
  refine ⟨by decide +kernel, by decide +kernel, by decide +kernel, by decide +kernel, ⟨by decide, by decide, by decide +kernel, by decide +kernel, by decide +kernel, rfl,
    withRegs [(0x03040, 1024), (0x54074, 0x100)] (waitsOn 16 upItem 100 5), by decide +kernel⟩, by decide, by decide, shaped_of _ (by decide +kernel),
    canonical_of _ (by decide)⟩

/-- Trunk A is in SERVICE and holds the token. -/
def serving : State := tokA (modLn .a (fun l => { l with st := 6, service := 0x3F }) (later 2100))

/-- One accept may still be credited, and none. -/
theorem wit_FramesLeaveOnTheActiveTrunk :
    ((serving).pw.por = false ∧ (serving).pw.coreRun = true ∧ canSend (serving) = some .a ∧
      (serving).frm.busyTo ≤ (serving).pw.elapsed) ∧
    canSend (tokA (later 2100)) = none ∧ creditOk (later 2100) = true ∧ creditOk (withFifo (List.replicate 64 entry0) (later 2100)) = false := by
  decide +kernel

theorem takes_of (s : State) (q n : Nat)
    (h : ((getQ s q).held.isNone && (getQ s q).cur.isNone && (getQ s q).waiting.isEmpty && !(getQ s q).discard && startOk (getQ s q)
      && (List.range n).all (fun k => decide (uOf s q + k < quotaOf s q) && cellFree s q (uOf s q + k) (freeCells s - k))) = true) :
    TakesWhole s q n := by
  simp only [Bool.and_eq_true, Option.isNone_iff_eq_none, List.isEmpty_iff, Bool.not_eq_true', List.all_eq_true, List.mem_range,
    decide_eq_true_eq] at h
  obtain ⟨⟨⟨⟨⟨h1, h2⟩, h3⟩, h4⟩, h5⟩, h6⟩ := h
  exact ⟨h1, h2, h3, h4, h5, h6⟩

def refused0 : Refusal1 := ⟨5, 5, 12, 3, 0, 0x3F, 0, 12, 8, 8⟩
def doneEntry : Entry := { entry0 with reps := List.replicate 6 { started := true, done := true }, hrep := { done := true } }

theorem wit_ManifestsLeaveInOrder :
    ((later 2100).pw.por = false ∧ (later 2100).pw.coreRun = true ∧ Shaped (later 2100) ∧ writerFree (later 2100) = true ∧
      (later 2100).acq.refused = [] ∧ (later 2100).acq.replay = [] ∧ (later 2100).acq.fifo = [] ∧ TakesWhole (later 2100) 12 1) ∧
    (∃ s : State, s.acq.refused = refused0 :: [] ∧ writerFree s = true ∧ Shaped s ∧ TakesWhole s 12 1) ∧
    (∃ s : State, s.acq.refused = [] ∧ s.acq.replay = (2, 300) :: [] ∧ writerFree s = true ∧ Shaped s ∧ TakesWhole s 12 1) ∧
    (entryDone doneEntry = true ∧ accOf (entryManifest doneEntry false) ≠ 0x42 ∧ writerFree (withFifo [doneEntry] (later 2100)) = true ∧
      TakesWhole (withFifo [doneEntry] (later 2100)) 12 1) := by
  refine ⟨⟨by decide, by decide, shaped_of _ (by decide +kernel), by decide +kernel, by decide, by decide, by decide, takes_of _ _ _ (by decide +kernel)⟩,
    ⟨{ later 2100 with acq := { refused := [refused0] } }, rfl, by decide +kernel, shaped_of _ (by decide +kernel), takes_of _ _ _ (by decide +kernel)⟩,
    ⟨{ later 2100 with acq := { replay := [(2, 300)] } }, rfl, rfl, by decide +kernel, shaped_of _ (by decide +kernel), takes_of _ _ _ (by decide +kernel)⟩,
    by decide +kernel, by decide +kernel, by decide +kernel, takes_of _ _ _ (by decide +kernel)⟩

/-! ### Witnesses: downlink, lanes, supervisor -/

/-- A service frame with a fast byte: K28.5, the byte, five zero bytes, CRC-8 (R260). -/
def fastFrame (b : Byte) : DlFrame :=
  ⟨⟨true, 0xBC, false⟩ :: ([b, 0, 0, 0, 0, 0].map (fun x => ⟨false, x, false⟩)) ++ [⟨false, BitVec.ofNat 8 (crc8 [b, 0, 0, 0, 0, 0]), false⟩], 0⟩

def lockedDl (s : State) : State := modLn .a (fun l => { l with dlSignal := true, bitLock := true, dlLock := true, st := 6 }) s

/-- The idle frame of fast byte 0 with a data symbol in place of K28.5. -/
def dataFrame : DlFrame := { fastFrame 0 with syms := ⟨false, 0, false⟩ :: (fastFrame 0).syms.drop 1 }

theorem wit_DownlinkFramesAreTakenApart :
    ((lockedDl (later 2100)).pw.por = false ∧ (lockedDl (later 2100)).pw.coreRun = true ∧ (getLn (lockedDl (later 2100)) .a).dlLock = true ∧
      (getLn (later 2100) .a).dlLock = false) ∧
    (∀ b ∈ [(0 : Byte), 1, 0xFF], isK283 (symAt (fastFrame b) 1) = false ∧ decodes (fastFrame b) = true ∧ frameByte (fastFrame b) 1 = b.toNat) ∧
    (isK283 (symAt idleFrame 1) = false ∧ decodes idleFrame = false) ∧
    (getLn (frameErrs .a (fastFrame 1) (endRuns .a (lockedDl (later 2100)))) .a).dlLock = true ∧
    (isK283 (symAt dataFrame 1) = false ∧ decodes dataFrame = true ∧
      (getLn (frameErrs .a dataFrame (endRuns .a (modLn .a (fun l => { l with badSym0 := 3 }) (lockedDl (later 2100))))) .a).dlLock = false) := by
  decide +kernel

/-- The pulser enabled, with a width and a current for site 0x34: row 3, column 4. -/
def pulsing : State :=
  modPage 0x64 (fun x => { x with active := true }) (withRegs [(0x03040, 1024), (0x64048, 0x10134)] (later 2100))
def pastTheCut : State := { later 2100 with orb := { (later 2100).orb with slot := 1008, pastCut := true } }
def oasisSlot : State := { later 2100 with orb := { (later 2100).orb with live := [(5, 1)] } }

theorem wit_FastCommandsAct :
    (∀ c ∈ [0, 1, 2, 3, 4, 5, 6, 63], ∀ s ∈ [up, later 2100, pastTheCut, oasisSlot, pulsing],
      (due ⟨2048, some c, false, false⟩ s).pw.por = false ∧ (due ⟨2048, some c, false, false⟩ s).pw.coreRun = true ∧
      dueHead (due ⟨2048, some c, false, false⟩ s) = some (.a, ⟨2048, some c, false, false⟩)) ∧
    (Canonical (due ⟨2048, some 2, false, false⟩ (later 2100)) ∧ Canonical (due ⟨2048, some 5, false, false⟩ pulsing)) ∧
    (BitVec.ofNat 16 (regAt (later 2100) 0x01 0x044) ≠ 0 ∧
      BitVec.ofNat 16 (regAt (withRegs [(0x01044, 0), (0x03040, 1024)] (later 2100)) 0x01 0x044) = 0) ∧
    (up.orb.st = .idle ∧ (later 2100).orb.st ≠ .idle ∧ cutoffPassed (later 2100) = false ∧ pastTheCut.orb.st ≠ .idle ∧ cutoffPassed pastTheCut = true) ∧
    (pulseBarred oasisSlot = true ∧ pulseBarred (later 2100) = false ∧ testSkipped (later 2100) = true ∧
      pulseBarred pulsing = false ∧ testSkipped pulsing = false) := by
  refine ⟨by decide +kernel, ⟨canonical_of _ (by decide), canonical_of _ (by decide +kernel)⟩, by decide +kernel, by decide +kernel, by decide +kernel⟩

/-- A complete message of value 0 for TBASE1: 20 groups of five bits, with its CRC-8 in the last bits. -/
def probe0 : Probe := ⟨9, 2084, 136577024, .a, false⟩
def ttGood : List Nat := List.replicate 20 0
def messaging (l : List Nat) (s : State) : State := { s with dlA := { s.dlA with ttOn := true, tt := l } }

theorem wit_ProbesAndTimeMessages :
    (∃ s : State, s.pw.por = false ∧ s.pw.coreRun = true ∧ s.frm.probe = some probe0 ∧ probe0.slot + 16 ≤ s.pw.elapsed) ∧
    (∀ l ∈ [ttGood, 1 :: List.replicate 19 0], (getDl (messaging l (tokA (later 2100))) .a).ttOn = true ∧
      (getDl (messaging l (tokA (later 2100))) (peer .a)).ttOn = false ∧ (getDl (messaging l (tokA (later 2100))) .a).tt.length = 20) ∧
    (holds (tokA (later 2100)) .a = true ∧ holds (later 2100) .a = false ∧
      crc8 (leBytes 11 (fld (ttBits ttGood) 0 88)) = fld (ttBits ttGood) 88 8 ∧
      crc8 (leBytes 11 (fld (ttBits (1 :: List.replicate 19 0)) 0 88)) ≠ fld (ttBits (1 :: List.replicate 19 0)) 88 8) := by
  refine ⟨⟨{ later 2100 with frm := { probe := some probe0 } }, by decide⟩, by decide, by decide +kernel⟩

/-- A held read packet of one word, a write packet, one that ended early, one of an undefined operation. -/
def rdPacket : Packet := { hdr := BitVec.ofNat 32 (0x03040) }
def holding (k : Packet) (s : State) : State := { s with dlA := { s.dlA with held := [k] } }

def holdingB (k : Packet) (s : State) : State := { s with dlB := { s.dlB with held := [k] } }

theorem wit_ControlChannelAnswersInOrder :
    ((later 2100).pw.por = false ∧ Shaped (later 2100) ∧ Canonical (later 2100) ∧ firstDl (later 2100) = .a ∧
      (getDl (packetsDue .a (holdingB rdPacket (later 2100))) .b).held.find? (fun k => k.resp.isNone) = some rdPacket) ∧
    (∀ h : Fin 4, ∃ k : Packet, (getDl (holding k (later 2100)) .a).held.find? (fun k => k.resp.isNone) = some k ∧
      k.ready ≤ (later 2100).pw.elapsed ∧ hdrOp k.hdr.toNat = h.val ∧ (h.val ≤ 2 → packetRefusal k = none) ∧
      (h.val = 3 → packetRefusal k = some 2)) ∧
    packetRefusal { rdPacket with short := true } = some 6 ∧
    (∃ (s : State) (k : Packet) (l : List Byte), s.pw.por = false ∧ s.pw.coreRun = true ∧ (getDl s .a).held = k :: [] ∧ k.resp = some l ∧
      l.length ≤ 76 ∧ TakesWhole s 13 1) ∧
    (∀ m, Serves (lockedDl (later 2100)) m (dlPage .a)) := by
  refine ⟨⟨by decide, shaped_of _ (by decide +kernel), canonical_of _ (by decide), by decide, by decide +kernel⟩, ?_, by decide,
    ⟨holding { rdPacket with resp := some [1, 2, 3, 4] } (later 2100), { rdPacket with resp := some [1, 2, 3, 4] }, [1, 2, 3, 4],
      by decide, by decide, by decide, by decide, by decide, takes_of _ _ _ (by decide +kernel)⟩, fun m => serves_of _ _ _ ?_⟩
  · intro h
    fin_cases h
    · exact ⟨{ hdr := 0x00003040 }, by decide⟩
    · exact ⟨{ hdr := 0x40003040 }, by decide⟩
    · exact ⟨{ hdr := 0x80003040 }, by decide⟩
    · exact ⟨{ hdr := 0xC0003040 }, by decide⟩
  · cases m <;> decide +kernel

/-- Trunk A's lanes as given. -/
def lanesA (f : Lanes → Lanes) : State := modLn .a f (modPw (fun p => { p with sup := 400000 }) (later 2100))
def trainBytes : List Byte := [7, 1, 0, 0, 1]
def trainFrame : DlFrame :=
  ⟨⟨true, 0xBC, false⟩ :: ⟨true, 0x7C, false⟩ :: (trainBytes.map (fun x => ⟨false, x, false⟩)) ++ [⟨false, BitVec.ofNat 8 (crc8 trainBytes), false⟩], 0⟩

theorem wit_TrainingMovesForward :
    ((lanesA (fun l => { l with st := 1, lastPulse := 398000, fwdOk := true, dlSignal := true })).pw.por = false ∧
      (getLn (lanesA (fun l => { l with st := 1, lastPulse := 398000, fwdOk := true, dlSignal := true })) .a).lastPulse + 2000 ≤
        (lanesA (fun l => { l with st := 1, lastPulse := 398000, fwdOk := true, dlSignal := true })).pw.sup ∧
      (lanesA id).pw.xtal = true) ∧
    (∀ st ∈ [2, 3, 4, 5], (getLn (lanesA (fun l => { l with st := st, dlLock := true, dlSignal := true, since := 0 })) .a).dlLock = true ∧
      2 ≤ st ∧ st ≤ 5 ∧ 0 + (if st = 2 then supMs 2 else supMs 20) ≤ (lanesA id).pw.sup) ∧
    ((getLn (frameErrs .a trainFrame (lanesA (fun l => { l with st := 2, dlLock := true }))) .a).dlLock = true) ∧
    (goodTraining trainFrame = true ∧ goodTraining idleFrame = false ∧ capValid (frameBytes trainFrame 2 5) = true ∧
      64 ≤ (runStep (frameBytes trainFrame 2 5) { good := 63 }).good ∧ 16 ≤ (runStep (frameBytes trainFrame 2 5) { runL := 15 }).runL ∧
      16 ≤ (runStep (frameBytes trainFrame 2 5) { runD := 15 }).runD ∧
      16 ≤ (runStep (frameBytes trainFrame 2 5) { runA := 15, lastTr := trainBytes }).runA) ∧
    (∀ m, Serves (lanesA id) m (lnPage .a)) ∧ holder (lanesA id) ≠ some .a ∧ holds (lanesA id) .a = false ∧ vddlOk (lanesA id) .a = true ∧
    holder (tokA (lanesA id)) = some .a ∧ vddlOk (modPw (fun p => { p with vddlA := false }) (lanesA id)) .a = false := by
  refine ⟨by decide, by decide, by decide +kernel, by decide +kernel, fun m => serves_of _ _ _ ?_, by decide, by decide, by decide, by decide, by decide⟩
  cases m <;> decide +kernel

theorem wit_ClockSignalLockAndCheckers :
    ((lanesA id).pw.por = false ∧ vddlOk (lanesA id) .a = true ∧ vddlOk (lanesA id) .b = true ∧
      (getLn (lanesA (fun l => { l with dlSignal := true })) .a).dlSignal = true ∧ dlChk (lanesA id) .a = false) ∧
    (badCommas { badSym0 := 4 } = true ∧ badCommas { badSym0 := 3 } = false ∧ badSymbols { errBits := List.replicate 8 true } = true ∧
      badSymbols { errBits := List.replicate 7 true } = false) ∧
    (trainable (lanesA (fun l => { l with st := 1, dlSignal := true, pulsed := 0x31 })) .a = true ∧
      (getLn (lanesA (fun l => { l with st := 5, fwdOk := true })) .a).fwdOk = true) ∧
    (∃ s : State, s.pw.por = false ∧ lbOn s .a = true) ∧ (∃ s : State, s.pw.por = false ∧ dlChk s .a = true) ∧
    ((getLn (lanesA (fun l => { l with lb := { sync := true, err := 0xFFFF } })) .a).lb.sync = true ∧
      (getLn (lanesA (fun l => { l with prbs := { sync := true, err := 0 } })) .a).prbs.sync = true) := by
  refine ⟨by decide +kernel, by decide, by decide, ⟨withRegs [(0x03040, 1024), (0x48048, 0x100001)] (lanesA id), ?_⟩,
    ⟨withRegs [(0x03040, 1024), (0x48048, 0x10001)] (lanesA id), ?_⟩, by decide⟩ <;> decide +kernel

theorem wit_HoldsOfTheCorePll :
    (∀ a b : Bool, ∃ s : State, s.pw.por = false ∧ s.pw.coreRun = true ∧ s.pll.hold = true ∧
      s.pll.holdAt + 32000 ≤ s.pw.cc ∧ s.pll.lockFrom + 64 ≤ s.pw.elapsed ∧ fwdOk s s.pll.ref = a ∧ fwdOk s (peer s.pll.ref) = b ∧ s.sup.moving = false) ∧
    (∃ s : State, s.pw.por = false ∧ s.pw.coreRun = false ∧ s.pw.coreEver = true ∧ s.pw.vdda = true ∧ lockRef s = some .b) ∧
    (∃ s : State, s.pw.por = false ∧ s.pw.coreRun = true ∧ s.pll.hold = true ∧ fwdOk s s.pll.ref = true ∧ s.pw.elapsed < s.pll.lockFrom + 64) ∧
    (∀ m, Serves (later 2100) m 0x28) ∧ (later 2100).pll.hold = false := by
  refine ⟨fun a b => ⟨modLn .a (fun l => { l with fwdOk := a }) (modLn .b (fun l => { l with fwdOk := b })
      { modPw (fun p => { p with cc := 32000 }) (later 2100) with pll := { hold := true, holdAt := 0 } }), ?_⟩,
    ⟨modLn .b (fun l => { l with fwdOk := true }) (modPw (fun p => { p with coreRun := false }) (later 2100)), by decide⟩,
    ⟨modLn .a (fun l => { l with fwdOk := true }) { later 2100 with pll := { hold := true, lockFrom := 2037 } }, by decide⟩, fun m => serves_of _ _ _ ?_, by decide⟩
  · cases a <;> cases b <;> decide +kernel
  · cases m <;> decide +kernel

/-- Trunk A of the supervisor as given, in CK_SUP cycle 4,000,000. -/
def supA (f : TrunkSup → TrunkSup) : State :=
  let s := modPw (fun p => { p with sup := 4000000 }) (later 2100)
  { s with sup := { s.sup with ta := f s.sup.ta } }

/-- Both trunks in SERVICE with the lanes they need and good evidence as given. -/
def bothServe (a b : Bool) : State :=
  let s := supA (fun t => { t with ev := a })
  let s := { s with sup := { s.sup with tb := { s.sup.tb with ev := b } } }
  modLn .a (fun l => { l with st := 6, service := 0x3F, fwdOk := true }) (modLn .b (fun l => { l with st := 6, service := 0x3F, fwdOk := true }) s)

def checkingA (s : State) : State := let u := tokA s; { u with sup := { u.sup with checking := true } }

theorem wit_EvidenceHeartbeatsAndDecisions :
    (∀ e ∈ [true, false], (getTs (supA (fun t => { t with ev := e, badD := 255, goodRun := 255 })) .a).ev = e ∧
      debounce (supA (fun t => { t with ev := e, badD := 255, goodRun := 255 })) ≤ 255) ∧
    ((supA id).pw.por = false ∧ vddlOk (bothServe true true) .a = true ∧ (bothServe true true).pw.xtal = true ∧ quiet (bothServe true true) .b = false) ∧
    ((getTs (supA id) .a).hbAt + 20 * regF (supA id) 0x50 0x040 8 4 ≤ (supA id).pw.sup) ∧
    (holder (checkingA (bothServe false true)) = some .a ∧ (checkingA (bothServe false true)).sup.checking = true) ∧
    (holder (tokA (bothServe true true)) = some .a ∧ evGood (tokA (bothServe true true)) .a = true) ∧
    (holder (tokA (bothServe false true)) = some .a ∧ (tokA (bothServe false true)).sup.checking = false ∧
      evGood (tokA (bothServe false true)) .a = false ∧ qualifies (tokA (bothServe false true)) (peer .a) = true) ∧
    (evGood (tokA (bothServe false false)) .a = false ∧ qualifies (tokA (bothServe false false)) (peer .a) = false) ∧
    (token (bothServe true false) = 0 ∧ qualifies (bothServe true false) (preferred (bothServe true false)) = true) ∧
    (token (bothServe false false) = 0 ∧ qualifies (bothServe false false) .a = false ∧ qualifies (bothServe false false) .b = false) := by
  decide +kernel

theorem wit_ScrubbingKeepsVotedWords :
    (up.pw.por = false ∧ Canonical up ∧ token { up with sup := { up.sup with tok0 := 3, tok1 := 3 } } = 3) ∧
    ((0x03040, (⟨1024, 1024, 1024⟩ : Tri)) ∈ (orbiting 5).fab.regs ∧ pageRuns (orbiting 5) (0x03040 / 0x1000) = true) ∧
    (∀ m, Serves up m 0x50) ∧ updPending up 0x50 = false := by
  refine ⟨⟨by decide, canonical_of _ (by decide), by decide⟩, by decide, fun m => serves_of _ _ _ ?_, by decide⟩
  cases m <;> decide +kernel

theorem wit_MovesChecksAndRepairs :
    (∃ s : State, s.pw.por = false ∧ s.sup.granted = false ∧ token s = 0 ∧ qualifies s (preferred s) = false ∧
      qualifies s (peer (preferred s)) = true ∧ (getTs s (peer (preferred s))).qualAt = some 0 ∧
      0 + supMs (regF s 0x50 0x040 16 8) ≤ s.pw.sup) ∧
    (∃ s : State, s.pw.por = false ∧ s.pw.coreRun = true ∧ s.sup.moving = true ∧ holder s = some s.sup.moveTo ∧ Canonical s) ∧
    (holder (checkingA (bothServe true true)) = some .a ∧ (checkingA (bothServe true true)).sup.checking = true ∧
      evGood (checkingA (bothServe true true)) .a = true ∧ (checkingA (bothServe true true)).sup.moving = false ∧
      (checkingA (bothServe true true)).sup.moveAt ≤ (checkingA (bothServe true true)).pw.elapsed ∧
      (0 : BitVec 6).toNat &&& checkedLanes (checkingA (bothServe true true)) = 0 ∧
      (1 : BitVec 6).toNat &&& checkedLanes (checkingA (bothServe true true)) ≠ 0 ∧ (checkingA (bothServe true true)).sup.prev ≠ some .a ∧
      evGood (checkingA (bothServe false true)) .a = false) ∧
    (∃ s : State, s.pw.por = false ∧ (getTs s .a).tpwr = false ∧
      (getTs s .a).lowAt + supMs (regF s 0x50 0x040 24 8) ≤ s.pw.sup) ∧
    (∃ s : State, s.pw.por = false ∧ (getTs s .a).repair = true ∧ (getTs s .a).tpwr = true ∧
      (getTs s .a).highAt + supMs (regF s 0x50 0x044 0 16) ≤ s.pw.sup) ∧
    (∃ s : State, s.pw.por = false ∧ (getTs s .a).latched = true ∧ (getTs s .a).repair = false ∧ (getTs s .a).byCmd = false ∧
      (getTs s .a).fails < regF s 0x50 0x044 16 4 ∧ holder s ≠ some .a ∧
      (getTs s .a).latchAt + supMs (100 * regF s 0x50 0x044 24 8) ≤ s.pw.sup) := by
  refine ⟨⟨let s := bothServe false true; { s with sup := { s.sup with tb := { s.sup.tb with qualAt := some 0 } } }, by decide +kernel⟩,
    ⟨let s := tokA (bothServe true true); { s with sup := { s.sup with moving := true } }, by decide, by decide, by decide, by decide,
      canonical_of _ (by decide)⟩, by decide +kernel,
    ⟨supA (fun t => { t with repair := true, tpwr := false }), by decide +kernel⟩,
    ⟨modPw (fun p => { p with sup := 2000000000 }) (supA (fun t => { t with repair := true })), by decide +kernel⟩,
    ⟨modPw (fun p => { p with sup := 2000000000 }) (supA (fun t => { t with latched := true })), by decide +kernel⟩⟩

/-! ### Witnesses: time, management, slow ports, stores, fabric, board -/

theorem wit_TimeBaseCommands :
    ((later 2100).pw.por = false ∧ ∀ m, Serves (later 2100) m 0x54) ∧
    (∀ v ∈ [(1 : Word), 2, 3, 4, 5], ∃ x, x = v.toNat % 256 * 2 ^ 32 + regAt (withRegs [(0x03040, 1024), (0x54048, 0)] (later 2100)) 0x54 (incrReg .tb1) ∧
      ((v = 1 ∧ x < 0x0200000000) ∨ (0x0200000000 ≤ x ∧ x ≤ 0x0400000000 ∧ (v = 2 ∨ v = 3 ∨ v = 4)) ∨ (v = 5 ∧ 0x0400000000 < x))) ∧
    (∃ s : State, s.pw.por = false ∧ s.tb.hov1 = false ∧ s.tb.hov3 = false ∧ regF s 0x54 0x058 0 16 ≠ 0 ∧ regF s 0x54 0x058 16 16 ≠ 0 ∧
      s.tb.wr1 + supMs (regF s 0x54 0x058 0 16) ≤ s.pw.sup ∧ s.tb.wr3 + supMs (regF s 0x54 0x058 16 16) ≤ s.pw.sup) := by
  refine ⟨⟨by decide, fun m => serves_of _ _ _ ?_⟩, ?_, modPw (fun p => { p with sup := 20000 })
    (withRegs [(0x03040, 1024), (0x54058, 0x00010001)] (later 2100)), by decide +kernel⟩
  · cases m <;> decide +kernel
  · intro v hv
    refine ⟨_, rfl, ?_⟩
    fin_cases hv <;> decide +kernel

/-- The port up with the given frame filter. -/
def mgUp (s : State) : State := { s with mg := { s.mg with sync := true, anDone := true, link := true } }
/-- A broadcast frame of `n` bytes with a right check sequence. -/
def bcast (n : Nat) : List Byte :=
  let l : List Byte := List.replicate 6 0xFF ++ List.replicate 6 1 ++ [0x88, 0xF7] ++ List.replicate (n - 18) 0
  l ++ fcsOf l
/-- A register request in a frame to the hub's own address: read one word. -/
def mgReadReq : List Byte :=
  let l : List Byte := mgMac (mgUp (later 2100)) ++ List.replicate 6 1 ++ [0x88, 0xB5, 1, 2, 0, 0, 0, 0, 0, 0, 0x40, 0x30, 0, 0] ++ List.replicate 34 0
  l ++ fcsOf l
def reqWith (b : List Byte) (s : State) : State := { s with mg := { s.mg with reqs := [⟨[1, 1, 1, 1, 1, 1], b⟩] } }
/-- An egress item of a frame of 14 bytes, without options. -/
def egItem : List Byte := [14, 0, 0, 0, 0, 0, 0, 0, 0, 0, 0, 0, 0, 0, 0, 0] ++ List.replicate 14 3
def withItem (s : State) : State := modQ 20 (fun x => { x with ready := [{ bale20 with bytes := egItem }] }) s

theorem wit_ManagementFramesComeAndGo :
    ((mgUp (later 2100)).pw.por = false ∧ (mgUp (later 2100)).pw.xtal = true ∧ (mgUp (later 2100)).mg.link = true ∧ (mgUp (later 2100)).mg.prog = none) ∧
    (fcsOk [1, 2, 3, 4, 5] = false ∧ (fcsOk (bcast 63) = true ∧ (bcast 63).length < 64) ∧
      (fcsOk (bcast 64) = true ∧ 64 ≤ (bcast 64).length ∧ (bcast 64).length ≤ maxLen (mgUp (later 2100)) ∧ destOk (mgUp (later 2100)) (bcast 64) = true)) ∧
    (fcsOk mgReadReq = true ∧ 64 ≤ mgReadReq.length ∧ destOk (mgUp (later 2100)) mgReadReq = true ∧
      mgReadReq.take 6 = mgMac (mgUp (later 2100)) ∧ etherType mgReadReq = 0x88B5 ∧
      (regAt (withRegs [(0x03040, 1024), (0x58040, 0x07D00003)] (later 2100)) 0x58 0x040).testBit 1 = true) ∧
    (etherType (bcast 64) = 0x88F7 ∧ Shaped (mgUp (later 2100)) ∧ cellsOf 80 = 1 ∧
      TakesWhole (mgUp (later 2100)) 24 1 ∧ (∃ s : State, s.pw.por = false ∧ s.pw.xtal = true ∧ s.mg.link = true ∧ s.pw.coreRun = false)) ∧
    ((∃ b : List Byte, b.getD 0 0 ≠ 1) ∧ requestRefusal [1, 3] = some 2 ∧
      requestRefusal [1, 2, 0, 0, 0, 0, 0, 0, 0x40, 0x30, 0, 0] = none ∧ (reqWith [1, 3] (mgUp (later 2100))).mg.reqs = [⟨[1, 1, 1, 1, 1, 1], [1, 3]⟩]) ∧
    ((downlinksFirst (reqWith [1, 3] (mgUp (later 2100)))).pw.xtal = true ∧
      (downlinksFirst (reqWith [1, 3] (mgUp (later 2100)))).mg.reqs = ⟨[1, 1, 1, 1, 1, 1], [1, 3]⟩ :: []) ∧
    (fitsLaunches (mgUp (later 2100)) 64 0 = true ∧ dueQueue (withItem (mgUp (later 2100))) 63 = none ∧
      plainQueue (withItem (mgUp (later 2100))) 63 = some 20 ∧ egressHead (withItem (mgUp (later 2100))) 20 = some (egItem, true) ∧
      itemBad egItem true = false ∧ itemOne egItem = false ∧ (withItem (mgUp (later 2100))).mg.resps = []) := by
  refine ⟨by decide, by decide +kernel, by decide +kernel, ⟨by decide +kernel, shaped_of _ (by decide +kernel), by decide, takes_of _ _ _ (by decide +kernel),
      modPw (fun p => { p with coreRun := false }) (mgUp (later 2100)), by decide⟩,
    ⟨⟨[2], by decide⟩, by decide, by decide, by decide⟩, by decide +kernel, by decide +kernel⟩

theorem wit_SlowPortsAndTestAccess :
    ((later 2100).pw.por = false ∧ i2cMine 0x60 (later 2100) = true ∧ i2cMine 0 (later 2100) = false ∧ tapOpen (later 2100) = true ∧
      tapOpen { later 2100 with jtag := { trst := true } } = false) ∧
    (∀ r ∈ [true, false], ({ later 2100 with slow := { i2cWords := 2, i2cRd := r } } : State).slow.i2cRd = r ∧
      1 < ({ later 2100 with slow := { i2cWords := 2, i2cRd := r } } : State).slow.i2cWords ∧
      ({ later 2100 with slow := { i2cWords := 2, i2cRd := r } } : State).slow.i2cWords ≤ 2) ∧
    ([(0x40 : Byte), 0x30, 0].length = 3 ∧ leNat [(0x40 : Byte), 0x30, 0] % 2 ^ 20 / 0x1000 ≠ 0x68) ∧ 0 < [(1 : Byte)].length ∧ [(1 : Byte), 2].length < 3 := by
  decide

/-- The flash port with a write protection that allows everything and an operation under way. -/
def spiRun (op : Nat) (s : State) : State :=
  modPw (fun p => { p with sup := 10000001 }) { s with slow := { s.slow with spiBusy := true, spiOp := op, spiAddr := 0x20FF, spiLen := 1, spiAt := 0 } }

theorem wit_FlashOperationsAndSaves :
    ((later 2100).pw.por = false ∧ Canonical (later 2100) ∧ (∀ m, Serves (later 2100) m 0x5C) ∧ NothingToApply (later 2100) 0x5C) ∧
    (∀ w ∈ [0x101, 0xFF0101, 0x102, 0x103, 0x104, 0x105], spiRefusal (withRegs [(0x03040, 1024), (0x5C044, 0x100)] (later 2100)) w = none) ∧
    (later 2100).slow.spiBusy = false ∧ spiRefusal (later 2100) 0x102 ≠ none ∧
    (∀ op ∈ [1, 2, 3, 4, 5], (spiRun op (later 2100)).slow.spiBusy = true ∧ (spiRun op (later 2100)).slow.softRst = false ∧
      pinsOk (spiRun op (later 2100)) = true ∧ (spiRun op (later 2100)).slow.spiOp = op ∧
      (spiRun op (later 2100)).slow.spiAt + supMs 500 ≤ (spiRun op (later 2100)).pw.sup ∧
      spiLate (spiRun op (later 2100)) = decide (op = 2 ∨ op = 3) ∧ spiLate (modPw (fun p => { p with sup := 5 }) (spiRun op (later 2100))) = false) ∧
    (∃ s : State, s.pw.por = false ∧ s.slow.spiBusy = true ∧ s.slow.softRst = true ∧ s.slow.spiOp = 2 ∧ s.slow.spiAt + supMs 5 ≤ s.pw.sup ∧
      pinsOk s = true) ∧
    (∃ s : State, s.pw.por = false ∧ Canonical s ∧ s.cal.saving = some [] ∧ pinsOk s = true ∧ s.cal.newGen ≠ 0xFFFFFFFF) := by
  refine ⟨⟨by decide, canonical_of _ (by decide), fun m => serves_of _ _ _ ?_, Or.inl (by decide)⟩, by decide +kernel, by decide, by decide +kernel,
    by decide +kernel, ⟨{ spiRun 2 (later 2100) with slow := { (spiRun 2 (later 2100)).slow with softRst := true } }, by decide⟩, { later 2100 with cal := { saving := some [] } }, by decide, canonical_of _ (by decide), by decide, by decide, by decide⟩
  cases m <;> decide +kernel

theorem wit_UserViewShowsAndTakesTheHeldRecord :
    ((later 2100).pw.por = false ∧ Canonical (later 2100) ∧ (∀ m, Serves (later 2100) m 0x70) ∧ NothingToApply (later 2100) 0x70 ∧
      (later 2100).cal.saving = none) ∧
    (csRec (later 2100) = 0 ∧ lockedByte 15 = true ∧ lockedByte 16 = false ∧ lockedByte 1599 = false ∧ lockedByte 1600 = true ∧
      (leBytes 4 (0x01000000 : Word).toNat).getD 3 0 ≠ 0) ∧
    (∃ s : State, s.cal.saving.isSome = true ∧ s.pw.por = false) := by
  refine ⟨⟨by decide, canonical_of _ (by decide), fun m => serves_of _ _ _ ?_, Or.inl (by decide), by decide⟩, by decide +kernel,
    { later 2100 with cal := { saving := some [] } }, by decide⟩
  cases m <;> decide +kernel

/-- Master `m` has a pair open at `o` of page `p`. -/
def paired (m : Master) (p o : Nat) (v : Word) (s : State) : State := modMaster m (fun x => { x with guards := [⟨p, o, v⟩] }) s

theorem wit_RegisterAccessesOfTheMasters :
    ((later 2100).pw.por = false ∧ Shaped (later 2100) ∧ Canonical (later 2100)) ∧
    (pageRuns (later 2100) ((0xFF000 : Addr).toNat / 0x1000) = false ∧ isAssigned 0xFF = false ∧
      pageRuns (later 2100) ((0x4C041 : Addr).toNat / 0x1000) = false ∧ isAssigned 0x4C = true ∧ ∀ m, Serves (later 2100) m ((0x10042 : Addr).toNat / 0x1000)) ∧
    (isSup 0x10 = false ∧ isGuarded 0x10 0x040 = false ∧ ¬ (0x800 ≤ 0x040 ∧ isGuarded 0x10 (0x040 - 0x800) = true) ∧
      (∃ f, regForm 0x10 0x040 = some f ∧ f.rw = 0 ∧ f.rb ≠ 0) ∧ writeRefusal (later 2100) 0x10 0x040 (regAt (later 2100) 0x10 0x040) = none) ∧
    (isSup 0x50 = true ∧ isGuarded 0x50 0x040 = false ∧ (regForm 0x50 0x040).isSome = true ∧
      writeRefusal (later 2100) 0x50 0x040 (regAt (later 2100) 0x50 0x040) = none ∧ (∀ m, Serves (later 2100) m 0x50)) ∧
    isGuarded 0x50 0x04C = true ∧
    (∃ (s : State) (w : Posted), s.pw.por = false ∧ Shaped s ∧ Canonical s ∧ (pageSt s 0x60).posted = some w ∧ isGuarded 0x60 (w.a % 0x1000) = false) ∧
    (∀ m, ∃ s : State, ∃ g : Guard, pageRuns s 0x50 = true ∧ (pageSt s 0x50).posted = none ∧
      (0x5084C : Addr).toNat % 0x1000 = g.off + 0x800 ∧ isGuarded 0x50 g.off = true ∧ openGuard s m 0x50 = some g ∧
      writeRefusal s 0x50 g.off g.v.toNat = none) ∧
    (∀ m, Serves (later 2100) m 0x54 ∧ pairLow 0x54 0x118 = some 0x118 ∧ pairLow 0x54 0x11C = some (0x11C - 4)) := by
  refine ⟨⟨by decide, shaped_of _ (by decide +kernel), canonical_of _ (by decide)⟩, ⟨by decide +kernel, by decide, by decide +kernel, by decide, fun m => serves_of _ _ _ ?_⟩,
    ⟨by decide, by decide, by decide, ⟨(regForm 0x10 0x040).getD {}, by decide +kernel⟩, by decide +kernel⟩,
    ⟨by decide, by decide, by decide, by decide +kernel, fun m => serves_of _ _ _ ?_⟩, by decide,
    ⟨modPage 0x60 (fun x => { x with posted := some ⟨.mgmt, 0x60040, 0⟩ }) (later 2100), ⟨.mgmt, 0x60040, 0⟩, by decide +kernel,
      shaped_of _ (by decide +kernel), canonical_of _ (by decide +kernel), by decide +kernel, by decide⟩,
    fun m => ⟨paired m 0x50 0x04C 1 (later 2100), ⟨0x50, 0x04C, 1⟩, ?_⟩, fun m => ⟨serves_of _ _ _ ?_, by decide⟩⟩
  all_goals cases m <;> decide +kernel

theorem wit_GuardedWordsAndTheirComplements :
    Shaped (later 2100) ∧
    (∀ g ∈ [(0x01, 0x050), (0x48, 0x048), (0x49, 0x048), (0x50, 0x048), (0x50, 0x04C), (0x54, 0x068), (0x70, 0x044)], ∀ m,
      (later 2100).pw.por = false ∧ isGuarded g.1 g.2 = true ∧ (BitVec.ofNat 20 (g.1 * 0x1000 + g.2 + 0x800) : Addr).toNat = addrOf g.1 (g.2 + 0x800) ∧
      Serves (later 2100) m g.1 ∧ (∃ v, openGuard (paired m g.1 g.2 v (later 2100)) m g.1 = some ⟨g.1, g.2, v⟩ ∧
        pageRuns (paired m g.1 g.2 v (later 2100)) g.1 = true ∧ (pageSt (paired m g.1 g.2 v (later 2100)) g.1).posted = none ∧
        writeRefusal (paired m g.1 g.2 v (later 2100)) g.1 g.2 v.toNat = none)) := by
  refine ⟨shaped_of _ (by decide +kernel), ?_⟩
  intro g hg m
  fin_cases hg <;> cases m <;>
    exact ⟨by decide, by decide, by decide, serves_of _ _ _ (by decide +kernel), 0, by decide +kernel⟩

theorem wit_StrobesTalliesAndNotices :
    ((later 2100).pw.por = false ∧ Shaped (later 2100) ∧ Canonical (later 2100)) ∧
    (∀ m, Serves (later 2100) m 0x01 ∧ Serves (later 2100) m 0x1B ∧ Serves (later 2100) m 0x50) ∧ updPending (later 2100) 0x50 = false ∧
    (cutoffPassed (later 2100) = false ∧ cutoffPassed (orbiting 1008) = true ∧ cutoffPassed (orbiting 1007) = false ∧ up.orb.st = .idle) ∧
    (∃ (s : State) (n : Notice), s.pw.por = false ∧ s.pw.coreRun = true ∧ s.fab.store = n :: [] ∧ TakesWhole s 13 1) ∧
    (∃ s : State, s.pw.por = false ∧ (pageSt s 0x20).draining = true ∧ drained s 0x20 = true ∧ (pageSt s 0x20).deferred = false) := by
  refine ⟨⟨by decide, shaped_of _ (by decide +kernel), canonical_of _ (by decide)⟩, fun m => ⟨serves_of _ _ _ ?_, serves_of _ _ _ ?_, serves_of _ _ _ ?_⟩,
    by decide, by decide +kernel,
    ⟨{ later 2100 with fab := { (later 2100).fab with store := [⟨1, 3, 0, 0, 0, 0, 0, 0, 0, false, 0⟩] } }, ⟨1, 3, 0, 0, 0, 0, 0, 0, 0, false, 0⟩,
      rfl, rfl, rfl, takes_of _ _ _ (by decide +kernel)⟩,
    ⟨modPage 0x20 (fun x => { x with draining := true, active := false }) (later 2100), by decide +kernel⟩⟩
  all_goals cases m <;> decide +kernel

/-- The factory layer is read from fuses that hold zeros: every sum of the empty user image is zero and every code is the nominal one. -/
def fused : State := { up with cal := { up.cal with useFuse := true } }

theorem sgn_zero (w : Nat) : sgn 0 w = 0 := by
  have := Nat.two_pow_pos (w - 1)
  simp [sgn, this]

theorem leNat_zero (l : List Nat) : leNat (l.map (fun _ => (0 : Byte))) = 0 := by
  induction l with
  | nil => rfl
  | cons a t ih => simp only [List.map_cons, leNat, ih]; rfl

theorem fused_rawSum (q : Quantity) : rawSum2 fused [] q = 0 := by
  have h1 : factVal fused q.at_ q.n = 0 := leNat_zero (List.range q.n)
  have h2 : userVal [] q.at_ q.n = 0 := leNat_zero (List.range q.n)
  simp [rawSum2, h1, h2, fld, sgn_zero]

theorem fused_sums : sumsOk fused [] = true := by
  simp only [sumsOk, List.all_eq_true, sumOk, fused_rawSum]
  intro l hl q hq
  simp only [quantities, plainQuantities, List.mem_append, List.mem_map, List.mem_range, List.mem_cons, List.not_mem_nil, or_false] at hl
  rcases hl with ⟨a, h, rfl⟩ | ⟨a, -, rfl⟩
  · rw [List.mem_singleton] at hq
    subst hq
    rcases h with (((((h | h) | h) | h) | h) | h)
    · rcases h with rfl | rfl | rfl | rfl <;> rfl
    all_goals obtain ⟨b, -, rfl⟩ := h; rfl
  · rcases List.mem_pair.mp hq with rfl | rfl <;> rfl

theorem chOfs_reset (c : Nat) (h : c < 384) : chOfs [] c = 0 := by
  have h1 : (0x28 * 0x1000 + (0x080 + 4 * (c / 2))) / 0x1000 = 0x28 := by omega
  have h2 : (0x28 * 0x1000 + (0x080 + 4 * (c / 2))) % 0x1000 = 0x080 + 4 * (c / 2) := by omega
  have h3 : regForm 0x28 (0x080 + 4 * (c / 2)) = some { rb := 0xFFFFFFFF } := by
    have e1 : ¬ (0x080 + 4 * (c / 2) = 0x004) := by omega
    have e2 : ¬ (0x080 + 4 * (c / 2) = 0x020) := by omega
    have e3 : ¬ (0x080 + 4 * (c / 2) < 0x040) := by omega
    have e4 : 0x080 + 4 * (c / 2) ≤ 0x37C := by omega
    simp only [regForm, if_neg e1, if_neg e2, if_neg e3]
    refine Eq.trans (b := formPhase (0x080 + 4 * (c / 2))) rfl ?_
    rw [formPhase, if_neg (by omega), if_neg (by omega), if_neg (by omega), if_pos ⟨by omega, e4⟩]
  simp only [chOfs, regsGet, ramGet, resetAt, h1, h2, h3]
  simp [sgn, vote, triOf]

theorem fused_codes : codesOk fused fused.fab.regs (trimUnder fused []) (fun c => (getChan fused c).track) = true := by
  simp only [codesOk, List.all_eq_true, List.mem_range]
  intro c hc
  have hl : fused.chan = List.replicate 384 {} := rfl
  have h1 : trimUnder fused [] c = 0 := by simp [trimUnder, effOf, fused_rawSum, clampI, qTrim]
  have h2 : (getChan fused c).track = 0 := by
    have : getChan fused c = {} := by
      rw [getChan, hl, List.getD_eq_getElem?_getD, List.getElem?_replicate]
      split <;> rfl
    rw [this]
  have h3 : chOfs fused.fab.regs c = 0 := chOfs_reset c (by rw [hl, List.length_replicate] at hc; exact hc)
  simp only [codeWith, h1, h2, h3]
  decide +kernel

theorem fused_beyond : sumsOk fused [(64, 0xFF), (65, 0x7F)] = false := by
  have h : sumOk fused [(64, 0xFF), (65, 0x7F)] (qTrim 0) = false := by decide +kernel
  have hm : [qTrim 0] ∈ quantities := by
    simp only [quantities, plainQuantities, List.mem_append, List.mem_map, List.mem_range]
    exact Or.inl ⟨_, Or.inl (Or.inr ⟨0, by omega, rfl⟩), rfl⟩
  rw [sumsOk, List.all_eq_false]
  exact ⟨_, hm, by rw [List.all_cons, h]; decide⟩

/-- An entry for the heritage formatter, both of its windows lost. -/
def herEntry : Entry := { entry0 with her := true, reps := List.replicate 6 { started := true, done := true, status := 0x43 } }

/-- The monitor converter enabled. -/
def monOn : State := modPage 0x60 (fun x => { x with active := true }) (later 2100)

theorem wit_BoardServices :
    (∀ img : Ram Byte, fused.pw.por = false ∧ fused.pw.coreRun = true ∧ fused.orb.st = .idle ∧
      ({ fused with cal := { fused.cal with apply := some img } } : State).cal.apply = some img) ∧ Shaped fused ∧ (sumsOk fused [] = true ∧ codesOk fused fused.fab.regs (trimUnder fused []) (fun c => (getChan fused c).track) = true) ∧
    sumsOk fused [(64, 0xFF), (65, 0x7F)] = false ∧
    (Canonical monOn ∧ (∀ m, Serves monOn m 0x60) ∧ NothingToApply monOn 0x60 ∧ (pageSt monOn 0x60).active = true ∧
      (pageSt (later 2100) 0x60).active = false ∧ (∀ m, Serves (later 2100) m 0x60) ∧
      fld (0x9000 : Word).toNat 12 4 ≤ 9) ∧
    (∃ s : State, s.pw.por = false ∧ s.mon.running = true ∧
      s.mon.startAt + (fld (regAt s 0x60 0x040) 8 2 + 1 + s.mon.nres) * odrCycles (fld (regAt s 0x60 0x040) 12 4) ≤ s.pw.sup) ∧
    (∃ s : State, s.pw.por = false ∧ s.mon.running = true ∧ s.mon.old = some (0, 0, 0) ∧ s.mon.startAt = s.pw.sup ∧
      0 + (fld 0 8 2 + 1 + 0) * odrCycles (fld 0 12 4) ≤ s.pw.sup) ∧
    (∃ s : State, s.pw.por = false ∧ s.pw.coreRun = true ∧ firingSlot s = true ∧ s.pls.fired ≠ s.pw.elapsed + 1 ∧
      fld (liveEntry s s.orb.slot) 3 3 = 6 ∧ rowBarred s 6 = false ∧ firingClear s 6 (slotStartCc s) = true) ∧
    (∃ s : State, s.pw.coreRun = true ∧ s.pls.row = some 6 ∧ s.pls.openAt ≤ s.pw.cc ∧ s.pls.blanking = true ∧ s.pls.blankTo ≤ s.pw.cc) ∧
    (∃ s : State, s.pw.coreRun = true ∧ s.pls.sites.find? (fun p => p.1 % 16 == (14 : Fin 16).val) = some (14, 0) ∧ 0 ≤ s.pw.cc ∧
      s.pls.diagFired = false ∧ keysFrom 0 s.pls.states = true) ∧
    (∃ s : State, s.pw.por = false ∧ s.pw.coreRun = true ∧ nextHer s = some herEntry ∧ s.her.fmt = false ∧ herLifted s herEntry 0 = true ∧
      herLifted s herEntry 1 = true ∧ (herLost herEntry 0 || herLost herEntry 1) = true) := by
  refine ⟨fun img => ⟨rfl, rfl, rfl, rfl⟩, shaped_of _ (by decide +kernel), ⟨fused_sums, fused_codes⟩, fused_beyond,
    ⟨canonical_of _ (by decide +kernel), fun m => serves_of _ _ _ ?_, Or.inl (by decide), by decide +kernel, by decide +kernel,
      fun m => serves_of _ _ _ ?_, by decide⟩,
    ⟨modPw (fun p => { p with sup := 10000000 }) { later 2100 with mon := { running := true } }, by decide +kernel⟩,
    ⟨modPw (fun p => { p with sup := 10000000 }) { later 2100 with mon := { running := true, startAt := 10000000, old := some (0, 0, 0) } }, by decide +kernel⟩,
    ⟨modPage 0x64 (fun x => { x with active := true }) { later 2100 with orb := { (later 2100).orb with live := [(5, 0x34)] } }, by decide +kernel⟩,
    ⟨{ later 2100 with pls := { row := some 6, blanking := true } }, by decide⟩,
    ⟨{ later 2100 with pls := { sites := [(14, 0)] } }, by decide⟩,
    ⟨withFifo [herEntry] (later 2100), by decide +kernel⟩⟩
  all_goals cases m <;> decide +kernel

/-! ### Single commands and single facts, with results taken from the spec -/

/-- Channel 200 lies in tower 12 and seam 3 (the example of chapter 00). -/
theorem test_channel_200 : (200 / 16, 200 / 64) = (12, 3) := by decide

/-- The rails of the converter: codes 0x3FFF and 0x0000 with OVR (R47). -/
theorem test_clamp_high : (convert {} 8193 0 false).1 = 0x3FFF ∧ (convert {} 8193 0 false).2.1 = true := by decide
theorem test_clamp_low : (convert {} (-8193) 0 false).1 = 0 ∧ (convert {} (-8193) 0 false).2.1 = true := by decide
/-- Mid-scale is 0x2000 (R46). -/
theorem test_midscale : (convert {} 0 0 false).1 = 0x2000 := by decide

/-- The check values the spec gives for "123456789" (R368, R159, chapter 10). -/
theorem test_crc16 : crc16 [0x31, 0x32, 0x33, 0x34, 0x35, 0x36, 0x37, 0x38, 0x39] = 0x29B1 := by decide +kernel
theorem test_crc8 : crc8 [0x31, 0x32, 0x33, 0x34, 0x35, 0x36, 0x37, 0x38, 0x39] = 0xF4 := by decide +kernel
theorem test_crc32 : crc32 [0x31, 0x32, 0x33, 0x34, 0x35, 0x36, 0x37, 0x38, 0x39] = 0xCBF43926 := by decide +kernel

/-- Register words at reset, from the index of chapter 17: ORB_LEN and UPD_FAST (R359). -/
theorem test_reset_orb_len : regAt State.reset 0x03 0x040 = 0xC80 := by decide +kernel
theorem test_reset_upd_fast : regAt State.reset 0x01 0x044 = 0xFFFF := by decide +kernel

/-- The orbit number wraps (R18). -/
theorem test_orbit_wraps : (boundaryCore (orbiting 1023)).orb.slot = 0 ∧ (boundaryCore (orbiting 1023)).orb.orbit = 1 := by
  decide +kernel

/-- IDCODE shifts out 0x1038_4B47 (R327). -/
theorem test_idcode : ∃ t, exec .idcode up = .next t ∧ t.jtag.tdo = 0x10384B47 := ⟨_, rfl, by decide⟩

/-- A new mark outside ORB_OFS in LOCKED leaves the slot count (R20). -/
theorem test_mark_mismatch : ∃ t, exec .orbitMark (due mark (orbiting 5)) = .next t ∧ t.orb.slot = 5 ∧ tallyOf t 0x03 1 = 1 :=
  ⟨_, rfl, by decide +kernel, by decide +kernel⟩

/-- An increment below 0x02_0000_0000 is refused (R297). -/
theorem test_incr_refused : ∃ t, exec (.incrCommit .mgmt .tb1 1) (later 2100) = .next t ∧ t.tb.incr1 = 0x0320000000 :=
  ⟨_, rfl, by decide +kernel⟩
/-- The whole ns are committed with the held fraction 0x2000_0000 (R297). -/
theorem test_incr_commit : ∃ t, exec (.incrCommit .mgmt .tb3 2) (later 2100) = .next t ∧ t.tb.ni3 = some 0x0220000000 ∧ t.tb.incr3 = 0x0320000000 :=
  ⟨_, rfl, by decide +kernel⟩

/-- The stretch limit reads 0xFF (R322). -/
theorem test_stretch : ∃ t, exec (.i2cStretchLimit 1) { later 2100 with slow := { i2cWords := 2, i2cRd := true, i2cOut := [1, 2, 3, 4, 5] } } = .next t ∧
    t.slow.i2cOut = [1, 2, 3, 4, 0xFF] := ⟨_, rfl, by decide +kernel⟩

/-- A soft trigger of a DISARMED hub is no trigger (R147). -/
theorem test_soft_disarmed : ∃ t, exec (.softTrig .mgmt) (later 2100) = .next t ∧ t.acq.fifo = [] := ⟨_, rfl, by decide +kernel⟩
/-- Armed, it makes one entry with the host cause (R135, R136). -/
theorem test_soft_armed : ∃ t, exec (.softTrig .mgmt) selfTrig = .next t ∧ t.acq.fifo.map (fun e => (e.named, e.host)) = [(2100, true)] :=
  ⟨_, rfl, by decide +kernel⟩

/-- A word joins the bale of a queue with its bytes, low byte first (R187). -/
theorem test_data_word : ∃ t, exec (.seraiDataWord 16 0x04030201) (later 2100) = .next t ∧ progBytes t 16 = [1, 2, 3, 4] :=
  ⟨_, rfl, by decide +kernel⟩

/-- The word of a queue selection below 16 is refused with FIELD_RANGE (R204). -/
theorem test_qh_sel_refused : ∃ t, exec (.qhSel .i2c 12) (later 2100) = .next t ∧ (getMaster t .i2c).cause = 0x02 :=
  ⟨_, rfl, by decide +kernel⟩

/-- A write at an address that is not a multiple of four is refused with ALIGN, code 0x05 (R335). -/
theorem test_align : ∃ t, exec (.registerWrite .mgmt 0x03041 0) (later 2100) = .next t ∧ (getMaster t .mgmt).cause = 5 := ⟨_, rfl, by decide +kernel⟩

/-- A wrong complement closes the pair with cause 0x03 (R344). -/
theorem test_guard_mismatch :
    ∃ t, exec (.guardComplementWrite .mgmt 0x5084C 0) (paired .mgmt 0x50 0x04C 1 (later 2100)) = .next t ∧ (getMaster t .mgmt).cause = 3 :=
  ⟨_, rfl, by decide +kernel⟩

/-- The heartbeat is seen at the fourth toggle (R277). -/
theorem test_heartbeat : ∃ t, exec (.heartbeatToggle .a) (supA (fun x => { x with toggles := 3, seen := false })) = .next t := ⟨_, rfl⟩

/-- Losing RESET_N's level after the first release does nothing (R424). -/
theorem test_reset_pin : exec (.porAssert .resetN) up = .next up := rfl

end Sys2Proof.Tests
end

section
/-! The scope of the model (00_scope, 01_architecture): the canonical memories over a step, and what a step on the empty queue does. -/

namespace Sys2Proof.Machine

/-- Settles O7: `exec_canonical` keeps the canonical form for every command, and a core cycle that passes on the empty queue
touches no memory. -/
theorem memoriesStayCanonical : Obligations.MemoriesStayCanonical := step_canonical

theorem step_of_empty {s : State} (h : s.pending = []) : step s = .next (idleCycle s) := by
  simp [step, h]

theorem idleCycle_within {s : State} (hr : s.pw.coreRun = true) (hc : s.pw.cyc + 1 < s.pw.slotLen) : idleCycle s = coreCycles 1 s := by
  simp [idleCycle, hr, hc]

theorem idleCycle_waits {s : State} (h : s.pw.coreRun = false ∨ s.pw.slotLen ≤ s.pw.cyc + 1) : idleCycle s = s := by
  refine if_neg ?_
  rcases h with h | h <;> simp [h]

/-- Over one core cycle a base takes its step or load, if one waits, and the increment of that cycle (R294, R297). -/
theorem advBase_one (t incr : Nat) (nx ni : Option Nat) : advBase 1 t incr nx ni = (nx.getD t + incr) % 2 ^ 96 := by
  simp [advBase]

theorem basesAfter_one (b : Bases) : basesAfter 1 b =
    { b with t1 := (b.nx1.getD b.t1 + b.incr1) % 2 ^ 96, t3 := (b.nx3.getD b.t3 + b.incr3) % 2 ^ 96
             incr1 := b.ni1.getD b.incr1, incr3 := b.ni3.getD b.incr3, nx1 := none, nx3 := none, ni1 := none, ni3 := none } := by
  simp only [basesAfter, advBase_one, one_ne_zero, if_false]

/-- Settles O2: the empty queue runs `idleCycle`, which lets one core cycle pass or waits for the end of the slot. -/
theorem emptyQueueLetsOneCoreCyclePass : Obligations.EmptyQueueLetsOneCoreCyclePass := by
  intro s hp
  rw [step_of_empty hp]
  refine ⟨fun hr hc => ?_, fun h => by rw [idleCycle_waits h]⟩
  rw [idleCycle_within hr hc]
  simp only [coreCycles, tbAdvance, basesAfter_one]

end Sys2Proof.Machine
end

section
/-! Slot starts and orbits (R18): what the operations of a slot's end and start leave of the orbit counter, of the TRIG_IN edges that
wait for the next slot and of the elapsed slots. -/

namespace Sys2Proof.Machine

/-! ### Frames that leave one part alone -/

/-- The parts of the state. -/
def allParts : List Part :=
  [.pending, .pw, .jtag, .fab, .orb, .pll, .conv, .chan, .ring, .ringErr, .feat, .featErr, .flint, .fout, .flintOn, .seams, .acq, .ser,
   .frm, .lnA, .lnB, .dlA, .dlB, .sup, .tb, .mg, .slow, .cal, .mon, .pls, .her]

/-- Every part but `p`: the widest frame that leaves `p` alone. -/
def beside (p : Part) : List Part := allParts.filter (· ≠ p)

@[simp] theorem mem_beside {p q : Part} : q ∈ beside p ↔ q ≠ p := by
  have all : q ∈ allParts := by cases q <;> decide
  simp [beside, all]

theorem agree_of_beside {p : Part} {s t : State} (h : Only (beside p) s t) : agree p s t := h p (by simp)

/-! The frame lemmas of Laws/Frame take the operations off such a goal `Only (beside p) s t` one by one, so `simp` closes it. -/

theorem pw_of_only {s t : State} (h : Only (beside .pw) s t) : t.pw = s.pw := agree_of_beside h
theorem acq_of_only {s t : State} (h : Only (beside .acq) s t) : t.acq = s.acq := agree_of_beside h
theorem tb_of_only {s t : State} (h : Only (beside .tb) s t) : t.tb = s.tb := agree_of_beside h

/-! ### The orbit counter -/

/-- Where the orbit counter stands (R18). -/
structure Counter where
  st    : OrbState
  slot  : Nat
  orbit : Nat

def counterAt (s : State) : Counter := ⟨s.orb.st, s.orb.slot, s.orb.orbit⟩

theorem counterAt_of_orb {s t : State} (h : t.orb = s.orb) : counterAt t = counterAt s := by simp only [counterAt, h]

theorem counterAt_of_only {s t : State} (h : Only (beside .orb) s t) : counterAt t = counterAt s :=
  counterAt_of_orb (agree_of_beside h)

@[simp] theorem counterAt_ite (c : Prop) [Decidable c] (a b : State) :
    counterAt (if c then a else b) = if c then counterAt a else counterAt b := by
  split <;> rfl

@[simp] theorem counterAt_count (p i : Nat) (s : State) : counterAt (count p i s) = counterAt s := counterAt_of_orb (by simp)

theorem counterAt_foldl {α : Type} {g : State → α → State} (h : ∀ s x, counterAt (g s x) = counterAt s) (l : List α) (s : State) :
    counterAt (l.foldl g s) = counterAt s := by
  induction l generalizing s with
  | nil => rfl
  | cons a t ih => rw [List.foldl_cons, ih, h]

/-! #### The end of a slot -/

@[simp] theorem counterAt_eyeSlot (t : Trunk) (n : Nat) (s : State) : counterAt (eyeSlot t n s) = counterAt s := by
  unfold eyeSlot
  dsimp only
  split_ifs
  · rfl
  · rfl
  · exact counterAt_of_orb (by simp)
  · rfl

@[simp] theorem counterAt_pedFinish (s : State) : counterAt (pedFinish s) = counterAt s := by
  have h : counterAt (pedEnd s) = counterAt s := counterAt_of_only (by simp)
  unfold pedFinish
  generalize pedEnd s = u at h
  split
  · rfl
  · exact h

@[simp] theorem counterAt_sweepKeep (s : State) : counterAt (sweepKeep s) = counterAt s := by
  unfold sweepKeep
  split <;> rfl

@[simp] theorem counterAt_oasisEnd (s : State) : counterAt (oasisEnd s) = counterAt s := by
  have h : counterAt (eyeEnd .b (eyeEnd .a s)) = counterAt s := counterAt_of_only (by simp)
  unfold oasisEnd
  split
  · exact (counterAt_sweepKeep _).trans ((counterAt_pedFinish _).trans h)
  · rfl

@[simp] theorem counterAt_sweepOver (s : State) : counterAt (sweepOver s) = counterAt s := by
  have h : counterAt (sweepEnd s) = counterAt s := by
    unfold sweepEnd
    dsimp only
    split_ifs
    · exact counterAt_count _ _ _
    · exact counterAt_count _ _ _
    · rfl
  simp [sweepOver, h]

@[simp] theorem counterAt_closeSlot (obs : SlotObs) (s : State) : counterAt (closeSlot obs s) = counterAt s := by
  have measured : counterAt (sweepSlot obs (upsetsPast s)) = counterAt s := counterAt_of_only (by simp)
  have counted (u : State) : counterAt (markMissed (rearmFlush u)) = counterAt u := counterAt_of_only (by simp)
  simp [closeSlot, measured, counted]

/-! #### The start of a slot -/

theorem counterAt_bothRise (c t : Nat) (s : State) : counterAt (bothRise c t s) = counterAt s := counterAt_of_only (by simp)

@[simp] theorem counterAt_edgeEvent (c t : Nat) (s : State) : counterAt (edgeEvent c t s) = counterAt s := by
  unfold edgeEvent
  dsimp only
  split_ifs
  · rfl
  · exact counterAt_bothRise _ _ _
  · rfl
  · exact counterAt_bothRise _ _ _
  · rfl

@[simp] theorem counterAt_judgeChan (c t : Nat) (s : State) : counterAt (judgeChan c t s) = counterAt s := by
  unfold judgeChan
  dsimp only
  split_ifs
  · exact counterAt_edgeEvent _ _ _
  · exact counterAt_bothRise _ _ _
  · rfl

@[simp] theorem counterAt_flintJudge (s : State) : counterAt (flintJudge s) = counterAt s := by
  unfold flintJudge
  split
  · rfl
  · exact counterAt_foldl (fun u c => counterAt_judgeChan c _ u) _ _

@[simp] theorem counterAt_flintSample (s : State) : counterAt (flintSample s) = counterAt s := counterAt_flintJudge s

@[simp] theorem counterAt_openSlot (s : State) : counterAt (openSlot s) = counterAt s := by
  have after (u : State) : Only (beside .orb) u (upsetsPast (diagSlot (ttGap .b (ttGap .a (ctlGap .b (ctlGap .a (dueSlot .b
      (dueSlot .a (ttCapture .b (ttCapture .a (towerSync u))))))))))) := by simp
  have before (u : State) : counterAt (groupSlot u) = counterAt u := counterAt_of_only (by simp)
  exact (counterAt_of_only (after _)).trans ((counterAt_flintSample _).trans (before _))

@[simp] theorem counterAt_pushTag (b : Bool) (s : State) : counterAt (pushTag b s) = counterAt s := rfl

/-! #### The boundary -/

@[simp] theorem counterAt_onRise (w n : Bool) (p i d : Nat) (s : State) : counterAt (onRise w n p i d s) = counterAt s :=
  counterAt_of_orb (by simp)

@[simp] theorem counterAt_cutoffNow (s : State) : counterAt (cutoffNow s) = counterAt s := by
  have h (e : Nat) (u : State) : counterAt (powerAhead e u) = counterAt u := counterAt_of_only (by simp)
  unfold cutoffNow
  split
  · rfl
  · exact h _ _

@[simp] theorem counterAt_copyDone (k : Nat) (s : State) : counterAt (copyDone k s) = counterAt s := by
  unfold copyDone
  split <;> rfl

@[simp] theorem counterAt_copiesPast (s : State) : counterAt (copiesPast s) = counterAt s := by
  refine counterAt_foldl (fun u k => ?_) _ _
  split
  · split
    · exact counterAt_copyDone _ _
    · rfl
  · rfl

@[simp] theorem counterAt_setPhase (h u : Bool) (s : State) : counterAt (setPhase h u s) = counterAt s := by
  have mark (v : State) : counterAt (markPhase v) = counterAt v := by
    unfold markPhase
    split <;> rfl
  exact mark _

@[simp] theorem counterAt_setUncomp (s : State) : counterAt (setUncomp s) = counterAt s := counterAt_setPhase _ _ _

theorem counterAt_applyEffect (s : State) : counterAt (applyEffect s) = counterAt s := by
  have refused (c d : Nat) (u : State) : counterAt (count 0x70 1 (refuse 0x70 c d u)) = counterAt u :=
    counterAt_of_only (by simp)
  have loaded (u : State) : counterAt (loadCorr (loadTrims u)) = counterAt u := counterAt_of_only (by simp)
  unfold applyEffect
  dsimp only
  split
  · rfl
  · split_ifs
    · exact refused _ _ _
    · exact refused _ _ _
    · exact loaded _
    · exact (counterAt_setUncomp _).trans (loaded _)

@[simp] theorem counterAt_trackApply (s : State) : counterAt (trackApply s) = counterAt s := counterAt_onRise _ _ _ _ _ _

@[simp] theorem counterAt_oasisResults (s : State) : counterAt (oasisResults s) = counterAt s := by
  have stands (u : State) : counterAt (rotationStands u) = counterAt u := by
    unfold rotationStands
    split <;> rfl
  have shown (u : State) : counterAt (eyeShow .b (eyeShow .a u)) = counterAt u := counterAt_of_only (by simp)
  unfold oasisResults
  dsimp only
  rw [shown]
  split
  · exact (counterAt_trackApply _).trans (stands s)
  · exact stands s

@[simp] theorem counterAt_gridMoved (d : Nat) (s : State) : counterAt (gridMoved d s) = counterAt s := by
  have h (u : State) : counterAt (spoilProbe u) = counterAt u := counterAt_of_only (by simp)
  simp [gridMoved, h]

@[simp] theorem counterAt_swapQuarter (k : Nat) (s : State) : counterAt (swapQuarter k s) = counterAt s := rfl

/-- The effects of a page's words touch the orbit's part at a grid move (its phase tag) and at the slot map pages (the banks) only. -/
@[simp] theorem counterAt_pageApplied (p : Nat) (r0 words : Ram Tri) (s : State) : counterAt (pageApplied p r0 words s) = counterAt s := by
  have enabled : counterAt (if (enReset p).isSome && ramHas words (p * 0x1000 + 0x004) then enApplied p s else s) = counterAt s :=
    counterAt_of_only (by simp)
  by_cases grid : p = 0x02
  · subst grid
    unfold pageApplied
    dsimp only
    rw [if_neg (by decide), if_pos rfl]
    exact (counterAt_gridMoved _ _).trans enabled
  · by_cases map : pgIn p 0x04 0x07 = true
    · have late : p ≠ 0x01 := by rintro rfl; exact absurd map (by decide)
      unfold pageApplied
      dsimp only
      rw [if_neg late, if_neg grid, if_pos map, counterAt_ite, counterAt_swapQuarter, ite_self]
      exact enabled
    · exact counterAt_of_only (by simp [pageApplied, grid, map])

@[simp] theorem counterAt_applyPages (ps : List Nat) (s : State) : counterAt (applyPages ps s) = counterAt s := by
  have done (p : Nat) (u : State) : counterAt (pageDone p u) = counterAt u := counterAt_of_only (by simp)
  exact (counterAt_foldl (fun u e => (done _ _).trans (counterAt_pageApplied _ _ _ u)) _ _).trans rfl

@[simp] theorem counterAt_applyGroup (r0 : Ram Tri) (s : State) (g : Nat) : counterAt (applyGroup r0 s g) = counterAt s := by
  unfold applyGroup
  dsimp only
  split
  · exact counterAt_of_only (by simp)
  · exact counterAt_applyPages _ _

@[simp] theorem counterAt_afterApply (resid : List Bool) (ph : Bool) (s : State) : counterAt (afterApply resid ph s) = counterAt s := by
  have low : counterAt (outsLow s) = counterAt s := counterAt_of_only (by simp)
  have judged : Only (beside .orb) (flintJudge (outsLow s)) (afterApply resid ph s) := by simp [afterApply]
  exact (counterAt_of_only judged).trans ((counterAt_flintJudge _).trans low)

@[simp] theorem counterAt_applyGroups (gs : List Nat) (s : State) : counterAt (applyGroups gs s) = counterAt s := by
  have applied (r0 : Ram Tri) (u : State) : counterAt (gs.foldl (applyGroup r0) u) = counterAt u :=
    counterAt_foldl (fun v g => counterAt_applyGroup r0 v g) gs u
  have reset (p : Nat) (u : State) : counterAt (softReset p u) = counterAt u := counterAt_of_only (by simp)
  unfold applyGroups
  dsimp only
  split
  · rfl
  · rw [counterAt_afterApply]
    split
    · rw [applied, reset]; rfl
    · rw [applied]; rfl

/-- The boundary starts the next orbit at slot 0; an orbit number has 32 bits (R18). -/
theorem counterAt_boundaryCore (s : State) : counterAt (boundaryCore s) = ⟨s.orb.st, 0, (s.orb.orbit + 1) % 2 ^ 32⟩ := by
  unfold boundaryCore
  extract_lets past la lb resid ph orbit captured oldOrb turned effected resids phased gs held applied oldFab waits
  have old : counterAt past = counterAt s := counterAt_copiesPast s
  have rest : counterAt (recost (eyeRise la lb (restartDeferred waits))) = counterAt waits := counterAt_of_only (by simp)
  have back (u : State) : counterAt (powerBack u) = counterAt u := counterAt_of_only (by simp)
  calc counterAt (recost (eyeRise la lb (restartDeferred waits)))
      _ = counterAt applied := rest
      _ = counterAt phased := (back _).trans (counterAt_applyGroups _ _)
      _ = counterAt resids := counterAt_onRise _ _ _ _ _ _
      _ = counterAt effected := counterAt_foldl (fun _ _ => counterAt_onRise _ _ _ _ _ _) _ _
      _ = counterAt turned := (counterAt_applyEffect _).trans (counterAt_oasisResults _)
      _ = ⟨(counterAt past).st, 0, ((counterAt past).orbit + 1) % 2 ^ 32⟩ := rfl
      _ = ⟨s.orb.st, 0, (s.orb.orbit + 1) % 2 ^ 32⟩ := by rw [old]; rfl

@[simp] theorem counterAt_newOrbitMarks (s : State) : counterAt (newOrbitMarks s) = counterAt s := rfl

@[simp] theorem counterAt_retag (s : State) : counterAt (retag s) = counterAt s := rfl

/-- What ORBIT_BOUNDARY does before the boundary itself leaves the counter where it is. -/
theorem counterAt_orbitEnd (obs : SlotObs) (s : State) : counterAt (cutoffNow (oasisSkipped (closeSlot obs s))) = counterAt s := by
  have skipped (u : State) : counterAt (oasisSkipped u) = counterAt u := counterAt_of_only (by simp)
  rw [counterAt_cutoffNow, skipped, counterAt_closeSlot]

theorem orbitBoundary_eq (obs : SlotObs) {s : State} (hr : s.pw.coreRun = true) (hs : s.orb.st ≠ .idle) (hl : orbLen s ≤ s.orb.slot + 1) :
    ∃ n, orbitBoundary obs s = openSlot (retag (newOrbitMarks (boundaryCore (pushTag true (passSlot n
      (cutoffNow (oasisSkipped (closeSlot obs s)))))))) :=
  ⟨_, if_neg (by simp [hr, hs, hl])⟩

theorem counterAt_orbitBoundary (obs : SlotObs) {s : State} (hr : s.pw.coreRun = true) (hs : s.orb.st ≠ .idle)
    (hl : orbLen s ≤ s.orb.slot + 1) : counterAt (orbitBoundary obs s) = ⟨s.orb.st, 0, (s.orb.orbit + 1) % 2 ^ 32⟩ := by
  obtain ⟨n, h⟩ := orbitBoundary_eq obs hr hs hl
  have before := counterAt_orbitEnd obs s
  generalize cutoffNow (oasisSkipped (closeSlot obs s)) = u at h before
  calc counterAt (orbitBoundary obs s)
      _ = ⟨(counterAt u).st, 0, ((counterAt u).orbit + 1) % 2 ^ 32⟩ := by
        rw [h, counterAt_openSlot, counterAt_retag, counterAt_newOrbitMarks, counterAt_boundaryCore]; rfl
      _ = ⟨s.orb.st, 0, (s.orb.orbit + 1) % 2 ^ 32⟩ := by rw [before]; rfl

/-! ### The TRIG_IN edges that wait for the next slot (R443) -/

theorem count_acq (p i : Nat) (s : State) : (count p i s).acq = s.acq := by simp

@[simp] theorem pinNext_acqSync (s : State) : (acqSync s).acq.pinNext = s.acq.pinNext := by simp [acqSync]

/-! #### Entries, manifests and arming -/

@[simp] theorem acq_countDisabled (seq : Nat) (reps : List Report) (s : State) : (countDisabled seq reps s).acq = s.acq :=
  acq_of_only (by simp)

@[simp] theorem acq_writeBale (q : Nat) (l : List Byte) (s : State) : (writeBale q l s).acq = s.acq :=
  acq_of_only (by simp)

@[simp] theorem acq_setDue (t : Trunk) (d d' : Due) (s : State) : (setDue t d d' s).acq = s.acq :=
  acq_of_only (by simp)

@[simp] theorem pinNext_modEntry (seq : Nat) (f : Entry → Entry) (s : State) : (modEntry seq f s).acq.pinNext = s.acq.pinNext := rfl

@[simp] theorem pinNext_takeSeq (s : State) : (takeSeq s).acq.pinNext = s.acq.pinNext := rfl

@[simp] theorem pinNext_joinEntry (seq : Nat) (c : Cause) (s : State) : (joinEntry seq c s).acq.pinNext = s.acq.pinNext := by
  have joined : (herJoin seq c s).acq.pinNext = s.acq.pinNext := by
    unfold herJoin
    split
    · rfl
    · split <;> simp
  simp [joinEntry, joined]

@[simp] theorem pinNext_createEntry (named : Nat) (c : Cause) (s : State) : (createEntry named c s).acq.pinNext = s.acq.pinNext := by
  simp [createEntry]

@[simp] theorem pinNext_putManifest (l : List Byte) (s : State) : (putManifest l s).acq.pinNext = s.acq.pinNext := by
  have entered (u : State) : (manifestIn l u).acq.pinNext = u.acq.pinNext := by
    unfold manifestIn
    split
    · rfl
    · simp [freeEntry]
  unfold putManifest
  extract_lets
  split
  · exact (entered _).trans (congrArg Acq.pinNext (acq_writeBale 12 l s))
  · exact congrArg Acq.pinNext (acq_writeBale 12 l s)

@[simp] theorem pinNext_refuseTrigger (named : Nat) (c : Cause) (s : State) : (refuseTrigger named c s).acq.pinNext = s.acq.pinNext := by
  have counted : (count 0x30 0 (takeSeq s)).acq.pinNext = s.acq.pinNext := by simp
  unfold refuseTrigger
  extract_lets
  split_ifs
  · exact (pinNext_putManifest _ _).trans counted
  · exact counted
  · rw [count_acq]
    exact counted

@[simp] theorem pinNext_armEvent (s : State) : (armEvent s).acq.pinNext = s.acq.pinNext := by
  unfold armEvent
  split
  · rfl
  · split <;> rfl

/-! #### A slot start sees the edges -/

@[simp] theorem pinNext_noteLocal (named : Nat) (seq : Option Nat) (taken : Bool) (s : State) :
    (noteLocal named seq taken s).acq.pinNext = s.acq.pinNext := rfl

@[simp] theorem pinNext_trigOutRise (c : Cause) (s : State) : (trigOutRise c s).acq.pinNext = s.acq.pinNext := by
  unfold trigOutRise
  extract_lets
  split <;> rfl

@[simp] theorem pinNext_ignoreLocal (i named : Nat) (s : State) : (ignoreLocal i named s).acq.pinNext = s.acq.pinNext := by
  simp [ignoreLocal]

@[simp] theorem pinNext_joinLocal (t : LocalTrig) (c : Cause) (s : State) : (joinLocal t c s).acq.pinNext = s.acq.pinNext := by
  unfold joinLocal
  split
  · simp
  · split
    · simp
    · simp [joinRefused]

@[simp] theorem pinNext_afterTaken (named seq : Nat) (s : State) : (afterTaken named seq s).acq.pinNext = s.acq.pinNext := by
  unfold afterTaken
  extract_lets
  split
  · rw [count_acq]
    rfl
  · rfl

@[simp] theorem pinNext_takeLocal (named : Nat) (c : Cause) (s : State) : (takeLocal named c s).acq.pinNext = s.acq.pinNext := by
  unfold takeLocal
  split
  · simp
  · split <;> simp

@[simp] theorem pinNext_localTrigger (named : Nat) (c : Cause) (s : State) : (localTrigger named c s).acq.pinNext = s.acq.pinNext := by
  unfold localTrigger
  split
  · rfl
  · split
    · simp
    · split
      · rfl
      · simp
      · split_ifs <;> simp

@[simp] theorem pinNext_trigInSeen (s : State) : (trigInSeen s).acq.pinNext = s.acq.pinNext := by
  unfold trigInSeen
  extract_lets
  split_ifs <;> simp

theorem pinNext_iterate_trigInSeen (n : Nat) (s : State) : (Nat.iterate trigInSeen n s).acq.pinNext = s.acq.pinNext := by
  induction n generalizing s with
  | zero => rfl
  | succ k ih => rw [Function.iterate_succ_apply, ih, pinNext_trigInSeen]

@[simp] theorem pinNext_acceptAt (a : Nat) (s : State) : (acceptAt a s).acq.pinNext = s.acq.pinNext := by
  unfold acceptAt
  split
  · simp
  · extract_lets x excess oldFrm opened charged named c made
    have kept : charged.acq.pinNext = s.acq.pinNext := by
      show (if excess then count 0x44 0 opened else opened).acq.pinNext = opened.acq.pinNext
      split
      · rw [count_acq]
      · rfl
    split
    · exact (pinNext_joinEntry _ _ _).trans kept
    · split
      · exact (pinNext_refuseTrigger _ _ _).trans kept
      · exact (pinNext_createEntry _ _ _).trans kept

@[simp] theorem pinNext_acceptCmd (s : State) : (acceptCmd s).acq.pinNext = s.acq.pinNext := by
  unfold acceptCmd
  split
  · split
    · simp
    · rfl
  · rfl

/-- Of the due frame's parts only the accept and the arm code touch the acquisition. -/
theorem pinNext_acceptFirst (s : State) : (acceptFirst s).acq.pinNext = s.acq.pinNext := by
  have armed (u : State) : (armFast u).acq.pinNext = u.acq.pinNext := by
    unfold armFast onCode
    split
    · split
      · split <;> simp
      · rfl
    · rfl
  have before (u : State) : (updateCmd (oasisBeginCmd u)).acq = u.acq := acq_of_only (by simp)
  have after (u : State) : (orbitMarkCmd (unknownCmd (testPulseCmd (resyncCmd u)))).acq = u.acq := acq_of_only (by simp)
  unfold acceptFirst
  split
  · split
    · rw [pinNext_acceptCmd, after, armed, before]
    · rfl
  · rfl

/-! #### The end of a slot and the boundary -/

@[simp] theorem pinNext_closeSlot (obs : SlotObs) (s : State) : (closeSlot obs s).acq.pinNext = s.acq.pinNext := by
  have counted (n : Nat) (u : State) : (countN 0x31 2 n u).acq = u.acq := acq_of_only (by simp)
  have flushed (u : State) : (rearmFlush u).acq.pinNext = u.acq.pinNext := by
    unfold rearmFlush
    rw [counted]
  have before : (oasisEnd (sweepOver (eyeSlot .b obs.eyeB (eyeSlot .a obs.eyeA (sweepSlot obs (upsetsPast s)))))).acq = s.acq :=
    acq_of_only (by simp)
  have missed (u : State) : (markMissed u).acq = u.acq := acq_of_only (by simp)
  unfold closeSlot
  extract_lets
  rw [missed, flushed, before]

@[simp] theorem pinNext_softReset (p : Nat) (s : State) : (softReset p s).acq.pinNext = s.acq.pinNext := by
  have block : (blockReset p s).acq.pinNext = s.acq.pinNext := by
    by_cases own : p = 0x64 ∨ p = 0x68
    · rcases own with rfl | rfl <;> rfl
    · rw [not_or] at own
      rw [acq_of_only (s := s) (by simp [blockReset, own])]
  unfold softReset
  split
  · rfl
  · simpa [resetNow] using block

@[simp] theorem pinNext_afterApply (resid : List Bool) (ph : Bool) (s : State) : (afterApply resid ph s).acq.pinNext = s.acq.pinNext := by
  have costed (u : State) : (recost u).acq = u.acq := acq_of_only (by simp)
  have synced (u : State) : (seraiSync u).acq = u.acq := acq_of_only (by simp)
  unfold afterApply
  extract_lets judged resids phased
  have before : phased.acq = s.acq := acq_of_only (by simp [phased, resids, judged])
  rw [costed, pinNext_acqSync, synced, before]

@[simp] theorem pinNext_applyGroups (gs : List Nat) (s : State) : (applyGroups gs s).acq.pinNext = s.acq.pinNext := by
  have applied (r0 : Ram Tri) (u : State) : (gs.foldl (applyGroup r0) u).acq = u.acq := acq_of_only (by simp)
  unfold applyGroups
  dsimp only
  split
  · rfl
  · rw [pinNext_afterApply]
    split
    · rw [applied, pinNext_softReset]
    · rw [applied]

theorem pinNext_boundaryCore (s : State) : (boundaryCore s).acq.pinNext = s.acq.pinNext := by
  unfold boundaryCore
  extract_lets past la lb resid ph orbit captured oldOrb turned effected resids phased gs held applied oldFab waits
  have rest : (recost (eyeRise la lb (restartDeferred waits))).acq = waits.acq := acq_of_only (by simp)
  have back (u : State) : (powerBack u).acq = u.acq := acq_of_only (by simp)
  have first : turned.acq = s.acq := acq_of_only (t := copiesPast s) (by simp)
  have before : phased.acq = turned.acq := acq_of_only (by simp [phased, resids, effected])
  calc (recost (eyeRise la lb (restartDeferred waits))).acq.pinNext
      _ = applied.acq.pinNext := congrArg Acq.pinNext rest
      _ = phased.acq.pinNext := (congrArg Acq.pinNext (back _)).trans (pinNext_applyGroups _ _)
      _ = s.acq.pinNext := congrArg Acq.pinNext (before.trans first)

theorem pinNext_orbitBoundary (obs : SlotObs) {s : State} (hr : s.pw.coreRun = true) (hs : s.orb.st ≠ .idle)
    (hl : orbLen s ≤ s.orb.slot + 1) : (orbitBoundary obs s).acq.pinNext = s.acq.pinNext := by
  obtain ⟨n, h⟩ := orbitBoundary_eq obs hr hs hl
  have opened (u : State) : (openSlot (retag (newOrbitMarks u))).acq = u.acq := acq_of_only (by simp)
  have passed (u : State) : (pushTag true (passSlot n (cutoffNow (oasisSkipped u)))).acq = u.acq := acq_of_only (by simp)
  rw [h, opened, pinNext_boundaryCore, passed, pinNext_closeSlot]

/-! ### Elapsed slots -/

theorem elapsed_orbitBoundary (obs : SlotObs) {s : State} (hr : s.pw.coreRun = true) (hs : s.orb.st ≠ .idle)
    (hl : orbLen s ≤ s.orb.slot + 1) : (orbitBoundary obs s).pw.elapsed = s.pw.elapsed + 1 := by
  obtain ⟨n, h⟩ := orbitBoundary_eq obs hr hs hl
  have opened (u : State) : (openSlot (retag (newOrbitMarks (boundaryCore (pushTag true u))))).pw = u.pw := pw_of_only (by simp)
  have closed : (cutoffNow (oasisSkipped (closeSlot obs s))).pw = s.pw := pw_of_only (by simp)
  have passed (u : State) : (passSlot n u).pw.elapsed = u.pw.elapsed + 1 := rfl
  rw [h, opened, passed, closed]

/-- An orbit mark that ends IDLE may raise STAGE; no mark changes the count of slots. -/
theorem elapsed_markAct (s : State) : (markAct s).pw.elapsed = s.pw.elapsed := by
  have left (u : State) : (markerSync (cutoffAtStart (retag u))).pw = u.pw := pw_of_only (by simp)
  unfold markAct
  split
  · unfold leaveIdle
    extract_lets
    rw [left]
    rfl
  · split
    · rfl
    · rw [pw_of_only (s := s) (by simp)]
  · split
    · rfl
    · rw [pw_of_only (s := s) (by simp)]

theorem elapsed_acceptFirst (s : State) : (acceptFirst s).pw.elapsed = s.pw.elapsed := by
  have marked (u : State) : (orbitMarkCmd u).pw.elapsed = u.pw.elapsed := by
    unfold orbitMarkCmd
    split
    · split
      · exact (elapsed_markAct _).trans (congrArg Power.elapsed (pw_of_only (by simp)))
      · rfl
    · rfl
  have coded (u : State) : (unknownCmd (testPulseCmd (resyncCmd (armFast (updateCmd (oasisBeginCmd u)))))).pw = u.pw :=
    pw_of_only (by simp)
  have accepted (u : State) : (acceptCmd u).pw = u.pw := pw_of_only (by simp)
  unfold acceptFirst
  split
  · split
    · rw [accepted, marked, coded]
    · rfl
  · rfl

theorem pw_iterate_trigInSeen (n : Nat) (s : State) : (Nat.iterate trigInSeen n s).pw = s.pw := pw_of_only (by simp)

/-! ### A slot start sees the edges that wait (R443) -/

theorem pinsSeen_none (e : Nat) {s : State} (h : s.acq.pinNext = 0) : pinsSeen e s = s := if_pos (.inr h)

theorem elapsed_pinsSeen (e : Nat) (s : State) : (pinsSeen e s).pw.elapsed = s.pw.elapsed := by
  unfold pinsSeen
  split
  · rfl
  · rw [pw_iterate_trigInSeen, elapsed_acceptFirst]

theorem pinNext_pinsSeen {e : Nat} {s : State} (h : s.pw.elapsed ≠ e) : (pinsSeen e s).acq.pinNext = 0 := by
  unfold pinsSeen
  split
  · exact (‹_ ∨ _›).resolve_left h
  · rw [pinNext_iterate_trigInSeen, pinNext_acceptFirst]

/-! ### SLOT_ADVANCE -/

/-- The slot number goes on but in IDLE (R18). -/
def nextNumber (s : State) : State := if s.orb.st = .idle then s else { s with orb := { s.orb with slot := s.orb.slot + 1 } }

theorem counterAt_nextNumber (s : State) :
    counterAt (nextNumber s) = ⟨s.orb.st, if s.orb.st = .idle then s.orb.slot else s.orb.slot + 1, s.orb.orbit⟩ := by
  unfold nextNumber
  split <;> rfl

@[simp] theorem only_nextNumber (s : State) (M : List Part) (z : State) (h : [.orb] ⊆ M) : Only M z (nextNumber s) ↔ Only M z s := by
  refine Only.iff (N := [.orb]) ?_ h
  simp [nextNumber, only_mk_orb]

/-- A slot start samples the two network time bases and leaves them as they are. -/
theorem tb_openSlot (s : State) : (openSlot s).tb = { s.tb with s1 := s.tb.t1, s3 := s.tb.t3 } := by
  have after (u : State) : (upsetsPast (diagSlot (ttGap .b (ttGap .a (ctlGap .b (ctlGap .a (dueSlot .b (dueSlot .a (ttCapture .b
      (ttCapture .a (towerSync (flintSample (groupSlot u))))))))))))).tb = u.tb := tb_of_only (by simp)
  unfold openSlot
  extract_lets
  rw [after]

/-- In IDLE as outside it, the slot is closed, its remaining core cycles pass, and the next slot gets its number and its tag. -/
theorem slotAdvance_eq (obs : SlotObs) {s : State} (hr : s.pw.coreRun = true) (h : s.orb.st = .idle ∨ s.orb.slot + 1 < orbLen s) :
    slotAdvance obs s = openSlot (pushTag false (nextNumber (passSlot 0 (closeSlot obs s)))) := by
  have closed : (passSlot 0 (closeSlot obs s)).orb.st = s.orb.st := congrArg Counter.st (counterAt_closeSlot obs s)
  unfold slotAdvance nextNumber
  rw [if_neg (by simp [hr]), closed]
  by_cases idle : s.orb.st = .idle
  · rw [if_pos idle, if_pos idle]
  · rw [if_neg idle, if_neg idle, if_neg (by have := h.resolve_left idle; omega)]

section
variable (obs : SlotObs) {s : State} (hr : s.pw.coreRun = true) (h : s.orb.st = .idle ∨ s.orb.slot + 1 < orbLen s)
include hr h

theorem counterAt_slotAdvance : counterAt (slotAdvance obs s) =
    ⟨s.orb.st, if s.orb.st = .idle then s.orb.slot else s.orb.slot + 1, s.orb.orbit⟩ := by
  have closed := counterAt_closeSlot obs s
  rw [slotAdvance_eq obs hr h, counterAt_openSlot, counterAt_pushTag, counterAt_nextNumber]
  generalize closeSlot obs s = u at closed
  calc (⟨u.orb.st, if u.orb.st = .idle then u.orb.slot else u.orb.slot + 1, u.orb.orbit⟩ : Counter)
      _ = ⟨(counterAt u).st, if (counterAt u).st = .idle then (counterAt u).slot else (counterAt u).slot + 1, (counterAt u).orbit⟩ := rfl
      _ = _ := by rw [closed]; rfl

theorem pw_slotAdvance : (slotAdvance obs s).pw =
    { s.pw with cc := s.pw.cc + (s.pw.slotLen - s.pw.cyc), cyc := 0, slotLen := 8, elapsed := s.pw.elapsed + 1 } := by
  have opened (u : State) : (openSlot (pushTag false (nextNumber u))).pw = u.pw := pw_of_only (by simp)
  have closed : (closeSlot obs s).pw = s.pw := pw_of_only (by simp)
  rw [slotAdvance_eq obs hr h, opened]
  simp [passSlot, closed]

theorem pinNext_slotAdvance : (slotAdvance obs s).acq.pinNext = s.acq.pinNext := by
  have opened (u : State) : (openSlot (pushTag false (nextNumber (passSlot 0 u)))).acq = u.acq := acq_of_only (by simp)
  rw [slotAdvance_eq obs hr h, opened, pinNext_closeSlot]

/-- The bases advance by the core cycles that the slot had left. -/
theorem bases_slotAdvance : (slotAdvance obs s).tb.t1 = (basesAfter (s.pw.slotLen - s.pw.cyc) s.tb).t1 ∧
    (slotAdvance obs s).tb.t3 = (basesAfter (s.pw.slotLen - s.pw.cyc) s.tb).t3 := by
  have numbered (u : State) : (pushTag false (nextNumber u)).tb = u.tb := tb_of_only (by simp)
  have closedPw : (closeSlot obs s).pw = s.pw := pw_of_only (by simp)
  have closedTb : (closeSlot obs s).tb = s.tb := tb_of_only (by simp)
  rw [slotAdvance_eq obs hr h, tb_openSlot, numbered]
  simp [passSlot, tbAdvance, closedPw, closedTb]

end

/-- With no step, load or commit waiting, a base advances by its increment in every core cycle (R297). -/
theorem advBase_free {n : Nat} (h : 0 < n) (t incr : Nat) : advBase n t incr none none = (t + n * incr) % 2 ^ 96 := by
  cases n with
  | zero => exact absurd h (lt_irrefl 0)
  | succ k =>
    have cycles : t + incr + k * incr = t + (k + 1) * incr := by ring
    simp only [advBase, Option.getD_none, cycles]

theorem basesAfter_t1 {n : Nat} (h : 0 < n) {b : Bases} (hx : b.nx1 = none) (hi : b.ni1 = none) :
    (basesAfter n b).t1 = (b.t1 + n * b.incr1) % 2 ^ 96 := by
  simp only [basesAfter, h.ne', if_false, hx, hi, advBase_free h]

theorem basesAfter_t3 {n : Nat} (h : 0 < n) {b : Bases} (hx : b.nx3 = none) (hi : b.ni3 = none) :
    (basesAfter n b).t3 = (b.t3 + n * b.incr3) % 2 ^ 96 := by
  simp only [basesAfter, h.ne', if_false, hx, hi, advBase_free h]

/-! ### The commands -/

theorem exec_slotAdvance (obs : SlotObs) {s : State} (hp : s.pw.por = false) (hr : s.pw.coreRun = true) :
    exec (.slotAdvance obs) s = .next (pinsSeen s.pw.elapsed (slotAdvance obs s)) :=
  congrArg _ (coreOnly_eq _ hp hr)

theorem exec_orbitBoundary (obs : SlotObs) {s : State} (hp : s.pw.por = false) (hr : s.pw.coreRun = true) :
    exec (.orbitBoundary obs) s = .next (pinsSeen s.pw.elapsed (orbitBoundary obs s)) :=
  congrArg _ (coreOnly_eq _ hp hr)

/-- Settles O16: a slot start is the passing of the closed slot's core cycles and one step of the counter, which nothing else at the
end or the start of a slot moves; the edges that wait are seen after it. -/
theorem slotsAndOrbitsAdvance : Obligations.SlotsAndOrbitsAdvance := by
  intro s obs hp hr
  refine ⟨fun h => ?_, fun hs hl => ?_⟩
  · have time := pw_slotAdvance obs hr h
    have counter := counterAt_slotAdvance obs hr h
    obtain ⟨base1, base3⟩ := bases_slotAdvance obs hr h
    have later : (slotAdvance obs s).pw.elapsed = s.pw.elapsed + 1 := by rw [time]
    refine ⟨_, exec_slotAdvance obs hp hr, (elapsed_pinsSeen _ _).trans later, pinNext_pinsSeen (by omega), fun none => ?_⟩
    rw [pinsSeen_none _ ((pinNext_slotAdvance obs hr h).trans none)]
    refine ⟨by rw [time], by rw [time], by rw [time], congrArg Counter.slot counter, congrArg Counter.orbit counter,
      congrArg Counter.st counter, fun left hx hi => ?_, fun left hx hi => ?_, by simp⟩
    · rw [base1, basesAfter_t1 (Nat.sub_pos_of_lt left) hx hi]
    · rw [base3, basesAfter_t3 (Nat.sub_pos_of_lt left) hx hi]
  · have later := elapsed_orbitBoundary obs hr hs hl
    have counter := counterAt_orbitBoundary obs hr hs hl
    refine ⟨_, exec_orbitBoundary obs hp hr, (elapsed_pinsSeen _ _).trans later, pinNext_pinsSeen (by omega), fun none => ?_⟩
    rw [pinsSeen_none _ ((pinNext_orbitBoundary obs hr hs hl).trans none)]
    exact ⟨congrArg Counter.slot counter, congrArg Counter.orbit counter⟩

end Sys2Proof.Machine
end

section
/-! The invariants of the architecture (01_architecture): clocks and supplies, and the units, over a step. -/

namespace Sys2Proof.Machine

/-- Settles O5: every command but those of power and reset keeps the flags of `skel`, each of those keeps their agreement
(`exec_kept`), and so does a core cycle on the empty queue. -/
theorem clocksAndSuppliesAgree : Obligations.ClocksAndSuppliesAgree := step_clocked

/-- Settles O6: no command changes the number of units but the POR, which restores them all (`exec_kept`). -/
theorem everyUnitStaysInPlace : Obligations.EveryUnitStaysInPlace := step_shaped

end Sys2Proof.Machine
end

section
/-! What a tally, a notice or a refusal tells of the fabric (R333, R349, R350): the page headers and the notice store change, and of the
headers neither a posted write nor, off the pages that count, a tally. -/

namespace Sys2Proof.Machine

/-- Of the fabric only page headers and the notice store have changed, no posted write among them, and tallies on the pages `P` only. -/
structure Told (P : List Nat) (s t : State) : Prop where
  fab     : t.fab = { s.fab with pages := t.fab.pages, store := t.fab.store, lost := t.fab.lost }
  keys    : keysFrom 0 s.fab.pages = true → keysFrom 0 t.fab.pages = true
  tallies : keysFrom 0 s.fab.pages = true → ∀ p i, p ∉ P → tallyOf t p i = tallyOf s p i
  posted  : keysFrom 0 s.fab.pages = true → ∀ p, (pageSt t p).posted = (pageSt s p).posted

namespace Told

variable {P : List Nat} {s t u : State}

theorem of_fab (h : t.fab = s.fab) : Told P s t where
  fab := by rw [h]
  keys k := by rw [h]; exact k
  tallies _ _ _ _ := tallyOf_congr (by rw [h])
  posted _ _ := by simp only [pageSt, h]

theorem refl (s : State) : Told P s s := of_fab rfl

theorem trans (h : Told P s t) (k : Told P t u) : Told P s u where
  fab := by rw [k.fab, h.fab]
  keys a := k.keys (h.keys a)
  tallies a p i hp := (k.tallies (h.keys a) p i hp).trans (h.tallies a p i hp)
  posted a p := (k.posted (h.keys a) p).trans (h.posted a p)

theorem regs (h : Told P s t) : t.fab.regs = s.fab.regs := by rw [h.fab]
theorem buf (h : Told P s t) : t.fab.buf = s.fab.buf := by rw [h.fab]
theorem masters (h : Told P s t) : t.fab.masters = s.fab.masters := by rw [h.fab]

theorem ite {c : Prop} [Decidable c] (h : Told P s t) (k : Told P s u) : Told P s (if c then t else u) := by
  split
  · exact h
  · exact k

theorem foldl {α : Type} {g : State → α → State} (h : ∀ v x, Told P v (g v x)) (l : List α) (s : State) : Told P s (l.foldl g s) := by
  induction l generalizing s with
  | nil => exact refl s
  | cons a t ih => exact (h s a).trans (ih (g s a))

end Told

section
variable {P : List Nat} (s : State)

theorem told_store (store : List Notice) (lost : Nat) :
    Told P s { s with fab := { s.fab with store := store, lost := lost } } where
  fab := rfl
  keys h := h
  tallies _ _ _ _ := tallyOf_congr rfl
  posted _ _ := rfl

theorem told_modPage (p : Nat) {f : PageSt → PageSt} (hf : ∀ x, (f x).posted = x.posted) (ht : p ∈ P ∨ ∀ x, (f x).tally = x.tally) :
    Told P s (modPage p f s) where
  fab := rfl
  keys h := keys_modPage _ _ _ h
  tallies h q i hq := by
    rcases ht with hp | same
    · exact tallyOf_modPage_ne _ _ _ _ _ h (fun e => hq (e ▸ hp))
    · exact tallyOf_modPage_same _ _ _ _ _ h same
  posted h q := by
    by_cases e : q = p
    · subst e; rw [pageSt_modPage _ _ _ h, hf]
    · rw [pageSt_modPage_ne _ _ _ _ h e]

/-- A header changed in other fields than its tallies and its posted write. -/
theorem told_header (p : Nat) (f : PageSt → PageSt)
    (hf : ∀ x, (f x).posted = x.posted ∧ (f x).tally = x.tally := by exact fun _ => ⟨rfl, rfl⟩) : Told P s (modPage p f s) :=
  told_modPage s p (fun x => (hf x).1) (.inr fun x => (hf x).2)

theorem told_bump {p : Nat} (i : Nat) (hp : p ∈ P) : Told P s (bump p i s) := told_modPage s p (fun _ => rfl) (.inl hp)

theorem told_noticeIn (p : Nat) (n : Notice) : Told P s (noticeIn p n s) := by
  unfold noticeIn
  exact (told_store s _ _).trans (told_header _ _ _)

variable (h7C : 0x7C ∈ P)
include h7C

theorem told_noticeLost (d : Notice) : Told P s (noticeLost d s) := by
  unfold noticeLost
  exact (told_store s _ _).trans ((told_bump _ _ h7C).trans (told_header _ _ _))

theorem told_noticeDrop : Told P s (noticeDrop s) := by
  unfold noticeDrop
  split
  · exact Told.refl s
  · exact (told_store s _ _).trans ((told_header _ _ _).trans (told_noticeLost _ h7C _))

theorem told_storeNotice (p : Nat) (n : Notice) : Told P s (storeNotice p n s) :=
  (told_noticeIn s p n).ite (((told_noticeIn s p n).trans (told_noticeDrop _ h7C)).ite (told_noticeLost s h7C _))

theorem told_gapNotice (p : Nat) (n : Notice) : Told P s (gapNotice p n s) := by
  unfold gapNotice
  exact (told_header s p _).trans ((told_bump _ _ h7C).trans (told_store _ _ _))

theorem told_postNotice (p : Nat) (n : Notice) : Told P s (postNotice p n s) := by
  unfold postNotice
  exact (Told.refl s).ite ((told_header s p _).ite ((told_gapNotice s h7C p _).ite (told_storeNotice s h7C p _)))

theorem told_countD {p : Nat} (i d : Nat) (hp : p ∈ P) : Told P s (countD p i d s) :=
  (told_bump s i hp).trans ((Told.refl _).ite (told_postNotice _ h7C p _))

theorem told_count {p : Nat} (i : Nat) (hp : p ∈ P) : Told P s (count p i s) := told_countD s h7C i 0 hp

theorem told_onRise {p : Nat} (was isNow : Bool) (i d : Nat) (hp : p ∈ P) : Told P s (onRise was isNow p i d s) :=
  (told_countD s h7C i d hp).ite (Told.refl s)

theorem told_refuse (p cause d : Nat) : Told P s (refuse p cause d s) := by
  unfold refuse
  exact (told_header s p _).trans (told_postNotice _ h7C p _)

end

/-- The tallies of a page in a canonical state are listed by rising item. -/
theorem Canonical.tally_keys {s : State} (h : Canonical s) (p : Nat) : keysFrom 0 (pageSt s p).tally = true := by
  have all : ∀ {m : Ram PageSt}, (∀ e ∈ m, keysFrom 0 e.2.tally = true) → keysFrom 0 (ramGet (pageReset p) m p).tally = true := by
    intro m
    induction m with
    | nil => intro _; rfl
    | cons e m ih =>
      intro he
      unfold ramGet
      split_ifs
      · rfl
      · exact he e List.mem_cons_self
      · exact ih fun x hx => he x (List.mem_cons_of_mem _ hx)
  exact all h.tallies

theorem Canonical.tallyOf_count {s : State} (h : Canonical s) {p : Nat} (i : Nat) (hp : p ≠ 0x7C) :
    tallyOf (count p i s) p i = min 0xFF (tallyOf s p i + 1) := Machine.tallyOf_count p i s h.pages (h.tally_keys p) hp

end Sys2Proof.Machine
end

section
/-! The crystal (R17): what its loss takes with it and how it is told. -/

namespace Sys2Proof.Machine

theorem Told.mono {P Q : List Nat} {s t : State} (h : Told P s t) (k : P ⊆ Q) : Told Q s t :=
  ⟨h.fab, h.keys, fun a p i hp => h.tallies a p i fun hq => hp (k hq), h.posted⟩

/-- The canonical form speaks of the fabric, the orbit, the ring and the flash only. -/
theorem Canonical.of_parts {s t : State} (h : Canonical s) (fab : t.fab = s.fab) (orb : t.orb = s.orb) (ring : t.ring = s.ring)
    (slow : t.slow = s.slow) : Canonical t := by
  rw [canonical_iff, fab, orb, ring, slow]
  exact canon_parts h

/-! ### Live causes of Serai -/

/-- The pages on which a change of Serai's cells can count, and the notice block's (R184, R200, R231). -/
def serPages : List Nat := [0x40, 0x44, 0x7C]

theorem told_modQ {P : List Nat} (q : Nat) (f : Queue → Queue) (s : State) : Told P s (modQ q f s) := .of_fab rfl

theorem told_qSync (q : Nat) (s : State) : Told serPages s (qSync q s) := by
  unfold qSync
  refine Told.trans ?_ (told_onRise _ (by decide) _ _ _ _ (by decide))
  refine Told.trans ?_ (told_onRise _ (by decide) _ _ _ _ (by decide))
  exact told_modQ _ _ _

theorem told_unfitSync (s : State) : Told serPages s (unfitSync s) := by
  unfold unfitSync
  refine Told.trans ?_ (told_onRise _ (by decide) _ _ _ _ (by decide))
  exact .of_fab rfl

theorem told_seraiSync (s : State) : Told serPages s (seraiSync s) := by
  have queues := Told.foldl (fun v q => told_qSync q v) (List.range 32) s
  unfold seraiSync
  generalize (List.range 32).foldl (fun s q => qSync q s) s = v at queues
  refine queues.trans (Told.trans ?_ (told_unfitSync _))
  refine Told.trans ?_ (told_onRise _ (by decide) _ _ _ _ (by decide))
  exact .of_fab rfl

theorem told_startReplay (s : State) : Told serPages s (startReplay s) := by
  unfold startReplay
  refine Told.trans ?_ (told_count _ (by decide) _ (by decide))
  exact .of_fab rfl

theorem told_unsend (s : State) : Told serPages s (unsend s) := by
  unfold unsend
  dsimp only
  split
  · exact .refl s
  · split
    · exact .of_fab rfl
    · refine Told.trans ?_ (told_seraiSync _)
      exact .of_fab rfl

/-! ### The management link (R313) -/

theorem mg_linkSync (s : State) :
    (linkSync s).mg = { s.mg with link := s.mg.sync && (s.mg.anDone || !(regAt s 0x58 0x040).testBit 0) } := by
  unfold linkSync
  dsimp only
  split <;> simp

theorem told_linkSync (s : State) : Told [0x58, 0x7C] s (linkSync s) := by
  unfold linkSync
  refine Told.ite (Told.trans ?_ (told_count _ (by decide) _ (by decide))) ?_
  · exact .of_fab rfl
  · exact .of_fab rfl

/-- The fall of a link that was up counts (R313). -/
theorem tallyOf_linkSync_fall {s : State} (h : Canonical s) (up : s.mg.link = true) (sync : s.mg.sync = false) :
    tallyOf (linkSync s) 0x58 2 = min 0xFF (tallyOf s 0x58 2 + 1) := by
  have eq : linkSync s = count 0x58 2 { s with mg := { s.mg with link := false } } := by
    simp only [linkSync, up, sync, Bool.false_and, Bool.not_false, Bool.and_self, if_true]
  have fallen : Canonical { s with mg := { s.mg with link := false } } := h.of_parts rfl rfl rfl rfl
  rw [eq, fallen.tallyOf_count 2 (by decide)]
  rfl

/-! ### Loss -/

/-- The hub with its frame cut off and the management link down, before the crystal's own flags change. -/
def linkLost (s : State) : State := linkSync { (unsend s) with mg := { (unsend s).mg with sync := false, anDone := false } }

theorem only_linkLost (s : State) : Only [.fab, .ser, .frm, .mg] s (linkLost s) := by
  have cut : Only [.fab, .ser, .frm, .mg] s (unsend s) := by simp
  unfold linkLost
  simp only [only_linkSync _ _ _ (show [.fab, .mg] ⊆ [Part.fab, .ser, .frm, .mg] by decide)]
  exact (only_mk_fab_ser_frm_mg _ _ _ _ _ _).2 cut

theorem mg_linkLost (s : State) : (linkLost s).mg = { s.mg with sync := false, anDone := false, link := false } := by
  have cut : (unsend s).mg = s.mg := Only.mg (M := [.fab, .ser, .frm]) (by simp)
  simp [linkLost, mg_linkSync, cut]

theorem canonical_linkLost {s : State} (h : Canonical s) : Canonical (linkLost s) :=
  canon_linkSync _ ((canon_unsend s h).of_parts rfl rfl rfl rfl)

theorem told_linkLost (s : State) : Told (0x58 :: serPages) s (linkLost s) := by
  have cut : Told (0x58 :: serPages) s (unsend s) := (told_unsend s).mono (by decide)
  unfold linkLost
  refine cut.trans (Told.trans ?_ ((told_linkSync _).mono (by decide)))
  exact .of_fab rfl

theorem tallyOf_linkLost {s : State} (h : Canonical s) (up : s.mg.link = true) :
    tallyOf (linkLost s) 0x58 2 = min 0xFF (tallyOf s 0x58 2 + 1) := by
  have same : (unsend s).mg = s.mg := Only.mg (M := [.fab, .ser, .frm]) (by simp)
  have kept : tallyOf (unsend s) 0x58 2 = tallyOf s 0x58 2 := (told_unsend s).tallies h.pages _ _ (by decide)
  rw [← kept]
  exact tallyOf_linkSync_fall ((canon_unsend s h).of_parts rfl rfl rfl rfl) (by simp [same, up]) rfl

/-- The crystal has stopped, and BOOT_STAT says so (R360). -/
def crystalOff (s : State) : State := { s with pw := { s.pw with xtal := false, xtalLost := true } }

theorem only_crystalOff (s : State) : Only [.pw] s (crystalOff s) := (only_mk_pw s s _).2 (.refl _ _)

theorem exec_xtalLoss {s : State} (hp : s.pw.por = false) (hx : s.pw.xtal = true) :
    exec .xtalLoss s = .next (txBoth (count 0x00 2 (crystalOff (linkLost s)))) := by
  have runs : xtalLoss s = txBoth (count 0x00 2 (crystalOff (linkLost s))) := by simp [xtalLoss, linkLost, crystalOff, hx]
  exact congrArg _ ((running_eq xtalLoss hp).trans runs)

/-! ### Return -/

theorem told_leaveAgain (before : Option Trunk) (s : State) : Told serPages s (leaveAgain before s) :=
  (told_startReplay s).ite (.refl s)

/-- The crystal runs again. -/
def crystalOn (s : State) : State := { s with pw := { s.pw with xtal := true, xtalLost := false } }

theorem only_crystalOn (s : State) : Only [.pw] s (crystalOn s) := (only_mk_pw s s _).2 (.refl _ _)

/-- With the crystal back, trunks in DETECT may go on to TRAIN, and a replay starts where frames can leave again. -/
def crystalFollows (before : Option Trunk) (s : State) : State := leaveAgain before (detectJudge .b (detectJudge .a s))

theorem exec_xtalReturn {s : State} (hp : s.pw.por = false) (hx : s.pw.xtal = false) (ha : s.pw.vdda = true) :
    exec .xtalReturn s = .next (txBoth (crystalFollows (canSend s) (crystalOn s))) := by
  have runs : xtalReturn s = txBoth (crystalFollows (canSend s) (crystalOn s)) := by
    simp [xtalReturn, crystalFollows, crystalOn, hx, ha]
  exact congrArg _ ((running_eq xtalReturn hp).trans runs)

theorem told_crystalFollows (before : Option Trunk) (s : State) : Told serPages s (crystalFollows before s) := by
  have judged : Only [.lnA, .lnB] s (detectJudge .b (detectJudge .a s)) := by simp
  exact Told.trans (.of_fab judged.fab) (told_leaveAgain _ _)

/-- Settles O15: the loss cuts the frame off and lets the link fall before XTAL_LOST rises and counts on page 0x00, which nothing
before it touches; the return sets both flags and lets trunks in DETECT and a replay go on. -/
theorem crystalLossAndReturn : Obligations.CrystalLossAndReturn := by
  intro s hp hc
  refine ⟨fun hx => ⟨_, exec_xtalLoss hp hx, ?_⟩, fun hx ha => ⟨_, exec_xtalReturn hp hx ha, ?_⟩⟩
  · have told := told_linkLost s
    have fell := tallyOf_linkLost hc
    have mg := mg_linkLost s
    have lost := only_linkLost s
    have off := only_crystalOff (linkLost s)
    have canon : Canonical (crystalOff (linkLost s)) := (canonical_linkLost hc).only off (by decide)
    have pw : (crystalOff (linkLost s)).pw = { s.pw with xtal := false, xtalLost := true } := by rw [crystalOff, lost.pw]
    generalize linkLost s = v at *
    generalize crystalOff v = u at *
    have counted : Only [.fab] u (count 0x00 2 u) := by simp
    have telling : Told [0x00, 0x7C] u (count 0x00 2 u) := told_count u (by decide) 2 (by decide)
    have sent : Only [.lnA, .lnB] (count 0x00 2 u) (txBoth (count 0x00 2 u)) := by simp
    have tally (p i : Nat) : tallyOf (txBoth (count 0x00 2 u)) p i = tallyOf (count 0x00 2 u) p i := tallyOf_congr (by rw [sent.fab])
    have before (p i : Nat) : tallyOf u p i = tallyOf v p i := tallyOf_congr (by rw [off.fab])
    refine ⟨?_, ?_, ?_, fun up => ?_, ?_, ?_⟩
    · rw [sent.pw, counted.pw, pw]
    · rw [sent.mg, counted.mg, off.mg, mg]
    · rw [tally, canon.tallyOf_count 2 (by decide), before, told.tallies hc.pages _ _ (by decide)]
    · rw [tally, telling.tallies canon.pages _ _ (by decide), before, fell up]
    · rw [sent.fab, telling.regs, off.fab, told.regs]
    · exact lost.mono.trans (off.mono.trans (counted.mono.trans sent.mono))
  · have on := only_crystalOn s
    have follows : Only [.fab, .ser, .lnA, .lnB] (crystalOn s) (crystalFollows (canSend s) (crystalOn s)) := by simp [crystalFollows]
    have sent : Only [.lnA, .lnB] (crystalFollows (canSend s) (crystalOn s)) (txBoth (crystalFollows (canSend s) (crystalOn s))) := by simp
    refine ⟨?_, ?_, ?_⟩
    · rw [sent.pw, follows.pw, crystalOn]
    · rw [sent.fab, (told_crystalFollows _ _).regs, on.fab]
    · exact on.mono.trans (follows.mono.trans sent.mono)

end Sys2Proof.Machine
end

section
/-! The I2C target (R321–R323) and the test access port (R327, R425). -/

namespace Sys2Proof.Machine

/-! ### I2C -/

section
variable {s : State} {addr : BitVec 7}

theorem exec_i2cWriteTransaction (hp : s.pw.por = false) (l : List Byte) (addr : BitVec 7) :
    exec (.i2cWriteTransaction l addr) s = .next (i2cWrite addr l s) := congrArg _ (running_eq _ hp)

theorem exec_i2cReadTransaction (hp : s.pw.por = false) (n : Nat) (addr : BitVec 7) :
    exec (.i2cReadTransaction n addr) s = .next (i2cRead addr n s) := congrArg _ (running_eq _ hp)

theorem exec_i2cStretchLimit (hp : s.pw.por = false) (k : Nat) : exec (.i2cStretchLimit k) s = .next (stretchLimit k s) :=
  congrArg _ (running_eq _ hp)

theorem i2cWrite_other (h : i2cMine addr s = false) (l : List Byte) : i2cWrite addr l s = s := by simp [i2cWrite, h]

theorem i2cRead_other (h : i2cMine addr s = false) (n : Nat) : i2cRead addr n s = s := by simp [i2cRead, h]

theorem i2cWrite_nil (h : i2cMine addr s = true) : i2cWrite addr [] s = i2cBegin false s := by simp [i2cWrite, h]

theorem i2cWrite_part (h : i2cMine addr s = true) {l : List Byte} (some : 0 < l.length) (short : l.length < 3) :
    i2cWrite addr l s = partialWord (i2cBegin false s) := by
  have nonempty : l ≠ [] := List.length_pos_iff.1 some
  simp [i2cWrite, h, nonempty, short]

/-- The pointer is the transaction's first three bytes, and the rest are data words (R322). -/
theorem i2cWrite_pointer (h : i2cMine addr s = true) {p l : List Byte} (hp : p.length = 3) :
    i2cWrite addr (p ++ l) s = i2cData (p ++ l).length l
      { i2cBegin false s with slow := { (i2cBegin false s).slow with i2cPtr := leNat p % 2 ^ 20 } } := by
  have nonempty : p ++ l ≠ [] := fun e => by simp [(List.append_eq_nil_iff.1 e).1] at hp
  have long : ¬ (p ++ l).length < 3 := by simp [hp]
  unfold i2cWrite
  simp only [h, Bool.not_true, Bool.false_eq_true, if_false, List.isEmpty_iff, nonempty, long, List.take_left' hp, List.drop_left' hp]

theorem i2cData_nil (fuel : Nat) (s : State) : i2cData fuel [] s = s := by cases fuel <;> rfl

theorem leBytes_length (n v : Nat) : (leBytes n v).length = n := by simp [leBytes]

/-- Four data bytes make one word access (R322): on page 0x68 its first two bytes are the word. -/
theorem i2cData_word (fuel w : Nat) (s : State) : i2cData (fuel + 1) (leBytes 4 w) s =
    ptrStep (i2cCount (fabWrite .i2c s.slow.i2cPtr (leNat ((leBytes 4 w).take (commitAt s))) s)) := by
  have full := leBytes_length 4 w
  have nonempty : (leBytes 4 w).isEmpty = false := by rw [List.isEmpty_eq_false_iff, ← List.length_pos_iff, full]; decide
  have enough : ¬ 4 < commitAt s := by
    unfold commitAt
    split <;> decide
  have rest : (leBytes 4 w).drop 4 = [] := List.drop_eq_nil_of_le (by rw [full])
  unfold i2cData
  simp only [nonempty, Bool.false_eq_true, if_false, full, enough, lt_irrefl, rest, i2cData_nil]

/-- One pass of a read: a word is read before its first byte (R323). -/
theorem i2cBytes_last {n : Nat} (h : n < 4) (fuel : Nat) (out : List Byte) (s : State) :
    i2cBytes (fuel + 1) n out s = (out ++ (leBytes 4 (getMaster (i2cCount (fabRead .i2c s.slow.i2cPtr s)) .i2c).rdata.toNat).take n,
      i2cCount (fabRead .i2c s.slow.i2cPtr s)) := by
  simp [i2cBytes, h]

theorem i2cBytes_more (n fuel : Nat) (out : List Byte) (s : State) :
    i2cBytes (fuel + 1) (n + 4) out s =
      i2cBytes fuel n (out ++ leBytes 4 (getMaster (i2cCount (fabRead .i2c s.slow.i2cPtr s)) .i2c).rdata.toNat)
        (ptrStep (i2cCount (fabRead .i2c s.slow.i2cPtr s))) := by
  rw [i2cBytes]
  simp

theorem i2cRead_mine (h : i2cMine addr s = true) (n : Nat) : i2cRead addr n s =
    { (i2cBytes (n + 1) n [] (i2cBegin true s)).2 with slow :=
      { (i2cBytes (n + 1) n [] (i2cBegin true s)).2.slow with i2cOut := (i2cBytes (n + 1) n [] (i2cBegin true s)).1 } } := by
  simp [i2cRead, h]

/-! #### The stretch limit (R321) -/

/-- The bytes read, those of word `k` as a target that has released SCL gives them. -/
def stretched (k : Nat) (l : List Byte) : List Byte := mapIdxN (fun j b => if j / 4 = k then 0xFF else b) l

theorem getD_stretched (k : Nat) (l : List Byte) {j : Nat} (h : j < l.length) :
    (stretched k l).getD j 0 = if j / 4 = k then 0xFF else l.getD j 0 := by
  simp [stretched, mapIdxN, h]

theorem stretchLimit_before {k : Nat} (h : s.slow.i2cWords ≤ k) : stretchLimit k s = s := if_pos h

theorem stretchLimit_of {k : Nat} (h : k < s.slow.i2cWords) : stretchLimit k s = count 0x5C 1 { s with slow := { s.slow with
    i2cOut := if s.slow.i2cRd then stretched k s.slow.i2cOut else s.slow.i2cOut } } := if_neg (Nat.not_le.2 h)

end

/-! ### The test access port -/

section
variable {s : State}

/-- The port with instruction `code` loaded. -/
def irLoaded (code : Nat) (taken : Bool) (tdo : Word) (s : State) : State :=
  { s with jtag := { s.jtag with ir := code, tlr := false, taken := taken, tdo := tdo } }

theorem loadIr_open (h : tapOpen s = true) (code : Nat) (taken : Bool) (tdo : Word) : loadIr code taken tdo s = irLoaded code taken tdo s :=
  if_pos h

theorem loadIr_closed (h : tapOpen s = false) (code : Nat) (taken : Bool) (tdo : Word) : loadIr code taken tdo s = s := by
  simp [loadIr, h]

theorem samplePreload_closed (h : tapOpen s = false) (b : BitVec 15) : samplePreload b s = s := by simp [samplePreload, h]

theorem open_powered (h : tapOpen s = true) : s.pw.por = false ∧ s.pw.vddio = true := by
  simp only [tapOpen, Bool.and_eq_true, Bool.not_eq_true'] at h
  exact h.1

/-- EXTEST drives the cells on the outputs and nothing on the inputs (R327). -/
theorem pinOut_extest (h : tapOpen s = true) (k : Nat) :
    pinOut (irLoaded 0 true 0 s) k = if k ∈ [1, 7, 8, 9, 10, 11, 13, 14] then some (s.jtag.boundary.getLsbD k) else none := by
  obtain ⟨por, vddio⟩ := open_powered h
  simp [pinOut, irLoaded, por, vddio]

theorem pinOut_highz (h : tapOpen s = true) (k : Nat) : pinOut (irLoaded 3 true 0 s) k = none := by
  obtain ⟨por, vddio⟩ := open_powered h
  simp [pinOut, irLoaded, por, vddio]

/-- Shifting the boundary cells or the data register does not move a pin that no test instruction has taken. -/
theorem pinOut_untaken (code : Nat) (k : Nat) :
    pinOut (irLoaded code false 0 s) k = pinOut { s with jtag := { s.jtag with ir := code, taken := false } } k := rfl

theorem testBit_maskOf (l : List Nat) (k : Nat) : (maskOf l).testBit k = decide (k ∈ l) := by
  have from_acc (m : Nat) : (l.foldl (fun m i => m ||| (1 <<< i)) m).testBit k = (m.testBit k || decide (k ∈ l)) := by
    induction l generalizing m with
    | nil => simp
    | cons i l ih =>
      rw [List.foldl_cons, ih, Nat.testBit_or, Nat.one_shiftLeft, Nat.testBit_two_pow, Bool.or_assoc]
      simp [List.mem_cons, eq_comm]
  simpa [maskOf] using from_acc 0

/-- A covered pin that the hub drives reads back as driven. -/
theorem getLsbD_pinLevels (s : State) {k : Nat} (hk : k < 15) {x : Bool} (h : pinOut s k = some x) : (pinLevels s).1.getLsbD k = x := by
  have word : k < 32 := by omega
  rw [pinLevels, BitVec.getLsbD_ofNat, testBit_maskOf]
  simp [word, hk, h]

theorem samplePreload_open (h : tapOpen s = true) (b : BitVec 15) :
    samplePreload b s = { (pinLevels (irLoaded 2 false 0 s)).2 with jtag :=
      { (pinLevels (irLoaded 2 false 0 s)).2.jtag with boundary := b, tdo := (pinLevels (irLoaded 2 false 0 s)).1 } } := by
  simp [samplePreload, h, loadIr_open h]

end

/-! ### The statement, port by port -/

section
variable {s : State}

/-- The write transactions (R322). -/
theorem i2c_writes (hp : s.pw.por = false) {addr : BitVec 7} {v : State} (mine : i2cMine addr s = true) (hv : v = i2cBegin false s) :
    exec (.i2cWriteTransaction [] addr) s = .next v ∧
    (∀ l : List Byte, l.length = 3 → exec (.i2cWriteTransaction l addr) s =
      .next { v with slow := { v.slow with i2cPtr := leNat l % 2 ^ 20 } }) ∧
    (∀ l : List Byte, 0 < l.length → l.length < 3 → exec (.i2cWriteTransaction l addr) s = .next (count 0x5C 0 (refuse 0x5C 0x06 0 v))) ∧
    (∀ (p : List Byte) (w : Word) (a : Nat) (u : State), p.length = 3 → a = leNat p % 2 ^ 20 →
      u = fabWrite .i2c a (leNat ((leBytes 4 w.toNat).take (if a / 0x1000 = 0x68 then 2 else 4)))
        { v with slow := { v.slow with i2cPtr := a } } →
      exec (.i2cWriteTransaction (p ++ leBytes 4 w.toNat) addr) s =
        .next { u with slow := { u.slow with i2cPtr := (u.slow.i2cPtr + 4) % 2 ^ 20, i2cWords := u.slow.i2cWords + 1 } }) := by
  subst hv
  refine ⟨?_, fun l three => ?_, fun l some short => ?_, fun p w a u three ha hu => ?_⟩
  · rw [exec_i2cWriteTransaction hp, i2cWrite_nil mine]
  · have pointer := i2cWrite_pointer mine (l := []) three
    rw [List.append_nil] at pointer
    rw [exec_i2cWriteTransaction hp, pointer, i2cData_nil]
  · rw [exec_i2cWriteTransaction hp, i2cWrite_part mine some short]
    rfl
  · have fuel : (p ++ leBytes 4 w.toNat).length = 6 + 1 := by rw [List.length_append, three, leBytes_length]
    rw [exec_i2cWriteTransaction hp, i2cWrite_pointer mine three, fuel, i2cData_word, hu, ha]
    rfl

/-- The read transactions (R323). -/
theorem i2c_reads (hp : s.pw.por = false) {addr : BitVec 7} {v u x : State} (mine : i2cMine addr s = true) (hv : v = i2cBegin true s)
    (hu : u = i2cCount (fabRead .i2c v.slow.i2cPtr v)) (hx : x = i2cCount (fabRead .i2c ((u.slow.i2cPtr + 4) % 2 ^ 20) (ptrStep u))) :
    (∀ n, n < 4 → exec (.i2cReadTransaction n addr) s = .next { u with slow := { u.slow with
      i2cOut := (leBytes 4 (getMaster u .i2c).rdata.toNat).take n } }) ∧
    exec (.i2cReadTransaction 4 addr) s = .next { x with slow := { x.slow with i2cOut := leBytes 4 (getMaster u .i2c).rdata.toNat } } := by
  subst hv
  refine ⟨fun n short => ?_, ?_⟩
  · rw [exec_i2cReadTransaction hp, i2cRead_mine mine, i2cBytes_last short, ← hu]
    rfl
  · have next : i2cCount (fabRead .i2c (ptrStep u).slow.i2cPtr (ptrStep u)) = x := hx.symm
    rw [exec_i2cReadTransaction hp, i2cRead_mine mine, i2cBytes_more 0, ← hu, i2cBytes_last (by decide), next]
    simp

/-- An access that the transaction has made and that ran past the limit (R321). -/
theorem i2c_stretch (hp : s.pw.por = false) {k : Nat} (made : k < s.slow.i2cWords) :
    ∃ u, exec (.i2cStretchLimit k) s = .next u ∧ Only [.fab, .slow] s u ∧ u.fab.regs = s.fab.regs ∧
      u.slow = { s.slow with i2cOut := u.slow.i2cOut } ∧ (s.slow.i2cRd = false → u.slow = s.slow) ∧
      (s.slow.i2cRd = true → u.slow.i2cOut.length = s.slow.i2cOut.length ∧
        ∀ j, j < s.slow.i2cOut.length → u.slow.i2cOut.getD j 0 = if j / 4 = k then 0xFF else s.slow.i2cOut.getD j 0) ∧
      (Canonical s → tallyOf u 0x5C 1 = min 0xFF (tallyOf s 0x5C 1 + 1)) := by
  refine ⟨_, (exec_i2cStretchLimit hp k).trans (congrArg _ (stretchLimit_of made)), ?_⟩
  generalize hout : (if s.slow.i2cRd then stretched k s.slow.i2cOut else s.slow.i2cOut) = out
  generalize hv : ({ s with slow := { s.slow with i2cOut := out } } : State) = v
  have slow : v.slow = { s.slow with i2cOut := out } := by rw [← hv]
  have given : Only [.slow] s v := by rw [← hv]; exact (only_mk_slow s s _).2 (.refl _ _)
  have counted : Only [.fab] v (count 0x5C 1 v) := by simp
  have told : Told [0x5C, 0x7C] v (count 0x5C 1 v) := told_count v (by decide) 1 (by decide)
  refine ⟨given.mono.trans counted.mono, ?_, ?_, fun wr => ?_, fun rd => ?_, fun hc => ?_⟩
  · rw [told.regs, given.fab]
  · rw [counted.slow, slow]
  · rw [counted.slow, slow, ← hout, wr]
    rfl
  · rw [rd, if_pos rfl] at hout
    rw [counted.slow, slow, ← hout]
    exact ⟨by simp [stretched], fun j hj => getD_stretched k _ hj⟩
  · have canon : Canonical v := ⟨by rw [given.fab]; exact hc.regs, by rw [given.fab]; exact hc.pages, by rw [given.fab]; exact hc.tallies,
      by rw [given.orb]; exact hc.live, by rw [given.orb]; exact hc.shadow, by rw [given.ring]; exact hc.ring, by rw [slow]; exact hc.flash⟩
    rw [canon.tallyOf_count 1 (by decide), tallyOf_congr (t := s) (by rw [given.fab])]

/-- SAMPLE/PRELOAD on an open port (R327). -/
theorem samplePreload_spec (h : tapOpen s = true) (b : BitVec 15) :
    ∃ u, exec (.samplePreload b) s = .next u ∧ Only [.pw, .jtag] s u ∧ u.pw = { s.pw with freeCtr := s.pw.freeCtr + 1 } ∧
      u.jtag = { s.jtag with ir := 2, tlr := false, taken := false, tdo := u.jtag.tdo, boundary := b } ∧
      ∀ k x, k < 15 → pinOut { s with jtag := { s.jtag with ir := 2, taken := false } } k = some x → u.jtag.tdo.getLsbD k = x :=
  ⟨_, congrArg Host.Outcome.next (samplePreload_open h b), (only_mk_pw_jtag s s _ _).2 (.refl _ _), rfl, rfl,
    fun k _ hk driven => getLsbD_pinLevels _ hk ((pinOut_untaken 2 k).trans driven)⟩

end

/-- Settles O54: the I2C transactions unfold to their word accesses, one or two by their bytes; a test instruction loads what R327
lists on an open port and nothing on a closed one. -/
theorem slowPortsAndTestAccess : Obligations.SlowPortsAndTestAccess := by
  intro s
  refine ⟨fun hp => ⟨fun addr l n other => ?_, fun addr v mine hv => i2c_writes hp mine hv,
      fun addr v u x mine hv hu hx => i2c_reads hp mine hv hu hx, fun k before => ?_, fun k made => i2c_stretch hp made⟩,
    fun h => ⟨?_, ?_, samplePreload_spec h, ?_, ?_⟩, fun h => ⟨?_, ?_, fun b => ?_, ?_, ?_⟩, fun low => ⟨_, rfl, rfl, ?_⟩⟩
  · exact ⟨by rw [exec_i2cWriteTransaction hp, i2cWrite_other other], by rw [exec_i2cReadTransaction hp, i2cRead_other other]⟩
  · rw [exec_i2cStretchLimit hp, stretchLimit_before before]
  · exact ⟨_, congrArg Host.Outcome.next (loadIr_open h 0 true 0), rfl, pinOut_extest h⟩
  · exact congrArg Host.Outcome.next (loadIr_open h 1 false 0x10384B47)
  · exact ⟨_, congrArg Host.Outcome.next (loadIr_open h 3 true 0), rfl, pinOut_highz h⟩
  · exact congrArg Host.Outcome.next (loadIr_open h 15 false 0)
  · exact congrArg Host.Outcome.next (loadIr_closed h 0 true 0)
  · exact congrArg Host.Outcome.next (loadIr_closed h 1 false 0x10384B47)
  · exact congrArg Host.Outcome.next (samplePreload_closed h b)
  · exact congrArg Host.Outcome.next (loadIr_closed h 3 true 0)
  · exact congrArg Host.Outcome.next (loadIr_closed h 15 false 0)
  · rintro rfl
    simp [tapOpen, tapReset]

end Sys2Proof.Machine
end

section
/-! The flint path (chapter 06): an edge at a channel and what it does to the outputs. -/

namespace Sys2Proof.Machine

/-! ### What the edges read -/

/-- Two states that govern the flint path alike: the same time and supplies, words in force, trims and enabled outputs. -/
structure SameFlintRules (s t : State) : Prop where
  pw      : t.pw = s.pw
  fab     : t.fab = s.fab
  cal     : t.cal = s.cal
  flintOn : t.flintOn = s.flintOn

theorem sameFlintRules_of_only {s t : State} (h : Only [.orb, .flint, .fout] s t) : SameFlintRules s t := ⟨h.pw, h.fab, h.cal, h.flintOn⟩

namespace SameFlintRules
variable {s t : State} (h : SameFlintRules s t)
include h

theorem elapsed : t.pw.elapsed = s.pw.elapsed := by rw [h.pw]
theorem flCtl (c e : Nat) : flCtl t c e = flCtl s c e := by simp only [Machine.flCtl, regsIn, h.fab]
theorem flSeam (i e : Nat) : flSeam t i e = flSeam s i e := by simp only [Machine.flSeam, regsIn, h.fab]
theorem flThr (c e : Nat) : flThr t c e = flThr s c e := by
  simp only [Machine.flThr, h.flCtl, eff, effOf, rawSum2, factVal, factByte, h.cal, h.pw]
theorem outEn (o e : Nat) : outEn t o e = outEn s o e := by simp only [Machine.outEn, h.pw, h.flintOn, h.flSeam]
theorem mayContribute {c : Nat} (stuck : (getFlint t c).stuck = (getFlint s c).stuck) (e : Nat) :
    mayContribute t c e = mayContribute s c e := by simp only [Machine.mayContribute, h.flCtl, stuck]

end SameFlintRules

/-! ### Outputs -/

theorem contribution_of_flint {s t : State} (h : t.flint = s.flint) (o : Nat) : contribution t o = contribution s o := by
  simp only [contribution, getFlint, h]

/-- Output `o` does not fall at instant `x`: it is low, something contributes, or its edge is less than 2.0 ns past (R120). -/
def staysAt (s : State) (o x : Nat) : Prop :=
  (getFout s o).high = false ∨ contribution s o = true ∨ ∃ t0, (getFout s o).t0 = some t0 ∧ x < t0 + 2000

theorem outFall_stays {s : State} {o x : Nat} (h : staysAt s o x) : outFall o x s = s := by
  refine if_neg fun falls => ?_
  simp only [Bool.and_eq_true, Bool.not_eq_true'] at falls
  obtain ⟨⟨high, past⟩, idle⟩ := falls
  rcases h with low | contributes | ⟨t0, recent, within⟩
  · simp [low] at high
  · simp [contributes] at idle
  · simp only [recent, decide_eq_true_eq] at past
    omega

theorem outFall_falls {s : State} {o x : Nat} (high : (getFout s o).high = true)
    (past : ∀ t0, (getFout s o).t0 = some t0 → t0 + 2000 ≤ x) (idle : contribution s o = false) :
    outFall o x s = modFout o (fun f => { f with high := false }) s := by
  refine if_pos ?_
  cases h : (getFout s o).t0 with
  | none => simp [high, idle]
  | some t0 => simp [high, idle, past t0 h]

theorem getFout_outFall_ne {o k : Nat} (h : k ≠ o) (x : Nat) (s : State) : getFout (outFall o x s) k = getFout s k := by
  by_cases stays : staysAt s o x
  · rw [outFall_stays stays]
  · simp only [staysAt, not_or, not_exists, not_and, Nat.not_lt, Bool.not_eq_false, Bool.not_eq_true] at stays
    obtain ⟨high, idle, past⟩ := stays
    rw [outFall_falls high past idle]
    exact getFout_modFout_ne o k _ s h.symm

theorem getFout_outFall_stays {s : State} {o x : Nat} (h : staysAt s o x) (k : Nat) : getFout (outFall k x s) o = getFout s o := by
  by_cases hk : o = k
  · subst hk; rw [outFall_stays h]
  · exact getFout_outFall_ne hk x s

/-- Whether an output stays depends on itself and on the channels. -/
theorem staysAt_congr {s t : State} {o x : Nat} (out : getFout t o = getFout s o) (flint : t.flint = s.flint) :
    staysAt t o x ↔ staysAt s o x := by
  simp only [staysAt, out, contribution_of_flint flint]

theorem mayRise_congr {s t : State} (rules : SameFlintRules s t) {o : Nat} (out : getFout t o = getFout s o) (x : Nat) :
    mayRise t o x ↔ mayRise s o x := by
  simp only [mayRise, rules.elapsed, rules.outEn, out]

theorem risen_congr {s t : State} (rules : SameFlintRules s t) {o : Nat} (out : getFout t o = getFout s o) (x : Nat) :
    risen t o x = risen s o x := by
  simp only [risen, rules.elapsed, rules.flSeam, out]

theorem outRise_bars {s : State} {o x : Nat} (h : ¬ mayRise s o x) : outRise o x s = s := by
  refine if_neg fun rises => h ?_
  simp only [Bool.and_eq_true, Bool.not_eq_true', Bool.and_eq_false_iff, decide_eq_false_iff_not] at rises
  obtain ⟨⟨⟨enabled, low⟩, past⟩, free⟩ := rises
  refine ⟨enabled, low, fun t0 e => ?_, fun seam => free.resolve_left fun n => n seam⟩
  simpa [e] using past

/-- The slots for which a rise of output `o` holds it off (R123). -/
def holdoffOf (s : State) (o : Nat) : Nat := if o < 6 then fld (flSeam s o s.pw.elapsed) 0 8 else 0

theorem outRise_rises {s : State} {o x : Nat} (h : mayRise s o x) : outRise o x s = modFout o (fun f => { f with
    high := true, t0 := some x, latch := f.latch || decide (holdoffOf s o ≠ 0),
    slot := if holdoffOf s o ≠ 0 then s.pw.elapsed + holdoffOf s o + 1 else f.slot }) s := by
  obtain ⟨enabled, low, past, free⟩ := h
  have clear : (decide (o < 6) && (getFout s o).latch) = false := by
    by_cases seam : o < 6 <;> simp [seam, free]
  refine Eq.trans (if_pos ?_) ?_
  · cases h : (getFout s o).t0 with
    | none => simp [enabled, low, clear]
    | some t0 => simp [enabled, low, clear, past t0 h]
  · by_cases seam : o < 6
    · simp [seam, holdoffOf]
    · simp [seam, holdoffOf]

theorem getFout_outRise {s : State} {o x : Nat} (h : mayRise s o x) (ho : o < s.fout.length) : getFout (outRise o x s) o = risen s o x := by
  rw [outRise_rises h, getFout_modFout o _ s ho, risen]
  by_cases seam : o < 6
  · by_cases hold : fld (flSeam s o s.pw.elapsed) 0 8 = 0
    · simp [seam, holdoffOf, hold]
    · simp [seam, holdoffOf, hold]
  · simp [seam, holdoffOf]

theorem getFout_outRise_ne {o k : Nat} (h : k ≠ o) (x : Nat) (s : State) : getFout (outRise o x s) k = getFout s k := by
  by_cases rises : mayRise s o x
  · rw [outRise_rises rises]
    exact getFout_modFout_ne o k _ s h.symm
  · rw [outRise_bars rises]

theorem not_mayRise_of_high {s : State} {o x : Nat} (h : (getFout s o).high = true) : ¬ mayRise s o x := by
  rintro ⟨_, low, _⟩
  simp [h] at low

theorem length_outRise (o x : Nat) (s : State) : (outRise o x s).fout.length = s.fout.length := congrArg Skel.nFout (skel_outRise o x s)

section
variable {s : State} {c x : Nat}

theorem getFout_bothRise_bars {o : Nat} (h : ¬ mayRise s o x) : getFout (bothRise c x s) o = getFout s o := by
  have rises (k : Nat) (v : State) (rules : SameFlintRules s v) (same : getFout v o = getFout s o) :
      getFout (outRise k x v) o = getFout s o := by
    by_cases hk : o = k
    · subst hk
      rw [outRise_bars (mt (mayRise_congr rules same x).1 h), same]
    · rw [getFout_outRise_ne hk, same]
  have first := rises (c / 64) s (sameFlintRules_of_only (.refl _ _)) rfl
  exact rises 6 _ (sameFlintRules_of_only (by simp)) first

theorem getFout_bothRise_ne {o : Nat} (hc : o ≠ c / 64) (h6 : o ≠ 6) : getFout (bothRise c x s) o = getFout s o :=
  (getFout_outRise_ne h6 x _).trans (getFout_outRise_ne hc x s)

theorem getFout_bothRise {o : Nat} (hc : c < 384) (ho : o = c / 64 ∨ o = 6) (h : mayRise s o x) (outs : s.fout.length = 7) :
    getFout (bothRise c x s) o = risen s o x := by
  have seam : c / 64 < 6 := by omega
  have rules : SameFlintRules s (outRise (c / 64) x s) := sameFlintRules_of_only (by simp)
  rcases ho with rfl | rfl
  · exact (getFout_outRise_ne (by omega) x _).trans (getFout_outRise h (by omega))
  · have same : getFout (outRise (c / 64) x s) 6 = getFout s 6 := getFout_outRise_ne (by omega) x s
    rw [← risen_congr rules same]
    exact getFout_outRise ((mayRise_congr rules same x).2 h) (by rw [length_outRise, outs]; decide)

end

/-! ### The channel -/

/-- The level of channel `c` changes at instant `x`; outputs that were only waiting for their 2.0 ns have fallen by then. -/
def levelSet (c : Nat) (uv : Int) (x : Nat) (s : State) : State :=
  modFlint c (fun f => { f with uv := uv }) (outFall 6 x (outFall (c / 64) x s))

/-- The comparator of channel `c` is judged. -/
def judged (c : Nat) (now contrib : Bool) (s : State) : State := modFlint c (fun f => { f with on := now, contrib := contrib }) s

/-- The edge of channel `c` is counted. -/
def hitCounted (c x : Nat) (s : State) : State :=
  modFlint c (fun f => { f with last := some x, hits := if s.pw.coreRun then (f.hits + 1) % 65536 else f.hits }) s

/-- The tower of channel `c` is marked in the slot's flint map, which CK_CORE clocks (R124). -/
def towerMarked (c : Nat) (s : State) : State :=
  if s.pw.coreRun then modTag (fun g => { g with flint := g.flint ||| (1 <<< (c / 16)) }) s else s

theorem leadingEdge_eq {s : State} (h : s.pw.vdda = true) (c : Nat) (uv : Int) (ps : Nat) :
    leadingEdge c uv ps s = judgeChan c (flintAt s ps) (levelSet c uv (flintAt s ps) s) := by
  simp [leadingEdge, levelSet, h]

theorem edgeEvent_merged {s : State} {c x l : Nat} (last : (getFlint s c).last = some l) (within : x < l + 4000) : edgeEvent c x s = s := by
  simp [edgeEvent, last, within]

theorem edgeEvent_counted {s : State} {c x : Nat} (past : ∀ l, (getFlint s c).last = some l → l + 4000 ≤ x) :
    edgeEvent c x s = if mayContribute (hitCounted c x s) c s.pw.elapsed then bothRise c x (towerMarked c (hitCounted c x s))
      else hitCounted c x s := by
  refine if_neg ?_
  cases h : (getFlint s c).last with
  | none => simp
  | some l => simpa using past l h

/-- An edge is merged or counted (R117). -/
theorem merged_or_counted (s : State) (c x : Nat) : (∃ l, (getFlint s c).last = some l ∧ x < l + 4000) ∨
    ∀ l, (getFlint s c).last = some l → l + 4000 ≤ x := by
  by_cases h : ∃ l, (getFlint s c).last = some l ∧ x < l + 4000
  · exact .inl h
  · exact .inr fun l e => Nat.le_of_not_lt fun within => h ⟨l, e, within⟩

theorem towerMarked_rules (c : Nat) (s : State) : Only [.orb] s (towerMarked c s) := by
  unfold towerMarked
  split
  · simp
  · exact .refl _ _

theorem bothRise_flint (c x : Nat) (s : State) : (bothRise c x s).flint = s.flint := Only.flint (M := [.fout]) (by simp)

/-- An edge writes of its channel the last counted edge and HITS only. -/
theorem edgeEvent_flint (s : State) (c x : Nat) (hc : c < s.flint.length) :
    (∃ last hits, getFlint (edgeEvent c x s) c = { getFlint s c with last := last, hits := hits }) ∧
    ∀ k, k ≠ c → getFlint (edgeEvent c x s) k = getFlint s k := by
  rcases merged_or_counted s c x with ⟨l, last, within⟩ | past
  · rw [edgeEvent_merged last within]
    exact ⟨⟨_, _, rfl⟩, fun _ _ => rfl⟩
  · have flint : (edgeEvent c x s).flint = (hitCounted c x s).flint := by
      rw [edgeEvent_counted past]
      split
      · rw [bothRise_flint, (towerMarked_rules c _).flint]
      · rfl
    simp only [getFlint, flint]
    exact ⟨⟨_, _, getFlint_modFlint c _ s hc⟩, fun k hk => getFlint_modFlint_ne c k _ s hk.symm⟩

/-- The outputs of the channel that may not rise, and every other output, stay as they are at an edge. -/
theorem edgeEvent_fout {s : State} {c x o : Nat} (h : ¬ mayRise s o x ∨ (o ≠ c / 64 ∧ o ≠ 6)) : getFout (edgeEvent c x s) o = getFout s o := by
  rcases merged_or_counted s c x with ⟨l, last, within⟩ | past
  · rw [edgeEvent_merged last within]
  · have marked : Only [.orb, .flint] s (towerMarked c (hitCounted c x s)) :=
      Only.trans (t := hitCounted c x s) (by simp [hitCounted]) (towerMarked_rules c _).mono
    have same : getFout (towerMarked c (hitCounted c x s)) o = getFout s o := by simp only [getFout, marked.fout]
    rw [edgeEvent_counted past]
    split
    · rcases h with bars | ⟨hc, h6⟩
      · rw [getFout_bothRise_bars (mt (mayRise_congr (sameFlintRules_of_only marked.mono) same x).1 bars), same]
      · rw [getFout_bothRise_ne hc h6, same]
    · rfl

/-! ### A change of level -/

section
variable {s : State} {c x : Nat} {uv : Int} {now : Bool}

/-- Channel `c` judged at its new level, before an edge acts. -/
def edgeJudged (c : Nat) (uv : Int) (x : Nat) (now : Bool) (s : State) : State :=
  judged c now (now && mayContribute s c s.pw.elapsed) (levelSet c uv x s)

theorem only_edgeJudged : Only [.flint, .fout] s (edgeJudged c uv x now s) := by
  have h : Only [.flint, .fout] s (judged c now (now && mayContribute s c s.pw.elapsed) (levelSet c uv x s)) := by
    simp [judged, levelSet]
  exact h

theorem levelSet_flint (hc : c < s.flint.length) : getFlint (levelSet c uv x s) c = { getFlint s c with uv := uv } := by
  have fell : Only [.fout] s (outFall 6 x (outFall (c / 64) x s)) := by simp
  have inRange : c < (outFall 6 x (outFall (c / 64) x s)).flint.length := by rw [fell.flint]; exact hc
  rw [levelSet, getFlint_modFlint c _ _ inRange]
  simp only [getFlint, fell.flint]

theorem getFlint_edgeJudged (hc : c < s.flint.length) : getFlint (edgeJudged c uv x now s) c =
    { getFlint s c with uv := uv, on := now, contrib := now && mayContribute s c s.pw.elapsed } := by
  have inRange : c < (levelSet c uv x s).flint.length := by
    have same : (levelSet c uv x s).flint.length = s.flint.length :=
      congrArg Skel.nFlint (show skel (levelSet c uv x s) = skel s by simp [levelSet])
    rw [same]; exact hc
  rw [edgeJudged, judged, getFlint_modFlint c _ _ inRange, levelSet_flint hc]

theorem getFlint_edgeJudged_ne {k : Nat} (h : k ≠ c) : getFlint (edgeJudged c uv x now s) k = getFlint s k := by
  have fell : Only [.fout] s (outFall 6 x (outFall (c / 64) x s)) := by simp
  rw [edgeJudged, judged, getFlint_modFlint_ne c k _ _ h.symm, levelSet, getFlint_modFlint_ne c k _ _ h.symm]
  simp only [getFlint, fell.flint]

/-- Up to the judgement an output that does not fall, or is not the channel's, is as it was. -/
theorem getFout_edgeJudged {o : Nat} (h : staysAt s o x ∨ (o ≠ c / 64 ∧ o ≠ 6)) : getFout (edgeJudged c uv x now s) o = getFout s o := by
  show getFout (outFall 6 x (outFall (c / 64) x s)) o = getFout s o
  rcases h with stays | ⟨hc, h6⟩
  · have first := getFout_outFall_stays stays (c / 64)
    have flint : (outFall (c / 64) x s).flint = s.flint := Only.flint (M := [.fout]) (by simp)
    exact (getFout_outFall_stays ((staysAt_congr first flint).2 stays) 6).trans first
  · rw [getFout_outFall_ne h6, getFout_outFall_ne hc]

/-- The comparator's answer decides what follows: an edge, a contribution that comes up, or nothing (R116, R117, R119). -/
theorem leadingEdge_cases (hv : s.pw.vdda = true) (hc : c < s.flint.length) {ps : Nat} (hx : x = flintAt s ps)
    (hn : now = comparator (flCtl s c s.pw.elapsed) (flThr s c s.pw.elapsed) (getFlint s c).on uv) :
    leadingEdge c uv ps s =
      if now && !(getFlint s c).on then edgeEvent c x (edgeJudged c uv x now s)
      else if (now && mayContribute s c s.pw.elapsed) && !(getFlint s c).contrib then bothRise c x (edgeJudged c uv x now s)
      else edgeJudged c uv x now s := by
  have set : Only [.flint, .fout] s (levelSet c uv x s) := by simp [levelSet]
  have rules := sameFlintRules_of_only (s := s) (t := levelSet c uv x s) set.mono
  have flint : getFlint (levelSet c uv x s) c = { getFlint s c with uv := uv } := levelSet_flint hc
  have may : mayContribute (levelSet c uv x s) c s.pw.elapsed = mayContribute s c s.pw.elapsed := rules.mayContribute (by rw [flint]) _
  rw [leadingEdge_eq hv, ← hx, judgeChan]
  simp only [rules.elapsed, rules.flCtl, rules.flThr, flint, may, ← hn]
  rfl

/-- Once judged, the channel changes at most its last counted edge and HITS, and no other channel changes. -/
theorem leadingEdge_flint (hv : s.pw.vdda = true) (hc : c < s.flint.length) {ps : Nat} (hx : x = flintAt s ps)
    (hn : now = comparator (flCtl s c s.pw.elapsed) (flThr s c s.pw.elapsed) (getFlint s c).on uv) :
    (∃ last hits, getFlint (leadingEdge c uv ps s) c = { getFlint s c with
      uv := uv, on := now, contrib := now && mayContribute s c s.pw.elapsed, last := last, hits := hits }) ∧
    ∀ k, k ≠ c → getFlint (leadingEdge c uv ps s) k = getFlint s k := by
  have inRange : c < (edgeJudged c uv x now s).flint.length := by
    have same : (edgeJudged c uv x now s).flint.length = s.flint.length :=
      congrArg Skel.nFlint (show skel (edgeJudged c uv x now s) = skel s by simp [edgeJudged, judged, levelSet])
    rw [same]; exact hc
  have own := getFlint_edgeJudged (x := x) (uv := uv) (now := now) hc
  have others (k : Nat) (hk : k ≠ c) := getFlint_edgeJudged_ne (s := s) (x := x) (uv := uv) (now := now) hk
  rw [leadingEdge_cases hv hc hx hn]
  split_ifs
  · obtain ⟨⟨last, hits, edge⟩, rest⟩ := edgeEvent_flint (edgeJudged c uv x now s) c x inRange
    exact ⟨⟨last, hits, by rw [edge, own]⟩, fun k hk => (rest k hk).trans (others k hk)⟩
  · simp only [getFlint, bothRise_flint] at own others ⊢
    exact ⟨⟨_, _, own⟩, others⟩
  · exact ⟨⟨_, _, own⟩, others⟩

/-- An output that is high and does not fall, and every output but the channel's two, stays as it is. -/
theorem leadingEdge_fout (hv : s.pw.vdda = true) (hc : c < s.flint.length) {ps : Nat} (hx : x = flintAt s ps)
    (hn : now = comparator (flCtl s c s.pw.elapsed) (flThr s c s.pw.elapsed) (getFlint s c).on uv) {o : Nat}
    (h : ((getFout s o).high = true ∧ staysAt s o x) ∨ (o ≠ c / 64 ∧ o ≠ 6)) : getFout (leadingEdge c uv ps s) o = getFout s o := by
  have before : getFout (edgeJudged c uv x now s) o = getFout s o := getFout_edgeJudged (h.imp_left And.right)
  have after : ¬ mayRise (edgeJudged c uv x now s) o x ∨ (o ≠ c / 64 ∧ o ≠ 6) :=
    h.imp_left fun high => not_mayRise_of_high (by rw [before]; exact high.1)
  rw [leadingEdge_cases hv hc hx hn]
  split_ifs
  · rw [edgeEvent_fout after, before]
  · rcases after with bars | ⟨hs, h6⟩
    · rw [getFout_bothRise_bars bars, before]
    · rw [getFout_bothRise_ne hs h6, before]
  · exact before

/-- No edge: the channel was above already, or is not above now. -/
theorem leadingEdge_noEdge (hv : s.pw.vdda = true) (hc : c < s.flint.length) {ps : Nat} (hx : x = flintAt s ps)
    (hn : now = comparator (flCtl s c s.pw.elapsed) (flThr s c s.pw.elapsed) (getFlint s c).on uv)
    (h : (getFlint s c).on = true ∨ now = false) :
    (getFlint (leadingEdge c uv ps s) c).last = (getFlint s c).last ∧ (getFlint (leadingEdge c uv ps s) c).hits = (getFlint s c).hits ∧
      (leadingEdge c uv ps s).orb = s.orb := by
  have own := getFlint_edgeJudged (x := x) (uv := uv) (now := now) hc
  have orb : (edgeJudged c uv x now s).orb = s.orb := only_edgeJudged.orb
  have none : (now && !(getFlint s c).on) = false := by rcases h with h | h <;> simp [h]
  rw [leadingEdge_cases hv hc hx hn, none]
  simp only [Bool.false_eq_true, if_false]
  split_ifs
  · have orb' : (bothRise c x (edgeJudged c uv x now s)).orb = (edgeJudged c uv x now s).orb := Only.orb (M := [.fout]) (by simp)
    rw [orb', orb]
    simp only [getFlint, bothRise_flint] at own ⊢
    simp only [own, and_self]
  · simp only [own, orb, and_self]

section
variable (hv : s.pw.vdda = true) (hc : c < s.flint.length) {ps : Nat} (hx : x = flintAt s ps)
  (hn : true = comparator (flCtl s c s.pw.elapsed) (flThr s c s.pw.elapsed) (getFlint s c).on uv) (was : (getFlint s c).on = false)
include hv hc hx hn was

theorem leadingEdge_edge : leadingEdge c uv ps s = edgeEvent c x (edgeJudged c uv x true s) := by
  rw [leadingEdge_cases hv hc hx hn, was]
  rfl

/-- An edge less than 4.0 ns after the last counted one is merged (R117). -/
theorem leadingEdge_merged {l : Nat} (last : (getFlint s c).last = some l) (within : x < l + 4000) :
    (getFlint (leadingEdge c uv ps s) c).last = some l ∧ (getFlint (leadingEdge c uv ps s) c).hits = (getFlint s c).hits ∧
      (leadingEdge c uv ps s).orb = s.orb ∧ ∀ o : Fin 7, (getFout s o).high = false → getFout (leadingEdge c uv ps s) o = getFout s o := by
  have own := getFlint_edgeJudged (x := x) (uv := uv) (now := true) hc
  rw [leadingEdge_edge hv hc hx hn was, edgeEvent_merged (by rw [own]; exact last) within, own]
  exact ⟨last, rfl, only_edgeJudged.orb, fun o low => getFout_edgeJudged (.inl (.inl low))⟩

/-- Any other edge is counted, marks its tower and raises what may rise (R117, R119, R120, R123, R124). -/
theorem leadingEdge_counted (h384 : c < 384) (outs : s.fout.length = 7) (past : ∀ l, (getFlint s c).last = some l → l + 4000 ≤ x) :
    (getFlint (leadingEdge c uv ps s) c).last = some x ∧
      (getFlint (leadingEdge c uv ps s) c).hits = (if s.pw.coreRun then ((getFlint s c).hits + 1) % 65536 else (getFlint s c).hits) ∧
      (s.pw.coreRun = true → mayContribute s c s.pw.elapsed = true → s.orb.tags ≠ [] →
        (tagHead (leadingEdge c uv ps s)).flint = (tagHead s).flint ||| (1 <<< (c / 16))) ∧
      (mayContribute s c s.pw.elapsed = true → ∀ o : Nat, o = c / 64 ∨ o = 6 →
        (mayRise s o x → getFout (leadingEdge c uv ps s) o = risen s o x) ∧
        ((getFout s o).high = false → ¬ mayRise s o x → getFout (leadingEdge c uv ps s) o = getFout s o)) := by
  have own := getFlint_edgeJudged (x := x) (uv := uv) (now := true) hc
  have only := only_edgeJudged (s := s) (c := c) (x := x) (uv := uv) (now := true)
  have out (o : Nat) (low : (getFout s o).high = false) : getFout (edgeJudged c uv x true s) o = getFout s o :=
    getFout_edgeJudged (.inl (.inl low))
  have size : (edgeJudged c uv x true s).flint.length = s.flint.length ∧ (edgeJudged c uv x true s).fout.length = s.fout.length := by
    have same : skel (edgeJudged c uv x true s) = skel s := by simp [edgeJudged, judged, levelSet]
    exact ⟨congrArg Skel.nFlint same, congrArg Skel.nFout same⟩
  rw [leadingEdge_edge hv hc hx hn was]
  generalize edgeJudged c uv x true s = w at own only out size ⊢
  have hit : getFlint (hitCounted c x w) c = { getFlint w c with
      last := some x, hits := if w.pw.coreRun then ((getFlint w c).hits + 1) % 65536 else (getFlint w c).hits } :=
    getFlint_modFlint c _ w (by rw [size.1]; exact hc)
  have hitOnly : Only [.flint] w (hitCounted c x w) := by simp [hitCounted]
  have rules := sameFlintRules_of_only (only.mono.trans hitOnly.mono : Only [.orb, .flint, .fout] s (hitCounted c x w))
  have may : mayContribute (hitCounted c x w) c w.pw.elapsed = mayContribute s c s.pw.elapsed := by
    rw [only.pw]
    exact rules.mayContribute (by rw [hit, own]) _
  have marked : Only [.orb] (hitCounted c x w) (towerMarked c (hitCounted c x w)) := towerMarked_rules c _
  have counted := edgeEvent_counted (s := w) (c := c) (x := x) (by rw [own]; exact past)
  rw [may] at counted
  have flint : (edgeEvent c x w).flint = (hitCounted c x w).flint := by
    rw [counted]
    split
    · rw [bothRise_flint, marked.flint]
    · rfl
  refine ⟨?_, ?_, fun run contributes tags => ?_, fun contributes o ho => ?_⟩
  · simp only [getFlint, flint] at hit ⊢
    rw [hit]
  · simp only [getFlint, flint] at hit own ⊢
    rw [hit, own, only.pw]
  · have orb : (bothRise c x (towerMarked c (hitCounted c x w))).orb = (towerMarked c (hitCounted c x w)).orb := Only.orb (M := [.fout]) (by simp)
    rw [counted, if_pos contributes, tagHead, orb, towerMarked, hitOnly.pw, only.pw, run, if_pos rfl]
    simp only [modTag, hitOnly.orb, only.orb, tagHead]
    cases h : s.orb.tags with
    | nil => exact absurd h tags
    | cons g t => simp
  · have ready : Only [.orb, .flint, .fout] s (towerMarked c (hitCounted c x w)) :=
      (only.mono.trans hitOnly.mono).trans marked.mono
    have fout : (towerMarked c (hitCounted c x w)).fout = w.fout := by rw [marked.fout, hitOnly.fout]
    have same (low : (getFout s o).high = false) : getFout (towerMarked c (hitCounted c x w)) o = getFout s o := by
      simp only [getFout, fout] at out ⊢
      exact out o low
    rw [counted, if_pos contributes]
    refine ⟨fun rises => ?_, fun low bars => ?_⟩
    · have eq := same rises.2.1
      rw [getFout_bothRise h384 ho ((mayRise_congr (sameFlintRules_of_only ready) eq x).2 rises) (by rw [fout, size.2, outs]),
        risen_congr (sameFlintRules_of_only ready) eq]
    · rw [getFout_bothRise_bars (mt (mayRise_congr (sameFlintRules_of_only ready) (same low) x).1 bars), same low]

end

end

/-! ### The commands -/

theorem exec_flintLevel {s : State} (hp : s.pw.por = false) (c : Fin 384) (uv rest : Int) (ps : Nat) :
    exec (.flintLeadingEdge c uv ps 0 rest) s = .next (leadingEdge c uv ps s) := congrArg _ (running_eq _ hp)

theorem exec_flintPulse {s : State} (hp : s.pw.por = false) (c : Fin 384) (uv rest : Int) (ps : Nat) {tot : Nat} (h : 0 < tot) :
    exec (.flintLeadingEdge c uv ps tot rest) s = .next (leadingEdge c rest (ps + tot) (leadingEdge c uv ps s)) :=
  congrArg Host.Outcome.next ((running_eq _ hp).trans (if_neg h.ne'))

theorem exec_flintOutputFall {s : State} (hp : s.pw.por = false) (hv : s.pw.vdda = true) (o : Fin 7) (ps : Nat) :
    exec (.flintOutputFall o ps) s = .next (outFall o (flintAt s ps) s) :=
  congrArg Host.Outcome.next ((running_eq _ hp).trans (if_pos hv))

/-- Settles O28: the level is judged once (`leadingEdge_cases`), after the outputs that were due have fallen; what follows is no edge,
a merged one or a counted one, and each leaves the other channels and outputs alone. -/
theorem flintEdgesAndOutputs : Obligations.FlintEdgesAndOutputs := by
  intro s hp shaped hv
  refine ⟨fun c uv rest ps x was now hx hw hn => ⟨_, exec_flintLevel hp c uv rest ps, ?_⟩, fun c uv rest ps tot pulse => ?_,
    fun o ps high past idle => ?_⟩
  · have hc : c.val < s.flint.length := by rw [shaped.flint]; exact c.isLt
    subst hw
    obtain ⟨⟨last, hits, own⟩, others⟩ := leadingEdge_flint hv hc hx hn
    refine ⟨by simp, by rw [own], by rw [own], by rw [own], by rw [own], others, leadingEdge_noEdge hv hc hx hn,
      fun was above l recent within => ?_, fun was above past => ?_, fun o high stays => ?_, fun o seam all => ?_⟩
    · subst above
      exact leadingEdge_merged hv hc hx hn was recent within
    · subst above
      exact leadingEdge_counted hv hc hx hn was c.isLt shaped.fout past
    · exact leadingEdge_fout hv hc hx hn (.inl ⟨high, .inr stays⟩)
    · exact leadingEdge_fout hv hc hx hn (.inr ⟨seam, all⟩)
  · have held : (leadingEdge c uv ps s).pw.por = false := by
      have pw : (leadingEdge c uv ps s).pw = s.pw := Only.pw (M := [.orb, .flint, .fout]) (by simp)
      rw [pw, hp]
    exact ⟨_, _, exec_flintLevel hp c uv 0 ps, exec_flintLevel held c rest 0 (ps + tot), exec_flintPulse hp c uv rest ps pulse⟩
  · rw [exec_flintOutputFall hp hv, outFall_falls high past idle]

end Sys2Proof.Machine
end

section
/-! Word accesses of the masters (R334–R336, R342–R345, R357): what each kind of access leaves of the register fabric. -/

namespace Sys2Proof.Machine

/-! ### What an access writes beside its effect -/

/-- The words in force, the buffered words and the number of masters stand: page headers, notices and masters' records may differ. -/
structure Noted (s t : State) : Prop where
  only : Only [.fab] s t
  regs : t.fab.regs = s.fab.regs
  buf  : t.fab.buf = s.fab.buf
  four : t.fab.masters.length = s.fab.masters.length

namespace Noted

theorem trans {s t u : State} (h : Noted s t) (k : Noted t u) : Noted s u where
  only := h.only.trans k.only
  regs := k.regs.trans h.regs
  buf := k.buf.trans h.buf
  four := k.four.trans h.four

theorem of_told {P : List Nat} {s t : State} (only : Only [.fab] s t) (h : Told P s t) : Noted s t := ⟨only, h.regs, h.buf, by rw [h.masters]⟩

theorem modMaster (m : Master) (f : MasterSt → MasterSt) (s : State) : Noted s (modMaster m f s) :=
  ⟨by simp, rfl, rfl, List.length_modify ..⟩

theorem of_access {s t : State} (h : Access s t) (four : t.fab.masters = s.fab.masters) : Noted s t where
  only := by rw [h.rest]; exact (only_mk_fab s s _).2 (.refl _ _)
  regs := by rw [h.rest]
  buf := by rw [h.rest]
  four := by rw [four]

end Noted

theorem told_count01 (i : Nat) (s : State) : Told [0x01, 0x7C] s (count01 i s) := (told_count s (by decide) i (by decide)).ite (.refl s)

theorem noted_count01 (i : Nat) (s : State) : Noted s (count01 i s) := .of_told (by simp) (told_count01 i s)

theorem noted_refuseAt (m : Master) (a cause : Nat) (s : State) : Noted s (refuseAt m a cause s) :=
  (Noted.of_told (by simp) (told_refuse s (List.mem_singleton.2 rfl) (a / 0x1000) cause a)).trans (.modMaster m _ _)

theorem told_count00 (i : Nat) (s : State) : Told [0x00, 0x7C] s (count 0x00 i s) := told_count s (by decide) i (by decide)

theorem lostAccess_eq (a : Nat) (s : State) : lostAccess a s =
    if a % 4 = 0 then count 0x00 (if isAssigned (a / 0x1000) then 0 else 1) s
    else count01 0 (count 0x00 (if isAssigned (a / 0x1000) then 0 else 1) s) := rfl

theorem noted_lostAccess (a : Nat) (s : State) : Noted s (lostAccess a s) := by
  rw [lostAccess_eq]
  generalize (if isAssigned (a / 0x1000) then 0 else 1) = i
  have counted : Noted s (count 0x00 i s) := .of_told (by simp) (told_count00 i s)
  split
  · exact counted
  · exact counted.trans (noted_count01 0 _)

theorem Told.getMaster {P : List Nat} {s t : State} (h : Told P s t) (m : Master) : getMaster t m = getMaster s m := by
  unfold Machine.getMaster
  rw [h.masters]

theorem Told.openGuard {P : List Nat} {s t : State} (h : Told P s t) (m : Master) (p : Nat) : openGuard t m p = openGuard s m p := by
  unfold Machine.openGuard
  rw [h.getMaster]

section
variable {s : State} (four : s.fab.masters.length = 4)
include four

theorem cause_refuseAt (m : Master) (a cause : Nat) : (getMaster (refuseAt m a cause s) m).cause = cause := by
  unfold refuseAt
  rw [getMaster_modMaster m _ _ (by rw [(told_refuse s (List.mem_singleton.2 rfl) _ _ _).masters]; exact four)]

theorem openGuard_refuseAt (m : Master) (a cause p : Nat) : openGuard (refuseAt m a cause s) m p = openGuard s m p := by
  have told := told_refuse s (List.mem_singleton.2 rfl) (a / 0x1000) cause a
  unfold openGuard refuseAt
  rw [getMaster_modMaster m _ _ (by rw [told.masters]; exact four), told.getMaster]

theorem openGuard_dropGuard (m : Master) (p : Nat) : openGuard (dropGuard m p s) m p = none := by
  unfold openGuard dropGuard
  rw [getMaster_modMaster m _ _ four, List.find?_eq_none]
  intro g hg
  simpa using (List.mem_filter.1 hg).2

end

theorem pageSt_refuseAt_posted (m : Master) (a cause : Nat) {s : State} (keys : keysFrom 0 s.fab.pages = true) (p : Nat) :
    (pageSt (refuseAt m a cause s) p).posted = (pageSt s p).posted :=
  (told_refuse s (List.mem_singleton.2 rfl) (a / 0x1000) cause a).posted keys p

/-! ### The commands -/

section
variable {s : State} (hp : s.pw.por = false)
include hp

theorem exec_registerWrite (m : Master) (a : Addr) (v : Word) :
    exec (.registerWrite m a v) s = .next (fabWrite m a.toNat v.toNat s) := congrArg Host.Outcome.next (running_eq _ hp)

theorem exec_postedWriteEffect (p : Byte) : exec (.postedWriteEffect p) s = .next (postedEffect p.toNat s) :=
  congrArg Host.Outcome.next (running_eq _ hp)

theorem exec_guardComplementWrite (m : Master) (a : Addr) (v : Word) :
    exec (.guardComplementWrite m a v) s = .next (rowWrite m a.toNat v.toNat s) := congrArg Host.Outcome.next (running_eq _ hp)

theorem exec_captureLowRead (m : Master) (a : Addr) : exec (.captureLowRead m a) s = .next (fabRead m a.toNat s) :=
  congrArg Host.Outcome.next (running_eq _ hp)

theorem exec_captureHighRead (m : Master) (a : Addr) : exec (.captureHighRead m a) s = .next (fabRead m a.toNat s) :=
  congrArg Host.Outcome.next (running_eq _ hp)

end

/-! ### Accesses that have no effect -/

section
variable {s : State} {m : Master} {a : Nat}

theorem fabWrite_lost (v : Nat) (h : pageRuns s (a / 0x1000) = false) : fabWrite m a v s = lostAccess a (beginAccess m s) := by
  have lost : pageRuns (beginAccess m s) (a / 0x1000) = false := h
  simp [fabWrite, lost]

theorem Canonical.beginAccess (h : Canonical s) (m : Master) : Canonical (beginAccess m s) := { h with }

/-- A lost access counts under NO_CLOCK or NO_PAGE (R16, R357). -/
theorem tallyOf_lostAccess (h : Canonical s) {k : Nat} (hk : k = if isAssigned (a / 0x1000) then 0 else 1) :
    tallyOf (lostAccess a s) 0x00 k = min 0xFF (tallyOf s 0x00 k + 1) := by
  rw [lostAccess_eq, ← hk]
  split
  · exact h.tallyOf_count k (by decide)
  · exact ((told_count01 0 _).tallies ((told_count00 k s).keys h.pages) 0x00 k (by decide)).trans (h.tallyOf_count k (by decide))

theorem fabWrite_serves (h : Serves s m (a / 0x1000)) (v : Nat) : fabWrite m a v s =
    if a % 4 ≠ 0 then alignRefused m a (beginAccess m s) else servedWrite m (a / 0x1000) (a % 0x1000) v (beginAccess m s) := by
  have begun := serves_beginAccess h
  have own : ownPosted m (a / 0x1000) (beginAccess m s) = beginAccess m s := ownPosted_idle begun.idle
  simp [fabWrite, begun.runs, own]

theorem alignRefused_serves (h : Serves s m (a / 0x1000)) : alignRefused m a s = count01 0 (refuseAt m a 0x05 s) := by
  unfold alignRefused
  rw [breakGuard_none h.guard]

theorem noted_beginAccess (m : Master) (s : State) : Noted s (beginAccess m s) := .modMaster m _ s

/-! ### Served writes -/

theorem addrOf_split (a : Nat) : addrOf (a / 0x1000) (a % 0x1000) = a := by unfold addrOf; omega

theorem fabWrite_plain {v : Nat} (h : Serves s m (a / 0x1000)) (h4 : a % 0x1000 % 4 = 0) (hg : isGuarded (a / 0x1000) (a % 0x1000) = false)
    (hc : ¬ (0x800 ≤ a % 0x1000 ∧ isGuarded (a / 0x1000) (a % 0x1000 - 0x800) = true))
    (hf : (regForm (a / 0x1000) (a % 0x1000)).isSome = true) (hr : writeRefusal s (a / 0x1000) (a % 0x1000) v = none) :
    fabWrite m a v s = acceptWrite m (a / 0x1000) (a % 0x1000) v (beginAccess m s) := by
  have aligned : ¬ a % 4 ≠ 0 := by omega
  rw [fabWrite_serves h, if_neg aligned, servedWrite_plain (serves_beginAccess h) (Nat.mod_lt _ (by decide)) hg hc hf hr]

end

/-- The guarded words stand at aligned offsets of the lower half of their pages, and each is a register (R364). -/
theorem isGuarded_word {p o : Nat} (h : isGuarded p o = true) : (regForm p o).isSome = true ∧ o % 4 = 0 ∧ o < 0x800 := by
  simp only [isGuarded, List.contains_eq_mem, decide_eq_true_eq, List.mem_cons, List.not_mem_nil, or_false, Prod.mk.injEq] at h
  rcases h with ⟨rfl, rfl⟩ | ⟨rfl, rfl⟩ | ⟨rfl, rfl⟩ | ⟨rfl, rfl⟩ | ⟨rfl, rfl⟩ | ⟨rfl, rfl⟩ | ⟨rfl, rfl⟩ <;> decide

/-- A value write at a guarded word opens the master's pair there; on a CK_SUP page but 0x50 it is posted too (R344, R345). -/
theorem servedWrite_guarded {s : State} {m : Master} {p o : Nat} (h : Serves s m p) (hg : isGuarded p o = true) (v : Nat) :
    servedWrite m p o v s =
      if isSup p ∧ p ≠ 0x50 then
        acceptWrite m p o v (modMaster m (fun x => { x with guards := x.guards ++ [⟨p, o, BitVec.ofNat 32 v⟩] }) s)
      else modMaster m (fun x => { x with guards := x.guards ++ [⟨p, o, BitVec.ofNat 32 v⟩] }) s := by
  obtain ⟨form, _, low⟩ := isGuarded_word hg
  have value : ¬ (0x800 ≤ o ∧ isGuarded p (o - 0x800) = true) := fun c => by omega
  have unbroken : breakGuard m (addrOf p o) s = s := breakGuard_none (by rw [addr_page p o (by omega)]; exact h.guard)
  have listed : (regForm p o).isNone = false := by rw [Option.isNone_eq_false_iff]; exact form
  unfold servedWrite
  simp only [if_neg value, unbroken, listed, overrun_idle h.idle, hg, Bool.false_eq_true, if_false, if_true]

theorem openGuard_append {s : State} {m : Master} {p : Nat} (four : s.fab.masters.length = 4) (h : openGuard s m p = none) (o : Nat) (v : Word) :
    openGuard (modMaster m (fun x => { x with guards := x.guards ++ [⟨p, o, v⟩] }) s) m p = some ⟨p, o, v⟩ := by
  unfold openGuard at h ⊢
  rw [getMaster_modMaster m _ _ four, List.find?_append, h]
  simp

/-- A posted write: the page's header holds it, and nothing else changes. -/
theorem acceptWrite_sup {p : Nat} (h : isSup p = true) (m : Master) (o v : Nat) (s : State) :
    acceptWrite m p o v s = modPage p (fun x => { x with posted := some ⟨m, addrOf p o, BitVec.ofNat 32 v⟩ }) s := by simp [acceptWrite, h]

theorem noted_acceptWrite_sup {p : Nat} (h : isSup p = true) (m : Master) (o v : Nat) (s : State) : Noted s (acceptWrite m p o v s) := by
  rw [acceptWrite_sup h]
  exact ⟨by simp, rfl, rfl, rfl⟩

/-! ### The buffered words of the channel pages (R334, R339) -/

theorem ramFind_ramSet {α : Type} (m : Ram α) (a : Nat) (x : α) : ramFind (ramSet m a x) a = some x := by
  induction m with
  | nil => simp [ramSet, ramFind]
  | cons e m ih =>
    obtain ⟨k, v⟩ := e
    unfold ramSet
    split_ifs with below hit
    · simp [ramFind]
    · simp [ramFind, hit]
    · simpa [ramFind, hit] using ih

theorem regs_cutoffNow (s : State) : (cutoffNow s).fab.regs = s.fab.regs := by
  unfold cutoffNow
  split <;> rfl

theorem regs_bufWrite (p o v : Nat) (s : State) : (bufWrite p o v s).fab.regs = s.fab.regs := regs_cutoffNow s

theorem bufGet_bufWrite (p o : Nat) {v : Nat} (s : State) (h : v < 2 ^ 32) : bufGet (bufWrite p o v s) p o = v := by
  have pending : ramFind (bufWrite p o v s).fab.buf (p * 0x1000 + o) = some (triOf v) := ramFind_ramSet _ _ _
  unfold bufGet
  rw [pending]
  simp only [vote_triOf, BitVec.toNat_ofNat]
  exact Nat.mod_eq_of_lt h

section
variable {p o : Nat} (hp : pgIn p 0x10 0x1B = true)
include hp

theorem pgIn_chan : 0x10 ≤ p ∧ p ≤ 0x1B := by simpa [pgIn] using hp

theorem ownWrite_chan : ownWrite p o = false := by
  obtain ⟨lo, hi⟩ := pgIn_chan hp
  unfold ownWrite pgIn
  simp
  omega

/-- The words of a channel's block are no commands. -/
theorem sideEffect_chan (ho : 0x040 ≤ o) (m : Master) (v : Nat) (s : State) : sideEffect m p o v s = s := by
  obtain ⟨lo, hi⟩ := pgIn_chan hp
  have seam : ¬ pgIn p 0x34 0x39 = true := by simp [pgIn]; omega
  have lanes : ¬ (pgIn p 0x48 0x49 = true ∧ o = 0x040) := fun c => by simp [pgIn] at c; omega
  unfold sideEffect
  simp (disch := omega) only [if_neg, seam, lanes, if_false, Bool.false_eq_true]

theorem writeEffect_chan (ho : 0x040 ≤ o) {f : RegForm} (hf : regForm p o = some f) (hw : f.rw = 0) (hb : f.rb ≠ 0) (m : Master) (v : Nat)
    (s : State) : writeEffect m p o v s = bufWrite p o (v &&& (f.rb ||| f.gd)) s := by
  have buffered : ¬ (f.rb ||| f.gd = 0) := fun e => hb (Nat.or_eq_zero_iff.1 e).1
  simp [writeEffect, ownWrite_chan hp, hf, hw, buffered, sideEffect_chan hp ho]

end

/-! ### Posted writes that take effect in the step that posts them (R342, R343) -/

/-- Posting a write and clearing it again leaves every header as it was. -/
theorem access_post_clear {s : State} (keys : keysFrom 0 s.fab.pages = true) {p : Nat} (idle : (pageSt s p).posted = none) (w : Posted) :
    Access s (modPage p (fun x => { x with posted := none }) (modPage p (fun x => { x with posted := some w }) s)) := by
  refine ⟨rfl, fun q => ?_⟩
  by_cases hq : q = p
  · subst hq
    rw [pageSt_modPage _ _ _ (keys_modPage _ _ _ keys), pageSt_modPage _ _ _ keys]
    show { pageSt s q with posted := none } = pageSt s q
    rw [← idle]
  · rw [pageSt_modPage_ne _ _ _ _ (keys_modPage _ _ _ keys) hq, pageSt_modPage_ne _ _ _ _ keys hq]

/-- With no pair of the master open, a write that its page accepts has its effect before the master's next access to the page. -/
theorem ownPosted_acceptWrite {s : State} (keys : keysFrom 0 s.fab.pages = true) {m : Master} {p o : Nat} (ho : o < 0x1000)
    (idle : (pageSt s p).posted = none) (closed : openGuard s m p = none) (v : Word) :
    ∃ u, Access s u ∧ u.fab.masters = s.fab.masters ∧
      ownPosted m p (acceptWrite m p o v.toNat s) = applySup p (addrOf p o) (writeEffect m p o v.toNat u) := by
  have none_open : (getMaster s m).guards.any (fun g => g.page == p) = false := by
    rw [List.any_eq_false]
    exact List.find?_eq_none.1 closed
  cases hs : isSup p with
  | false => exact ⟨s, ⟨rfl, fun _ => rfl⟩, rfl, by simp [ownPosted, acceptWrite, applySup, hs]⟩
  | true =>
    refine ⟨_, access_post_clear keys idle ⟨m, addrOf p o, v⟩, rfl, ?_⟩
    have posted : (pageSt (modPage p (fun x => { x with posted := some ⟨m, addrOf p o, v⟩ }) s) p).posted = some ⟨m, addrOf p o, v⟩ := by
      rw [pageSt_modPage _ _ _ keys]
    rw [acceptWrite_sup hs, BitVec.ofNat_toNat, BitVec.setWidth_eq]
    unfold ownPosted
    rw [posted]
    unfold postedEffect
    rw [posted]
    have unopened : (getMaster (modPage p (fun x => { x with posted := none })
        (modPage p (fun x => { x with posted := some ⟨m, addrOf p o, v⟩ }) s)) m).guards.any (fun g => g.page == p) = false := none_open
    simp only [hs, Bool.not_true, Bool.false_eq_true, if_false, if_true, addr_off p o ho, unopened, Bool.and_false]

/-! ### The complement of a guard pair (R344, R345) -/

section
variable {s : State} {m : Master} {a p : Nat} {g : Guard} (keys : keysFrom 0 s.fab.pages = true) (four : s.fab.masters.length = 4)
  (hp : p = a / 0x1000) (runs : pageRuns s p = true) (idle : (pageSt s p).posted = none) (ho : a % 0x1000 = g.off + 0x800)
  (guarded : isGuarded p g.off = true) (opened : openGuard s m p = some g)

include hp runs idle ho guarded in
theorem fabWrite_complement (v : Nat) : fabWrite m a v s = servedWrite m p (g.off + 0x800) v (beginAccess m s) := by
  obtain ⟨_, aligned, _⟩ := isGuarded_word guarded
  subst hp
  have run : pageRuns (beginAccess m s) (a / 0x1000) = true := runs
  have own : ownPosted m (a / 0x1000) (beginAccess m s) = beginAccess m s := ownPosted_idle idle
  have even : ¬ a % 4 ≠ 0 := by omega
  unfold fabWrite
  simp only [run, own, if_neg even, Bool.not_true, Bool.false_eq_true, if_false, ho]

include opened in
theorem openGuard_beginAccess : openGuard (beginAccess m s) m p = some g := by
  rw [← opened]
  unfold openGuard
  rw [getMaster_beginAccess_guards]

include guarded in
theorem complement_place : 0x800 ≤ g.off + 0x800 ∧ isGuarded p (g.off + 0x800 - 0x800) = true := by simpa using guarded

include idle guarded opened in
/-- The ones' complement of the open pair's value has the effect of the pair. -/
theorem servedWrite_complement {v : Nat} (hv : v = 0xFFFFFFFF - g.v.toNat) (hr : writeRefusal s p g.off g.v.toNat = none) :
    servedWrite m p (g.off + 0x800) v (beginAccess m s) = acceptWrite m p g.off g.v.toNat (dropGuard m p (beginAccess m s)) := by
  have hit : g.off = g.off + 0x800 - 0x800 ∧ v = 0xFFFFFFFF - g.v.toNat := ⟨by omega, hv⟩
  have free : overrun (dropGuard m p (beginAccess m s)) m p = false := overrun_idle idle
  have allowed : writeRefusal (dropGuard m p (beginAccess m s)) p g.off g.v.toNat = none := hr
  unfold servedWrite
  simp only [if_pos (complement_place guarded), openGuard_beginAccess opened, if_pos hit, free, allowed, Bool.false_eq_true, if_false]

include guarded opened in
/-- Any other word at the complement breaks the pair. -/
theorem servedWrite_miss {v : Nat} (hv : v ≠ 0xFFFFFFFF - g.v.toNat) :
    servedWrite m p (g.off + 0x800) v (beginAccess m s) = guardBroken m (addrOf p (g.off + 0x800)) (beginAccess m s) := by
  have miss : ¬ (g.off = g.off + 0x800 - 0x800 ∧ v = 0xFFFFFFFF - g.v.toNat) := fun c => hv c.2
  unfold servedWrite
  simp only [if_pos (complement_place guarded), openGuard_beginAccess opened, if_neg miss]

end

theorem complement_iff (v g : Word) : v.toNat = 0xFFFFFFFF - g.toNat ↔ v = ~~~ g := by
  rw [← BitVec.toNat_inj, BitVec.toNat_not]

theorem noted_dropGuard (m : Master) (p : Nat) (s : State) : Noted s (dropGuard m p s) := .modMaster m _ s

theorem noted_guardBroken (m : Master) (a : Nat) (s : State) : Noted s (guardBroken m a s) :=
  ((noted_dropGuard m _ s).trans (noted_refuseAt m a 0x03 _)).trans (noted_count01 1 _)

section
variable {s : State} (keys : keysFrom 0 s.fab.pages = true) (four : s.fab.masters.length = 4) (m : Master) (a : Nat)

include keys in
theorem posted_guardBroken (p : Nat) : (pageSt (guardBroken m a s) p).posted = (pageSt s p).posted := by
  have dropped : keysFrom 0 (dropGuard m (a / 0x1000) s).fab.pages = true := keys
  have refused := told_refuse (P := [0x7C]) (dropGuard m (a / 0x1000) s) (by decide) (a / 0x1000) 0x03 a
  have named : keysFrom 0 (refuseAt m a 0x03 (dropGuard m (a / 0x1000) s)).fab.pages = true := refused.keys dropped
  exact ((told_count01 1 _).posted named p).trans (refused.posted dropped p)

include four in
theorem openGuard_guardBroken : openGuard (guardBroken m a s) m (a / 0x1000) = none := by
  have dropped : (dropGuard m (a / 0x1000) s).fab.masters.length = 4 := (noted_dropGuard m _ s).four.trans four
  unfold guardBroken
  rw [(told_count01 1 _).openGuard, openGuard_refuseAt dropped, openGuard_dropGuard four]

include four in
theorem cause_guardBroken : (getMaster (guardBroken m a s) m).cause = 3 := by
  have dropped : (dropGuard m (a / 0x1000) s).fab.masters.length = 4 := (noted_dropGuard m _ s).four.trans four
  unfold guardBroken
  rw [(told_count01 1 _).getMaster, cause_refuseAt dropped]

end

/-! ### Capture pairs (R336) -/

/-- The words of capture pairs stand at aligned offsets. -/
theorem pairLow_aligned {p o lo : Nat} (h : pairLow p o = some lo) : o % 4 = 0 := by
  have low_aligned : ∀ lows : List Nat, (∀ x ∈ lows, x % 4 = 0) →
      (if lows.contains o then some o else if 4 ≤ o ∧ lows.contains (o - 4) then some (o - 4) else none) = some lo → o % 4 = 0 := by
    intro lows aligned found
    split_ifs at found with here before
    · exact aligned o (List.contains_iff_mem.1 here)
    · have := aligned (o - 4) (List.contains_iff_mem.1 before.2)
      omega
  refine low_aligned _ ?_ h
  split_ifs <;> decide

section
variable {s : State} {m : Master} {a : Nat} (serves : Serves s m (a / 0x1000))
include serves

theorem fabRead_serves (h4 : a % 0x1000 % 4 = 0) :
    fabRead m a s = setRdata m (servedRead m (a / 0x1000) (a % 0x1000) (beginAccess m s)) := by
  have begun := serves_beginAccess serves
  have own : ownPosted m (a / 0x1000) (beginAccess m s) = beginAccess m s := ownPosted_idle begun.idle
  have aligned : a % 4 = 0 := by omega
  simp [fabRead, begun.runs, own, aligned, breakGuard_none begun.guard]

theorem fabRead_low (h : pairLow (a / 0x1000) (a % 0x1000) = some (a % 0x1000)) :
    fabRead m a s = setRdata m (readLow m (a / 0x1000) (a % 0x1000) (beginAccess m s)) := by
  rw [fabRead_serves serves (pairLow_aligned h)]
  simp [servedRead, h]

theorem fabRead_high (far : 4 ≤ a % 0x1000) (h : pairLow (a / 0x1000) (a % 0x1000) = some (a % 0x1000 - 4)) :
    fabRead m a s = setRdata m (readHigh m (a / 0x1000) (a % 0x1000) (beginAccess m s)) := by
  have other : ¬ a % 0x1000 - 4 = a % 0x1000 := by omega
  rw [fabRead_serves serves (pairLow_aligned h)]
  simp only [servedRead, h, if_neg other]

end

theorem noted_setRdata (m : Master) (r : Nat × State) : Noted r.2 (setRdata m r) := .modMaster m _ _

section
variable {s : State} (four : s.fab.masters.length = 4) (m : Master)
include four

theorem getMaster_beginAccess : getMaster (beginAccess m s) m = { getMaster s m with cause := 0 } := getMaster_modMaster m _ s four

theorem getMaster_setRdata (x : Nat) : getMaster (setRdata m (x, s)) m = { getMaster s m with rdata := BitVec.ofNat 32 x } :=
  getMaster_modMaster m _ s four

theorem getMaster_readLow (p o : Nat) : getMaster (readLow m p o s).2 m =
    { getMaster s m with shadow := BitVec.ofNat 64 (pairValue s p o), fresh := true, stale := false, pair := addrOf p o } :=
  getMaster_modMaster m _ s four

end

theorem noted_readLow (m : Master) (p o : Nat) (s : State) : Noted s (readLow m p o s).2 := .modMaster m _ s

theorem readHigh_fresh {s : State} {m : Master} {p o : Nat} (h : (getMaster s m).fresh = true ∧ (getMaster s m).pair = addrOf p (o - 4)) :
    readHigh m p o s = ((getMaster s m).shadow.toNat / 2 ^ 32, modMaster m (fun x => { x with fresh := false }) s) := by
  simp [readHigh, h]

theorem readHigh_stale {s : State} {m : Master} {p o : Nat} (h : ¬ ((getMaster s m).fresh = true ∧ (getMaster s m).pair = addrOf p (o - 4))) :
    readHigh m p o s = ((getMaster s m).shadow.toNat / 2 ^ 32, count01 4 (modMaster m (fun x => { x with stale := true }) s)) := by
  have missed : ((getMaster s m).fresh && decide ((getMaster s m).pair = addrOf p (o - 4))) = false := by simpa using h
  simp only [readHigh, missed, Bool.false_eq_true, if_false]

/-! ### The masters' accesses -/

section
variable {s : State} {m : Master} (hp : s.pw.por = false) (shaped : Shaped s) (canon : Canonical s)

include hp canon in
theorem registerWrite_lost {a : Addr} (v : Word) (stopped : pageRuns s (a.toNat / 0x1000) = false) :
    ∃ u, exec (.registerWrite m a v) s = .next u ∧ Only [.fab] s u ∧ u.fab.regs = s.fab.regs ∧ u.fab.buf = s.fab.buf ∧
      ∀ k, k = (if isAssigned (a.toNat / 0x1000) then 0 else 1) → tallyOf u 0x00 k = min 0xFF (tallyOf s 0x00 k + 1) := by
  have noted := (noted_beginAccess m s).trans (noted_lostAccess a.toNat _)
  refine ⟨_, (exec_registerWrite hp m a v).trans (congrArg _ (fabWrite_lost _ stopped)), noted.only, noted.regs, noted.buf, fun k hk => ?_⟩
  exact tallyOf_lostAccess (canon.beginAccess m) hk

include hp shaped in
theorem registerWrite_unaligned {a : Addr} (v : Word) (serves : Serves s m (a.toNat / 0x1000)) (odd : a.toNat % 4 ≠ 0) :
    ∃ u, exec (.registerWrite m a v) s = .next u ∧ Only [.fab] s u ∧ u.fab.regs = s.fab.regs ∧ u.fab.buf = s.fab.buf ∧
      (getMaster u m).cause = 5 := by
  have begun := noted_beginAccess m s
  have noted := (begun.trans (noted_refuseAt m a.toNat 0x05 _)).trans (noted_count01 0 _)
  have written := exec_registerWrite hp m a v
  rw [fabWrite_serves serves, if_pos odd, alignRefused_serves (serves_beginAccess serves)] at written
  refine ⟨_, written, noted.only, noted.regs, noted.buf, ?_⟩
  rw [(told_count01 0 _).getMaster, cause_refuseAt (begun.four.trans shaped.masters)]

section
variable {a : Addr} {v : Word} {p o : Nat} (hpage : p = a.toNat / 0x1000) (hoff : o = a.toNat % 0x1000) (aligned : o % 4 = 0) (serves : Serves s m p)
include hp hpage hoff aligned serves

section
variable (hg : isGuarded p o = false) (hc : ¬ (0x800 ≤ o ∧ isGuarded p (o - 0x800) = true)) (hr : writeRefusal s p o v.toNat = none)
include hg hc hr

theorem registerWrite_accepted (hf : (regForm p o).isSome = true) :
    exec (.registerWrite m a v) s = .next (acceptWrite m p o v.toNat (beginAccess m s)) := by
  subst hpage hoff
  rw [exec_registerWrite hp, fabWrite_plain serves aligned hg hc hf hr]

theorem registerWrite_core (hs : isSup p = false) {f : RegForm} (hf : regForm p o = some f) :
    exec (.registerWrite m a v) s = .next (writeEffect m p o v.toNat (beginAccess m s)) := by
  rw [registerWrite_accepted hp hpage hoff aligned serves hg hc hr (by rw [hf]; rfl)]
  simp [acceptWrite, hs]

theorem registerWrite_buffered (hs : isSup p = false) {f : RegForm} (hf : regForm p o = some f) (chan : pgIn p 0x10 0x1B = true)
    (ho : 0x040 ≤ o) (hw : f.rw = 0) (hb : f.rb ≠ 0) :
    ∃ u, exec (.registerWrite m a v) s = .next u ∧ Only [.fab, .orb, .conv] s u ∧ u.fab.regs = s.fab.regs ∧
      bufGet u p o = v.toNat &&& (f.rb ||| f.gd) := by
  have written := registerWrite_core hp hpage hoff aligned serves hg hc hr hs hf
  rw [writeEffect_chan chan ho hf hw hb] at written
  refine ⟨_, written, by simp [beginAccess], regs_bufWrite _ _ _ _, bufGet_bufWrite _ _ _ ?_⟩
  exact lt_of_le_of_lt Nat.and_le_left v.isLt

include canon in
theorem registerWrite_posted (hs : isSup p = true) (hf : (regForm p o).isSome = true) :
    ∃ u, exec (.registerWrite m a v) s = .next u ∧ Only [.fab] s u ∧ u.fab.regs = s.fab.regs ∧ u.fab.buf = s.fab.buf ∧
      (pageSt u p).posted = some ⟨m, a.toNat, v⟩ := by
  have written := registerWrite_accepted hp hpage hoff aligned serves hg hc hr hf
  have noted := (noted_beginAccess m s).trans (noted_acceptWrite_sup hs m o v.toNat _)
  refine ⟨_, written, noted.only, noted.regs, noted.buf, ?_⟩
  rw [acceptWrite_sup hs, pageSt_modPage _ _ _ (canon.beginAccess m).pages, hpage, hoff, addrOf_split, BitVec.ofNat_toNat, BitVec.setWidth_eq]

end

include shaped in
theorem registerWrite_guarded (hg : isGuarded p o = true) :
    ∃ u, exec (.registerWrite m a v) s = .next u ∧ Only [.fab] s u ∧ u.fab.regs = s.fab.regs ∧ u.fab.buf = s.fab.buf ∧
      openGuard u m p = some ⟨p, o, v⟩ := by
  have begun := noted_beginAccess m s
  have even : ¬ a.toNat % 4 ≠ 0 := by omega
  have written := exec_registerWrite hp m a v
  rw [fabWrite_serves (hpage ▸ serves), if_neg even, ← hpage, ← hoff, servedWrite_guarded (serves_beginAccess serves) hg,
    BitVec.ofNat_toNat, BitVec.setWidth_eq] at written
  have noted := begun.trans (.modMaster m (fun x => { x with guards := x.guards ++ [⟨p, o, v⟩] }) _)
  have opened := openGuard_append (begun.four.trans shaped.masters) (serves_beginAccess serves).guard o v
  refine ⟨_, written, ?_⟩
  split
  · next h =>
    have posted := noted.trans (noted_acceptWrite_sup h.1 m o v.toNat _)
    refine ⟨posted.only, posted.regs, posted.buf, ?_⟩
    rw [acceptWrite_sup h.1]
    exact opened
  · exact ⟨noted.only, noted.regs, noted.buf, opened⟩

end

section
variable {a : Addr} {v : Word} {p : Nat} {g : Guard} (hpage : p = a.toNat / 0x1000) (runs : pageRuns s p = true)
  (idle : (pageSt s p).posted = none) (ho : a.toNat % 0x1000 = g.off + 0x800) (guarded : isGuarded p g.off = true)
  (opened : openGuard s m p = some g)
include hp shaped canon hpage runs idle ho guarded opened

theorem guardComplementWrite_matched (hv : v = ~~~ g.v) (hr : writeRefusal s p g.off g.v.toNat = none) :
    ∃ u, Only [.fab] s u ∧ u.fab.regs = s.fab.regs ∧ u.fab.buf = s.fab.buf ∧ (∀ k, pageSt u k = pageSt s k) ∧ openGuard u m p = none ∧
      exec (.guardComplementWrite m a v) s = .next (applySup p (addrOf p g.off) (writeEffect m p g.off g.v.toNat u)) := by
  have begun := noted_beginAccess m s
  have dropped := begun.trans (noted_dropGuard m p _)
  have closed := openGuard_dropGuard (begun.four.trans shaped.masters) m p
  have low := (isGuarded_word guarded).2.2
  obtain ⟨u, access, masters, effect⟩ :=
    ownPosted_acceptWrite (s := dropGuard m p (beginAccess m s)) canon.pages (o := g.off) (by omega) idle closed g.v
  have noted := dropped.trans (.of_access access masters)
  refine ⟨u, noted.only, noted.regs, noted.buf, access.pages, ?_, ?_⟩
  · rw [← closed]
    simp only [openGuard, getMaster, masters]
  · rw [exec_guardComplementWrite hp, rowWrite, fabWrite_complement hpage runs idle ho guarded, servedWrite_complement idle guarded opened
      ((complement_iff v g.v).2 hv) hr, ← hpage, effect]

theorem guardComplementWrite_broken (hv : v ≠ ~~~ g.v) :
    ∃ u, exec (.guardComplementWrite m a v) s = .next u ∧ Only [.fab] s u ∧ u.fab.regs = s.fab.regs ∧
      u.fab.buf = s.fab.buf ∧ openGuard u m p = none ∧ (getMaster u m).cause = 3 := by
  have begun := noted_beginAccess m s
  have four := begun.four.trans shaped.masters
  have split : addrOf p (g.off + 0x800) = a.toNat := by rw [← ho, hpage, addrOf_split]
  have broken := begun.trans (noted_guardBroken m a.toNat _)
  have still : (pageSt (guardBroken m a.toNat (beginAccess m s)) p).posted = none :=
    (posted_guardBroken (canon.beginAccess m).pages m a.toNat p).trans idle
  have written := exec_guardComplementWrite hp m a v
  rw [rowWrite, fabWrite_complement hpage runs idle ho guarded, servedWrite_miss guarded opened
    (fun e => hv ((complement_iff v g.v).1 e)), split, ← hpage, ownPosted_idle still] at written
  exact ⟨_, written, broken.only, broken.regs, broken.buf, hpage ▸ openGuard_guardBroken four m a.toNat, cause_guardBroken four m a.toNat⟩

end

section
variable {a : Addr} {p o : Nat} (hpage : p = a.toNat / 0x1000) (hoff : o = a.toNat % 0x1000) (serves : Serves s m p)
include hp shaped hpage hoff serves

theorem captureLowRead_next (low : pairLow p o = some o) :
    ∃ u, exec (.captureLowRead m a) s = .next u ∧ Only [.fab] s u ∧ u.fab.regs = s.fab.regs ∧
      (getMaster u m).rdata = BitVec.ofNat 32 (pairValue s p o) ∧ (getMaster u m).shadow = BitVec.ofNat 64 (pairValue s p o) ∧
      (getMaster u m).fresh = true ∧ (getMaster u m).stale = false ∧ (getMaster u m).pair = a.toNat := by
  have begun := noted_beginAccess m s
  have taken := begun.trans (noted_readLow m p o _)
  have noted := taken.trans (noted_setRdata m _)
  have read := exec_captureLowRead hp m a
  have whole : addrOf p o = a.toNat := by rw [hpage, hoff, addrOf_split]
  have value : pairValue (beginAccess m s) p o = pairValue s p o := rfl
  have final : getMaster (setRdata m (readLow m p o (beginAccess m s))) m = { getMaster (beginAccess m s) m with
      rdata := BitVec.ofNat 32 (pairValue s p o % 2 ^ 32), shadow := BitVec.ofNat 64 (pairValue s p o), fresh := true, stale := false,
      pair := addrOf p o } := by
    refine (getMaster_setRdata (taken.four.trans shaped.masters) m _).trans ?_
    rw [getMaster_readLow (begun.four.trans shaped.masters), value]
  rw [fabRead_low (hpage ▸ serves) (by rw [← hpage, ← hoff]; exact low), ← hpage, ← hoff] at read
  refine ⟨_, read, noted.only, noted.regs, ?_⟩
  rw [final]
  exact ⟨BitVec.eq_of_toNat_eq (by simp), rfl, rfl, rfl, whole⟩

theorem captureHighRead_next (far : 4 ≤ o) (high : pairLow p o = some (o - 4)) :
    ∃ u, exec (.captureHighRead m a) s = .next u ∧ Only [.fab] s u ∧ u.fab.regs = s.fab.regs ∧
      (getMaster u m).rdata = BitVec.ofNat 32 ((getMaster s m).shadow.toNat / 2 ^ 32) ∧
      ((getMaster s m).fresh = true → (getMaster s m).pair + 4 = a.toNat →
        (getMaster u m).fresh = false ∧ (getMaster u m).stale = (getMaster s m).stale) ∧
      ((getMaster s m).fresh = false ∨ (getMaster s m).pair + 4 ≠ a.toNat → (getMaster u m).stale = true) := by
  have begun := noted_beginAccess m s
  have four := begun.four.trans shaped.masters
  have master := getMaster_beginAccess shaped.masters m
  have whole : addrOf p (o - 4) + 4 = a.toNat := by rw [hpage, hoff] at *; unfold addrOf; omega
  have read := exec_captureHighRead hp m a
  rw [fabRead_high (hpage ▸ serves) (hoff ▸ far) (by rw [← hpage, ← hoff]; exact high), ← hpage, ← hoff] at read
  refine ⟨_, read, ?_⟩
  by_cases h : (getMaster (beginAccess m s) m).fresh = true ∧ (getMaster (beginAccess m s) m).pair = addrOf p (o - 4)
  · have taken := begun.trans (.modMaster m (fun x => { x with fresh := false }) _)
    have noted := taken.trans (noted_setRdata m ((getMaster (beginAccess m s) m).shadow.toNat / 2 ^ 32, _))
    rw [readHigh_fresh h]
    refine ⟨noted.only, noted.regs, ?_⟩
    rw [getMaster_setRdata (taken.four.trans shaped.masters), getMaster_modMaster _ _ _ four, master]
    rw [master] at h
    obtain ⟨fresh, pair⟩ := h
    simp only at fresh pair
    refine ⟨rfl, fun _ _ => ⟨rfl, rfl⟩, fun other => ?_⟩
    rcases other with used | moved
    · rw [fresh] at used; cases used
    · exact absurd (by rw [pair]; exact whole) moved
  · have marked := begun.trans (.modMaster m (fun x => { x with stale := true }) _)
    have taken := marked.trans (noted_count01 4 _)
    have noted := taken.trans (noted_setRdata m ((getMaster (beginAccess m s) m).shadow.toNat / 2 ^ 32, _))
    rw [readHigh_stale h]
    refine ⟨noted.only, noted.regs, ?_⟩
    rw [getMaster_setRdata (taken.four.trans shaped.masters), (told_count01 4 _).getMaster, getMaster_modMaster _ _ _ four, master]
    rw [master] at h
    exact ⟨rfl, fun fresh pair => absurd ⟨fresh, by simp only; omega⟩ h, fun _ => rfl⟩

end

end

/-- A posted write that no guard pair holds takes effect and leaves the page's header (R342). -/
theorem postedEffect_plain {s : State} {p : Nat} {w : Posted} (h : (pageSt s p).posted = some w) (plain : isGuarded p (w.a % 0x1000) = false) :
    postedEffect p s = applySup p w.a (writeEffect w.m p (w.a % 0x1000) w.v.toNat (modPage p (fun x => { x with posted := none }) s)) := by
  unfold postedEffect
  rw [h]
  simp only [plain, Bool.false_and, Bool.false_eq_true, if_false]

/-- Settles O57, access by access: the words in force and the buffered words stand beside the access's effect, and each kind of page
passes the write on as its section says. -/
theorem registerAccessesOfTheMasters : Obligations.RegisterAccessesOfTheMasters := by
  unfold Obligations.RegisterAccessesOfTheMasters
  intro s m hp shaped canon
  refine ⟨fun a v => ⟨_, exec_registerWrite hp m a v⟩, fun a v stopped => registerWrite_lost hp canon v stopped,
    fun a v serves odd => registerWrite_unaligned hp shaped v serves odd, fun a v p o hpage hoff aligned serves => ⟨?_, ?_, ?_⟩, ?_, ?_, ?_⟩
  · intro f hs hg hc hf hr
    exact ⟨registerWrite_core hp hpage hoff aligned serves hg hc hr hs hf,
      registerWrite_buffered hp hpage hoff aligned serves hg hc hr hs hf⟩
  · intro hs hg hc hf hr
    exact registerWrite_posted hp canon hpage hoff aligned serves hg hc hr hs hf
  · exact registerWrite_guarded hp shaped hpage hoff aligned serves
  · intro p w posted plain
    refine ⟨_, rfl, ?_, (exec_postedWriteEffect hp p).trans (congrArg _ (postedEffect_plain posted plain))⟩
    rw [pageSt_modPage _ _ _ canon.pages]
  · intro a v p g hpage runs idle ho guarded opened
    exact ⟨guardComplementWrite_matched hp shaped canon hpage runs idle ho guarded opened,
      guardComplementWrite_broken hp shaped canon hpage runs idle ho guarded opened⟩
  · intro a p o hpage hoff serves
    exact ⟨captureLowRead_next hp shaped hpage hoff serves, captureHighRead_next hp shaped hpage hoff serves⟩

end Sys2Proof.Machine
end

section
/-! A whole bale enters its queue (R184, R188, R190): cell by cell while Serai accepts its words, until it closes. -/

open Sys2Proof Sys2Proof.Machine

namespace OnlyAndUnfit

theorem of_only {M : List Part} {s t : State} (h : Only M s t) (k : Part.frm ∉ M := by decide) : OnlyAndUnfit M s t :=
  ⟨h.mono (List.subset_cons_self _ _), by rw [h.frm k]⟩

theorem mono {M N : List Part} {s t : State} (h : OnlyAndUnfit M s t) (k : M ⊆ N := by decide) : OnlyAndUnfit N s t :=
  ⟨h.1.mono (List.cons_subset_cons _ k), h.2⟩

theorem trans {M : List Part} {s t u : State} (h : OnlyAndUnfit M s t) (k : OnlyAndUnfit M t u) : OnlyAndUnfit M s u :=
  ⟨h.1.trans k.1, by rw [k.2, h.2]⟩

end OnlyAndUnfit

namespace Sys2Proof.Machine

/-! ### Live causes -/

theorem unfit_unfitSync (s : State) : OnlyAndUnfit [.fab] s (unfitSync s) := by
  have rise (v : State) : Only [.fab] v (onRise s.frm.unfit (unfitNow s) 0x44 3 0 v) := by simp
  refine ⟨by simp, ?_⟩
  unfold unfitSync
  rw [(rise _).frm]

theorem unfit_seraiSync (s : State) : OnlyAndUnfit [.fab, .ser] s (seraiSync s) := by
  have queues : Only [.fab, .ser] s ((List.range 32).foldl (fun s q => qSync q s) s) := by simp
  unfold seraiSync
  generalize (List.range 32).foldl (fun s q => qSync q s) s = v at queues
  have low : Only [.fab, .ser] v (onRise v.ser.memLow (memLowNow v) 0x40 1 0 { v with ser := { v.ser with memLow := memLowNow v } }) := by
    simp only [only_onRise _ _ _ _ _ _ _ _ (show [.fab] ⊆ [Part.fab, .ser] by decide)]
    exact ((only_mk_ser v v _).2 (.refl _ _)).mono
  exact OnlyAndUnfit.trans (.of_only (queues.trans low)) (OnlyAndUnfit.mono (unfit_unfitSync _))

theorem getQ_congr {s t : State} (h : t.ser.qs = s.ser.qs) (q : Nat) : getQ t q = getQ s q := by unfold getQ; rw [h]

theorem bareQ_congr {s t : State} (h : t.ser.qs = s.ser.qs) (q : Nat) : bareQ t q = bareQ s q := by unfold bareQ; rw [getQ_congr h]

/-- The live causes of a queue are no part of it bared of them, whichever queue they are written to. -/
theorem bareQ_modQ_live (q k : Nat) (wm aq : Bool) (s : State) :
    bareQ (modQ q (fun y => { y with wmHigh := wm, atQuota := aq }) s) k = bareQ s k := by
  unfold bareQ getQ modQ
  by_cases hk : q = k
  · subst hk
    simp only [List.getD, List.getElem?_modify]
    cases s.ser.qs[q]? <;> simp
  · simp only [getD_modify_ne _ _ _ _ _ hk]

theorem qs_onRise (was isNow : Bool) (p i d : Nat) (s : State) : (onRise was isNow p i d s).ser.qs = s.ser.qs :=
  congrArg Serai.qs (Only.ser (M := [.fab]) (by simp))

theorem bareQ_qSync (q k : Nat) (s : State) : bareQ (qSync q s) k = bareQ s k := by
  unfold qSync
  exact (bareQ_congr (qs_onRise _ _ _ _ _ _) k).trans ((bareQ_congr (qs_onRise _ _ _ _ _ _) k).trans (bareQ_modQ_live q k _ _ s))

theorem bareQ_foldl_qSync (k : Nat) (l : List Nat) (s : State) : bareQ (l.foldl (fun s q => qSync q s) s) k = bareQ s k := by
  induction l generalizing s with
  | nil => rfl
  | cons q l ih => exact (ih _).trans (bareQ_qSync q k s)

theorem bareQ_seraiSync (k : Nat) (s : State) : bareQ (seraiSync s) k = bareQ s k := by
  unfold seraiSync
  have queues := bareQ_foldl_qSync k (List.range 32) s
  generalize (List.range 32).foldl (fun s q => qSync q s) s = v at queues
  have unfit (u : State) : (unfitSync u).ser = u.ser := Only.ser (M := [.fab, .frm]) (by simp)
  exact (bareQ_congr (congrArg Serai.qs (unfit _)) k).trans ((bareQ_congr (qs_onRise _ _ _ _ _ _) k).trans queues)

/-- What two equal bare queues share. -/
theorem ready_of_bareQ {s t : State} {q : Nat} (h : bareQ t q = bareQ s q) : (getQ t q).ready = (getQ s q).ready :=
  (congrArg Queue.ready h : (bareQ t q).ready = (bareQ s q).ready)

theorem waiting_of_bareQ {s t : State} {q : Nat} (h : bareQ t q = bareQ s q) : (getQ t q).waiting = (getQ s q).waiting :=
  (congrArg Queue.waiting h : (bareQ t q).waiting = (bareQ s q).waiting)

/-! ### One queue of the state -/

/-- The state with queue `q` at `x` and the count of bale identities at `ids`. -/
def withQ (q : Nat) (x : Queue) (ids : Nat) (s : State) : State := { s with ser := { s.ser with qs := s.ser.qs.set q x, ids := ids } }

section
variable {s : State} {q : Nat} (hq : q < s.ser.qs.length) (x : Queue) (ids : Nat)

include hq in
theorem getQ_withQ : getQ (withQ q x ids s) q = x := by simp [getQ, withQ, List.getD, hq]

theorem getQ_withQ_ne {k : Nat} (hk : k ≠ q) : getQ (withQ q x ids s) k = getQ s k := by
  simp [getQ, withQ, List.getD, List.getElem?_set_ne hk.symm]

include hq in
theorem modQ_eq_withQ (f : Queue → Queue) : modQ q f s = withQ q (f (getQ s q)) s.ser.ids s := by
  unfold modQ withQ getQ
  rw [List.modify_eq_set_get f hq]
  simp [List.getD, hq]

include hq in
theorem modQ_withQ (f : Queue → Queue) : modQ q f (withQ q x ids s) = withQ q (f x) ids s := by
  have inside : q < (withQ q x ids s).ser.qs.length := by simpa [withQ] using hq
  rw [modQ_eq_withQ inside, getQ_withQ hq]
  simp [withQ]

theorem otherQueues_withQ : OtherQueues s (withQ q x ids s) q := fun k hk => by unfold bareQ; rw [getQ_withQ_ne x ids hk]

theorem only_withQ : Only [.ser] s (withQ q x ids s) := (only_mk_ser s s _).2 (.refl _ _)

end

/-! ### Cells (R183, R184) -/

/-- One member of a list replaced: its share of a sum is exchanged. -/
theorem sum_map_set {α : Type} (f : α → Nat) (l : List α) (q : Nat) (x d : α) (h : q < l.length) :
    ((l.set q x).map f).sum + f (l.getD q d) = (l.map f).sum + f x := by
  induction l generalizing q with
  | nil => exact absurd h (by simp)
  | cons a l ih =>
    cases q with
    | zero => simp; omega
    | succ q =>
      have := ih q (by simpa using h)
      simp only [List.set_cons_succ, List.map_cons, List.sum_cons, List.getD_cons_succ]
      omega

section
variable {s : State} {q : Nat} (hq : q < s.ser.qs.length) (x : Queue) (ids : Nat)

include hq in
/-- A queue of more cells takes them from the free ones. -/
theorem freeCells_withQ {n : Nat} (cells : uCells x = uOf s q + n) (same : x.retained = (getQ s q).retained) :
    freeCells (withQ q x ids s) = freeCells s - n := by
  have all : uAll (withQ q x ids s) + uOf s q = uAll s + uCells x := sum_map_set uCells s.ser.qs q x {} hq
  have ret : retAll (withQ q x ids s) + retCells (getQ s q) = retAll s + retCells x := sum_map_set retCells s.ser.qs q x {} hq
  have kept : retCells x = retCells (getQ s q) := by unfold retCells; rw [same]
  unfold freeCells
  omega

include hq in
theorem uOf_withQ : uOf (withQ q x ids s) q = uCells x := by unfold uOf; rw [getQ_withQ hq]

theorem otherReserve_withQ : otherReserve (withQ q x ids s) q = otherReserve s q := by
  unfold otherReserve
  congr 1
  funext p
  by_cases hp : p = q
  · simp [hp]
  · simp only [hp, if_false, uOf, getQ_withQ_ne x ids hp]
    rfl

theorem cellFree_withQ (u fr : Nat) : cellFree (withQ q x ids s) q u fr = cellFree s q u fr := by
  unfold cellFree
  rw [otherReserve_withQ]
  rfl

end

/-- Serai accepts `n` more cells of queue `q` one after the other, when the queue has taken `j` already (R184). -/
def Room (s : State) (q j n : Nat) : Prop :=
  ∀ k, k < n → uOf s q + (j + k) < quotaOf s q ∧ cellFree s q (uOf s q + (j + k)) (freeCells s - (j + k)) = true

theorem Room.next {s : State} {q j n : Nat} (h : Room s q j (n + 1)) : Room s q (j + 1) n := fun k hk => by
  have := h (k + 1) (by omega)
  rwa [show j + (k + 1) = j + 1 + k by omega] at this

theorem cellsOf_step (n : Nat) : cellsOf (n + 512) = cellsOf n + 1 := by unfold cellsOf ceilDiv; omega

/-! ### One word group of a bale -/

/-- Bytes of a queue's bale in progress. -/
def curBytesOf (x : Queue) : List Byte := x.cur.elim [] (·.bytes)

/-- What the words of a bale leave alone in their queue. -/
structure Beside (x y : Queue) : Prop where
  ready    : y.ready = x.ready
  retained : y.retained = x.retained
  discard  : y.discard = x.discard

section
variable {s : State} {q : Nat} (hq : q < s.ser.qs.length) (x : Queue) (ids : Nat)
include hq

theorem putBytes_withQ (l : List Byte) : ∃ y ids', putBytes q l (withQ q x ids s) = withQ q y ids' s ∧ Beside x y ∧
    y.held = none ∧ y.waiting = x.waiting ∧ y.cur.isSome = true ∧ curBytesOf y = curBytesOf x ++ l := by
  unfold putBytes
  rw [getQ_withQ hq]
  cases hc : x.cur with
  | none =>
    refine ⟨{ x with cur := some { id := ids, seq := 0, typ := 0, bytes := l }, held := none, curSent := 0 }, ids + 1,
      ?_, ⟨rfl, rfl, rfl⟩, rfl, rfl, rfl, by simp [curBytesOf, hc]⟩
    simp only [modQ_withQ hq]
    simp [withQ]
  | some b =>
    exact ⟨_, ids, modQ_withQ hq x ids _, ⟨rfl, rfl, rfl⟩, rfl, rfl, rfl, by simp [curBytesOf, hc]⟩

/-- The bytes with which a bale closes: on Q13–Q15 they carry the slot and orbit of the closing (R158, R159). -/
def closedBytes (s : State) (q : Nat) (l : List Byte) : List Byte :=
  if pgIn q 13 15 then
    l.take 7 ++ leBytes 2 (s.orb.slot % 4096) ++ leBytes 4 s.orb.orbit ++ (l.take (l.length - 4)).drop 13 ++
      leBytes 4 (crc32 (l.take 7 ++ leBytes 2 (s.orb.slot % 4096) ++ leBytes 4 s.orb.orbit ++ (l.take (l.length - 4)).drop 13))
  else l

theorem stampClose_withQ (some : x.cur.isSome = true) : ∃ y, stampClose q (withQ q x ids s) = withQ q y ids s ∧ Beside x y ∧
    y.waiting = x.waiting ∧ y.held = x.held ∧ y.cur.isSome = true ∧ curBytesOf y = closedBytes s q (curBytesOf x) := by
  obtain ⟨b, hb⟩ := Option.isSome_iff_exists.1 some
  unfold stampClose closedBytes
  split
  · exact ⟨_, modQ_withQ hq x ids _, ⟨rfl, rfl, rfl⟩, rfl, rfl, by simp [hb], by simp [curBytesOf, hb, withQ]⟩
  · exact ⟨x, rfl, ⟨rfl, rfl, rfl⟩, rfl, rfl, some, rfl⟩

theorem closeBale_withQ (some : x.cur.isSome = true) (keep : x.discard = false) : ∃ y b, closeBale q (withQ q x ids s) = withQ q y ids s ∧
    y.ready = x.ready ++ [b] ∧ b.bytes = curBytesOf x ∧ y.waiting = x.waiting := by
  obtain ⟨b, hb⟩ := Option.isSome_iff_exists.1 some
  refine ⟨_, { b with seq := baleSeq b.bytes, typ := baleTyp b.bytes }, modQ_withQ hq x ids _, ?_, ?_, ?_⟩ <;>
    simp [hb, keep, curBytesOf]

end

/-! ### Pouring -/

/-- The queue stands before the next cell of the bale `b`: whole cells of it are in, `j` of them, and Serai has room for the rest. -/
structure Pouring (s : State) (q : Nat) (x : Queue) (b : Bale) (j : Nat) : Prop where
  held    : x.held = none
  waiting : x.waiting = [b]
  begun   : b.ord ≠ 0 ∨ x.cur = none
  start   : startOk x = true
  cells   : (curBytesOf x).length % 512 = 0
  count   : uCells x = uOf s q + j
  rest    : x.retained = (getQ s q).retained
  keep    : x.discard = false
  some    : b.bytes ≠ []
  room    : Room s q j (cellsOf b.bytes.length)

theorem uCells_eq (x : Queue) : uCells x = (x.ready.map (fun b => cellsOf b.bytes.length)).sum + cellsOf (curBytesOf x).length := by
  unfold uCells curBytesOf
  cases x.cur <;> rfl

theorem needsCell_of_full {x : Queue} (h : (curBytesOf x).length % 512 = 0) : needsCell x = true := by
  unfold needsCell
  unfold curBytesOf at h
  cases hc : x.cur with
  | none => rfl
  | some b => simpa [hc] using h

namespace Pouring

variable {s : State} {q : Nat} {x : Queue} {b : Bale} {j : Nat} (hq : q < s.ser.qs.length) (ids : Nat)

include hq in
theorem pourOk (h : Pouring s q x b j) : pourOk (withQ q x ids s) q = true := by
  have positive : 0 < cellsOf b.bytes.length := by
    have := List.length_pos_iff.2 h.some
    unfold cellsOf ceilDiv
    omega
  obtain ⟨below, free⟩ := h.room 0 positive
  rw [Nat.add_zero] at below free
  have admitted : cellOk (withQ q x ids s) q = true := by
    have quota : quotaOf (withQ q x ids s) q = quotaOf s q := rfl
    unfold cellOk
    rw [uOf_withQ hq, cellFree_withQ, freeCells_withQ hq x ids h.count h.rest, h.count, quota, free]
    simpa using below
  have word : wordOk (withQ q x ids s) q = true := by
    unfold wordOk
    simp [getQ_withQ hq, h.start, admitted]
  unfold Machine.pourOk
  rw [getQ_withQ hq, word]
  simp only [h.waiting, h.held]
  rcases h.begun with entered | fresh
  · simp [entered]
  · simp [fresh]

include hq in
theorem pourCell_eq (h : Pouring s q x b j) : pourCell q (withQ q x ids s) =
    if b.bytes.length ≤ 512 then
      closeBale q (stampClose q (modQ q (fun x => { x with waiting := [] }) (putBytes q (b.bytes.take 512) (withQ q x ids s))))
    else modQ q (fun x => { x with waiting := [{ b with bytes := b.bytes.drop 512, ord := 1 }] })
      (putBytes q (b.bytes.take 512) (withQ q x ids s)) := by
  have whole := h.cells
  unfold curBytesOf at whole
  unfold pourCell
  simp only [getQ_withQ hq, h.waiting]
  cases hc : x.cur with
  | none => rfl
  | some c =>
    rw [hc] at whole
    simp only [Option.elim_some] at whole
    simp only [whole, Nat.sub_zero]

include hq in
/-- A cell that is not the bale's last. -/
theorem next (h : Pouring s q x b j) (more : 512 < b.bytes.length) : ∃ y ids', pourCell q (withQ q x ids s) = withQ q y ids' s ∧
    Pouring s q y { b with bytes := b.bytes.drop 512, ord := 1 } (j + 1) ∧ y.ready = x.ready ∧
    curBytesOf y = curBytesOf x ++ b.bytes.take 512 := by
  obtain ⟨y, ids', put, beside, held, -, entered, bytes⟩ := putBytes_withQ hq x ids (b.bytes.take 512)
  have grown : (curBytesOf y).length = (curBytesOf x).length + 512 := by rw [bytes, List.length_append, List.length_take]; omega
  have rest : b.bytes.length = (b.bytes.drop 512).length + 512 := by rw [List.length_drop]; omega
  have room := h.room
  rw [rest, cellsOf_step] at room
  refine ⟨{ y with waiting := [{ b with bytes := b.bytes.drop 512, ord := 1 }] }, ids', ?_, ?_, beside.ready, bytes⟩
  · rw [h.pourCell_eq hq, if_neg (by omega), put, modQ_withQ hq]
  · exact
      { held := held
        waiting := rfl
        begun := .inl (by simp)
        start := by simp [startOk, entered]
        cells := by
          show (curBytesOf y).length % 512 = 0
          have := h.cells
          omega
        count := by
          show uCells y = uOf s q + (j + 1)
          have := h.count
          rw [uCells_eq, beside.ready, grown, cellsOf_step]
          rw [uCells_eq] at this
          omega
        rest := beside.retained.trans h.rest
        keep := beside.discard.trans h.keep
        some := fun e => by
          have := congrArg List.length e
          simp at this
          omega
        room := room.next }

include hq in
/-- The bale's last cell closes it. -/
theorem last (h : Pouring s q x b j) (short : b.bytes.length ≤ 512) : ∃ y ids' r, pourCell q (withQ q x ids s) = withQ q y ids' s ∧
    y.ready = x.ready ++ [r] ∧ r.bytes = closedBytes s q (curBytesOf x ++ b.bytes) ∧ y.waiting = [] := by
  obtain ⟨y, ids', put, beside, held, -, entered, bytes⟩ := putBytes_withQ hq x ids (b.bytes.take 512)
  obtain ⟨z, stamp, beside', waiting, -, entered', bytes'⟩ := stampClose_withQ hq { y with waiting := [] } ids' entered
  obtain ⟨w, r, close, ready, final, emptied⟩ :=
    closeBale_withQ hq z ids' entered' (by rw [beside'.discard]; exact beside.discard.trans h.keep)
  refine ⟨w, ids', r, ?_, ?_, ?_, ?_⟩
  · rw [h.pourCell_eq hq, if_pos short, put, modQ_withQ hq, stamp, close]
  · rw [ready, beside'.ready]
    exact congrArg (· ++ [r]) beside.ready
  · rw [final, bytes']
    show closedBytes s q (curBytesOf y) = _
    rw [bytes, List.take_of_length_le short]
  · rw [emptied, waiting]

end Pouring

theorem pourGo_stop {s : State} {q : Nat} (h : pourOk s q = false) (n : Nat) : pourGo q n s = s := by cases n <;> simp [pourGo, h]

theorem pourOk_done {s : State} {q : Nat} (h : (getQ s q).waiting = []) : pourOk s q = false := by simp [pourOk, h]

/-- With room for all its cells the bale goes in whole and closes. -/
theorem pourGo_whole {s : State} {q : Nat} (hq : q < s.ser.qs.length) (n : Nat) {x : Queue} {b : Bale} {j : Nat} (ids : Nat)
    (h : Pouring s q x b j) (fuel : b.bytes.length ≤ 512 * n) : ∃ y ids' r, pourGo q n (withQ q x ids s) = withQ q y ids' s ∧
      y.ready = x.ready ++ [r] ∧ r.bytes = closedBytes s q (curBytesOf x ++ b.bytes) ∧ y.waiting = [] := by
  induction n generalizing x b j ids with
  | zero => exact absurd (List.length_eq_zero_iff.1 (by omega)) h.some
  | succ n ih =>
    rw [pourGo, h.pourOk hq, if_pos rfl]
    rcases Nat.lt_or_ge 512 b.bytes.length with more | short
    · obtain ⟨y, ids', cell, pouring, ready, bytes⟩ := h.next hq ids more
      obtain ⟨z, ids'', r, went, closed, final, emptied⟩ := ih ids' pouring (by rw [List.length_drop]; omega)
      refine ⟨z, ids'', r, by rw [cell, went], by rw [closed, ready], ?_, emptied⟩
      rw [final, bytes, List.append_assoc, List.take_append_drop]
    · obtain ⟨y, ids', r, cell, ready, bytes, emptied⟩ := h.last hq ids short
      refine ⟨y, ids', r, ?_, ready, bytes, emptied⟩
      rw [cell, pourGo_stop (pourOk_done (by rw [getQ_withQ hq, emptied]))]

/-! ### The writer of whole bales -/

theorem told_pour (q : Nat) (s : State) : Told serPages s (pour q s) := .of_fab (Only.fab (M := [.ser]) (by simp))

theorem told_writeBale (q : Nat) (l : List Byte) (s : State) : Told serPages s (writeBale q l s) := by
  unfold writeBale
  exact (told_modQ q _ s).trans ((told_pour q _).trans (told_seraiSync _))

theorem unfit_writeBale (q : Nat) (l : List Byte) (s : State) : OnlyAndUnfit [.fab, .ser] s (writeBale q l s) := by
  have poured : Only [.ser] s (pour q (modQ q (fun x => { x with waiting := x.waiting ++ [{ id := 0, seq := 0, typ := 0, bytes := l }] }) s)) := by
    simp
  unfold writeBale
  exact (OnlyAndUnfit.of_only poured.mono).trans (unfit_seraiSync _)

/-- A whole bale that a writer presents, none of it in the queue yet. -/
def wholeBale (l : List Byte) : Bale := { id := 0, seq := 0, typ := 0, bytes := l }

def presented (x : Queue) (l : List Byte) : Queue := { x with waiting := [wholeBale l] }

/-- A bale that its queue takes whole is the newest readable one there, and nothing of the queue waits (R190). -/
theorem writeBale_whole {s : State} {q : Nat} (hq : q < s.ser.qs.length) {l : List Byte} (some : l ≠ [])
    (whole : TakesWhole s q (cellsOf l.length)) : ∃ b, (getQ (writeBale q l s) q).ready = (getQ s q).ready ++ [b] ∧
      b.bytes = closedBytes s q l ∧ (getQ (writeBale q l s) q).waiting = [] ∧ OtherQueues s (writeBale q l s) q := by
  obtain ⟨held, cur, waiting, keep, start, room⟩ := whole
  have none_in : curBytesOf (getQ s q) = [] := by simp [curBytesOf, cur]
  have pouring : Pouring s q (presented (getQ s q) l) (wholeBale l) 0 :=
    { held := held, waiting := rfl, begun := .inr cur, start := start, count := rfl, rest := rfl, keep := keep, some := some
      cells := by
        show (curBytesOf (getQ s q)).length % 512 = 0
        rw [none_in]
        rfl
      room := fun k hk => by simpa using room k hk }
  have fuel : pourFuel (withQ q (presented (getQ s q) l) s.ser.ids s) q = cellsOf l.length + 1 := by unfold pourFuel; rw [getQ_withQ hq]; rfl
  obtain ⟨y, ids, r, poured, ready, bytes, emptied⟩ := pourGo_whole hq (cellsOf l.length + 1) s.ser.ids pouring
    (by show l.length ≤ _; unfold cellsOf ceilDiv; omega)
  have entered : modQ q (fun x => { x with waiting := x.waiting ++ [wholeBale l] }) s = withQ q (presented (getQ s q) l) s.ser.ids s := by
    rw [modQ_eq_withQ hq, waiting]
    rfl
  have written : writeBale q l s = seraiSync (withQ q y ids s) :=
    (congrArg (fun v => seraiSync (pour q v)) entered).trans (congrArg seraiSync (by rw [pour, fuel, poured]))
  have sync (k : Nat) : bareQ (writeBale q l s) k = bareQ (withQ q y ids s) k := by rw [written, bareQ_seraiSync]
  refine ⟨r, ?_, ?_, ?_, fun k hk => (sync k).trans (otherQueues_withQ y ids k hk)⟩
  · rw [ready_of_bareQ (sync q), getQ_withQ hq, ready]
    rfl
  · rw [bytes]
    show closedBytes s q (curBytesOf (getQ s q) ++ l) = _
    rw [none_in, List.nil_append]
  · rw [waiting_of_bareQ (sync q), getQ_withQ hq, emptied]

end Sys2Proof.Machine
end

section
/-! The control channel (R269–R273): a held packet makes its accesses, its response leaves in Q13, CTL_EN 0 ends an open packet. -/

namespace Sys2Proof.Machine

/-! ### Accesses of a held packet -/

theorem exec_controlPacket {s : State} (hp : s.pw.por = false) (t : Trunk) :
    exec (.controlPacket t) s = .next (packetStep t (if t = firstDl s then s else packetsDue (firstDl s) s)) :=
  congrArg Host.Outcome.next (running_eq _ hp)

/-- A packet that is due is served, and stays held with its response (R264). -/
theorem packetStep_due {t : Trunk} {s : State} {k : Packet} (oldest : (getDl s t).held.find? (fun k => k.resp.isNone) = some k)
    (due : s.pw.coreRun = true → k.short = true ∨ k.ready ≤ s.pw.elapsed) :
    packetStep t s = modDl t (fun d => { d with held := putResp (servePacket t k s).1 d.held }) (servePacket t k s).2 := by
  have ready : ¬ (s.pw.coreRun ∧ k.short = false ∧ s.pw.elapsed < k.ready) := fun ⟨run, whole, early⟩ => by
    rcases due run with short | late
    · rw [whole] at short
      cases short
    · omega
  unfold packetStep
  rw [oldest]
  simp only [if_neg ready]

section
variable {t : Trunk} {k : Packet} {s : State}

theorem servePacket_refused {c : Nat} (h : packetRefusal k = some c) :
    servePacket t k s = (responsePayload t k.hdr.toNat c 0 [], s) := by
  unfold servePacket
  simp only [h]

theorem servePacket_read (h : packetRefusal k = none) (op : hdrOp k.hdr.toNat ≠ 1) {r : Served × State}
    (hr : r = seqRead (dlMaster t) (hdrNm1 k.hdr.toNat + 1) 0 (hdrAddr k.hdr.toNat) {} s) :
    servePacket t k s = (responsePayload t k.hdr.toNat r.1.cause r.1.idx r.1.words, r.2) := by
  unfold servePacket
  simp only [h, if_neg op, hr]

theorem servePacket_write (h : packetRefusal k = none) (op : hdrOp k.hdr.toNat = 1) {r : Served × State}
    (hr : r = seqWrite (dlMaster t) 0 (hdrAddr k.hdr.toNat) k.data {} s) :
    servePacket t k s = (responsePayload t k.hdr.toNat r.1.cause r.1.idx [], r.2) := by
  unfold servePacket
  simp only [h, if_pos op, hr]

end

/-! ### The response bale -/

/-- Closing replaces the six bytes of slot and orbit and the trailer (R158, R159). -/
theorem closedBytes_split {s : State} {q : Nat} (hq : pgIn q 13 15 = true) {a b r d : List Byte} (ha : a.length = 7) (hb : b.length = 6)
    (hd : d.length = 4) : closedBytes s q (a ++ b ++ r ++ d) =
      withTrailer (a ++ leBytes 2 (s.orb.slot % 4096) ++ leBytes 4 s.orb.orbit ++ r) := by
  have front : (a ++ b ++ r ++ d).take 7 = a := by
    rw [List.append_assoc, List.append_assoc]
    exact List.take_left' ha
  have body : (a ++ b ++ r ++ d).take ((a ++ b ++ r ++ d).length - 4) = a ++ b ++ r :=
    List.take_left' (by simp only [List.length_append]; omega)
  have tail : (a ++ b ++ r).drop 13 = r := List.drop_left' (by simp only [List.length_append]; omega)
  unfold closedBytes
  rw [if_pos hq, front, body, tail]
  rfl

/-- A bale closed in the slot and orbit that its header gives keeps its bytes. -/
theorem closedBytes_mkBale {s : State} {q : Nat} (hq : pgIn q 13 15 = true) (typ seam : Nat) (last : Bool) (seq : Nat) (l : List Byte) :
    closedBytes s q (mkBale typ seam last seq (s.orb.slot % 4096) s.orb.orbit l) =
      mkBale typ seam last seq (s.orb.slot % 4096) s.orb.orbit l := by
  have split := closedBytes_split (s := s) hq
    (a := [0xB7, BitVec.ofNat 8 (typ % 16 + 16 * (seam % 8) + 128 * b2n last)] ++ leBytes 3 seq ++ leBytes 2 l.length)
    (b := leBytes 2 (s.orb.slot % 4096) ++ leBytes 4 s.orb.orbit) (r := [0, 0, 0] ++ l)
    (d := leBytes 4 (crc32 (baleHeader typ seam last seq l.length (s.orb.slot % 4096) s.orb.orbit ++ l)))
    (by simp [leBytes_length]) (by simp [leBytes_length]) (leBytes_length 4 _)
  simpa [mkBale, withTrailer, baleHeader] using split

theorem length_typeFive (s : State) (l : List Byte) : (typeFive s l).length = 20 + l.length := by
  simp [typeFive, mkBale, withTrailer, baleHeader, leBytes_length]
  omega

theorem cellOk_of_takesWhole {s : State} {q n : Nat} (h : TakesWhole s q (n + 1)) : cellOk s q = true := by
  obtain ⟨-, -, -, -, -, room⟩ := h
  obtain ⟨quota, free⟩ := room 0 (by omega)
  unfold cellOk
  rw [Bool.and_eq_true, decide_eq_true_eq]
  exact ⟨quota, free⟩

theorem wordOk_of_takesWhole {s : State} {q n : Nat} (h : TakesWhole s q (n + 1)) : wordOk s q = true := by
  have start : startOk (getQ s q) = true := h.2.2.2.2.1
  unfold wordOk
  simp [start, cellOk_of_takesWhole h]

/-- With a cell for the word no retained bale is released (R185). -/
theorem releaseRetained_of_cellOk {s : State} {q : Nat} (h : cellOk s q = true) : releaseRetained q s = s := by
  unfold releaseRetained
  generalize (s.ser.qs.map (fun x => x.retained.length)).sum = n
  cases n <;> simp [releaseFor, h]

/-- The response is out of the store, and the notice sequence counts it; the bale is still to be written (R271). -/
def responseTaken (t : Trunk) (rest : List Packet) (s : State) : State := bumpNtc (modDl t (fun d => { d with held := rest }) s)

theorem only_responseTaken (t : Trunk) (rest : List Packet) (s : State) : Only [.acq, .dlA, .dlB] s (responseTaken t rest s) := by
  unfold responseTaken bumpNtc
  have taken : Only [.acq, .dlA, .dlB] s (modDl t (fun d => { d with held := rest }) s) := by simp
  exact taken.trans (Only.mono ((only_mk_acq _ _ _).2 (.refl _ _)))

theorem controlResponse_next {s : State} {t : Trunk} (run : s.pw.coreRun = true) {k : Packet} {rest : List Packet} {l : List Byte}
    (held : (getDl s t).held = k :: rest) (resp : k.resp = some l) (whole : TakesWhole s 13 1) :
    controlResponse t s = writeBale 13 (typeFive s l) (responseTaken t rest s) := by
  have waiting : (getQ s 13).waiting = [] := whole.2.2.1
  unfold controlResponse responseTaken
  simp [held, resp, run, waiting, releaseRetained_of_cellOk (cellOk_of_takesWhole whole), wordOk_of_takesWhole whole]

/-- What Serai decides rests on its own state and the registers. -/
theorem takesWhole_congr {s t : State} {q n : Nat} (h : TakesWhole s q n) (ser : t.ser = s.ser) (fab : t.fab = s.fab) : TakesWhole t q n := by
  cases s
  cases t
  simp only at ser fab
  subst ser fab
  exact h

theorem controlResponse_written {s : State} (hp : s.pw.por = false) (shaped : Shaped s) {t : Trunk} (run : s.pw.coreRun = true)
    {k : Packet} {rest : List Packet} {l : List Byte} (held : (getDl s t).held = k :: rest) (resp : k.resp = some l) (short : l.length ≤ 76)
    (whole : TakesWhole s 13 1) :
    ∃ u b, exec (.controlResponse t) s = .next u ∧ OnlyAndUnfit [.fab, .acq, .ser, .dlA, .dlB] s u ∧ u.fab.regs = s.fab.regs ∧
      (getDl u t).held = rest ∧ getDl u (peer t) = getDl s (peer t) ∧ OtherQueues s u 13 ∧
      (getQ u 13).ready = (getQ s 13).ready ++ [b] ∧ b.bytes = typeFive s l ∧ u.acq.nNtc = (s.acq.nNtc + 1) % 2 ^ 24 := by
  have only := only_responseTaken t rest s
  have sequence : (responseTaken t rest s).acq.nNtc = (s.acq.nNtc + 1) % 2 ^ 24 := by cases t <;> rfl
  have shorter : (getDl (responseTaken t rest s) t).held = rest := by cases t <;> rfl
  have other : getDl (responseTaken t rest s) (peer t) = getDl s (peer t) := by cases t <;> rfl
  have cells : cellsOf (typeFive s l).length = 1 := by rw [length_typeFive]; unfold cellsOf ceilDiv; omega
  have written := (congrArg Host.Outcome.next ((coreOnly_eq _ hp run).trans (controlResponse_next run held resp whole)) :
    exec (.controlResponse t) s = _)
  have unfit := unfit_writeBale 13 (typeFive s l) (responseTaken t rest s)
  have told := told_writeBale 13 (typeFive s l) (responseTaken t rest s)
  have bytes : closedBytes (responseTaken t rest s) 13 (typeFive s l) = typeFive s l := by
    unfold closedBytes
    rw [only.orb]
    exact closedBytes_mkBale (s := s) (q := 13) rfl 5 7 true s.acq.nNtc l
  obtain ⟨b, ready, final, -, others⟩ := writeBale_whole (s := responseTaken t rest s) (q := 13)
    (by rw [only.ser, shaped.queues]; decide) (l := typeFive s l) (by rw [← List.length_pos_iff, length_typeFive]; omega)
    (by rw [cells]; exact takesWhole_congr whole only.ser only.fab)
  have dl (d : Trunk) : getDl (writeBale 13 (typeFive s l) (responseTaken t rest s)) d = getDl (responseTaken t rest s) d := by
    cases d
    · exact unfit.1.dlA
    · exact unfit.1.dlB
  refine ⟨_, b, written, (OnlyAndUnfit.of_only only.mono).trans unfit.mono, ?_, ?_, ?_, ?_, ?_, ?_, ?_⟩
  · rw [told.regs, only.fab]
  · rw [dl, shorter]
  · rw [dl, other]
  · exact fun k hk => (others k hk).trans (bareQ_congr (congrArg Serai.qs only.ser) k)
  · rw [ready, getQ_congr (congrArg Serai.qs only.ser)]
  · rw [final, bytes]
  · rw [unfit.1.acq, sequence]

/-! ### CTL_EN (R273) -/

theorem told_ctlAbort (t : Trunk) (s : State) : Told [dlPage t, 0x7C] s (ctlAbort t s) := by
  unfold ctlAbort
  split
  · refine Told.trans ?_ (told_count _ (by simp) _ (by simp))
    exact .of_fab (Only.fab (M := [.dlA, .dlB]) (by simp))
  · exact .refl s

theorem getDl_count (p i : Nat) (s : State) (t : Trunk) : getDl (count p i s) t = getDl s t := by
  have only : Only [.fab] s (count p i s) := by simp
  cases t
  · exact only.dlA
  · exact only.dlB

theorem asm_ctlAbort (t : Trunk) (s : State) : (getDl (ctlAbort t s) t).asm = none := by
  unfold ctlAbort
  cases h : (getDl s t).asm with
  | none => exact h
  | some k => simp [getDl_count]

theorem getDl_ctlAbort_peer (t : Trunk) (s : State) : getDl (ctlAbort t s) (peer t) = getDl s (peer t) := by
  unfold ctlAbort
  cases (getDl s t).asm with
  | none => rfl
  | some k => simp [getDl_count]

section
variable (t : Trunk) (v : Nat) (s : State)

theorem regAt_dlCtl (keys : keysFrom 0 s.fab.regs = true) : regAt (dlCtl t v s) (dlPage t) 0x040 = v % 2 := by
  have set : regAt (setReg (dlPage t) 0x040 (v % 2) s) (dlPage t) 0x040 = v % 2 := by
    rw [regAt_setReg _ _ _ _ keys]
    omega
  have regs (u w : State) (h : w.fab.regs = u.fab.regs) : regAt w (dlPage t) 0x040 = regAt u (dlPage t) 0x040 := by
    unfold regAt
    rw [h]
  unfold dlCtl
  split
  · have kept : ∀ u : State, (modDl t (fun d => { d with drop := 0 }) u).fab = u.fab := fun u => Only.fab (M := [.dlA, .dlB]) (by simp)
    exact (regs _ _ ((congrArg Fabric.regs (kept _)).trans (told_ctlAbort t _).regs)).trans set
  · exact set

theorem getDl_setReg (p o w : Nat) (d : Trunk) : getDl (setReg p o w s) d = getDl s d := by cases d <;> rfl

theorem getDl_dlCtl_peer : getDl (dlCtl t v s) (peer t) = getDl s (peer t) := by
  unfold dlCtl
  split
  · rw [getDl_modDl_peer, getDl_ctlAbort_peer, getDl_setReg]
  · exact getDl_setReg _ _ _ _ _

theorem getDl_dlCtl_on (h : v % 2 = 1) : getDl (dlCtl t v s) t = getDl s t := by
  unfold dlCtl
  rw [if_neg (by omega)]
  exact getDl_setReg _ _ _ _ _

theorem getDl_dlCtl_off (h : v % 2 = 0) : (getDl (dlCtl t v s) t).asm = none ∧ (getDl (dlCtl t v s) t).drop = 0 := by
  unfold dlCtl
  rw [if_pos h, getDl_modDl]
  exact ⟨asm_ctlAbort t _, rfl⟩

end

theorem writeRefusal_dlCtl (s : State) (t : Trunk) (v : Nat) : writeRefusal s (dlPage t) 0x040 v = none := by cases t <;> rfl

/-- DL_CTL is a plain word of its page, whose effect is its own. -/
theorem exec_dlCtlWrite {s : State} (hp : s.pw.por = false) {t : Trunk} {m : Master} (serves : Serves s m (dlPage t)) (v : Word) :
    exec (.dlCtlWrite m t v) s = .next (dlCtl t v.toNat (beginAccess m s)) := by
  have effect : ∀ u, writeEffect m (dlPage t) 0x040 v.toNat u = dlCtl t v.toNat u := fun u => by cases t <;> rfl
  have core := rowWrite_core serves (by cases t <;> decide) (show 0x040 < 0x1000 by decide) (by decide) (by cases t <;> decide)
    (by cases t <;> decide) (by cases t <;> decide) (writeRefusal_dlCtl s t v.toNat)
  rw [effect] at core
  exact congrArg Host.Outcome.next ((running_eq _ hp).trans core)

theorem getDl_beginAccess (m : Master) (s : State) (t : Trunk) : getDl (beginAccess m s) t = getDl s t := by cases t <;> rfl

/-- Settles O45: the packet that is due is served by its own master; the response fills one cell of Q13 and closes with the slot and
orbit it was made in; CTL_EN 0 ends the packet in assembly on its own downlink. -/
theorem controlChannelAnswersInOrder : Obligations.ControlChannelAnswersInOrder := by
  intro s t hp shaped canon
  refine ⟨fun v k hv oldest due => ?_, fun k rest l run held resp short whole => controlResponse_written hp shaped run held resp short whole,
    fun m v serves => ?_⟩
  · have served := exec_controlPacket hp t
    rw [← hv, packetStep_due oldest due] at served
    refine ⟨fun c refused => ?_, fun whole op r hr => ?_, fun whole op r hr => ?_⟩
    · rw [servePacket_refused refused] at served
      exact ⟨_, served, by simp, getDl_modDl_peer _ _ _, getDl_modDl _ _ _⟩
    · rw [servePacket_read whole op hr] at served
      exact ⟨_, served, by simp, by rw [getDl_modDl]⟩
    · rw [servePacket_write whole op hr] at served
      exact ⟨_, served, by simp, by rw [getDl_modDl]⟩
  · have keys : keysFrom 0 (beginAccess m s).fab.regs = true := canon.regs
    have begun : Only [.fab, .dlA, .dlB] s (beginAccess m s) := (noted_beginAccess m s).only.mono
    refine ⟨_, exec_dlCtlWrite hp serves v, begun.trans (by simp), regAt_dlCtl _ _ _ keys, ?_, fun on => ?_, fun off => ?_⟩
    · rw [getDl_dlCtl_peer, getDl_beginAccess]
    · rw [getDl_dlCtl_on _ _ _ on, getDl_beginAccess]
    · exact getDl_dlCtl_off _ _ _ off

end Sys2Proof.Machine
end

section
/-! The management port (R313–R320): frames received, register requests, frames sent, the link. -/

namespace Sys2Proof.Machine

theorem exec_mgFrameReceive {s : State} (hp : s.pw.por = false) (f : List Byte) (m : Fin 64) :
    exec (.mgFrameReceive f m) s = .next (mgReceive f m.val s) := congrArg Host.Outcome.next (running_eq _ hp)

theorem exec_registerRequest {s : State} (hp : s.pw.por = false) :
    exec .registerRequest s = .next (requestStep (downlinksFirst s)) := congrArg Host.Outcome.next (running_eq registerRequest hp)

theorem exec_mgFrameSend {s : State} (hp : s.pw.por = false) (m : Fin 64) (starved : Option Nat) :
    exec (.mgFrameSend m starved) s = .next (mgSend m.val starved s) := congrArg Host.Outcome.next (running_eq _ hp)

theorem exec_mgLinkChange {s : State} (hp : s.pw.por = false) (sync an : Bool) :
    exec (.mgLinkChange sync an) s = .next (linkChange sync an s) := congrArg Host.Outcome.next (running_eq _ hp)

theorem portUp_of {s : State} (hp : s.pw.por = false) (hx : s.pw.xtal = true) (link : s.mg.link = true) : portUp s = true := by
  simp [portUp, hp, hx, link]

/-! ### The own address (R328) -/

theorem mgMac_congr {s t : State} (h : t.fab.regs = s.fab.regs) : mgMac t = mgMac s := by
  unfold mgMac regAt
  rw [h]

/-! ### Ingress (R314, R315) -/

/-- An accepted frame is counted (R314). -/
def frameCounted (s : State) : State :=
  { s with mg := { s.mg with rx := (s.mg.rx + 1) % 2 ^ 32, rxCount := (s.mg.rxCount + 1) % 65536 } }

/-- Where an accepted frame goes. -/
def frameTaken (f : List Byte) (m : Nat) (s : State) : State :=
  if f.take 6 = mgMac s ∧ etherType f = 0x88B5 ∧ (regAt s 0x58 0x040).testBit 1 = true then toEngine f s
  else if etherType f = 0x88F7 then ingress 24 m f s
  else ingress 25 m f s

theorem only_frameCounted (s : State) : Only [.mg] s (frameCounted s) := (only_mk_mg s s _).2 (.refl _ _)

section
variable {s : State} (up : portUp s = true) {f : List Byte} (m : Nat)
include up

theorem mgReceive_badFcs (bad : fcsOk f = false) : mgReceive f m s = count 0x58 0 s := by simp [mgReceive, up, bad]

theorem mgReceive_other (good : fcsOk f = true) (other : f.length < 64 ∨ maxLen s < f.length ∨ destOk s f = false) : mgReceive f m s = s := by
  simp [mgReceive, up, good, other]

theorem mgReceive_accepted (good : fcsOk f = true) (long : 64 ≤ f.length) (short : f.length ≤ maxLen s) (mine : destOk s f = true) :
    mgReceive f m s = frameTaken f m (frameCounted s) := by
  have fits : ¬ (f.length < 64 ∨ maxLen s < f.length ∨ destOk s f = false) := by
    rw [mine]
    simp
    omega
  unfold mgReceive
  simp only [up, good, if_neg fits, Bool.not_true, Bool.false_eq_true, if_false]
  rfl

end

section
variable (f : List Byte) (s : State)

theorem mg_toEngine : (toEngine f s).mg = { s.mg with reqs := if 4 ≤ s.mg.reqs.length + s.mg.resps.length then s.mg.reqs
    else s.mg.reqs ++ [{ src := (f.drop 6).take 6, body := (f.take (f.length - 4)).drop 14 }] } := by
  unfold toEngine mgHeld
  split
  · exact Only.mg (M := [.fab]) (by simp)
  · rfl

theorem told_toEngine : Told [0x58, 0x7C] s (toEngine f s) :=
  (told_count s (by decide) 4 (by decide)).ite (.of_fab rfl)

end

theorem told_cancelBale (q : Nat) (s : State) : Told serPages s (cancelBale q s) := by
  unfold cancelBale
  split
  · exact .refl s
  · refine Told.trans ?_ (told_seraiSync _)
    refine Told.trans ?_ (told_count _ (by decide) 3 (by decide))
    exact told_modQ _ _ _

theorem unfit_cancelBale (q : Nat) (s : State) : OnlyAndUnfit [.fab, .ser] s (cancelBale q s) := by
  unfold cancelBale
  split
  · exact .of_only (.refl _ _)
  · refine OnlyAndUnfit.trans (.of_only ?_) (unfit_seraiSync _)
    simp

theorem told_dropItem (q : Nat) (s : State) : Told serPages s (dropItem q s) := by
  unfold dropItem
  split
  · exact (told_cancelBale q s).ite ((told_modQ _ _ _).trans (told_seraiSync _))
  · exact (told_modQ _ _ _).trans (told_seraiSync _)

theorem unfit_dropItem (q : Nat) (s : State) : OnlyAndUnfit [.fab, .ser] s (dropItem q s) := by
  have sync (f : Queue → Queue) : OnlyAndUnfit [.fab, .ser] s (seraiSync (modQ q f s)) :=
    OnlyAndUnfit.trans (.of_only (by simp)) (unfit_seraiSync _)
  unfold dropItem
  split
  · split
    · exact unfit_cancelBale q s
    · exact sync _
  · exact sync _

theorem dropItem_empty {q : Nat} {s : State} (h : (getQ s q).waiting = []) :
    dropItem q s = seraiSync (modQ q (fun x => { x with waiting := x.waiting.dropLast }) s) := by
  unfold dropItem
  simp only [h]

section
variable (q m : Nat) (f : List Byte) (s : State)

theorem ingress_stopped (h : s.pw.coreRun = false) : ingress q m f s = count 0x58 1 s := by simp [ingress, h]

theorem ingress_running (h : s.pw.coreRun = true) : ingress q m f s =
    if rxWaiting (writeBale q (ingressItem s q m f) s) ≤ 2048 then writeBale q (ingressItem s q m f) s
    else count 0x58 1 (dropItem q (writeBale q (ingressItem s q m f) s)) := by simp [ingress, h]

theorem told_ingress : Told (0x58 :: serPages) s (ingress q m f s) := by
  have written : Told (0x58 :: serPages) s (writeBale q (ingressItem s q m f) s) := (told_writeBale _ _ _).mono (by decide)
  cases h : s.pw.coreRun
  · rw [ingress_stopped q m f s h]
    exact told_count s (by decide) 1 (by decide)
  · rw [ingress_running q m f s h]
    refine written.ite (written.trans ?_)
    exact ((told_dropItem q _).mono (by decide)).trans (told_count _ (by decide) 1 (by decide))

theorem unfit_ingress : OnlyAndUnfit [.fab, .ser] s (ingress q m f s) := by
  have written := unfit_writeBale q (ingressItem s q m f) s
  have counted (v : State) : OnlyAndUnfit [.fab, .ser] v (count 0x58 1 v) := .of_only (by simp)
  cases h : s.pw.coreRun
  · rw [ingress_stopped q m f s h]
    exact counted s
  · rw [ingress_running q m f s h]
    split
    · exact written
    · exact (written.trans (unfit_dropItem q _)).trans (counted _)

theorem ingressItem_ne_nil : ingressItem s q m f ≠ [] := by
  rw [← List.length_pos_iff]
  simp [ingressItem, tsRecord, leBytes_length]

end

/-- A queue with nothing waiting keeps its readable bales where the newest item is given up. -/
theorem dropItem_kept {s : State} {q : Nat} (hq : q < s.ser.qs.length) (waiting : (getQ s q).waiting = []) :
    (getQ (dropItem q s) q).ready = (getQ s q).ready ∧ (getQ (dropItem q s) q).waiting = [] ∧ OtherQueues s (dropItem q s) q := by
  rw [dropItem_empty waiting, modQ_eq_withQ hq]
  have sync (k : Nat) (x : Queue) (ids : Nat) : bareQ (seraiSync (withQ q x ids s)) k = bareQ (withQ q x ids s) k := bareQ_seraiSync _ _
  refine ⟨?_, ?_, fun k hk => (sync k _ _).trans (otherQueues_withQ _ _ k hk)⟩
  · rw [ready_of_bareQ (sync q _ _), getQ_withQ hq]
  · rw [waiting_of_bareQ (sync q _ _), getQ_withQ hq, waiting]
    rfl

theorem queues_skel (s : State) : s.ser.qs.length = (skel s).nQs := rfl

/-- An item that its queue takes whole is the newest readable bale there (R315). -/
theorem ingress_whole {s : State} {q : Nat} (hq : q < s.ser.qs.length) (plain : pgIn q 13 15 = false) (m : Nat) (f : List Byte)
    (run : s.pw.coreRun = true) (whole : TakesWhole s q (cellsOf (ingressItem s q m f).length)) :
    (getQ (ingress q m f s) q).ready.map (·.bytes) = (getQ s q).ready.map (·.bytes) ++ [ingressItem s q m f] ∧
      (getQ (ingress q m f s) q).waiting = [] ∧ OtherQueues s (ingress q m f s) q := by
  obtain ⟨b, ready, bytes, emptied, others⟩ := writeBale_whole hq (ingressItem_ne_nil q m f s) whole
  have final : b.bytes = ingressItem s q m f := by rw [bytes]; simp [closedBytes, plain]
  have listed : (getQ (writeBale q (ingressItem s q m f) s) q).ready.map (·.bytes) =
      (getQ s q).ready.map (·.bytes) ++ [ingressItem s q m f] := by rw [ready, List.map_append, List.map_singleton, final]
  have length : q < (writeBale q (ingressItem s q m f) s).ser.qs.length := by
    rw [queues_skel, skel_writeBale, ← queues_skel]
    exact hq
  rw [ingress_running q m f s run]
  split
  · exact ⟨listed, emptied, others⟩
  · obtain ⟨kept, still, rest⟩ := dropItem_kept length emptied
    have counted (v : State) : (count 0x58 1 v).ser.qs = v.ser.qs := congrArg Serai.qs (Only.ser (M := [.fab]) (by simp))
    refine ⟨?_, ?_, fun k hk => (bareQ_congr (counted _) k).trans ((rest k hk).trans (others k hk))⟩
    · rw [getQ_congr (counted _), kept, listed]
    · rw [getQ_congr (counted _), still]

theorem frameTaken_engine {s : State} {f : List Byte} (h : f.take 6 = mgMac s ∧ etherType f = 0x88B5 ∧ (regAt s 0x58 0x040).testBit 1 = true)
    (m : Nat) : frameTaken f m s = toEngine f s := if_pos h

theorem frameTaken_item {s : State} {f : List Byte} (h : ¬ (f.take 6 = mgMac s ∧ etherType f = 0x88B5 ∧ (regAt s 0x58 0x040).testBit 1 = true))
    (m : Nat) : frameTaken f m s = ingress (if etherType f = 0x88F7 then 24 else 25) m f s := by
  unfold frameTaken
  rw [if_neg h]
  split <;> rfl

/-- An accepted frame reaches its place, and nothing else of the port changes. -/
theorem mgReceive_taken {s : State} (up : portUp s = true) {f : List Byte} (m : Nat) (good : fcsOk f = true) (long : 64 ≤ f.length)
    (short : f.length ≤ maxLen s) (mine : destOk s f = true) :
    OnlyAndUnfit [.fab, .ser, .mg] s (mgReceive f m s) ∧ (mgReceive f m s).fab.regs = s.fab.regs ∧
      (mgReceive f m s).mg.rx = (s.mg.rx + 1) % 2 ^ 32 ∧ (mgReceive f m s).mg.rxCount = (s.mg.rxCount + 1) % 65536 ∧
      (mgReceive f m s).mg.resps = s.mg.resps ∧
      (f.take 6 = mgMac s ∧ etherType f = 0x88B5 ∧ (regAt s 0x58 0x040).testBit 1 = true → (mgReceive f m s).ser = s.ser ∧
        (mgReceive f m s).mg.reqs = if 4 ≤ s.mg.reqs.length + s.mg.resps.length then s.mg.reqs
          else s.mg.reqs ++ [{ src := (f.drop 6).take 6, body := (f.take (f.length - 4)).drop 14 }]) ∧
      (¬ (f.take 6 = mgMac s ∧ etherType f = 0x88B5 ∧ (regAt s 0x58 0x040).testBit 1 = true) → (mgReceive f m s).mg.reqs = s.mg.reqs) := by
  have base := only_frameCounted s
  rw [mgReceive_accepted up m good long short mine]
  by_cases h : f.take 6 = mgMac s ∧ etherType f = 0x88B5 ∧ (regAt s 0x58 0x040).testBit 1 = true
  · rw [frameTaken_engine (s := frameCounted s) h]
    have taken : Only [.fab, .mg] (frameCounted s) (toEngine f (frameCounted s)) := by simp
    have mg := mg_toEngine f (frameCounted s)
    exact ⟨.of_only (base.mono.trans taken.mono), (told_toEngine f _).regs, by rw [mg]; rfl, by rw [mg]; rfl, by rw [mg]; rfl,
      fun _ => ⟨taken.ser, by rw [mg]; rfl⟩, fun other => absurd h other⟩
  · rw [frameTaken_item (s := frameCounted s) h]
    generalize (if etherType f = 0x88F7 then 24 else 25) = q
    have unfit := unfit_ingress q m f (frameCounted s)
    have mg := unfit.1.mg
    exact ⟨OnlyAndUnfit.trans (.of_only base.mono) unfit.mono, (told_ingress q m f _).regs, by rw [mg]; rfl, by rw [mg]; rfl,
      by rw [mg]; rfl, fun engine => absurd engine h, fun _ => by rw [mg]; rfl⟩

/-- Where an item of the port goes: lost and counted while CK_CORE is stopped, else to its queue. -/
theorem mgReceive_item {s : State} (up : portUp s = true) {f : List Byte} (m : Nat) (good : fcsOk f = true) (long : 64 ≤ f.length)
    (short : f.length ≤ maxLen s) (mine : destOk s f = true)
    (h : ¬ (f.take 6 = mgMac s ∧ etherType f = 0x88B5 ∧ (regAt s 0x58 0x040).testBit 1 = true)) :
    ∀ q item, q = (if etherType f = 0x88F7 then 24 else 25) →
      item = ingressItem { s with mg := { s.mg with rxCount := (s.mg.rxCount + 1) % 65536 } } q m f →
      (s.pw.coreRun = false → (mgReceive f m s).ser = s.ser ∧
        (Canonical s → tallyOf (mgReceive f m s) 0x58 1 = min 0xFF (tallyOf s 0x58 1 + 1))) ∧
      (s.pw.coreRun = true → Shaped s → TakesWhole s q (cellsOf item.length) →
        (getQ (mgReceive f m s) q).ready.map (·.bytes) = (getQ s q).ready.map (·.bytes) ++ [item] ∧
          (getQ (mgReceive f m s) q).waiting = [] ∧ OtherQueues s (mgReceive f m s) q) := by
  intro q item hq hitem
  have place : q = 24 ∨ q = 25 := by rw [hq]; split <;> simp
  have sent : mgReceive f m s = ingress q m f (frameCounted s) := by
    rw [mgReceive_accepted up m good long short mine, frameTaken_item (s := frameCounted s) h, ← hq]
  have same : ingressItem (frameCounted s) q m f = item := hitem.symm
  rw [sent]
  refine ⟨fun stopped => ?_, fun run shaped whole => ?_⟩
  · rw [ingress_stopped q m f (frameCounted s) stopped]
    refine ⟨Only.ser (M := [.fab]) (s := frameCounted s) (by simp), fun canon => ?_⟩
    have counted : Canonical (frameCounted s) := canon.of_parts rfl rfl rfl rfl
    exact counted.tallyOf_count 1 (by decide)
  · have inside : q < (frameCounted s).ser.qs.length := by
      show q < s.ser.qs.length
      rw [shaped.queues]
      omega
    have plain : pgIn q 13 15 = false := by rcases place with rfl | rfl <;> rfl
    rw [← same] at whole ⊢
    exact ingress_whole inside plain m f run whole

/-! ### Register requests (R318–R320) -/

section
variable {s : State} {r : MgReq} {rest : List MgReq}

theorem requestStep_oldest (hx : s.pw.xtal = true) (oldest : s.mg.reqs = r :: rest) :
    requestStep s = serveRequest r { s with mg := { s.mg with reqs := rest } } := by
  unfold requestStep
  rw [oldest]
  simp only [hx, if_true]

theorem serveRequest_version (h : r.body.getD 0 0 ≠ 1) : serveRequest r s = count 0x58 3 s := if_pos h

theorem serveRequest_refused (h : r.body.getD 0 0 = 1) {c : Nat} (refused : requestRefusal r.body = some c) :
    serveRequest r s = queueResponse r (requestPayload r.body c 0 []) (count 0x58 3 s) := by
  unfold serveRequest
  rw [if_neg (by rw [h]; simp), refused]

/-- A request that is not refused whole makes its accesses and is answered with what they gave. -/
theorem serveRequest_served (h : r.body.getD 0 0 = 1) (whole : requestRefusal r.body = none) {x : Served × State}
    (hx : x = if r.body.getD 1 0 = 1 then seqWrite .mgmt 0 (reqAddr r.body) (reqWords r.body) {} s
      else seqRead .mgmt (reqCount r.body) 0 (reqAddr r.body) {} s) :
    serveRequest r s = queueResponse r
      (requestPayload r.body x.1.cause x.1.idx (if r.body.getD 1 0 = 1 then [] else x.1.words)) x.2 := by
  unfold serveRequest
  rw [if_neg (by rw [h]; simp), whole, hx]
  by_cases write : r.body.getD 1 0 = 1
  · simp only [if_pos write]
  · simp only [if_neg write]

end

theorem mg_regOffDone (s : State) : (regOffDone s).mg = { s.mg with regOff := false } := by
  unfold regOffDone
  split
  · rfl
  · next h => rw [← Bool.eq_false_iff.2 h]

theorem mg_queueResponse (r : MgReq) (payload : List Byte) (s : State) : (queueResponse r payload s).mg =
    { s.mg with resps := s.mg.resps ++ [r.src ++ mgMac s ++ [0x88, 0xB5] ++ payload], regOff := false } := mg_regOffDone _

/-! ### Egress (R307, R316, R317) -/

section
variable {s : State} (up : portUp s = true) (idle : s.mg.prog = none) (m : Nat) (starved : Option Nat)
include up idle

theorem mgSend_response {r : List Byte} {rest : List (List Byte)} (oldest : s.mg.resps = r :: rest)
    (fits : s.pw.coreRun = false ∨ fitsLaunches s r.length m = true) :
    mgSend m starved s = frameOut r { s with mg := { s.mg with resps := rest } } := by
  unfold mgSend
  simp only [up, idle, oldest, if_pos fits, Bool.not_true, Bool.false_eq_true, if_false]

theorem mgSend_plain {q : Nat} (no_resp : s.mg.resps = []) (run : s.pw.coreRun = true) (no_due : dueQueue s m = none)
    (plain : plainQueue s m = some q) : mgSend m starved s = startItem q m s := by
  unfold mgSend sendQueued
  simp only [up, idle, no_resp, run, no_due, plain, Bool.not_true, Bool.false_eq_true, if_false]

end

/-- A plain item at its timestamp point, read from its queue. -/
def itemRead (q m : Nat) (l : List Byte) (s : State) : State :=
  { (readItem q 0 (stampFrame q m l s)) with mg := { (readItem q 0 (stampFrame q m l s)).mg with lastRR := decide (q = 21) } }

/-- A whole item of a plain queue leaves as its frame. -/
theorem startItem_plain {s : State} {q m : Nat} {l : List Byte} (low : q < 22) (head : egressHead s q = some (l, true))
    (sound : itemBad l true = false) (two : itemOne l = false) : startItem q m s = headSent q (frameOut (l.drop 16) (itemRead q m l s)) := by
  have early : lateNow s q m = false := by
    have : decide (22 ≤ q) = false := by simpa using low
    simp [lateNow, this]
  unfold startItem
  rw [head]
  simp only [sound, early, Bool.false_eq_true, if_false]
  unfold beginItem
  simp only [if_pos low, if_true]
  simp [itemFrame, two, itemRead]

theorem told_eccRead (q : Nat) (b : Bale) (a n : Nat) (s : State) : Told serPages s (eccRead q b a n s) :=
  Told.foldl (fun v _ => (told_count v (by decide) 5 (by decide)).ite (told_countD v (by decide) 6 _ (by decide))) _ s

theorem told_readItem (q a : Nat) (s : State) : Told serPages s (readItem q a s) := by
  unfold readItem
  dsimp only
  split
  · exact told_eccRead _ _ _ _ _
  · exact told_eccRead _ _ _ _ _
  · exact .refl s

theorem told_tsePush (l : List Byte) (s : State) : Told [0x54, 0x7C] s (tsePush l s) :=
  (told_count s (by decide) 6 (by decide)).ite (.of_fab rfl)

section
variable (q m : Nat) {l : List Byte} (s : State) (two : itemOne l = false)
include two

/-- A two-step frame leaves its record where one is asked for (R303). -/
theorem stampFrame_two : stampFrame q m l s = if itemTs l then
    tsePush (tsRecord s (some (tsTx s .tb1 m, tsTx s .tb3 m)) (itemId l) true false (getQ s q).late (q - 20)) s else s := by
  simp [stampFrame, two]

theorem told_stampFrame_two : Told [0x54, 0x7C] s (stampFrame q m l s) := by
  rw [stampFrame_two q m s two]
  exact (told_tsePush _ s).ite (.refl s)

theorem tb_stampFrame_plain (no_record : itemTs l = false) : (stampFrame q m l s).tb = s.tb := by
  rw [stampFrame_two q m s two, no_record]
  rfl

theorem tb_stampFrame_record (record : itemTs l = true) (room : s.tb.tse.length < 16) : (stampFrame q m l s).tb = { s.tb with
    tse := s.tb.tse ++ [tsRecord s (some (tsTx s .tb1 m, tsTx s .tb3 m)) (itemId l) true false (getQ s q).late (q - 20)] } := by
  have free : ¬ 16 ≤ s.tb.tse.length := by omega
  rw [stampFrame_two q m s two, record, if_pos rfl]
  simp [tsePush, free]

end

theorem told_headSent (q : Nat) (s : State) : Told serPages s (headSent q s) := by
  unfold headSent
  exact (told_modQ _ _ _).trans (told_seraiSync _)

theorem unfit_headSent (q : Nat) (s : State) : OnlyAndUnfit [.fab, .ser] s (headSent q s) := by
  unfold headSent
  exact OnlyAndUnfit.trans (.of_only (by simp)) (unfit_seraiSync _)

/-- The frame of a plain item leaves, its head is gone, and its record stands at the end of the FIFO. -/
theorem plainItem_sent {s : State} (q m : Nat) {l : List Byte} (two : itemOne l = false) :
    OnlyAndUnfit [.fab, .ser, .tb, .mg] s (headSent q (frameOut (l.drop 16) (itemRead q m l s))) ∧
      (headSent q (frameOut (l.drop 16) (itemRead q m l s))).fab.regs = s.fab.regs ∧
      (headSent q (frameOut (l.drop 16) (itemRead q m l s))).mg = { s.mg with
        lastRR := decide (q = 21), tx := (s.mg.tx + 1) % 2 ^ 32, sent := padded (l.drop 16) ++ fcsOf (padded (l.drop 16)),
        errored := false } ∧
      (headSent q (frameOut (l.drop 16) (itemRead q m l s))).tb = (stampFrame q m l s).tb := by
  have stamped : Only [.fab, .tb] s (stampFrame q m l s) := by simp
  have read : Only [.fab] (stampFrame q m l s) (readItem q 0 (stampFrame q m l s)) := by simp
  have told := (told_stampFrame_two q m s two).regs
  have told' := (told_readItem q 0 (stampFrame q m l s)).regs
  have turned : Only [.mg] (readItem q 0 (stampFrame q m l s)) (frameOut (l.drop 16) (itemRead q m l s)) := by
    simp only [only_frameOut _ _ _ _ (List.Subset.refl [Part.mg])]
    exact (only_mk_mg _ _ _).2 (.refl _ _)
  have mg : (frameOut (l.drop 16) (itemRead q m l s)).mg = { (readItem q 0 (stampFrame q m l s)).mg with
      lastRR := decide (q = 21), tx := ((readItem q 0 (stampFrame q m l s)).mg.tx + 1) % 2 ^ 32,
      sent := padded (l.drop 16) ++ fcsOf (padded (l.drop 16)), errored := false } := rfl
  rw [read.mg, stamped.mg] at mg
  generalize frameOut (l.drop 16) (itemRead q m l s) = v at turned mg
  have unfit := unfit_headSent q v
  have before : Only [.fab, .ser, .tb, .mg] s v := stamped.mono.trans (read.mono.trans turned.mono)
  refine ⟨OnlyAndUnfit.trans (.of_only before) unfit.mono, ?_, ?_, ?_⟩
  · rw [(told_headSent q v).regs, turned.fab, told', told]
  · rw [unfit.1.mg, mg]
  · rw [unfit.1.tb, turned.tb, read.tb]

/-! ### The link (R313) -/

theorem linkChange_mg {s : State} (hx : s.pw.xtal = true) (sync an : Bool) : (linkChange sync an s).mg =
    { s.mg with sync := sync, anDone := sync && an, link := sync && (an || !(regAt s 0x58 0x040).testBit 0) } := by
  unfold linkChange
  rw [if_pos hx, mg_linkSync]
  cases sync <;> rfl

theorem told_linkChange (sync an : Bool) (s : State) : Told [0x58, 0x7C] s (linkChange sync an s) := by
  unfold linkChange
  refine Told.ite (Told.trans ?_ (told_linkSync _)) (.refl s)
  exact .of_fab rfl

/-- Settles O53: a frame is judged and taken to its place; the oldest request is answered with what its accesses gave; a response or
the whole item of a plain queue leaves; the link follows both of its conditions. -/
theorem managementFramesComeAndGo : Obligations.ManagementFramesComeAndGo := by
  intro s hp hx
  refine ⟨fun link f m64 => ?_, fun v r rest hv vx oldest => ?_, fun link idle m64 starved => ?_, fun sync an => ?_⟩
  · have up := portUp_of hp hx link
    have received := exec_mgFrameReceive hp f m64
    refine ⟨fun bad => ?_, fun good other => ?_, fun good long short mine => ?_⟩
    · rw [received, mgReceive_badFcs up _ bad]
    · rw [received, mgReceive_other up _ good other]
    · obtain ⟨unfit, regs, rx, count, resps, engine, item⟩ := mgReceive_taken up m64.val good long short mine
      exact ⟨_, received, unfit, regs, rx, count, resps, engine,
        fun h => ⟨item h, mgReceive_item up m64.val good long short mine h⟩⟩
  · have served := exec_registerRequest hp
    rw [← hv, requestStep_oldest vx oldest] at served
    refine ⟨fun version => ?_, fun version c refused => ?_, fun version whole x access => ?_⟩
    · rw [served, serveRequest_version version]
    · rw [serveRequest_refused version refused] at served
      have taken : Only [.fab, .mg] v { v with mg := { v.mg with reqs := rest } } := Only.mono ((only_mk_mg v v _).2 (.refl _ _))
      generalize hw : { v with mg := { v.mg with reqs := rest } } = w at served taken
      have counted : Only [.fab] w (count 0x58 3 w) := by simp
      have regs := (told_count (P := [0x58, 0x7C]) (p := 0x58) w (by decide) 3 (by decide)).regs
      have mg : w.mg = { v.mg with reqs := rest } := by rw [← hw]
      have fab : w.fab.regs = v.fab.regs := by rw [← hw]
      refine ⟨_, served, taken.trans (by simp), ?_, ?_⟩
      · rw [mg_queueResponse, counted.mg, mg]
      · rw [mg_queueResponse, counted.mg, mg, mgMac_congr (regs.trans fab)]
    · rw [serveRequest_served version whole access] at served
      exact ⟨_, served, by simp, by rw [mg_queueResponse]⟩
  · have up := portUp_of hp hx link
    have sent := exec_mgFrameSend hp m64 starved
    refine ⟨fun r rest oldest fits => ?_, fun q l no_resp run no_due plain low head sound two => ?_⟩
    · rw [sent, mgSend_response up idle _ starved oldest fits]
      rfl
    · obtain ⟨unfit, regs, mg, tb⟩ := plainItem_sent (s := s) q m64.val two
      rw [mgSend_plain up idle _ starved no_resp run no_due plain, startItem_plain low head sound two] at sent
      refine ⟨_, sent, unfit, regs, by rw [mg], by rw [mg], by rw [mg], fun no_record => ?_, fun record room => ?_⟩
      · rw [tb, tb_stampFrame_plain q _ s two no_record]
      · rw [tb, tb_stampFrame_record q _ s two record room]
  · exact ⟨_, exec_mgLinkChange hp sync an, by simp, (told_linkChange sync an s).regs, linkChange_mg hx sync an⟩

end Sys2Proof.Machine
end

section
/-! Fast commands in their effect slot (R264–R266): each part of the oldest due frame, and what it does to the counter and the update
marks (R19, R29, R33, R265). -/

namespace Sys2Proof.Machine

/-! ### The parts of a due frame -/

section
variable {s : State} {t : Trunk} {d : Due} (head : dueHead s = some (t, d))
include head

theorem onCode_due {c : Nat} (code : d.code = some c) {want : Nat → Bool} (wanted : want c = true) (act : Trunk → State → State) :
    onCode want act s = act t (setDue t d { d with code := none } s) := by
  simp only [onCode, head, code, wanted, if_true]

theorem onCode_other {want : Nat → Bool} (other : ∀ c, d.code = some c → want c = false) (act : Trunk → State → State) :
    onCode want act s = s := by
  cases code : d.code with
  | none => simp only [onCode, head, code]
  | some c => simp [onCode, head, code, other c code]

theorem orbitMarkCmd_due (code : d.code = none) (orbit : d.orbit = true) :
    orbitMarkCmd s = markAct (setDue t d { d with orbit := false } s) := by
  simp [orbitMarkCmd, head, code, orbit]

theorem acceptCmd_due (code : d.code = none) (orbit : d.orbit = false) (accept : d.accept = true) :
    acceptCmd s = acceptAt d.slot (setDue t d { d with accept := false } s) := by
  simp [acceptCmd, head, code, orbit, accept]

end

theorem only_of_setDue (t : Trunk) (d d' : Due) (s : State) : Only [.dlA, .dlB] s (setDue t d d' s) := by simp

theorem getDl_setDue (t : Trunk) (d d' : Due) (s : State) :
    getDl (setDue t d d' s) t = { getDl s t with due := putDue d d' (getDl s t).due } := getDl_modDl _ _ _

theorem getDl_setDue_peer (t : Trunk) (d d' : Due) (s : State) : getDl (setDue t d d' s) (peer t) = getDl s (peer t) :=
  getDl_modDl_peer _ _ _

/-! Two more parts of a frame, for `by simp` to prove. (A default argument of the model's own, as that of `Only.orb`, is elaborated only
once every earlier declaration is checked, and each one that waits takes a thread's stack; so the proofs below write it out.) -/

theorem orb_of_only {s t : State} (h : Only (beside .orb) s t) : t.orb = s.orb := agree_of_beside h
theorem fab_of_only {s t : State} (h : Only (beside .fab) s t) : t.fab = s.fab := agree_of_beside h

/-- A due frame that gives up a part of its content changes its downlink alone. -/
theorem setDue_rest (t : Trunk) (d d' : Due) (s : State) : (setDue t d d' s).pw = s.pw ∧ (setDue t d d' s).fab = s.fab ∧
    (setDue t d d' s).orb = s.orb ∧ (setDue t d d' s).acq = s.acq ∧ (setDue t d d' s).pls = s.pls := by
  cases t <;> exact ⟨rfl, rfl, rfl, rfl, rfl⟩

/-- What leaves the downlinks alone leaves each of them alone. -/
theorem getDl_of_only {M : List Part} {s t : State} (h : Only M s t) (x : Trunk) (hA : Part.dlA ∉ M)
    (hB : Part.dlB ∉ M) : getDl t x = getDl s x := by
  cases x
  · exact h.dlA hA
  · exact h.dlB hB

/-! ### The cutoff (R33) -/

theorem cutoffNow_early {s : State} (early : cutoffPassed s = false) : cutoffNow s = s := by
  simp only [cutoffPassed, Bool.or_eq_false_iff, decide_eq_false_iff_not, Nat.not_le] at early
  exact if_pos (.inr (.inr (.inr early.2)))

theorem cutoffNow_past {s : State} (past : s.orb.pastCut = true) : cutoffNow s = s := if_pos (.inr (.inr (.inl past)))

theorem orb_cutoffNow (s : State) : (cutoffNow s).orb =
    if !s.pw.coreRun ∨ s.orb.st = .idle ∨ s.orb.pastCut ∨ s.orb.slot + 16 < orbLen s then s.orb
    else { s.orb with pastCut := true, lateMap := [] } := by
  unfold cutoffNow
  split <;> rfl

section
variable {s : State} (run : s.pw.coreRun = true) (out : s.orb.st ≠ .idle)
include run out

theorem cutoffNow_due (yet : s.orb.pastCut = false) (due : orbLen s ≤ s.orb.slot + 16) :
    cutoffNow s = powerAhead (s.pw.elapsed - (s.orb.slot + 16 - orbLen s)) (takeCutoff s) :=
  if_neg (by simp [run, out, yet, due])

/-- An event of the orbit finds the cutoff passed exactly from its slot on. -/
theorem pastCut_cutoffNow : (cutoffNow s).orb.pastCut = cutoffPassed s := by
  cases past : cutoffPassed s with
  | false =>
    rw [cutoffNow_early past]
    exact (Bool.or_eq_false_iff.1 past).1
  | true =>
    cases yet : s.orb.pastCut with
    | true => rw [cutoffNow_past yet, yet]
    | false =>
      rw [cutoffNow_due run out yet (by simpa [cutoffPassed, yet] using past)]
      rfl

end

/-- The cutoff freezes the buffered words and marks no group. -/
theorem fab_cutoffNow (s : State) : (cutoffNow s).fab = { s.fab with
    frozen := (cutoffNow s).fab.frozen, frozenPg := (cutoffNow s).fab.frozenPg, late := (cutoffNow s).fab.late } := by
  unfold cutoffNow
  split <;> rfl

theorem getD_mapIdxN {α : Type} (f : Nat → α → α) (l : List α) (d : α) {c : Nat} (h : c < l.length) :
    (mapIdxN f l).getD c d = f c (l.getD c d) := by
  simp [mapIdxN, List.getD, h]

/-- Powering up ahead of a boundary takes no converter off. -/
theorem on_powerAhead (e : Nat) {s : State} {c : Nat} (h : c < s.conv.length) (on : (getConv s c).on = true) :
    (getConv (powerAhead e s) c).on = true := by
  have same : getConv (powerAhead e s) c = getConv s c := by
    unfold getConv at on ⊢
    unfold powerAhead
    rw [getD_mapIdxN _ _ _ h]
    exact if_neg (by rw [on]; simp)
  rw [same, on]

/-- Settles O17: the cutoff keeps the buffered words as they stand and powers converters up ahead of the boundary. -/
theorem cutoffFreezesWhatIsPending : Obligations.CutoffFreezesWhatIsPending := by
  intro s hp run out yet due
  have acts : exec .cutoff s = .next (cutoffNow s) := congrArg _ (coreOnly_eq cutoffNow hp run)
  have only : Only [.fab, .orb, .conv] s (cutoffNow s) := by simp
  have powered (c : Nat) : s.conv.length = 384 → c < 384 → (getConv s c).on = true → (getConv (cutoffNow s) c).on = true := by
    intro shape hc on
    rw [cutoffNow_due run out yet due]
    exact on_powerAhead _ (s := takeCutoff s) (shape ▸ hc) on
  refine ⟨_, acts, ?_, ?_, ?_, ?_, ?_, ?_, ?_, powered, only⟩ <;> rw [cutoffNow_due run out yet due] <;> rfl

/-! ### Strobes (R33, R338, R340) -/

/-- The groups `g` are marked for the boundary after the next. -/
def markNext (g : BitVec 16) (s : State) : State := { s with fab := { s.fab with next := s.fab.next ||| g } }

theorem strobe_none (s : State) : strobe 0 s = s := if_pos rfl

section
variable {s : State} {g : BitVec 16} (marks : g ≠ 0)
include marks

theorem strobe_idle (idle : s.orb.st = .idle) : strobe g s =
    { s with fab := { s.fab with marked := s.fab.marked ||| g, idleAt := s.fab.idleAt ++ [(s.pw.cc + 9, g)] } } := by
  rw [strobe, if_neg marks, if_pos idle]

variable (out : s.orb.st ≠ .idle)
include out

theorem strobe_early (early : cutoffPassed s = false) : strobe g s = { s with fab := { s.fab with marked := s.fab.marked ||| g } } := by
  have yet : s.orb.pastCut = false := (Bool.or_eq_false_iff.1 early).1
  rw [strobe, if_neg marks, if_neg out]
  simp [cutoffNow_early early, yet]

theorem strobe_late (run : s.pw.coreRun = true) (late : cutoffPassed s = true) : strobe g s =
    count 0x03 6 (markNext g (cutoffNow s)) := by
  rw [strobe, if_neg marks, if_neg out]
  exact if_pos ((pastCut_cutoffNow run out).trans late)

end

theorem told_strobe_late {s : State} {g : BitVec 16} (marks : g ≠ 0) (out : s.orb.st ≠ .idle) (run : s.pw.coreRun = true)
    (late : cutoffPassed s = true) : Told [0x03, 0x7C] (markNext g (cutoffNow s)) (strobe g s) := by
  rw [strobe_late marks out run late]
  exact told_count _ (by decide) 6 (by decide)

/-- A late strobe marks for the boundary after the next and counts LATE_STROBE. -/
theorem strobe_late_marks {s : State} (canon : Canonical s) {g : BitVec 16} (marks : g ≠ 0) (out : s.orb.st ≠ .idle)
    (run : s.pw.coreRun = true) (late : cutoffPassed s = true) : (strobe g s).fab.next = s.fab.next ||| g ∧
      (strobe g s).fab.marked = s.fab.marked ∧ tallyOf (strobe g s) 0x03 6 = min 0xFF (tallyOf s 0x03 6 + 1) := by
  have told := (told_strobe_late marks out run late).fab
  have cut := fab_cutoffNow s
  have canonical : Canonical (markNext g (cutoffNow s)) := { canon_cutoffNow s canon with }
  refine ⟨?_, ?_, ?_⟩
  · rw [told]
    exact congrArg (fun f => f.next ||| g) cut
  · rw [told]
    show (cutoffNow s).fab.marked = _
    rw [cut]
  · rw [strobe_late marks out run late, canonical.tallyOf_count 6 (by decide)]
    have before : tallyOf (markNext g (cutoffNow s)) 0x03 6 = tallyOf s 0x03 6 := tallyOf_congr (by rw [markNext, cut])
    rw [before]

theorem regs_strobe (g : BitVec 16) (s : State) : (strobe g s).fab.regs = s.fab.regs := by
  have cut := congrArg Fabric.regs (fab_cutoffNow s)
  unfold strobe
  split
  · rfl
  · split
    · rfl
    · dsimp only
      split
      · rw [(told_count (P := [0x03, 0x7C]) _ (by decide) 6 (by decide)).regs]
        exact cut
      · exact cut

/-! ### Resynchronisation (R19) -/

theorem resyncAct_eq (s : State) : resyncAct s = { s with orb := { s.orb with st := if s.orb.st = .locked then .seek else s.orb.st } } := by
  unfold resyncAct
  split <;> simp [*]

/-- A write of 1 to ORB_CTL.RESYNC: the oasis bit is buffered anew, after the cutoff where that is due, and the counter seeks. -/
theorem writeEffect_resync (m : Master) (v : Nat) (resync : v.testBit 1 = true) (s : State) :
    writeEffect m 0x03 0x04C v s = resyncAct (bufWrite 0x03 0x04C (v &&& 1) s) := by
  simp [writeEffect, sideEffect, ownWrite, pgIn, regForm, formPage03, resync]

theorem orb_bufWrite (p o v : Nat) (s : State) : (bufWrite p o v s).orb = (cutoffNow s).orb := rfl

theorem orb_cutoffNow_beginAccess (m : Master) (s : State) : (cutoffNow (beginAccess m s)).orb = (cutoffNow s).orb := by
  rw [orb_cutoffNow, orb_cutoffNow]
  rfl

/-- Settles O21: the fast command and the command bit both take the counter from LOCKED to SEEK; the write buffers its word too. -/
theorem resyncSeeksAMark : Obligations.ResyncSeeksAMark := by
  intro s hp run
  refine ⟨fun t d head code => ?_, fun m serves => ?_⟩
  · have acts : exec .resync s = .next (resyncAct (setDue t d { d with code := none } s)) := by
      rw [← onCode_due head code (want := (· == 4)) rfl (fun _ => resyncAct)]
      exact congrArg _ (coreOnly_eq resyncCmd hp run)
    refine ⟨_, acts, by simp, ?_⟩
    obtain ⟨-, -, orb, -⟩ := setDue_rest t d { d with code := none } s
    rw [resyncAct_eq, orb]
  · have acts : exec (.orbCtlResync m) s = .next (resyncAct (bufWrite 0x03 0x04C ((keptBits s 0x0304C ||| 2) &&& 1) (beginAccess m s))) := by
      rw [← writeEffect_resync m _ (by rw [Nat.testBit_or]; exact Bool.or_true _)]
      rw [← rowWrite_core serves (by decide) (by decide) (by decide) (by decide) (by decide) (by decide) (by simp [writeRefusal, rangeOk, pgIn])]
      exact congrArg _ (running_eq (cmdWrite m 0x0304C 2) hp)
    refine ⟨_, acts, by simp, ?_, ?_⟩
    · rw [resyncAct_eq]
      exact regs_bufWrite _ _ _ _
    · rw [resyncAct_eq, orb_bufWrite, orb_cutoffNow_beginAccess]
      have st : (cutoffNow s).orb.st = s.orb.st := congrArg Counter.st (counterAt_cutoffNow s)
      rw [st]

/-! ### The oasis begins (R29) -/

theorem oasisBeginAct_first {s : State} (out : s.orb.st ≠ .idle) (first : firstOasisSlot s = true) :
    oasisBeginAct s = { s with orb := { s.orb with oasis := { s.orb.oasis with confirmed := true } } } := by
  rw [oasisBeginAct, if_neg out, if_pos first]

theorem oasisBeginAct_mismatch {s : State} (out : s.orb.st ≠ .idle) (other : firstOasisSlot s = false) :
    oasisBeginAct s = count 0x03 5 s := by
  simp [oasisBeginAct, out, other]

theorem oasisBeginAct_idle {s : State} (idle : s.orb.st = .idle) : oasisBeginAct s = s := if_pos idle

theorem regs_oasisBeginAct (s : State) : (oasisBeginAct s).fab.regs = s.fab.regs := by
  unfold oasisBeginAct
  split
  · rfl
  · split
    · rfl
    · exact (told_count (P := [0x03, 0x7C]) s (by decide) 5 (by decide)).regs

theorem firstOasisSlot_setDue (t : Trunk) (d d' : Due) (s : State) : firstOasisSlot (setDue t d d' s) = firstOasisSlot s := by
  cases t <;> rfl

/-- Settles O22: the command confirms the oasis in its first slot and is counted in any other, outside IDLE. -/
theorem oasisBeginsOnlyInItsFirstSlot : Obligations.OasisBeginsOnlyInItsFirstSlot := by
  intro s hp run canon t d head code
  have taken := only_of_setDue t d { d with code := none } s
  obtain ⟨-, fab, orb, -⟩ := setDue_rest t d { d with code := none } s
  have canonical := canon_setDue t d { d with code := none } s canon
  have first := firstOasisSlot_setDue t d { d with code := none } s
  have acts : exec .oasisBegin s = .next (oasisBeginAct (setDue t d { d with code := none } s)) := by
    rw [← onCode_due head code (want := (· == 1)) rfl (fun _ => oasisBeginAct)]
    exact congrArg _ (coreOnly_eq oasisBeginCmd hp run)
  generalize setDue t d { d with code := none } s = v at taken fab orb canonical first acts
  refine ⟨_, acts, Only.trans (taken.mono (by decide)) (by simp), (regs_oasisBeginAct v).trans (by rw [fab]),
    fun idle => ?_, fun out here => ?_, fun out other => ?_⟩
  · rw [oasisBeginAct_idle (by rw [orb, idle])]
    exact ⟨orb, fab⟩
  · rw [oasisBeginAct_first (by rw [orb]; exact out) (first.trans here)]
    exact ⟨by rw [orb], fab⟩
  · have counted : Only [.fab] v (count 0x03 5 v) := by simp
    rw [oasisBeginAct_mismatch (by rw [orb]; exact out) (first.trans other)]
    refine ⟨(counted.orb (by decide)).trans orb, ?_⟩
    have before : tallyOf v 0x03 5 = tallyOf s 0x03 5 := tallyOf_congr (by rw [fab])
    rw [canonical.tallyOf_count 5 (by decide), before]

/-! ### Fast commands (R265) -/

theorem regAt_of_fab {s v : State} (h : v.fab = s.fab) (p o : Nat) : regAt v p o = regAt s p o := by
  unfold regAt
  rw [h]

theorem tallyOf_of_fab {s v : State} (h : v.fab = s.fab) (p i : Nat) : tallyOf v p i = tallyOf s p i := tallyOf_congr (by rw [h])

theorem cutoffPassed_setDue (t : Trunk) (d d' : Due) (s : State) : cutoffPassed (setDue t d d' s) = cutoffPassed s := by cases t <;> rfl
theorem pulseBarred_setDue (t : Trunk) (d d' : Due) (s : State) : pulseBarred (setDue t d d' s) = pulseBarred s := by cases t <;> rfl
theorem testSkipped_setDue (t : Trunk) (d d' : Due) (s : State) : testSkipped (setDue t d d' s) = testSkipped s := by cases t <;> rfl

theorem regs_count (p i : Nat) (s : State) : (count p i s).fab.regs = s.fab.regs :=
  (told_count (P := [p, 0x7C]) s (by simp) i (by simp)).regs

theorem dlPage_ne (t : Trunk) : dlPage t ≠ 0x7C := by cases t <;> decide

/-! #### UPDATE -/

/-- A strobe of no group does nothing; in IDLE the groups are marked and fall due in the ninth core cycle; before the cutoff they are
marked, and from it on they wait for a later boundary and count. -/
theorem strobe_cases {s : State} (run : s.pw.coreRun = true) (canon : Canonical s) (g : BitVec 16) :
    (g = 0 → strobe g s = s) ∧
    (g ≠ 0 → s.orb.st = .idle → (strobe g s).orb = s.orb ∧ (strobe g s).fab.marked = s.fab.marked ||| g ∧
      (strobe g s).fab.idleAt = s.fab.idleAt ++ [(s.pw.cc + 9, g)] ∧ (strobe g s).fab.next = s.fab.next) ∧
    (g ≠ 0 → s.orb.st ≠ .idle → cutoffPassed s = false →
      (strobe g s).orb = s.orb ∧ (strobe g s).fab.marked = s.fab.marked ||| g ∧ (strobe g s).fab.next = s.fab.next) ∧
    (g ≠ 0 → s.orb.st ≠ .idle → cutoffPassed s = true → (strobe g s).fab.next = s.fab.next ||| g ∧
      (strobe g s).fab.marked = s.fab.marked ∧ tallyOf (strobe g s) 0x03 6 = min 0xFF (tallyOf s 0x03 6 + 1)) := by
  refine ⟨fun none => ?_, fun marks idle => ?_, fun marks out early => ?_,
    fun marks out late => strobe_late_marks canon marks out run late⟩
  · rw [none, strobe_none]
  · rw [strobe_idle marks idle]
    exact ⟨rfl, rfl, rfl, rfl⟩
  · rw [strobe_early marks out early]
    exact ⟨rfl, rfl, rfl⟩

/-! #### TEST_PULSE -/

theorem testFiring_skips {s : State} (skip : testSkipped s = true) : testFiring s = countSkip 1 s := if_pos skip

/-- The pulse of PLS_TEST. -/
def testPulse (s : State) : Pulse := ⟨regAt s 0x64 0x048 % 128, fld (regAt s 0x64 0x048) 16 8, fld (regAt s 0x64 0x048) 8 7⟩

theorem testFiring_fires {s : State} (fires : testSkipped s = false) : testFiring s =
    fireRow (regAt s 0x64 0x048 % 128 / 16) (slotStartCc s) (regF s 0x64 0x040 8 3) [testPulse s] s :=
  if_neg (ne_true_of_eq_false fires)

theorem pls_setSite (i v : Nat) (s : State) : (setSite i v s).pls = { s.pls with states := ramPut 0 s.pls.states i v } := by
  unfold setSite
  dsimp only
  split
  · have counted (u : State) : (countD 0x64 3 i u).pls = u.pls := Only.pls (M := [.fab]) (by simp) (by decide)
    rw [counted]
  · rfl

/-- A firing of one site closes its row and counts, whatever its width says of the site's state. -/
theorem pls_fireRow_one (r k f : Nat) (p : Pulse) (s : State) : (fireRow r k f [p] s).pls.row = some r ∧
    (fireRow r k f [p] s).pls.last = r ∧ (fireRow r k f [p] s).pls.firings = min 0xFFFF (s.pls.firings + 1) ∧
    (fireRow r k f [p] s).pls.skips = s.pls.skips := by
  unfold fireRow
  dsimp only [List.foldl_cons, List.foldl_nil]
  split
  · rw [pls_setSite]
    exact ⟨rfl, rfl, rfl, rfl⟩
  · exact ⟨rfl, rfl, rfl, rfl⟩

theorem told_setSite (i v : Nat) (s : State) : Told [0x64, 0x7C] s (setSite i v s) := by
  unfold setSite
  refine Told.ite (Told.trans ?_ (told_countD _ (by decide) 3 i (by decide))) ?_
  all_goals exact .of_fab rfl

theorem told_fireRow (r k f : Nat) (l : List Pulse) (s : State) : Told [0x64, 0x7C] s (fireRow r k f l s) := by
  unfold fireRow
  dsimp only
  refine Told.trans ?_ (Told.foldl (fun u p => (told_setSite p.site 3 u).ite (.refl u)) l _)
  exact .of_fab rfl

theorem told_countSkip (i : Nat) (s : State) : Told [0x64, 0x7C] s (countSkip i s) := by
  unfold countSkip
  refine Told.trans ?_ (told_count _ (by decide) i (by decide))
  exact .of_fab rfl

theorem told_testFiring (s : State) : Told [0x64, 0x7C] s (testFiring s) :=
  (told_countSkip 1 s).ite (told_fireRow _ _ _ _ s)

theorem countSkip_counts {s : State} (canon : Canonical s) (i : Nat) :
    (countSkip i s).pls = { s.pls with skips := min 0xFFFF (s.pls.skips + 1) } ∧
    tallyOf (countSkip i s) 0x64 i = min 0xFF (tallyOf s 0x64 i + 1) := by
  have counted (u : State) : (count 0x64 i u).pls = u.pls := Only.pls (M := [.fab]) (by simp) (by decide)
  have canonical : Canonical { s with pls := { s.pls with skips := min 0xFFFF (s.pls.skips + 1) } } := canon.of_parts rfl rfl rfl rfl
  unfold countSkip
  rw [counted, canonical.tallyOf_count i (by decide)]
  exact ⟨rfl, rfl⟩

/-! #### The commands -/

/-- The code of the due frame `d` of trunk `t` is taken. -/
def codeTaken (t : Trunk) (d : Due) (s : State) : State := setDue t d { d with code := none } s

section
variable (t : Trunk) (d : Due) (s : State)

theorem only_codeTaken : Only [.dlA, .dlB] s (codeTaken t d s) := only_of_setDue t d _ s

theorem codeTaken_rest : (codeTaken t d s).pw = s.pw ∧ (codeTaken t d s).fab = s.fab ∧ (codeTaken t d s).orb = s.orb ∧
    (codeTaken t d s).acq = s.acq ∧ (codeTaken t d s).pls = s.pls := setDue_rest t d _ s

theorem getDl_of_codeTaken {M : List Part} {u : State} (h : Only M (codeTaken t d s) u) (hA : Part.dlA ∉ M)
    (hB : Part.dlB ∉ M) :
    getDl u t = { getDl s t with due := putDue d { d with code := none } (getDl s t).due } ∧ getDl u (peer t) = getDl s (peer t) :=
  ⟨(getDl_of_only h t hA hB).trans (getDl_setDue t d _ s), (getDl_of_only h (peer t) hA hB).trans (getDl_setDue_peer t d _ s)⟩

end

section
variable {s : State} {t : Trunk} {d : Due} (hp : s.pw.por = false) (run : s.pw.coreRun = true) (head : dueHead s = some (t, d))
include hp run head

theorem exec_update_due (code : d.code = some 2) :
    exec .update s = .next (strobe (BitVec.ofNat 16 (regAt s 0x01 0x044)) (codeTaken t d s)) := by
  have acts : exec .update s = .next (updateCmd s) := congrArg _ (coreOnly_eq updateCmd hp run)
  rw [acts, updateCmd, onCode_due head code (want := (· == 2)) rfl]
  obtain ⟨-, fab, -⟩ := setDue_rest t d { d with code := none } s
  rw [regAt_of_fab fab]
  rfl

theorem exec_testPulse_due (code : d.code = some 5) : exec .testPulse s = .next
    (if pulseBarred s then count (dlPage t) 1 (codeTaken t d s) else testFiring (codeTaken t d s)) := by
  have acts : exec .testPulse s = .next (testPulseCmd s) := congrArg _ (coreOnly_eq testPulseCmd hp run)
  rw [acts, testPulseCmd, onCode_due head code (want := (· == 5)) rfl, pulseBarred_setDue]
  rfl

theorem exec_cmdUnknown_due {c : Nat} (code : d.code = some c) (unknown : 6 ≤ c) :
    exec .cmdUnknown s = .next (count (dlPage t) 1 (codeTaken t d s)) := by
  have acts : exec .cmdUnknown s = .next (unknownCmd s) := congrArg _ (coreOnly_eq unknownCmd hp run)
  rw [acts, unknownCmd, onCode_due head code (want := fun c => decide (6 ≤ c)) (by simpa using unknown)]
  rfl

theorem exec_other_code (other : ∀ c, d.code = some c → c ≠ 2 ∧ c ≠ 5 ∧ c < 6) :
    exec .update s = .next s ∧ exec .testPulse s = .next s ∧ exec .cmdUnknown s = .next s := by
  have update : updateCmd s = s := onCode_other head (fun c code => by simpa using (other c code).1) _
  have pulse : testPulseCmd s = s := onCode_other head (fun c code => by simpa using (other c code).2.1) _
  have unknown : unknownCmd s = s := onCode_other head (fun c code => by simpa using (other c code).2.2) _
  exact ⟨congrArg _ ((coreOnly_eq updateCmd hp run).trans update), congrArg _ ((coreOnly_eq testPulseCmd hp run).trans pulse),
    congrArg _ ((coreOnly_eq unknownCmd hp run).trans unknown)⟩

end

/-- Settles O43: each code takes its part off the due frame and acts on a state that differs from the one before in that alone. -/
theorem fastCommandsAct : Obligations.FastCommandsAct := by
  refine ⟨fun s => rfl, fun s hp run canon t d head =>
    ⟨fun code g hg => ?_, fun code => ?_, fun c code unknown => ?_, exec_other_code hp run head⟩⟩
  all_goals have taken := only_codeTaken t d s
  all_goals obtain ⟨pw, fab, orb, -, pls⟩ := codeTaken_rest t d s
  all_goals have canonical : Canonical (codeTaken t d s) := canon_setDue t d _ s canon
  · have acts := exec_update_due hp run head code
    rw [← hg] at acts
    have strobed : Only [.fab, .orb, .conv] (codeTaken t d s) (strobe g (codeTaken t d s)) := by simp
    obtain ⟨own, other⟩ := getDl_of_codeTaken t d s strobed (by decide) (by decide)
    have passed : cutoffPassed (codeTaken t d s) = cutoffPassed s := cutoffPassed_setDue t d _ s
    generalize codeTaken t d s = v at acts taken pw fab orb pls canonical strobed own other passed
    obtain ⟨none, idle, early, late⟩ := strobe_cases (by rw [pw, run]) canonical g
    rw [orb, fab, pw] at idle
    rw [orb, fab, passed] at early
    rw [orb, fab, passed, tallyOf_of_fab fab] at late
    exact ⟨_, acts, Only.trans (taken.mono (by decide)) (strobed.mono (by decide)), (regs_strobe g v).trans (by rw [fab]), own, other,
      fun h => by rw [none h]; exact ⟨fab, orb⟩, idle, early, late⟩
  · have acts := exec_testPulse_due hp run head code
    have pulsed : Only [.fab, .pls] (codeTaken t d s)
        (if pulseBarred s then count (dlPage t) 1 (codeTaken t d s) else testFiring (codeTaken t d s)) := by
      split <;> simp
    obtain ⟨own, other⟩ := getDl_of_codeTaken t d s pulsed (by decide) (by decide)
    have skipped : testSkipped (codeTaken t d s) = testSkipped s := testSkipped_setDue t d _ s
    generalize codeTaken t d s = v at acts taken pw fab orb pls canonical pulsed own other skipped
    have tally (p i : Nat) : tallyOf v p i = tallyOf s p i := tallyOf_of_fab fab p i
    refine ⟨_, acts, Only.trans (taken.mono (by decide)) (pulsed.mono (by decide)), ?_, own, other,
      fun barred => ?_, fun open_ skip => ?_, fun open_ fires => ?_⟩
    · rw [← fab]
      split
      · exact regs_count _ _ _
      · exact (told_testFiring v).regs
    · have counted : Only [.fab] v (count (dlPage t) 1 v) := by simp
      rw [if_pos barred, canonical.tallyOf_count 1 (dlPage_ne t), tally]
      exact ⟨(counted.pls (by decide)).trans pls, rfl⟩
    · obtain ⟨skips, count⟩ := countSkip_counts canonical 1
      rw [if_neg (ne_true_of_eq_false open_), testFiring_skips (skipped.trans skip), skips, count, tally, pls]
      exact ⟨rfl, rfl⟩
    · rw [if_neg (ne_true_of_eq_false open_), testFiring_fires (skipped.trans fires), regAt_of_fab fab, ← pls]
      exact pls_fireRow_one _ _ _ _ v
  · have acts := exec_cmdUnknown_due hp run head code unknown
    have counted : Only [.fab] (codeTaken t d s) (count (dlPage t) 1 (codeTaken t d s)) := by simp
    obtain ⟨own, other⟩ := getDl_of_codeTaken t d s counted (by decide) (by decide)
    generalize codeTaken t d s = v at acts taken pw fab orb pls canonical counted own other
    refine ⟨_, acts, Only.trans (taken.mono (by decide)) (counted.mono (by decide)), (regs_count _ _ _).trans (by rw [fab]),
      own, other, ?_⟩
    rw [canonical.tallyOf_count 1 (dlPage_ne t), tallyOf_of_fab fab]

end Sys2Proof.Machine
end

section
/-! What an operation leaves of the fabric but for page headers, the notice store and words in force that it names. -/

namespace Sys2Proof.Machine

/-- Of the fabric nothing but page headers, the notice store, upsets and the words in force at the addresses `C` has changed. -/
structure FabKept (C : Set Nat) (s t : State) : Prop where
  fab   : t.fab = { s.fab with regs := t.fab.regs, pages := t.fab.pages, store := t.fab.store, lost := t.fab.lost, upsets := t.fab.upsets }
  same  : C = ∅ → t.fab.regs = s.fab.regs
  keys  : keysFrom 0 s.fab.regs = true → keysFrom 0 t.fab.regs = true
  words : keysFrom 0 s.fab.regs = true → ∀ d a, a ∉ C → ramGet d t.fab.regs a = ramGet d s.fab.regs a

namespace FabKept

variable {C D : Set Nat} {s t u : State}

theorem of_regs (fab : t.fab = { s.fab with pages := t.fab.pages, store := t.fab.store, lost := t.fab.lost, upsets := t.fab.upsets }) :
    FabKept C s t := by
  have regs : t.fab.regs = s.fab.regs := by rw [fab]
  exact ⟨by rw [regs]; exact fab, fun _ => regs, fun k => by rw [regs]; exact k, fun _ _ _ _ => by rw [regs]⟩

theorem of_fab (h : t.fab = s.fab) : FabKept C s t := of_regs (by rw [h])
theorem of_told {P : List Nat} (h : Told P s t) : FabKept C s t := of_regs (by rw [h.fab])
theorem refl (s : State) : FabKept C s s := of_fab rfl

theorem trans (h : FabKept C s t) (k : FabKept C t u) : FabKept C s u where
  fab := by rw [k.fab, h.fab]
  same e := (k.same e).trans (h.same e)
  keys a := k.keys (h.keys a)
  words a d x hx := (k.words (h.keys a) d x hx).trans (h.words a d x hx)

/-- The fabric was as before when the operation began. -/
theorem since (k : FabKept C t u) (h : t.fab = s.fab) : FabKept C s u := (of_fab h).trans k

theorem mono (h : FabKept C s t) (k : C ⊆ D) : FabKept D s t :=
  ⟨h.fab, fun e => h.same (Set.subset_empty_iff.1 (e ▸ k)), h.keys, fun a d x hx => h.words a d x fun hc => hx (k hc)⟩

theorem regs (h : FabKept ∅ s t) : t.fab.regs = s.fab.regs := h.same rfl

theorem regAt (h : FabKept C s t) (keys : keysFrom 0 s.fab.regs = true) {p o : Nat} (free : p * 0x1000 + o ∉ C) :
    regAt t p o = Machine.regAt s p o := by
  unfold Machine.regAt regsGet
  rw [h.words keys _ _ free]

theorem ite {c : Prop} [Decidable c] (h : FabKept C s t) (k : FabKept C s u) : FabKept C s (if c then t else u) := by
  split
  · exact h
  · exact k

theorem foldl {α : Type} {g : State → α → State} (h : ∀ v x, FabKept C v (g v x)) (l : List α) (s : State) :
    FabKept C s (l.foldl g s) := by
  induction l generalizing s with
  | nil => exact refl s
  | cons a l ih => exact (h s a).trans (ih (g s a))

end FabKept

section
variable {C : Set Nat} (s : State)

theorem kept_count (p i : Nat) : FabKept C s (count p i s) := .of_told (told_count (P := [p, 0x7C]) s (by simp) i (by simp))

theorem kept_countD (p i d : Nat) : FabKept C s (countD p i d s) := .of_told (told_countD (P := [p, 0x7C]) s (by simp) i d (by simp))

theorem kept_countN (p i n : Nat) : FabKept C s (countN p i n s) := by
  unfold countN
  induction n generalizing s with
  | zero => exact .refl s
  | succ n ih =>
    rw [Function.iterate_succ_apply]
    exact (kept_count s p i).trans (ih _)

theorem kept_onRise (was isNow : Bool) (p i d : Nat) : FabKept C s (onRise was isNow p i d s) := (kept_countD s p i d).ite (.refl s)

theorem kept_refuse (p cause d : Nat) : FabKept C s (refuse p cause d s) := .of_told (told_refuse (P := [0x7C]) s (by simp) p cause d)

theorem kept_postNotice (p : Nat) (n : Notice) : FabKept C s (postNotice p n s) :=
  .of_told (told_postNotice (P := [0x7C]) s (by simp) p n)

theorem kept_modPage (p : Nat) (f : PageSt → PageSt) : FabKept C s (modPage p f s) := .of_regs rfl

theorem kept_seraiSync : FabKept C s (seraiSync s) := .of_told (told_seraiSync s)

theorem kept_setReg (p o v : Nat) (h : p * 0x1000 + o ∈ C) : FabKept C s (setReg p o v s) where
  fab := rfl
  same e := absurd (e ▸ h : p * 0x1000 + o ∈ (∅ : Set Nat)) (Set.notMem_empty _)
  keys k := keys_setReg p o v s k
  words k _ _ ha := ramGet_ramPut_ne _ _ k _ _ _ fun e => ha (e ▸ h)

theorem kept_acqSync : FabKept C s (acqSync s) := by
  unfold acqSync
  exact (kept_onRise _ _ _ _ _ _).since rfl

end

end Sys2Proof.Machine
end

section
/-! External accepts (R131, R134, R135): what an accept does to the FIFO, the sequence and the credits. -/

namespace Sys2Proof.Machine

/-! ### Entries -/

/-- The watermark follows the FIFO (R138). -/
def watermarkHigh (s : State) : Bool := decide (regF s 0x30 0x048 0 7 ≤ s.acq.fifo.length)

theorem acq_onRise (was isNow : Bool) (p i d : Nat) (s : State) : (onRise was isNow p i d s).acq = s.acq := acq_of_only (by simp)

theorem acq_acqSync (s : State) : (acqSync s).acq = { s.acq with wmHigh := watermarkHigh s } := by
  unfold acqSync
  dsimp only
  rw [acq_onRise]
  rfl

theorem kept_countDisabled {C : Set Nat} (seq : Nat) (reps : List Report) (s : State) : FabKept C s (countDisabled seq reps s) :=
  FabKept.foldl (fun v _ => (kept_countD v _ 2 seq).ite (.refl v)) _ s

theorem kept_createEntry {C : Set Nat} (named : Nat) (c : Cause) (s : State) : FabKept C s (createEntry named c s) := by
  have counted (reps : List Report) : FabKept C s (countDisabled s.acq.seq reps (takeSeq s)) := (kept_countDisabled _ _ _).since rfl
  exact (counted _).trans ((kept_acqSync _).since rfl)

/-- The entry that a trigger makes joins the FIFO at its end, with the sequence number that the trigger takes (R135). -/
theorem acq_createEntry (named : Nat) (c : Cause) (s : State) : ∃ e wm, (createEntry named c s).acq =
    { s.acq with seq := (s.acq.seq + 1) % 2 ^ 24, total := (s.acq.total + 1) % 2 ^ 64, fifo := s.acq.fifo ++ [e], wmHigh := wm } ∧
    e.named = named ∧ e.seq = s.acq.seq ∧ e.ext = c.ext ∧ e.self = c.self ∧ e.pin = c.pin ∧ e.host = c.host ∧ e.created = s.pw.elapsed := by
  unfold createEntry
  dsimp only
  rw [acq_acqSync]
  dsimp only
  rw [acq_countDisabled]
  exact ⟨_, _, rfl, rfl, rfl, rfl, rfl, rfl, rfl, rfl⟩

/-! ### Refusals -/

/-- A REFUSED_FULL manifest is told by its status (R220). -/
theorem accOf_refusedManifest (herOn : Bool) (r : Refusal1) : accOf (refusedManifest herOn r) = 0x42 := rfl

/-- The entries of the FIFO, the next sequence number and the accept count. -/
def fifoAt (s : State) : List Entry × Nat × Nat := (s.acq.fifo, s.acq.seq, s.acq.total)

theorem fifoAt_of_acq {s t : State} (h : t.acq = s.acq) : fifoAt t = fifoAt s := by simp only [fifoAt, h]

section
variable {l : List Byte} (full : accOf l = 0x42)
include full

/-- A refused manifest frees no entry and takes no sequence number. -/
theorem fifoAt_manifestIn (s : State) : fifoAt (manifestIn l s) = fifoAt s := by
  unfold manifestIn
  rw [if_pos (Or.inl full)]
  rfl

theorem kept_manifestIn {C : Set Nat} (s : State) : FabKept C s (manifestIn l s) := by
  unfold manifestIn
  rw [if_pos (Or.inl full)]
  exact .of_fab rfl

theorem fifoAt_putManifest (s : State) : fifoAt (putManifest l s) = fifoAt s := by
  have written : fifoAt (writeBale 12 l s) = fifoAt s := fifoAt_of_acq (acq_writeBale _ _ _)
  unfold putManifest
  dsimp only
  split
  · exact (fifoAt_manifestIn full _).trans written
  · exact written

theorem kept_putManifest {C : Set Nat} (s : State) : FabKept C s (putManifest l s) := by
  have written : FabKept C s (writeBale 12 l s) := .of_told (told_writeBale _ _ _)
  unfold putManifest
  exact FabKept.ite (written.trans (kept_manifestIn full _)) written

end

/-- A refused trigger takes a sequence number, and the FIFO keeps its entries (R135, R222). -/
theorem fifoAt_refuseTrigger (named : Nat) (c : Cause) (s : State) :
    fifoAt (refuseTrigger named c s) = (s.acq.fifo, (s.acq.seq + 1) % 2 ^ 24, (s.acq.total + 1) % 2 ^ 64) := by
  have counted : fifoAt (count 0x30 0 (takeSeq s)) = (s.acq.fifo, (s.acq.seq + 1) % 2 ^ 24, (s.acq.total + 1) % 2 ^ 64) :=
    fifoAt_of_acq (count_acq _ _ _)
  unfold refuseTrigger
  extract_lets
  split_ifs
  · exact (fifoAt_putManifest (accOf_refusedManifest _ _) _).trans counted
  · exact counted
  · exact (fifoAt_of_acq (count_acq _ _ _)).trans counted

theorem kept_refuseTrigger {C : Set Nat} (named : Nat) (c : Cause) (s : State) : FabKept C s (refuseTrigger named c s) := by
  have counted : FabKept C s (count 0x30 0 (takeSeq s)) := (kept_count _ _ _).since rfl
  unfold refuseTrigger
  dsimp only
  refine FabKept.ite (counted.trans (kept_putManifest (accOf_refusedManifest _ _) _)) (FabKept.ite (counted.trans (.of_fab rfl)) ?_)
  exact counted.trans ((kept_count _ _ _).since rfl)

/-! ### The accept -/

/-- X rises, ADV with it where it must, and an accept beyond the advertised credits is counted (R227). -/
def acceptCharged (s : State) : State :=
  let v := { s with frm := { s.frm with x := s.frm.x + 1, adv := max (s.frm.x + 1) s.frm.adv } }
  if decide (s.frm.adv < s.frm.x + 1) then count 0x44 0 v else v

/-- The entry of this slot's external accept is `seq` (R136). -/
def acceptNoted (seq : Nat) (s : State) : State := { s with acq := { s.acq with extIn := some (s.pw.elapsed, seq) } }

theorem only_acceptCharged (s : State) : Only [.fab, .frm] s (acceptCharged s) := by
  have charged (adv x : Nat) : Only [.fab, .frm] s { s with frm := { s.frm with x := x, adv := adv } } :=
    Only.mono ((only_mk_frm s s _).2 (.refl _ _)) (by decide)
  have counted (u : State) : Only [.fab, .frm] u (count 0x44 0 u) := by simp
  unfold acceptCharged
  dsimp only
  split
  · exact (charged _ _).trans (counted _)
  · exact charged _ _

theorem kept_acceptCharged {C : Set Nat} (s : State) : FabKept C s (acceptCharged s) := by
  unfold acceptCharged
  exact FabKept.ite ((kept_count _ _ _).since rfl) (.of_fab rfl)

theorem regsIn_congr {s v : State} (regs : v.fab.regs = s.fab.regs) (hist : v.fab.hist = s.fab.hist) (e : Nat) :
    regsIn v e = regsIn s e := by
  unfold regsIn
  rw [regs, hist]

theorem sameNamed_congr {s v : State} (h : v.acq = s.acq) (named : Nat) : sameNamed v named = sameNamed s named := by
  unfold sameNamed
  rw [h]

theorem acceptAt_idle {s : State} (idle : s.orb.st = .idle) (a : Nat) : acceptAt a s = count 0x03 3 s := if_pos idle

/-- An accept that merges with no entry makes one, or is refused where the FIFO is full. -/
theorem acceptAt_new {s : State} (out : s.orb.st ≠ .idle) {a named : Nat} (hn : named = a - latOf (regsIn s a))
    (new : sameNamed s named = none) {c : Cause} (hc : c = { ext := true, overcr := decide (s.frm.adv < s.frm.x + 1) }) : acceptAt a s =
      if 64 ≤ s.acq.fifo.length then refuseTrigger named c (acceptCharged s)
      else createEntry named c (acceptNoted s.acq.seq (acceptCharged s)) := by
  have kept : FabKept ∅ s (acceptCharged s) := kept_acceptCharged s
  have acq := (only_acceptCharged s).acq (by decide)
  have same : a - latOf (regsIn (acceptCharged s) a) = named := by
    rw [regsIn_congr kept.regs (by rw [kept.fab]), ← hn]
  unfold acceptAt
  rw [if_neg out]
  extract_lets x excess oldFrm opened charged named' c' made
  have same' : named' = named := same
  have first : c' = c := hc.symm
  have paid : charged = acceptCharged s := rfl
  rw [same', first, paid, sameNamed_congr acq, new]
  dsimp only
  rw [acq]
  rfl

theorem only_acceptAt_enters {s : State} (named : Nat) (c : Cause) :
    Only [.fab, .acq, .frm] s (createEntry named c (acceptNoted s.acq.seq (acceptCharged s))) := by
  have noted (v : State) (seq : Nat) : Only [.acq] v (acceptNoted seq v) := (only_mk_acq v v _).2 (.refl _ _)
  have made (v : State) : Only [.fab, .acq] v (createEntry named c v) := by simp
  exact (Only.mono (only_acceptCharged s) (by decide)).trans
    ((Only.mono (noted _ _) (by decide)).trans (Only.mono (made _) (by decide)))

section
variable {s : State} {a named : Nat} (hn : named = a - latOf (regsIn s a)) (out : s.orb.st ≠ .idle) (new : sameNamed s named = none)
include hn out new

/-- One entry enters at the end of a FIFO that has room (R131, R135). -/
theorem acceptAt_enters (room : s.acq.fifo.length < 64) :
    (∃ e, (acceptAt a s).acq.fifo = s.acq.fifo ++ [e] ∧ e.named = named ∧ e.seq = s.acq.seq ∧ e.ext = true ∧ e.self = false ∧
      e.pin = false ∧ e.host = false ∧ e.created = s.pw.elapsed ∧ (acceptAt a s).acq.seq = (s.acq.seq + 1) % 2 ^ 24 ∧
      (acceptAt a s).acq.total = (s.acq.total + 1) % 2 ^ 64 ∧ (acceptAt a s).ser = s.ser) := by
  rw [acceptAt_new out hn new rfl, if_neg (Nat.not_le.2 room), (only_acceptAt_enters named _).ser (by decide)]
  have charged := only_acceptCharged s
  generalize acceptCharged s = v at charged
  obtain ⟨e, wm, acq, named, seq, ext, self, pin, host, created⟩ :=
    acq_createEntry named { ext := true, overcr := decide (s.frm.adv < s.frm.x + 1) } (acceptNoted s.acq.seq v)
  rw [acq]
  dsimp only [acceptNoted] at seq created ⊢
  rw [charged.acq (by decide)] at seq ⊢
  rw [charged.pw (by decide)] at created
  exact ⟨e, rfl, named, seq, ext, self, pin, host, created, rfl, rfl, rfl⟩

/-- A full FIFO refuses the accept, which takes its sequence number all the same (R134, R135). -/
theorem acceptAt_full (full : 64 ≤ s.acq.fifo.length) : (acceptAt a s).acq.fifo = s.acq.fifo ∧
    (acceptAt a s).acq.seq = (s.acq.seq + 1) % 2 ^ 24 ∧ (acceptAt a s).acq.total = (s.acq.total + 1) % 2 ^ 64 := by
  rw [acceptAt_new out hn new rfl, if_pos full, ← (only_acceptCharged s).acq (by decide)]
  have fifo := fifoAt_refuseTrigger named { ext := true, overcr := decide (s.frm.adv < s.frm.x + 1) } (acceptCharged s)
  simpa only [fifoAt, Prod.mk.injEq] using fifo

end

theorem kept_herJoin {C : Set Nat} (seq : Nat) (c : Cause) (s : State) : FabKept C s (herJoin seq c s) := by
  unfold herJoin
  split
  · exact .refl s
  · exact FabKept.ite ((kept_countDisabled _ _ _).since rfl) (.refl s)

theorem kept_joinEntry {C : Set Nat} (seq : Nat) (c : Cause) (s : State) : FabKept C s (joinEntry seq c s) :=
  (kept_herJoin seq c s).trans ((kept_count _ _ _).since rfl)

/-- An accept writes no word in force. -/
theorem kept_acceptAt (a : Nat) (s : State) : FabKept ∅ s (acceptAt a s) := by
  by_cases idle : s.orb.st = .idle
  · rw [acceptAt_idle idle]
    exact kept_count _ _ _
  · have paid : FabKept ∅ s (acceptCharged s) := kept_acceptCharged s
    unfold acceptAt
    rw [if_neg idle]
    extract_lets x excess oldFrm opened charged named c made
    split
    · exact paid.trans ((kept_joinEntry _ _ _).since rfl)
    · exact FabKept.ite (paid.trans (kept_refuseTrigger _ _ _)) (paid.trans ((kept_createEntry _ _ _).since rfl))

/-- Settles O30: what is left of the due frame is its accept, and the FIFO, the credits and the tallies do not read the frame. -/
theorem acceptsEnterTheFifo : Obligations.AcceptsEnterTheFifo := by
  intro s t d por core canon head code orbit accept
  have runs : exec .accept s = .next (acceptAt d.slot (setDue t d { d with accept := false } s)) := by
    rw [← acceptCmd_due head code orbit accept]
    exact congrArg _ (coreOnly_eq acceptCmd por core)
  refine ⟨_, runs, ?_⟩
  have only := only_of_setDue t d { d with accept := false } s
  have canonical := canon_setDue t d { d with accept := false } s canon
  generalize setDue t d { d with accept := false } s = v at only canonical
  have fab := only.fab (by decide)
  have acq := only.acq (by decide)
  have orb := only.orb (by decide)
  have ser := only.ser (by decide)
  have same : d.slot - latOf (regsIn s d.slot) = d.slot - latOf (regsIn v d.slot) := by
    rw [regsIn_congr (by rw [fab]) (by rw [fab])]
  have fresh (k : sameNamed s (d.slot - latOf (regsIn s d.slot)) = none) : sameNamed v (d.slot - latOf (regsIn s d.slot)) = none := by
    rw [sameNamed_congr acq, k]
  refine ⟨by rw [(kept_acceptAt _ _).regs, fab], (only.mono (by decide)).trans (by simp),
    fun idle => ?_, fun out k room => ?_, fun out k full => ?_⟩
  · rw [acceptAt_idle (orb ▸ idle), canonical.tallyOf_count 3 (by decide), tallyOf_of_fab fab]
    have counted : Only [.fab] v (count 0x03 3 v) := by simp
    exact ⟨(counted.acq (by decide)).trans acq, (counted.frm (by decide)).trans (only.frm (by decide)),
      (counted.ser (by decide)).trans ser, rfl⟩
  · have entered := acceptAt_enters same (orb ▸ out) (fresh k) (acq ▸ room)
    rwa [acq, ser, only.pw (by decide)] at entered
  · have refused := acceptAt_full same (orb ▸ out) (fresh k) (acq ▸ full)
    rwa [acq] at refused

end Sys2Proof.Machine
end

section
/-! Orbit marks (R19–R21): what a mark does in IDLE, LOCKED and SEEK. -/

namespace Sys2Proof.Machine

/-- Of the fabric only the record of a cutoff has changed. -/
def FabButCutoff (s t : State) : Prop :=
  t.fab = { s.fab with frozen := t.fab.frozen, frozenPg := t.fab.frozenPg, late := t.fab.late }

namespace FabButCutoff

variable {s t u : State}

theorem of_fab (h : t.fab = s.fab) : FabButCutoff s t := by
  unfold FabButCutoff
  rw [h]

theorem trans (h : FabButCutoff s t) (k : FabButCutoff t u) : FabButCutoff s u := by
  unfold FabButCutoff at *
  rw [k, h]

section
variable (h : FabButCutoff s t)
include h

theorem regs : t.fab.regs = s.fab.regs := (congrArg Fabric.regs h :)
theorem pages : t.fab.pages = s.fab.pages := (congrArg Fabric.pages h :)
theorem marked : t.fab.marked = s.fab.marked := (congrArg Fabric.marked h :)

end

end FabButCutoff

/-! ### What a realignment or the end of IDLE closes with -/

theorem counterAt_cutoffAtStart (s : State) : counterAt (cutoffAtStart s) = counterAt s := by
  unfold cutoffAtStart
  split <;> rfl

theorem fab_cutoffAtStart (s : State) : FabButCutoff s (cutoffAtStart s) := by
  unfold cutoffAtStart
  split <;> rfl

/-- The cutoff of a late start and the markers of the orbit leave the counter, the words in force, the marks and the tallies. -/
theorem counterAt_orbitBegun (s : State) : counterAt (markerSync (cutoffAtStart s)) = counterAt s := counterAt_cutoffAtStart s
theorem fab_orbitBegun (s : State) : FabButCutoff s (markerSync (cutoffAtStart s)) := fab_cutoffAtStart s

/-! ### Realignment -/

theorem counterAt_oasisSkipped (s : State) : counterAt (oasisSkipped s) = counterAt s := by
  unfold oasisSkipped
  split
  · exact counterAt_count _ _ _
  · rfl

theorem counterAt_rotationStands (s : State) : counterAt (rotationStands s) = counterAt s := by
  unfold rotationStands
  split
  · rfl
  · rfl

theorem counterAt_oasisCut (s : State) : counterAt (oasisCut s) = counterAt s := by
  have stands : counterAt (rotationStands s) = counterAt s := counterAt_rotationStands s
  have cleared (u : State) : counterAt (diagClear true u) = counterAt u := counterAt_of_only (by simp)
  unfold oasisCut
  dsimp only
  split
  · exact (cleared _).trans stands
  · exact stands

theorem fab_oasisCut (s : State) : (oasisCut s).fab = s.fab :=
  fab_of_only (by simp)

theorem regs_oasisSkipped (s : State) : (oasisSkipped s).fab.regs = s.fab.regs := by
  unfold oasisSkipped
  split
  · exact regs_count _ _ _
  · rfl

theorem marked_count (p i : Nat) (s : State) : (count p i s).fab.marked = s.fab.marked := by rw [(kept_count (C := ∅) s p i).fab]

theorem marked_oasisSkipped (s : State) : (oasisSkipped s).fab.marked = s.fab.marked := by
  unfold oasisSkipped
  split
  · exact marked_count _ _ _
  · rfl

theorem tallyOf_oasisSkipped {s : State} (canon : Canonical s) {i : Nat} (other : i ≠ 4) :
    tallyOf (oasisSkipped s) 0x03 i = tallyOf s 0x03 i := by
  unfold oasisSkipped
  split
  · exact tallyOf_count_ne _ _ _ _ _ canon.pages (canon.tally_keys 0x03) (by decide) (.inr other)
  · rfl

theorem orbOfs_of_regs {s v : State} (h : v.fab.regs = s.fab.regs) : orbOfs v = orbOfs s := by
  unfold orbOfs regF regAt
  rw [h]

/-- A realignment moves the counter to the mark's slot in the next orbit, counts REALIGN and begins that orbit (R21). -/
theorem realign_eq (s : State) : ∃ w, realign s = markerSync (cutoffAtStart (count 0x03 2 w)) ∧ FabButCutoff (oasisSkipped s) w ∧
    counterAt w = ⟨.locked, orbOfs s, (s.orb.orbit + 1) % 2 ^ 32⟩ := by
  have captured (o f : Nat) (u : State) : Only [.tb] u (orbitCapture o f true u) := by simp
  have fab (o f : Nat) : (orbitCapture o f true (oasisCut (oasisSkipped s))).fab = (oasisSkipped s).fab :=
    ((captured o f _).fab (by decide)).trans (fab_oasisCut _)
  have orbit : (oasisCut (oasisSkipped s)).orb.orbit = s.orb.orbit :=
    congrArg Counter.orbit ((counterAt_oasisCut _).trans (counterAt_oasisSkipped s))
  refine ⟨_, rfl, ?_, ?_⟩
  · unfold FabButCutoff
    dsimp only [retag, modTag]
    rw [fab]
  · dsimp only [retag, modTag, counterAt]
    rw [orbit, orbOfs_of_regs (congrArg Fabric.regs (fab _ _) |>.trans (regs_oasisSkipped s))]

/-- The end of IDLE moves the counter to the mark's slot of the orbit of ORB_PRESET and begins that orbit (R20). -/
theorem leaveIdle_eq (s : State) :
    ∃ w, leaveIdle s = markerSync (cutoffAtStart w) ∧ w.fab = { s.fab with idleAt := [], waiting := 0 } ∧
    counterAt w = ⟨.locked, orbOfs s, regAt s 0x03 0x048⟩ ∧ w.pw.stage = max s.pw.stage 6 := ⟨_, rfl, rfl, rfl, rfl⟩

section
variable {s : State}

theorem markAct_idle (st : s.orb.st = .idle) : markAct s = leaveIdle s := by
  unfold markAct
  rw [st]

/-- The mark that ends IDLE applies nothing. -/
theorem markAct_ends_idle (st : s.orb.st = .idle) : (markAct s).fab.regs = s.fab.regs ∧ (markAct s).fab.marked = s.fab.marked ∧
    counterAt (markAct s) = ⟨.locked, orbOfs s, regAt s 0x03 0x048⟩ ∧ 6 ≤ (markAct s).pw.stage := by
  obtain ⟨w, left, fab, counter, stage⟩ := leaveIdle_eq s
  have begun := fab_orbitBegun w
  have pw : (markerSync (cutoffAtStart w)).pw = w.pw := pw_of_only (by simp)
  rw [markAct_idle st, left, begun.regs, begun.marked, counterAt_orbitBegun, pw, fab, stage]
  exact ⟨rfl, rfl, counter, le_max_right _ _⟩

theorem markAct_noted (st : s.orb.st = .locked) (here : s.orb.slot = orbOfs s) :
    markAct s = { s with orb := { s.orb with markSeen := true } } := by
  unfold markAct
  rw [st]
  exact if_pos here

theorem markAct_mismatch (st : s.orb.st = .locked) (other : s.orb.slot ≠ orbOfs s) : markAct s = count 0x03 1 s := by
  unfold markAct
  rw [st]
  exact if_neg other

theorem markAct_locks (st : s.orb.st = .seek) (here : s.orb.slot = orbOfs s) :
    markAct s = { s with orb := { s.orb with st := .locked, markSeen := true } } := by
  unfold markAct
  rw [st]
  exact if_pos here

theorem markAct_realigns (st : s.orb.st = .seek) (other : s.orb.slot ≠ orbOfs s) : markAct s = realign s := by
  unfold markAct
  rw [st]
  exact if_neg other

/-- A realignment applies nothing and is counted. -/
theorem markAct_ends_seek (canon : Canonical s) (st : s.orb.st = .seek) (other : s.orb.slot ≠ orbOfs s) :
    (markAct s).fab.regs = s.fab.regs ∧ (markAct s).fab.marked = s.fab.marked ∧
    counterAt (markAct s) = ⟨.locked, orbOfs s, (s.orb.orbit + 1) % 2 ^ 32⟩ ∧
    tallyOf (markAct s) 0x03 2 = min 0xFF (tallyOf s 0x03 2 + 1) := by
  obtain ⟨w, realigned, skipped, counter⟩ := realign_eq s
  have begun := fab_orbitBegun (count 0x03 2 w)
  have page : pageSt w 0x03 = pageSt (oasisSkipped s) 0x03 := by
    unfold pageSt
    rw [skipped.pages]
  have canonical := canon_oasisSkipped s canon
  rw [markAct_realigns st other, realigned, begun.regs, begun.marked, counterAt_orbitBegun, tallyOf_congr begun.pages, regs_count,
    marked_count, counterAt_count, skipped.regs, skipped.marked,
    tallyOf_count _ _ _ (skipped.pages ▸ canonical.pages) (page ▸ canonical.tally_keys 0x03) (by decide), tallyOf_congr skipped.pages,
    tallyOf_oasisSkipped canon (by decide)]
  exact ⟨regs_oasisSkipped s, marked_oasisSkipped s, counter, rfl⟩

end

/-- Settles O20: a mark ends IDLE, is noted or counted in LOCKED, and in SEEK locks the counter or realigns it. -/
theorem orbitMarkFollowsTheTable : Obligations.OrbitMarkFollowsTheTable := by
  intro s t d por core canon head code orbit
  have runs : exec .orbitMark s = .next (markAct (setDue t d { d with orbit := false } s)) := by
    rw [← orbitMarkCmd_due head code orbit]
    exact congrArg _ (coreOnly_eq orbitMarkCmd por core)
  refine ⟨_, runs, ?_⟩
  have only := only_of_setDue t d { d with orbit := false } s
  have canonical := canon_setDue t d { d with orbit := false } s canon
  generalize setDue t d { d with orbit := false } s = v at only canonical
  have fab := only.fab (by decide)
  have orb := only.orb (by decide)
  rw [← orbOfs_of_regs (congrArg Fabric.regs fab), ← regAt_of_fab fab, ← tallyOf_of_fab fab, ← tallyOf_of_fab fab, ← orb, ← fab]
  cases st : v.orb.st with
  | idle =>
    obtain ⟨regs, marked, counter, stage⟩ := markAct_ends_idle st
    exact ⟨regs, marked,
      fun _ => ⟨congrArg Counter.st counter, congrArg Counter.slot counter, congrArg Counter.orbit counter, stage⟩, nofun, nofun⟩
  | locked =>
    by_cases here : v.orb.slot = orbOfs v
    · rw [markAct_noted st here]
      exact ⟨rfl, rfl, nofun, fun _ => ⟨rfl, rfl, st, fun _ => ⟨rfl, rfl⟩, fun other => absurd here other⟩, nofun⟩
    · have counted : Only [.fab] v (count 0x03 1 v) := by simp
      rw [markAct_mismatch st here, counted.orb (by decide)]
      exact ⟨regs_count _ _ _, marked_count _ _ _, nofun,
        fun _ => ⟨rfl, rfl, st, fun same => absurd same here, fun _ => ⟨canonical.tallyOf_count 1 (by decide), rfl⟩⟩, nofun⟩
  | seek =>
    by_cases here : v.orb.slot = orbOfs v
    · rw [markAct_locks st here, if_pos here]
      exact ⟨rfl, rfl, nofun, nofun, fun _ => ⟨rfl, here, rfl, fun other => absurd here other⟩⟩
    · obtain ⟨regs, marked, counter, counted⟩ := markAct_ends_seek canonical st here
      rw [if_neg here]
      exact ⟨regs, marked, nofun, nofun,
        fun _ => ⟨congrArg Counter.st counter, congrArg Counter.slot counter, congrArg Counter.orbit counter, fun _ => counted⟩⟩

end Sys2Proof.Machine
end

section
/-! Oasis work of the converters (R28, R54, R94): its start, the end of a rotation, the end of pedestal tracking. -/

namespace Sys2Proof.Machine

/-! ### The start -/

/-- The oasis work of the present slot: whether it runs, from where and for how long, whether tracking has ended, and the slot. -/
def workNow (s : State) : Bool × Nat × Nat × Bool × Nat :=
  (s.orb.oasis.running, s.orb.oasis.start, s.orb.oasis.len, s.orb.oasis.pedDone, s.orb.slot)

theorem workNow_of_orb {s t : State} (h : t.orb = s.orb) : workNow t = workNow s := by simp only [workNow, h]

theorem workNow_sweepStart (s : State) : workNow (sweepStart s) = workNow s := by
  have counted (u : State) : Only [.fab] u (count 0x28 2 u) := by simp
  unfold sweepStart
  dsimp only
  split
  · rfl
  · exact (workNow_of_orb ((counted _).orb (by decide))).trans rfl

theorem workNow_eyeStart (s : State) : workNow (eyeStart s) = workNow s := rfl

theorem kept_judgeConv {C : Set Nat} (conv : Bool) (c : Nat) (s : State) : FabKept C s (judgeConv conv c s) := by
  have moved (f : Conv → Conv) : FabKept C s (modConv c f s) := .of_fab rfl
  have counted (f : Conv → Conv) : FabKept C s (count (convPage c) 2 (modConv c f s)) := (moved f).trans (kept_count _ _ _)
  unfold judgeConv
  exact FabKept.ite (moved _) (FabKept.ite (moved _) (FabKept.ite ((counted _).trans (kept_count _ _ _)) (counted _)))

theorem kept_sweepStart {C : Set Nat} (s : State) : FabKept C s (sweepStart s) := by
  unfold sweepStart
  exact FabKept.ite (.of_fab rfl) ((kept_count _ _ _).since rfl)

/-- Every converter is judged by the estimates of the parked slices (R53, R56). -/
def convsJudged (est : List SliceEst) (s : State) : State :=
  (List.range 384).foldl (fun v c => judgeConv (sliceOk v est c) c v) (parkedTrims s)

theorem kept_convsJudged {C : Set Nat} (est : List SliceEst) (s : State) : FabKept C s (convsJudged est s) :=
  (FabKept.foldl (fun v c => kept_judgeConv _ c v) _ _).since rfl

theorem only_convsJudged (est : List SliceEst) (s : State) : Only [.pw, .fab, .conv] s (convsJudged est s) := by
  unfold convsJudged
  simp

theorem elapsed_convsJudged (est : List SliceEst) (s : State) : (convsJudged est s).pw.elapsed = s.pw.elapsed := by
  have judged (v : State) (c : Nat) : Only [.fab, .conv] v (judgeConv (sliceOk v est c) c v) := by simp
  have kept (l : List Nat) (u : State) : (l.foldl (fun v c => judgeConv (sliceOk v est c) c v) u).pw = u.pw := by
    induction l generalizing u with
    | nil => rfl
    | cons c l ih => exact (ih _).trans ((judged u c).pw (by decide))
  exact (congrArg Power.elapsed (kept _ (parkedTrims s))).trans rfl

/-- The sweep and the eye measurement begin with the oasis work, and the pulser's diagnostics are open (R94, R248, R398). -/
def measurementsBegun (s : State) : State := retag (diagClear false (eyeStart (sweepStart s)))

theorem workNow_measurementsBegun (s : State) : workNow (measurementsBegun s) = workNow s := by
  have cleared (u : State) : Only [.pls] u (diagClear false u) := by simp
  have tagged (u : State) : workNow (retag u) = workNow u := rfl
  unfold measurementsBegun
  rw [tagged, workNow_of_orb ((cleared _).orb (by decide)), workNow_eyeStart, workNow_sweepStart]

theorem kept_measurementsBegun {C : Set Nat} (s : State) : FabKept C s (measurementsBegun s) := by
  have cleared (u : State) : FabKept C u (diagClear false u) := .of_fab (fab_of_only (by simp))
  have eyed (u : State) : FabKept C u (eyeStart u) := .of_fab (fab_of_only (by simp))
  have tagged (u : State) : FabKept C u (retag u) := .of_fab rfl
  unfold measurementsBegun
  exact (kept_sweepStart s).trans ((eyed _).trans ((cleared _).trans (tagged _)))

/-- The oasis work runs from the present slot over `len` slots. -/
def workBegun (len : Nat) (s : State) : State :=
  { s with
    orb := { s.orb with oasis := { s.orb.oasis with
      running := true, start := s.pw.elapsed, len := len, rotating := s.conv.any (·.rotating), pedDone := false } },
    chan := s.chan.map (fun x => { x with pedN := 0, pedT := 0, pedSum := 0 }) }

theorem workNow_workBegun (len : Nat) (s : State) : workNow (workBegun len s) = (true, s.pw.elapsed, len, false, s.orb.slot) := rfl

theorem oasisStart_eq (est : List SliceEst) {s : State} (may : oasisMay s = true) :
    oasisStart est s = measurementsBegun (workBegun ((declOasis s).elim 0 (·.2)) (convsJudged est s)) := by
  unfold oasisStart
  rw [if_neg (by simp [may])]
  rfl

theorem workNow_oasisStart (est : List SliceEst) {s : State} (may : oasisMay s = true) :
    workNow (oasisStart est s) = (true, s.pw.elapsed, (declOasis s).elim 0 (·.2), false, s.orb.slot) := by
  rw [oasisStart_eq est may, workNow_measurementsBegun, workNow_workBegun, elapsed_convsJudged, (only_convsJudged est s).orb (by decide)]

theorem kept_oasisStart {C : Set Nat} (est : List SliceEst) {s : State} (may : oasisMay s = true) : FabKept C s (oasisStart est s) := by
  have begun (len : Nat) (u : State) : FabKept C u (workBegun len u) := .of_fab rfl
  rw [oasisStart_eq est may]
  exact (kept_convsJudged est s).trans ((begun _ _).trans (kept_measurementsBegun _))

/-! ### Pedestal tracking -/

/-- What changes of a channel at the end of tracking leaves the pedestal in force. -/
theorem ped_modChan {f : Chan → Chan} (keeps : ∀ x, (f x).ped = x.ped) (c k : Nat) (s : State) :
    (getChan (modChan c f s) k).ped = (getChan s k).ped := by
  unfold getChan modChan
  rw [List.getD_eq_getElem?_getD, List.getD_eq_getElem?_getD, List.getElem?_modify]
  split
  · cases s.chan[k]? with
    | none => rfl
    | some x => exact keeps x
  · rw [id_map']

/-- The words in force and every pedestal in force are as before. -/
def PedsKept (s t : State) : Prop := FabKept ∅ s t ∧ ∀ k, (getChan t k).ped = (getChan s k).ped

/-- Each tracked channel gets its result or its rejection beside the pedestal in force. -/
theorem pedsKept_pedEnd (s : State) : PedsKept s (pedEnd s) := by
  have shown {u : State} (c : Nat) {f : Chan → Chan} (keeps : ∀ x, (f x).ped = x.ped) (h : PedsKept s u) : PedsKept s (modChan c f u) :=
    ⟨h.1.trans (.of_fab rfl), fun k => (ped_modChan keeps c k u).trans (h.2 k)⟩
  have counted {u : State} (p d : Nat) (h : PedsKept s u) : PedsKept s (countD p 0 d u) := by
    refine ⟨h.1.trans (kept_countD u p 0 d), fun k => ?_⟩
    have chan := Only.chan (show Only [.fab] u (countD p 0 d u) by simp) (by decide)
    unfold getChan
    rw [chan]
    exact h.2 k
  unfold pedEnd
  refine List.foldlRecOn _ _ ⟨.refl s, fun _ => rfl⟩ fun u h c _ => ?_
  dsimp only
  split
  · exact h
  · split
    · exact shown c (fun _ => rfl) h
    · exact counted _ _ (shown c (fun _ => rfl) h)

/-- Tracking ends once, and each result waits for the boundary (R31, R94). -/
theorem pedFinish_ends {s : State} (yet : s.orb.oasis.pedDone = false) :
    (pedFinish s).orb.oasis = { s.orb.oasis with pedDone := true } ∧ PedsKept s (pedFinish s) := by
  have orb : (pedEnd s).orb = s.orb := orb_of_only (by simp)
  have ended (u : State) (o : Orbit) (h : PedsKept s u) : PedsKept s { u with orb := o } := ⟨h.1.trans (.of_fab rfl), h.2⟩
  unfold pedFinish
  rw [if_neg (by simp [yet]), orb]
  exact ⟨rfl, ended _ _ (pedsKept_pedEnd s)⟩

/-- Settles O23: the work begins with the oasis, and what it finds waits beside the values in force for the boundary. -/
theorem oasisWorkOfTheConverters : Obligations.OasisWorkOfTheConverters := by
  intro s por run
  refine ⟨fun est may => ?_, fun diffs running rotating due => ?_, fun ready => ?_⟩
  · have work := workNow_oasisStart est may
    simp only [workNow, Prod.mk.injEq] at work
    obtain ⟨running, start, len, ped, slot⟩ := work
    exact ⟨oasisStart est s, congrArg _ (coreOnly_eq _ por run), running, start, len, ped, slot,
      (kept_oasisStart est may).regs, by simp⟩
  · have acts : rotationEnd diffs s = rotateAll diffs s := if_neg (by simp [run, running, rotating, due])
    refine ⟨rotateAll diffs s, congrArg _ ((coreOnly_eq _ por run).trans acts), by simp, rfl, fun c all hc => ?_⟩
    have inside : c < s.conv.length := by rwa [all]
    unfold getConv rotateAll
    dsimp only
    rw [getD_mapIdxN _ _ _ inside]
  · have acts : pedTracking s = pedFinish s := if_pos (by rw [run, ready]; rfl)
    have yet : s.orb.oasis.pedDone = false := by
      simp only [pedReady, Bool.and_eq_true, Bool.not_eq_true'] at ready
      exact ready.1.2
    obtain ⟨oasis, kept, peds⟩ := pedFinish_ends yet
    exact ⟨pedFinish s, congrArg _ ((coreOnly_eq _ por run).trans acts), oasis, kept.regs, peds, by simp⟩

end Sys2Proof.Machine
end

section
/-! The orbit boundary (R33, R34): what the start of a slot leaves of the fabric and of the counter. -/

namespace Sys2Proof.Machine

variable {C : Set Nat}

namespace FabKept

variable {s u : State} (h : FabKept C s u)
include h

theorem frm (x : Framer) : FabKept C s { u with frm := x } := h.trans (.of_fab rfl)
theorem pls (x : Pls) : FabKept C s { u with pls := x } := h.trans (.of_fab rfl)
theorem chan (x : List Chan) : FabKept C s { u with chan := x } := h.trans (.of_fab rfl)
theorem tb (x : Bases) : FabKept C s { u with tb := x } := h.trans (.of_fab rfl)
theorem modDl (t : Trunk) (f : Dl → Dl) : FabKept C s (modDl t f u) := h.trans (by cases t <;> exact .of_fab rfl)

end FabKept

/-! ### The start of a slot -/

theorem kept_towerSync (s : State) : FabKept C s (towerSync s) := by
  have counted (old : Nat) (l : List Nat) :
      FabKept C s (l.foldl (fun v t => if old.testBit t then v else count (0x10 + t / 2) 4 v) s) :=
    FabKept.foldl (fun v _ => (FabKept.refl v).ite (kept_count v _ _)) l s
  unfold towerSync
  extract_lets e sat old counts
  exact (FabKept.refl s).ite ((counted old sat).frm _)

theorem kept_groupSlot (s : State) : FabKept C s (groupSlot s) := by
  have counted (v w : Nat) : FabKept C s (setG .b v (setG .a w s)) := .of_fab rfl
  have sent (u : State) : FabKept C u (unsend u) := .of_told (told_unsend u)
  have marked (u : State) : FabKept C u (txBoth (markerSync u)) := .of_fab (fab_of_only (by simp))
  unfold groupSlot
  extract_lets s1 s2 k grp
  have kept : FabKept C s s2 := (counted _ _).trans ((sent _).ite (.refl _))
  exact (kept.frm _).trans (marked _)

theorem kept_dueSlot (t : Trunk) (s : State) : FabKept C s (dueSlot t s) := by
  have kept (f : Dl → Dl) : FabKept C s (modDl t f s) := (FabKept.refl s).modDl t f
  unfold dueSlot
  exact (kept _).ite ((kept _).trans (kept_countN _ _ _ _))

theorem kept_ctlGap (t : Trunk) (s : State) : FabKept C s (ctlGap t s) := by
  unfold ctlGap
  exact (FabKept.of_told (told_ctlAbort t s)).ite (.refl s)

theorem kept_ttGap (t : Trunk) (s : State) : FabKept C s (ttGap t s) := by
  have ended (f : Dl → Dl) : FabKept C s (modDl t f s) := (FabKept.refl s).modDl t f
  unfold ttGap ttAbort
  exact (((ended _).trans (kept_count _ _ _)).ite (.refl s)).ite (.refl s)

theorem kept_diagPulse (s : State) : FabKept C s (diagPulse s) := by
  unfold diagPulse
  split
  · exact .refl s
  · exact ((FabKept.refl s).pls _).trans (.of_told (told_fireRow _ _ _ _ _))

theorem kept_diagSlot (s : State) : FabKept C s (diagSlot s) := by
  have due : FabKept C s (diagDue s) := (kept_diagPulse s).ite (.refl s)
  unfold diagSlot
  exact (due.pls _).ite due

theorem kept_ttCapture (t : Trunk) (s : State) : FabKept C s (ttCapture t s) := (FabKept.refl s).modDl t _

theorem kept_flintSample (s : State) : FabKept C s (flintSample s) :=
  .of_fab (fab_of_only (by simp))

theorem kept_upsetsPast (s : State) : FabKept C s (upsetsPast s) := .of_regs rfl

/-- A slot start writes no word in force, marks no group and freezes nothing. -/
theorem kept_openSlot (s : State) : FabKept C s (openSlot s) := by
  have sampled (u : State) : FabKept C u (towerSync (flintSample (groupSlot u))) :=
    (kept_groupSlot _).trans ((kept_flintSample _).trans (kept_towerSync _))
  have gaps (u : State) : FabKept C u (ttGap .b (ttGap .a (ctlGap .b (ctlGap .a u)))) :=
    (kept_ctlGap .a u).trans ((kept_ctlGap .b _).trans ((kept_ttGap .a _).trans (kept_ttGap .b _)))
  have taken (u : State) : FabKept C u (dueSlot .b (dueSlot .a (ttCapture .b (ttCapture .a u)))) :=
    (kept_ttCapture .a u).trans ((kept_ttCapture .b _).trans ((kept_dueSlot .a _).trans (kept_dueSlot .b _)))
  unfold openSlot
  extract_lets oldTb based towers opened
  have based : FabKept C s based := (FabKept.refl s).tb _
  have towers : FabKept C s towers := based.trans (sampled _)
  have opened : FabKept C s opened := towers.trans ((taken _).trans (gaps _))
  exact opened.trans ((kept_diagSlot _).trans (kept_upsetsPast _))

end Sys2Proof.Machine
end

section
/-! What an application writes beside the candidate words (R34, R36): the effects of a page's words on its block leave every other word
in force, mark and buffered word as it is. -/

namespace Sys2Proof.Machine

variable {C : Set Nat}

/-! ### Enables and queues -/

theorem kept_beside {s t : State} (h : Only (beside .fab) s t) : FabKept C s t := .of_fab (fab_of_only h)

theorem kept_restart (p : Nat) (s : State) : FabKept C s (restart p s) := by
  have begun (f : PageSt → PageSt) : FabKept C s (modPage p f s) := kept_modPage s p f
  unfold restart
  extract_lets s1 e nowN
  have begun : FabKept C s s1 := begun _
  refine FabKept.ite (begun.trans (kept_beside (by simp))) (FabKept.ite (begun.trans (.of_fab rfl)) ?_)
  refine FabKept.ite (begun.trans (.of_fab rfl)) ?_
  exact FabKept.ite (begun.trans (.of_fab rfl)) (FabKept.ite (begun.trans (.of_fab rfl)) begun)

theorem kept_haltBlock (p : Nat) (s : State) : FabKept C s (haltBlock p s) := kept_beside (by simp)

theorem kept_enApplied (p : Nat) (s : State) : FabKept C s (enApplied p s) := by
  have marked (f : PageSt → PageSt) : FabKept C s (modPage p f s) := kept_modPage s p f
  unfold enApplied
  dsimp only
  refine FabKept.ite (FabKept.ite ((marked _).trans (kept_haltBlock _ _)) (marked _)) ?_
  exact FabKept.ite ((FabKept.refl s).ite ((marked _).trans (kept_count _ _ _))) ((FabKept.refl s).ite (kept_restart p s))

theorem kept_applyQen (q : Nat) (s : State) : FabKept C s (applyQen q s) := by
  have set (f : Queue → Queue) : FabKept C s (modQ q f s) := kept_beside (by simp)
  unfold applyQen
  dsimp only
  refine (FabKept.refl s).ite (FabKept.ite ((set _).ite (set _)) ?_)
  exact FabKept.ite ((FabKept.refl s).ite ((set _).trans (kept_count _ _ _))) (set _)

/-! ### The supervisor -/

theorem kept_darkSync (s : State) : FabKept C s (darkSync s) := by
  unfold darkSync
  exact (kept_onRise _ _ _ _ _ _).since rfl

theorem kept_modTs (t : Trunk) (f : TrunkSup → TrunkSup) (s : State) : FabKept C s (modTs t f s) := kept_beside (by simp)

theorem kept_roleStep (t : Trunk) (old : Nat) (s : State) : FabKept C s (roleStep t old s) := by
  unfold roleStep
  extract_lets r s1 s2
  have confirmed : FabKept C s s1 := (kept_count _ _ _).ite (.refl s)
  have repaired : FabKept C s s2 := (confirmed.trans (kept_modTs _ _ _)).ite confirmed
  exact (FabKept.refl s).ite (repaired.trans (kept_postNotice _ _ _))

theorem kept_roleSync (s : State) : FabKept C s (roleSync s) := by
  unfold roleSync
  extract_lets s1 oa ob ra rb
  have dark : FabKept C s s1 := kept_darkSync s
  have roles (u v : TrunkSup → TrunkSup) : FabKept C s1 (modTs .b u (modTs .a v s1)) := (kept_modTs _ _ _).trans (kept_modTs _ _ _)
  exact dark.trans ((roles _ _).trans ((kept_roleStep _ _ _).trans (kept_roleStep _ _ _)))

theorem kept_setLast (x y z : Nat) (s : State) : FabKept C s (setLast x y z s) := kept_beside (by simp)

theorem kept_moveToken (t : Trunk) (x y : Nat) (s : State) : FabKept C s (moveToken t x y s) := by
  unfold moveToken
  extract_lets old core s1 oldSup s2
  have granted : FabKept C s s2 := .of_fab rfl
  exact granted.trans ((kept_setLast _ _ _ _).trans (kept_count _ _ _))

theorem kept_declined (x : Nat) (s : State) : FabKept C s (declined x s) := (kept_setLast _ _ _ s).trans (kept_count _ _ _)

theorem kept_powerCycle (t : Trunk) (s : State) : FabKept C s (powerCycle t s) := (kept_modTs _ _ _).trans (kept_count _ _ _)

theorem kept_latchTrunk (t : Trunk) (b : Bool) (s : State) : FabKept C s (latchTrunk t b s) := kept_beside (by simp)

/-- A forced command writes no word but its own, which then reads 0 (R285). -/
theorem kept_forceCmd (h : 0x5004C ∈ C) (v : Nat) (s : State) : FabKept C s (forceCmd v s) := by
  unfold forceCmd
  extract_lets t cmd late s1
  have cleared : FabKept C s s1 := kept_setReg s 0x50 0x04C 0 h
  have refused (x : Nat) : FabKept C s (declined x s1) := cleared.trans (kept_declined _ _)
  have moved (n : Trunk) (x : Nat) : FabKept C s (moveToken n x 0 s1) := cleared.trans (kept_moveToken _ _ _ _)
  have told (n : Nat) : FabKept C s (setLast n (token s1 % 3) 0 s1) := cleared.trans (kept_setLast _ _ _ _)
  refine cleared.ite (FabKept.ite ?_ (FabKept.ite (FabKept.ite (FabKept.ite ?_ (refused 4)) (FabKept.ite (refused 4) ?_)) ?_))
  · split
    · exact ((moved _ _).trans (kept_roleSync _)).ite (refused 3)
    · exact refused 3
  · have forced (n : Option Trunk) (u : State) : FabKept C u { u with sup := { u.sup with prevCmd := n } } := .of_fab rfl
    exact (moved _ _).trans ((forced _ _).trans (kept_roleSync _))
  · exact (told _).trans ((kept_latchTrunk _ _ _).trans (kept_roleSync _))
  · exact ((told _).trans ((kept_powerCycle _ _).trans (kept_roleSync _))).ite (refused 5)

/-! ### The other blocks -/

theorem kept_trackZero (h : 0x28040 ∈ C) (s : State) : FabKept C s (trackZero s) := by
  have zeroed : FabKept C s (zeroTracks s) := .of_fab rfl
  unfold trackZero
  exact (zeroed.trans (kept_setReg _ 0x28 0x040 _ h)).ite (.refl s)

theorem kept_csCommand (h : 0x70044 ∈ C) (op : Nat) (s : State) : FabKept C s (csCommand op s) := by
  unfold csCommand
  extract_lets s1 oldCal s2
  have cleared : FabKept C s s1 := kept_setReg s 0x70 0x044 0 h
  have taken (x : Cal) : FabKept C s { s1 with cal := x } := cleared.trans (.of_fab rfl)
  have applied : FabKept C s s2 := (taken _).ite cleared
  exact (applied.trans (kept_beside (by simp))).ite applied

theorem kept_laneApplied (t : Trunk) (s : State) : FabKept C s (laneApplied t s) := kept_beside (by simp)
theorem kept_testApplied (t : Trunk) (s : State) : FabKept C s (testApplied t s) := kept_beside (by simp)
theorem kept_stepApply (c v : Nat) (s : State) : FabKept C s (stepApply c v s) := kept_beside (by simp)

/-- The words whose command reads 0 once it has acted. -/
def selfClears : Set Nat := {a | selfClearing a}

/-- The effects of a page's words write no word in force but the commands that read 0 once they have acted. -/
theorem kept_pageApplied (p : Nat) (r0 words : Ram Tri) (s : State) : FabKept (selfClears) s (pageApplied p r0 words s) := by
  have clears {a : Nat} (h : a ∈ [0x01050, 0x28040, 0x5004C, 0x54068, 0x70044]) : a ∈ selfClears := h
  have queues (u : State) : FabKept selfClears u (seraiSync ((List.range 32).foldl (fun v q => applyQen q v) u)) :=
    (FabKept.foldl (fun v q => kept_applyQen q v) _ u).trans (kept_seraiSync _)
  unfold pageApplied
  extract_lets s1 t s2 s3 v
  have enabled : FabKept selfClears s s1 := (kept_enApplied p s).ite (.refl s)
  have lanes : FabKept selfClears s s2 := enabled.trans (kept_laneApplied t s1)
  have roles : FabKept selfClears s s3 := enabled.trans (kept_roleSync s1)
  have stepped : FabKept selfClears s (stepApply v (regAt s1 0x54 0x060 + 2 ^ 32 * regAt s1 0x54 0x064) s1) :=
    enabled.trans (kept_stepApply _ _ _)
  refine FabKept.ite (enabled.trans (kept_setReg _ 0x01 0x050 0 (clears (by decide)))) ?_
  refine FabKept.ite (enabled.trans (kept_beside (by simp))) ?_
  refine FabKept.ite (enabled.trans (kept_beside (by simp))) ?_
  refine FabKept.ite (enabled.trans (kept_beside (by simp))) ?_
  refine FabKept.ite (enabled.trans (kept_beside (by simp))) ?_
  refine FabKept.ite (enabled.trans (kept_trackZero (clears (by decide)) _)) ?_
  refine FabKept.ite (enabled.trans (queues _)) ?_
  refine FabKept.ite ((lanes.trans (kept_testApplied t s2)).ite lanes) ?_
  refine FabKept.ite ((roles.trans (kept_forceCmd (clears (by decide)) _ _)).ite roles) ?_
  refine FabKept.ite (FabKept.ite (stepped.trans (kept_setReg _ 0x54 0x068 0 (clears (by decide)))) enabled) ?_
  exact FabKept.ite ((enabled.trans (kept_csCommand (clears (by decide)) _ _)).ite enabled) enabled

/-! ### The application of one group -/

/-- The words `r` are in force. -/
def inForce (r : Ram Tri) (s : State) : State := { s with fab := { s.fab with regs := r } }

/-- The candidate words of the pages `ps` are in force and have had their effects. -/
def pagesTaken (ps : List Nat) (s : State) : State :=
  (ps.map (fun p => (p, takenWords s p))).foldl (fun v e => pageDone e.1 (pageApplied e.1 s.fab.regs e.2 v)) (inForce (candRegs s ps) s)

theorem kept_pagesTaken (ps : List Nat) (s : State) : FabKept selfClears (inForce (candRegs s ps) s) (pagesTaken ps s) :=
  FabKept.foldl (fun _ _ => (kept_pageApplied _ _ _ _).trans (kept_modPage _ _ _)) _ _

/-- UPD_LAST shows the groups of `b` as refused too. -/
def showRefused (b : BitVec 16) (s : State) : State := { s with fab := { s.fab with refused := s.fab.refused ||| b } }

theorem kept_showRefused {s t : State} (b : BitVec 16) (h : FabKept C s t) : FabKept C (showRefused b s) (showRefused b t) where
  fab := by
    unfold showRefused
    rw [h.fab]
  same := h.same
  keys := h.keys
  words := h.words

/-- A refused group changes of the fabric the tallies, the page headers and what UPD_LAST shows (R35). -/
theorem kept_refuseGroup (g : Nat) (causes : List (Nat × Option Nat)) (s : State) :
    FabKept C (showRefused (BitVec.ofNat 16 (1 <<< g)) s) (refuseGroup g causes s) := by
  have told (v : State) (e : Nat × Option Nat) :
      FabKept C v (refuse e.1 (e.2.getD 0x07) g (if e.2 = some 0x08 then count 0x54 0 v else v)) :=
    ((kept_count v _ _).ite (.refl v)).trans (kept_refuse _ _ _ _)
  exact (kept_showRefused _ (FabKept.foldl told causes s)).trans (kept_count _ _ _)

theorem kept_afterApply (resid : List Bool) (ph : Bool) (s : State) : FabKept C s (afterApply resid ph s) := by
  have judged (u : State) : FabKept C u (flintJudge (outsLow u)) := kept_beside (by simp)
  have resids (l : List (Bool × Nat)) (u : State) :
      FabKept C u (l.foldl (fun v p => onRise p.1 (residHigh v p.2) (0x20 + p.2) 1 0 v) u) :=
    FabKept.foldl (fun _ _ => kept_onRise _ _ _ _ _ _) l u
  have costs (u : State) : FabKept C u (recost u) := (FabKept.of_told (told_unfitSync _)).since rfl
  unfold afterApply
  extract_lets s1 s2 s3
  have phased : FabKept C s s3 := (judged s).trans ((resids _ _).trans (kept_onRise _ _ _ _ _ _))
  exact phased.trans ((kept_seraiSync _).trans ((kept_acqSync _).trans (costs _)))

end Sys2Proof.Machine
end

section
/-! The orbit boundary (R33, R34, R36): the groups that wait for the boundary after the next, and the copies that run, come through
what the boundary applies. -/

namespace Sys2Proof.Machine

/-! ### Soft resets (R347) -/

theorem kept_set (p o v : Nat) (s : State) : FabKept Set.univ s (setReg p o v s) := kept_setReg s p o v (Set.mem_univ _)

theorem kept_chanReset (p : Nat) (s : State) : FabKept Set.univ s (chanReset p s) := by
  have trims (base : Nat) (offsets : List Nat) (u : State) : FabKept Set.univ u (offsets.foldl (fun v o => setReg p (base + o) 0 v) u) :=
    FabKept.foldl (fun v o => kept_set p (base + o) 0 v) offsets u
  unfold chanReset
  extract_lets s1 e
  refine FabKept.chan (FabKept.foldl (fun v k => ?_) (List.range 32) s) _
  extract_lets base v1 v2
  exact (trims base _ v).trans ((kept_set _ _ _ v1).trans ((kept_set _ _ _ _).trans (kept_set _ _ _ v2)))

theorem kept_modLn {C : Set Nat} (t : Trunk) (f : Lanes → Lanes) (s : State) : FabKept C s (modLn t f s) := kept_beside (by simp)

theorem kept_laneReset (t : Trunk) (s : State) : FabKept Set.univ s (laneReset t s) := by
  have cancelled : FabKept Set.univ s (testCancel t s) := (kept_set (lnPage t) 0x048 0 s).trans (kept_testApplied t _)
  unfold laneReset
  exact cancelled.trans (kept_modLn t _ _)

theorem kept_seraiReset (s : State) : FabKept Set.univ s (seraiReset s) := by
  unfold seraiReset
  extract_lets s1 
  have cancelled : FabKept Set.univ s s1 := (FabKept.of_told (told_cancelBale _ _)).ite (.refl s)
  exact cancelled.trans (.of_fab rfl)

theorem kept_blockReset (p : Nat) (s : State) : FabKept Set.univ s (blockReset p s) := by
  unfold blockReset
  refine (kept_chanReset p s).ite (FabKept.ite (kept_beside (by simp)) ?_)
  refine FabKept.ite (kept_beside (by simp)) (FabKept.ite (kept_beside (by simp)) ((kept_seraiReset s).ite ((kept_laneReset _ s).ite ?_)))
  refine FabKept.ite (kept_beside (by simp)) (FabKept.ite (kept_beside (by simp)) (FabKept.ite (kept_beside (by simp)) ?_))
  refine FabKept.ite (.of_fab rfl) (FabKept.ite (kept_beside (by simp)) (FabKept.ite (kept_beside (by simp)) ?_))
  exact FabKept.ite (.of_fab rfl) (FabKept.ite (.of_regs rfl) (.refl s))

theorem kept_softReset (p : Nat) (s : State) : FabKept Set.univ s (softReset p s) := by
  unfold softReset
  exact FabKept.ite (.of_fab rfl) ((kept_blockReset p s).trans (kept_modPage _ _ _))

/-! ### The groups marked for the following boundary -/

theorem next_of_kept {C : Set Nat} {s t : State} (h : FabKept C s t) : t.fab.next = s.fab.next := by rw [h.fab]

theorem next_applyGroup (r0 : Ram Tri) (s : State) (g : Nat) : (applyGroup r0 s g).fab.next = s.fab.next := by
  unfold applyGroup
  extract_lets ps r causes s1 s2
  split
  · exact (next_of_kept (C := ∅) (kept_refuseGroup g causes s)).trans rfl
  · exact (next_of_kept (kept_pagesTaken ps s)).trans rfl

theorem next_applyGroups (gs : List Nat) (s : State) : (applyGroups gs s).fab.next = s.fab.next := by
  have applied (r0 : Ram Tri) (u : State) : (gs.foldl (applyGroup r0) u).fab.next = u.fab.next :=
    List.foldlRecOn (motive := fun v => v.fab.next = u.fab.next) gs _ rfl fun v h g _ => (next_applyGroup r0 v g).trans h
  have after (l : List Bool) (ph : Bool) (u : State) : (afterApply l ph u).fab.next = u.fab.next :=
    next_of_kept (C := ∅) (kept_afterApply l ph u)
  unfold applyGroups
  split
  · rfl
  · extract_lets r0 resid ph oldFab s1 trial s2
    refine (after _ _ _).trans ?_
    have tried : trial.fab.next = s.fab.next := applied r0 s1
    simp only [s2]
    split
    · exact (applied r0 _).trans ((next_of_kept (kept_softReset _ s1)).trans rfl)
    · exact tried

/-! ### The end of the orbit -/

/-- The groups that wait for the boundary after the next, and the slot map copies that run. -/
def carried (s : State) : BitVec 16 × Ram SmapCopy := (s.fab.next, s.orb.copies)

theorem carried_of {C : Set Nat} {s t : State} (fab : FabKept C s t) (orb : t.orb = s.orb) : carried t = carried s := by
  simp only [carried, next_of_kept fab, orb]

section
variable (s : State)

theorem carried_beside {t : State} (fab : Only (beside .fab) s t) (orb : Only (beside .orb) s t) : carried t = carried s :=
  carried_of (C := ∅) (kept_beside fab) (orb_of_only orb)

theorem carried_count (p i : Nat) : carried (count p i s) = carried s :=
  carried_of (C := ∅) (kept_count s p i) (orb_of_only (by simp))

theorem carried_eyeSlot (t : Trunk) (n : Nat) : carried (eyeSlot t n s) = carried s := by
  have seen (f : Lanes → Lanes) : carried (modLn t f s) = carried s := carried_beside _ (by simp) (by simp)
  unfold eyeSlot
  dsimp only
  split_ifs
  · rfl
  · rfl
  · exact seen _
  · rfl

theorem carried_pedFinish : carried (pedFinish s) = carried s := by
  have ended : carried (pedEnd s) = carried s := carried_of (pedsKept_pedEnd s).1 (orb_of_only (by simp))
  unfold pedFinish
  generalize pedEnd s = u at ended
  split
  · rfl
  · exact ended

theorem carried_oasisEnd : carried (oasisEnd s) = carried s := by
  have eyes : carried (eyeEnd .b (eyeEnd .a s)) = carried s := carried_beside _ (by simp) (by simp)
  have sweep (u : State) : carried (sweepKeep u) = carried u := by
    unfold sweepKeep
    split <;> rfl
  unfold oasisEnd
  extract_lets tracked kept oldOrb
  have tracked : carried tracked = carried s := (carried_pedFinish _).trans eyes
  have kept : carried kept = carried s := (sweep _).trans tracked
  split
  · exact kept
  · rfl

theorem carried_sweepOver : carried (sweepOver s) = carried s := by
  have ended : carried (sweepEnd s) = carried s := by
    unfold sweepEnd
    dsimp only
    split_ifs
    · exact (carried_count _ _ _).trans rfl
    · exact (carried_count _ _ _).trans rfl
    · rfl
  unfold sweepOver
  split
  · exact ended
  · rfl

theorem carried_closeSlot (obs : SlotObs) : carried (closeSlot obs s) = carried s := by
  have swept (u : State) : carried (sweepSlot obs u) = carried u := carried_beside _ (by simp) (by simp)
  have armed (u : State) : carried (rearmFlush u) = carried u :=
    carried_of (C := ∅) ((kept_countN _ _ _ _).since rfl) (orb_of_only (by simp))
  have missed (u : State) : carried (markMissed u) = carried u := by
    unfold markMissed
    split
    · exact carried_count _ _ _
    · rfl
  have past : carried (upsetsPast s) = carried s := carried_of (C := ∅) (kept_upsetsPast s) rfl
  unfold closeSlot
  rw [missed, armed, carried_oasisEnd, carried_sweepOver, carried_eyeSlot, carried_eyeSlot, swept, past]

theorem carried_cutoffNow : carried (cutoffNow s) = carried s := by
  unfold carried
  rw [fab_cutoffNow, orb_cutoffNow]
  split <;> rfl

/-- What ORBIT_BOUNDARY does before the boundary itself. -/
theorem carried_orbitEnd (n : Nat) (obs : SlotObs) :
    carried (pushTag true (passSlot n (cutoffNow (oasisSkipped (closeSlot obs s))))) = carried s := by
  have skipped (u : State) : carried (oasisSkipped u) = carried u := by
    unfold oasisSkipped
    split
    · exact carried_count _ _ _
    · rfl
  have passed (u : State) : carried (passSlot n u) = carried u := rfl
  have tagged (u : State) : carried (pushTag true u) = carried u := rfl
  rw [tagged, passed, carried_cutoffNow, skipped, carried_closeSlot]

end

end Sys2Proof.Machine
end

section
/-! The orbit boundary (R18, R33, R34): what the boundary applies, and the state of the next orbit. -/

namespace Sys2Proof.Machine

/-! ### Before the groups are applied -/

/-- Without a copy none completes. -/
theorem copiesPast_none {s : State} (none : s.orb.copies = []) : copiesPast s = s := by
  unfold copiesPast
  refine List.foldlRecOn (motive := fun v => v = s) _ _ rfl fun v h k _ => ?_
  rw [h, none]
  rfl

theorem next_copiesPast (s : State) : (copiesPast s).fab.next = s.fab.next :=
  congrArg Fabric.next (fab_of_only (by simp))

theorem kept_loadCorr (s : State) : FabKept Set.univ s (loadCorr s) :=
  (kept_set 0x54 0x06C _ s).trans ((kept_set 0x54 0x070 _ _).trans (kept_set 0x02 0x04C _ _))

section
variable (s : State)

theorem carried_setUncomp : carried (setUncomp s) = carried s := by
  have marked (u : State) : carried (markPhase u) = carried u := by
    unfold markPhase
    split <;> rfl
  exact (marked _).trans rfl

theorem carried_applyEffect : carried (applyEffect s) = carried s := by
  have taken (u : State) (x : Cal) : carried { u with cal := x } = carried u := rfl
  have refused (c d : Nat) (u : State) : carried (count 0x70 1 (refuse 0x70 c d u)) = carried u :=
    (carried_count _ _ _).trans (carried_of (C := ∅) (kept_refuse _ _ _ _) (orb_of_only (by simp)))
  have loaded (u : State) : carried (loadCorr (loadTrims u)) = carried u :=
    carried_of ((kept_loadCorr _).since rfl) (orb_of_only (by simp))
  unfold applyEffect
  dsimp only
  split
  · rfl
  · split_ifs
    · exact (refused _ _ _).trans (taken _ _)
    · exact (refused _ _ _).trans (taken _ _)
    · exact (loaded _).trans (taken _ _)
    · exact (carried_setUncomp _).trans ((loaded _).trans (taken _ _))

theorem carried_onRise (w n : Bool) (p i d : Nat) : carried (onRise w n p i d s) = carried s :=
  carried_of (C := ∅) (kept_onRise s w n p i d) (orb_of_only (by simp))

theorem carried_oasisResults : carried (oasisResults s) = carried s := by
  have stands (u : State) : carried (rotationStands u) = carried u := by
    unfold rotationStands
    split <;> rfl
  have shown (u : State) : carried (eyeShow .b (eyeShow .a u)) = carried u := carried_beside _ (by simp) (by simp)
  have tracked (u : State) : carried (trackApply u) = carried u := (carried_onRise _ _ _ _ _ _).trans rfl
  unfold oasisResults
  dsimp only
  rw [shown]
  split
  · exact (tracked _).trans (stands s)
  · exact stands s

end

/-! ### The groups of the next orbit -/

theorem heldBack_none {s : State} (none : s.orb.copies = []) (gs : List Nat) : heldBack s gs = [] := by
  unfold heldBack
  rw [none]
  simp [ramHas]

theorem kept_restartDeferred {C : Set Nat} (s : State) : FabKept C s (restartDeferred s) := by
  have pages (u : State) : FabKept C u (assignedPages.foldl (fun v p =>
      if (pageSt v p).deferred && !(pageSt v p).draining then restart p v else v) u) :=
    FabKept.foldl (fun v p => (kept_restart p v).ite (.refl v)) _ u
  have queues (f : Queue → Queue) (u : State) : FabKept C u ((List.range 32).foldl (fun v q =>
      if (getQ v q).deferred && !(getQ v q).draining then modQ q f v else v) u) :=
    FabKept.foldl (fun v q => (kept_beside (by simp)).ite (.refl v)) _ u
  unfold restartDeferred
  extract_lets restarted
  have restarted : FabKept C s restarted := pages s
  exact restarted.trans (queues _ _)

/-- The boundary's applications leave the groups of the boundary after the next, and hold none back where no copy runs (R27, R33). -/
theorem boundaryCore_groups (s : State) : (boundaryCore s).fab.next = s.fab.next ∧
    (s.orb.copies = [] → (boundaryCore s).fab.waiting = 0) := by
  have closed (la lb : Bool) (u : State) : FabKept ∅ u (recost (eyeRise la lb (restartDeferred u))) := by
    have costs (v : State) : FabKept ∅ v (recost v) := (FabKept.of_told (told_unfitSync _)).since rfl
    unfold eyeRise
    exact (kept_restartDeferred u).trans ((kept_onRise _ _ _ _ _ _).trans ((kept_onRise _ _ _ _ _ _).trans (costs _)))
  have captures (o : Nat) (u : State) : carried (orbitCapture o 0 false u) = carried u := carried_beside _ (by simp) (by simp)
  have rises (l : List (Bool × Nat)) (u : State) :
      carried (l.foldl (fun v p => onRise p.1 (residHigh v p.2) (0x20 + p.2) 1 0 v) u) = carried u :=
    List.foldlRecOn (motive := fun v => carried v = carried u) l _ rfl fun v h p _ => (carried_onRise v _ _ _ _ _).trans h
  unfold boundaryCore
  extract_lets past la lb resid ph orbit captured oldOrb turned effected resids phased gs held applied oldFab waits
  have before : carried phased = carried past :=
    calc carried phased
      _ = carried resids := carried_onRise _ _ _ _ _ _
      _ = carried effected := rises _ _
      _ = carried turned := (carried_applyEffect _).trans (carried_oasisResults _)
      _ = carried past := captures orbit past
  have next : waits.fab.next = s.fab.next :=
    calc waits.fab.next
      _ = phased.fab.next := next_applyGroups _ _
      _ = past.fab.next := congrArg Prod.fst before
      _ = s.fab.next := next_copiesPast s
  rw [(closed la lb waits).fab]
  refine ⟨next, fun none => ?_⟩
  have copies : phased.orb.copies = [] := (congrArg Prod.snd before).trans (by rwa [show past = s from copiesPast_none none])
  have free : held = [] := heldBack_none copies gs
  show BitVec.ofNat 16 (maskOf held) = 0
  rw [free]
  rfl

/-! ### The state of the next orbit -/

/-- The orbit's part but for the slot tags. -/
def orbBody (s : State) : Orbit := { s.orb with tags := [] }

theorem orbBody_beside {s t : State} (h : Only (beside .orb) s t) : orbBody t = orbBody s := by
  simp only [orbBody, orb_of_only h]

/-- A contribution that a slot start raises is noted in the slot's tag alone (R117). -/
theorem orbBody_judgeChan (c t : Nat) (s : State) : orbBody (judgeChan c t s) = orbBody s := by
  have risen (u : State) : orbBody (bothRise c t u) = orbBody u := orbBody_beside (by simp)
  have edged (u : State) : orbBody (edgeEvent c t u) = orbBody u := by
    unfold edgeEvent
    dsimp only
    split_ifs
    · rfl
    · exact risen _
    · rfl
    · exact risen _
    · rfl
  unfold judgeChan
  dsimp only
  split_ifs
  · exact edged _
  · exact risen _
  · rfl

theorem orbBody_flintSample (s : State) : orbBody (flintSample s) = orbBody s := by
  have judged : orbBody (flintJudge s) = orbBody s := by
    unfold flintJudge
    split
    · rfl
    · exact List.foldlRecOn (motive := fun v => orbBody v = orbBody s) _ _ rfl fun v h c _ => (orbBody_judgeChan c _ v).trans h
  exact judged

theorem orbBody_openSlot (s : State) : orbBody (openSlot s) = orbBody s := by
  have after (u : State) : Only (beside .orb) u (upsetsPast (diagSlot (ttGap .b (ttGap .a (ctlGap .b (ctlGap .a
      (dueSlot .b (dueSlot .a (ttCapture .b (ttCapture .a (towerSync u))))))))))) := by simp
  have before (u : State) : orbBody (groupSlot u) = orbBody u := orbBody_beside (by simp)
  exact (orbBody_beside (after _)).trans ((orbBody_flintSample _).trans (before _))

/-- The marks of the new orbit and its cutoff stand in the first slot as the boundary leaves them (R33, R34). -/
theorem openSlot_newOrbit {w t : State} (opens : t = openSlot (retag (newOrbitMarks w))) :
    t.orb.pastCut = false ∧ t.orb.markSeen = false ∧ t.orb.oasis = {} ∧ t.fab.frozen = none ∧ t.fab.late = [] ∧
    t.fab.marked = w.fab.next ||| w.fab.waiting ∧ t.fab.next = 0 := by
  have body : orbBody t = orbBody (retag (newOrbitMarks w)) := opens ▸ orbBody_openSlot _
  rw [(opens ▸ kept_openSlot _ : FabKept ∅ (retag (newOrbitMarks w)) t).fab]
  exact ⟨congrArg Orbit.pastCut body, congrArg Orbit.markSeen body, congrArg Orbit.oasis body, rfl, rfl, rfl, rfl⟩

/-- Settles O18: nothing that the end of the orbit does, and nothing that the boundary applies, touches the groups of the boundary after
the next, which then become the next ones. -/
theorem orbitBoundaryStartsTheNextOrbit : Obligations.OrbitBoundaryStartsTheNextOrbit := by
  intro s obs por run out last pins
  obtain ⟨n, boundary⟩ := orbitBoundary_eq obs run out last
  have counter := counterAt_orbitBoundary obs run out last
  have elapsed := elapsed_orbitBoundary obs run out last
  have runs : exec (.orbitBoundary obs) s = .next (orbitBoundary obs s) := by
    rw [exec_orbitBoundary obs por run, pinsSeen_none _ ((pinNext_orbitBoundary obs run out last).trans pins)]
  have ended := carried_orbitEnd s n obs
  refine ⟨_, runs, congrArg Counter.slot counter, congrArg Counter.orbit counter, congrArg Counter.st counter, elapsed, ?_⟩
  rw [boundary]
  have begun : (pushTag true (passSlot n (cutoffNow (oasisSkipped (closeSlot obs s))))).pw.cyc = 0 := rfl
  generalize pushTag true (passSlot n (cutoffNow (oasisSkipped (closeSlot obs s)))) = w at ended begun
  have pw : (openSlot (retag (newOrbitMarks (boundaryCore w)))).pw = w.pw := pw_of_only (by simp)
  obtain ⟨next, waiting⟩ := boundaryCore_groups w
  obtain ⟨cut, seen, oasis, frozen, late, marked, following⟩ := openSlot_newOrbit (w := boundaryCore w) rfl
  refine ⟨(congrArg Power.cyc pw).trans begun, cut, seen, oasis, frozen, late, fun none => ?_, following⟩
  rw [marked, next, waiting ((congrArg Prod.snd ended).trans none)]
  exact BitVec.or_zero.trans (congrArg Prod.fst ended)

end Sys2Proof.Machine
end

section
/-! The application of one group in IDLE (R35, R340, R341): applied whole or refused whole. -/

namespace Sys2Proof.Machine

/-! ### One group -/

/-- An application begins: UPD_LAST is empty, and the words in force before it join the history. -/
def opened (s : State) : State :=
  { s with fab := { s.fab with
    applied := 0, refused := 0,
    hist := (s.pw.elapsed, s.pw.cyc, s.fab.regs) :: s.fab.hist.filter (fun h => decide (s.pw.elapsed < h.1 + 2048)) } }

/-- What is judged is the same as before. -/
theorem nothingRefuses_opened (s : State) (g : Nat) : nothingRefuses (opened s) g = nothingRefuses s g := rfl

/-- What the application of group `g` makes of the fabric, but for the effects on the pages: the candidate words are in force, those of
the pages that take part are buffered no more, and UPD_LAST shows the group (R34, R341). -/
def groupTaken (g : Nat) (s : State) : State :=
  { s with fab := { s.fab with
    regs := candRegs s (takesPart s g), buf := (dropApplied (takesPart s g) s).fab.buf,
    applied := s.fab.applied ||| BitVec.ofNat 16 (1 <<< g) } }

section
variable {s : State} {g : Nat}

theorem any_causes : ((takesPart s g).map (fun p => (p, causeOf s s.fab.regs (candRegs s (takesPart s g)) (takesPart s g) p))).any
    (fun e => e.2.isSome) = !nothingRefuses s g := by
  unfold nothingRefuses
  rw [List.any_map, List.not_all_eq_any_not]
  exact List.any_congr rfl fun p => (Option.not_isNone _).symm

/-- UPD_LAST shows the groups of `b` as applied too. -/
def showApplied (b : BitVec 16) (s : State) : State := { s with fab := { s.fab with applied := s.fab.applied ||| b } }

/-- Taking the words out of the buffer and showing the group change nothing of the effects on the pages. -/
theorem kept_groupTaken {C : Set Nat} {u : State} (h : FabKept C (inForce (candRegs s (takesPart s g)) s) u) (l : List Nat) :
    FabKept C (groupTaken g s) (showApplied (BitVec.ofNat 16 (1 <<< g)) (flintApplied l (dropApplied (takesPart s g) u))) where
  fab := by
    unfold showApplied flintApplied dropApplied groupTaken
    dsimp only
    rw [h.fab]
    rfl
  same := h.same
  keys := h.keys
  words := h.words

/-- A group that nothing refuses is applied. -/
theorem kept_applyGroup_applied (ok : nothingRefuses s g = true) : FabKept selfClears (groupTaken g s) (applyGroup s.fab.regs s g) := by
  unfold applyGroup
  extract_lets ps r causes applied flints
  rw [if_neg (by rw [any_causes, ok]; decide)]
  exact kept_groupTaken (kept_pagesTaken ps s) _

/-- A group that a page refuses changes no word. -/
theorem kept_applyGroup_refused {C : Set Nat} (bad : nothingRefuses s g = false) :
    FabKept C (showRefused (BitVec.ofNat 16 (1 <<< g)) s) (applyGroup s.fab.regs s g) := by
  unfold applyGroup
  extract_lets ps r causes applied flints
  rw [if_pos (by rw [any_causes, bad]; decide)]
  exact kept_refuseGroup g causes s

end

/-- No soft reset acts where page 0x01 has none pending (R347). -/
theorem resetTarget_none {s : State} (quiet : ramFind (takenBuf s) 0x01050 = none) (gs : List Nat) (trial : State) :
    resetTarget s gs trial = none := by
  unfold resetTarget
  rw [quiet]
  simp

/-- One group alone: it is judged and applied, and the outputs, causes and costs follow. -/
theorem applyGroups_one {s : State} (quiet : ramFind (takenBuf s) 0x01050 = none) (g : Nat) :
    ∃ l ph, applyGroups [g] s = afterApply l ph (applyGroup s.fab.regs (opened s) g) := by
  unfold applyGroups
  rw [if_neg (by simp)]
  extract_lets r0 l ph oldFab s1 trial s2
  refine ⟨l, ph, ?_⟩
  have none : s2 = trial := by
    simp only [s2]
    rw [resetTarget_none (s := s1) quiet]
  rw [none]
  rfl

theorem ramHas_ramDrop {α : Type} {p : Nat → Bool} {a : Nat} (gone : p a = true) (m : Ram α) : ramHas (ramDrop p m) a = false := by
  unfold ramHas ramDrop
  rw [List.any_filter, List.any_eq_false]
  intro e _
  by_cases here : e.1 = a
  · simp [here, gone]
  · simp [here]

section
variable {v : State} {g : Fin 16} (quiet : ramFind (takenBuf v) 0x01050 = none)
include quiet

theorem kept_applyGroups_applied (ok : nothingRefuses v g = true) :
    FabKept selfClears (groupTaken g (opened v)) (applyGroups [g.val] v) := by
  obtain ⟨l, ph, applies⟩ := applyGroups_one quiet g
  rw [applies]
  exact (kept_applyGroup_applied ((nothingRefuses_opened v g).trans ok)).trans (kept_afterApply _ _ _)

theorem kept_applyGroups_refused {C : Set Nat} (bad : nothingRefuses v g = false) :
    FabKept C (showRefused (groupBit g) (opened v)) (applyGroups [g.val] v) := by
  obtain ⟨l, ph, applies⟩ := applyGroups_one quiet g
  rw [applies]
  exact (kept_applyGroup_refused ((nothingRefuses_opened v g).trans bad)).trans (kept_afterApply _ _ _)

/-- The group has been applied whole or refused whole. -/
theorem groupDone_applyGroups (canon : Canonical v) : GroupDone v (applyGroups [g.val] v) g := by
  refine ⟨fun ok => ?_, fun bad => ?_⟩
  · have kept := kept_applyGroups_applied quiet ok
    generalize applyGroups [g.val] v = t at kept
    refine ⟨?_, ?_, fun p o _ free => kept.regAt (keys_candRegs v _ canon) free, fun now a part => ?_⟩
    · rw [kept.fab]
      exact BitVec.zero_or
    · rw [kept.fab]
      rfl
    · rw [kept.fab]
      have gone : ((takesPart v g).contains (a / 0x1000) && !(v.fab.frozen.isSome && v.fab.late.contains a)) = true := by
        rw [part, now]
        rfl
      exact ramHas_ramDrop
        (p := fun a => (takesPart v g).contains (a / 0x1000) && !(v.fab.frozen.isSome && v.fab.late.contains a)) gone _
  · have kept := kept_applyGroups_refused (C := ∅) quiet bad
    generalize applyGroups [g.val] v = t at kept
    refine ⟨?_, ?_, kept.regs, ?_⟩
    · rw [kept.fab]
      rfl
    · rw [kept.fab]
      exact BitVec.zero_or
    · rw [kept.fab]
      rfl

/-- What waits to be applied waits on. -/
theorem marks_applyGroups : (applyGroups [g.val] v).fab.marked = v.fab.marked ∧ (applyGroups [g.val] v).fab.waiting = v.fab.waiting ∧
    (applyGroups [g.val] v).fab.idleAt = v.fab.idleAt := by
  cases judged : nothingRefuses v g with
  | true =>
    rw [(kept_applyGroups_applied quiet judged).fab]
    exact ⟨rfl, rfl, rfl⟩
  | false =>
    rw [(kept_applyGroups_refused (C := ∅) quiet judged).fab]
    exact ⟨rfl, rfl, rfl⟩

end

/-! ### The application within a slot -/

theorem ofNat_maskOf_one (g : Fin 16) : BitVec.ofNat 16 (maskOf [g.val]) = groupBit g := by
  simp [maskOf, groupBit]

theorem groupsOfMask_groupBit (g : Fin 16) : groupsOfMask (groupBit g) = [g.val] := by
  revert g
  decide

/-- The groups `gs` leave the marks; `held` wait (R27, R341). -/
def marksMoved (gs held : BitVec 16) (s : State) : State :=
  { s with fab := { s.fab with marked := s.fab.marked &&& ~~~gs, waiting := (s.fab.waiting &&& ~~~gs) ||| held } }

/-- A grid move from the words `r0` lengthens the present slot (R69). -/
def slotMoved (r0 : Ram Tri) (s : State) : State := retag { s with pw := { s.pw with slotLen := s.pw.slotLen + gridStep r0 s.fab.regs } }

theorem fab_slotMoved (r0 : Ram Tri) (s : State) : (slotMoved r0 s).fab = s.fab := rfl
theorem counterAt_slotMoved (r0 : Ram Tri) (s : State) : counterAt (slotMoved r0 s) = counterAt s := rfl
theorem elapsed_slotMoved (r0 : Ram Tri) (s : State) : (slotMoved r0 s).pw.elapsed = s.pw.elapsed := rfl

theorem slotMoved_still {r0 : Ram Tri} {s : State} (h : s.fab.regs = r0) : slotMoved r0 s = retag s := by
  have step : gridStep r0 r0 = 0 := by
    unfold gridStep
    omega
  unfold slotMoved
  rw [h, step]
  rfl

/-- The groups of `gs` that a copy holds back wait, the others are applied, and a grid move lengthens the slot. -/
theorem applyIdle_eq (gs : List Nat) (v : State) : applyIdle gs v =
    slotMoved v.fab.regs (marksMoved (BitVec.ofNat 16 (maskOf (gs.filter (fun g => !(heldBack v gs).contains g))))
      (BitVec.ofNat 16 (maskOf (heldBack v gs))) (applyGroups (gs.filter (fun g => !(heldBack v gs).contains g)) v)) := rfl

theorem counterAt_marksMoved (gs held : BitVec 16) (s : State) : counterAt (marksMoved gs held s) = counterAt s := rfl
theorem elapsed_marksMoved (gs held : BitVec 16) (s : State) : (marksMoved gs held s).pw.elapsed = s.pw.elapsed := rfl

theorem counterAt_applyIdle (gs : List Nat) (v : State) : counterAt (applyIdle gs v) = counterAt v := by
  rw [applyIdle_eq, counterAt_slotMoved, counterAt_marksMoved, counterAt_applyGroups]

theorem elapsed_applyIdle (gs : List Nat) (v : State) : (applyIdle gs v).pw.elapsed = v.pw.elapsed := by
  have applied (l : List Nat) : (applyGroups l v).pw = v.pw := pw_of_only (by simp)
  rw [applyIdle_eq, elapsed_slotMoved, elapsed_marksMoved, applied]

section
variable {v : State} {g : Fin 16}

/-- A group that no copy holds back is applied and waits no more. -/
theorem applyIdle_free (canon : Canonical v) (free : heldBack v [g.val] = []) (quiet : ramFind (takenBuf v) 0x01050 = none) :
    (applyIdle [g.val] v).fab.marked = v.fab.marked &&& ~~~groupBit g ∧
    (applyIdle [g.val] v).fab.waiting = v.fab.waiting &&& ~~~groupBit g ∧
    (applyIdle [g.val] v).fab.idleAt = v.fab.idleAt ∧ GroupDone v (applyIdle [g.val] v) g := by
  have fab : (applyIdle [g.val] v).fab = (marksMoved (groupBit g) 0 (applyGroups [g.val] v)).fab := by
    rw [applyIdle_eq, free, fab_slotMoved, List.filter_eq_self.2 (by simp), ofNat_maskOf_one]
    rfl
  obtain ⟨marked, waiting, idleAt⟩ := marks_applyGroups (v := v) (g := g) quiet
  have done : GroupDone v (applyGroups [g.val] v) g := groupDone_applyGroups quiet canon
  unfold GroupDone regAt at *
  rw [fab]
  unfold marksMoved
  dsimp only
  rw [marked, waiting, idleAt]
  exact ⟨rfl, BitVec.or_zero, rfl, done⟩

/-- A group that a copy holds back is marked still, and nothing is applied. -/
theorem applyIdle_held (held : heldBack v [g.val] = [g.val]) : Only [.fab, .orb] v (applyIdle [g.val] v) ∧
    (applyIdle [g.val] v).fab = { v.fab with waiting := v.fab.waiting ||| groupBit g } := by
  have none : [g.val].filter (fun x => !([g.val]).contains x) = [] := by simp
  have waits : applyIdle [g.val] v = slotMoved v.fab.regs (marksMoved 0 (groupBit g) v) := by
    rw [applyIdle_eq, held, none, ofNat_maskOf_one]
    rfl
  have marks : Only [.fab] v (marksMoved 0 (groupBit g) v) := (only_mk_fab v v _).2 (.refl _ _)
  have tagged (u : State) : Only [.orb] u (retag u) := by simp
  rw [waits, slotMoved_still (by rfl)]
  refine ⟨(marks.mono (by decide)).trans (Only.mono (tagged _) (by decide)), ?_⟩
  show (marksMoved 0 (groupBit g) v).fab = _
  unfold marksMoved
  rw [show ~~~(0 : BitVec 16) = BitVec.allOnes 16 from rfl, BitVec.and_allOnes, BitVec.and_allOnes]

end

theorem groupBit_ne_zero (g : Fin 16) : groupBit g ≠ 0 := by
  revert g
  decide

theorem canon_buffersOfNow {s : State} (canon : Canonical s) : Canonical (buffersOfNow s) :=
  ⟨canon.regs, canon.pages, canon.tallies, canon.live, canon.shadow, canon.ring, canon.flash⟩

/-! ### IDLE_GROUP_APPLY and SMAP_COPY_END -/

section
variable {s : State}

theorem copyEnd_running {k : Nat} (running : ∀ c, ramFind s.orb.copies k = some c → s.pw.cc < c.start + 1024) : copyEnd k s = s := by
  unfold copyEnd
  split
  · rfl
  · exact if_pos (running _ ‹_›)

/-- What falls due has been taken up. -/
def dueTaken (s : State) : State := { s with fab := { s.fab with idleAt := [] } }

/-- The only group that is marked falls due while no copy ends. -/
theorem idleApply_due {g : Fin 16} {due : Nat} (run : s.pw.coreRun = true) (idle : s.orb.st = .idle)
    (only : s.fab.idleAt = [(due, groupBit g)]) (past : due ≤ s.pw.cc) (marked : s.fab.marked = groupBit g)
    (running : ∀ k c, k < 4 → ramFind s.orb.copies k = some c → s.pw.cc < c.start + 1024) :
    idleApply s = applyIdle [g.val] (dueTaken s) := by
  have copies : (List.range 4).foldl (fun v k => copyEnd k v) s = s :=
    List.foldlRecOn (motive := fun v => v = s) _ _ rfl fun v h k mem => by
      rw [h]
      exact copyEnd_running fun c copy => running k c (List.mem_range.1 mem) copy
  have falls : s.fab.idleAt.filter (fun p => decide (p.1 ≤ s.pw.cc)) = [(due, groupBit g)] := by simp [only, past]
  have none : s.fab.idleAt.filter (fun p => decide (s.pw.cc < p.1)) = [] := by simp [only, past]
  have group : (0 ||| groupBit g) &&& s.fab.marked = groupBit g := by
    rw [marked]
    exact (congrArg (· &&& groupBit g) BitVec.zero_or).trans BitVec.and_self
  unfold idleApply
  rw [falls, copies, if_neg (by simp [run, idle])]
  dsimp only [List.foldl]
  rw [none, group, groupsOfMask_groupBit]
  rfl

/-- A copy that has run its core cycles is over; the groups that waited are applied with the values buffered now. -/
theorem copyEnd_ended {k : Nat} {c : SmapCopy} (copy : ramFind s.orb.copies k = some c) (ended : c.start + 1024 ≤ s.pw.cc) :
    copyEnd k s = if s.fab.waiting = 0 then copyDone k s else withNow (applyIdle (groupsOfMask s.fab.waiting)) (copyDone k s) := by
  have waiting : (copyDone k s).fab.waiting = s.fab.waiting := congrArg Fabric.waiting (fab_of_only (by simp))
  unfold copyEnd
  rw [copy]
  dsimp only
  rw [if_neg (by omega), waiting]

theorem copies_copyDone {k : Nat} {c : SmapCopy} (copy : ramFind s.orb.copies k = some c) :
    (copyDone k s).orb.copies = ramDrop (· == k) s.orb.copies := by
  unfold copyDone
  rw [copy]

/-! What waits for the boundary of the values of the cutoff is no part of what an application with the present values shows. -/

theorem counterAt_withNow (f : State → State) (s : State) : counterAt (withNow f s) = counterAt (f (buffersOfNow s)) := rfl
theorem pw_withNow (f : State → State) (s : State) : (withNow f s).pw = (f (buffersOfNow s)).pw := rfl
theorem marked_withNow (f : State → State) (s : State) : (withNow f s).fab.marked = (f (buffersOfNow s)).fab.marked := rfl
theorem waiting_withNow (f : State → State) (s : State) : (withNow f s).fab.waiting = (f (buffersOfNow s)).fab.waiting := rfl
theorem groupDone_withNow (f : State → State) (s v : State) (g : Fin 16) :
    GroupDone v (withNow f s) g ↔ GroupDone v (f (buffersOfNow s)) g := Iff.rfl

end

/-- Settles O19: without a pending soft reset the group is judged once, and what its words do to their blocks writes no other word. -/
theorem idleApplicationIsWholeOrNot : Obligations.IdleApplicationIsWholeOrNot := by
  intro s g por run canon
  refine ⟨fun due idle only past marked running => ?_, fun k c copy ended => ?_⟩
  · have runs : exec .idleGroupApply s = .next (applyIdle [g.val] (dueTaken s)) := by
      rw [← idleApply_due run idle only past marked running]
      exact congrArg _ (coreOnly_eq idleApply por run)
    have canonical : Canonical (dueTaken s) :=
      ⟨canon.regs, canon.pages, canon.tallies, canon.live, canon.shadow, canon.ring, canon.flash⟩
    refine ⟨fun free quiet => ?_, fun held => ?_⟩
    · have counter := counterAt_applyIdle [g.val] (dueTaken s)
      have elapsed := elapsed_applyIdle [g.val] (dueTaken s)
      obtain ⟨marks, waiting, idleAt, done⟩ := applyIdle_free (v := dueTaken s) canonical free quiet
      refine ⟨_, runs, idleAt, marks.trans ?_, waiting, (congrArg Counter.st counter).trans idle, congrArg Counter.slot counter,
        elapsed, done⟩
      show s.fab.marked &&& _ = _
      rw [marked]
      exact BitVec.and_not_self _
    · obtain ⟨only, fab⟩ := applyIdle_held (v := dueTaken s) held
      have cleared : Only [.fab] s (dueTaken s) := (only_mk_fab s s _).2 (.refl _ _)
      refine ⟨_, runs, (cleared.mono (by decide)).trans only, ?_⟩
      rw [fab]
      exact ⟨marked, rfl, rfl, rfl, rfl⟩
  · have runs : exec (.smapCopyEnd k) s = .next (copyEnd k.val s) := congrArg _ (coreOnly_eq (copyEnd k.val) por run)
    refine ⟨_, runs, ?_⟩
    have completed : Only [.orb] s (copyDone k.val s) := by simp
    have now : counterAt (buffersOfNow (copyDone k.val s)) = counterAt s := counterAt_copyDone _ _
    rw [copyEnd_ended copy ended]
    by_cases none : s.fab.waiting = 0
    · rw [if_pos none]
      exact ⟨congrArg Counter.st now, congrArg Counter.slot now, congrArg Power.elapsed (completed.pw (by decide)),
        fun _ => ⟨copies_copyDone copy, completed⟩, fun waits => absurd (waits.symm.trans none) (groupBit_ne_zero g)⟩
    · rw [if_neg none]
      have counter : counterAt (withNow (applyIdle (groupsOfMask s.fab.waiting)) (copyDone k.val s)) = counterAt s := by
        rw [counterAt_withNow, counterAt_applyIdle, now]
      refine ⟨congrArg Counter.st counter, congrArg Counter.slot counter, ?_, fun zero => absurd zero none, ?_⟩
      · rw [pw_withNow, elapsed_applyIdle]
        exact congrArg Power.elapsed (completed.pw (by decide))
      · rintro waits v rfl free quiet
        have canonical : Canonical (buffersOfNow (copyDone k.val s)) := canon_buffersOfNow (canon_copyDone _ _ canon)
        have fab := completed.fab (by decide)
        obtain ⟨marks, waiting, -, done⟩ := applyIdle_free canonical free quiet
        rw [waits, groupsOfMask_groupBit, waiting_withNow, marked_withNow, groupDone_withNow, marks, waiting]
        refine ⟨?_, congrArg (fun f => f.marked &&& ~~~groupBit g) fab, done⟩
        show (copyDone k.val s).fab.waiting &&& _ = 0
        rw [fab, waits]
        exact BitVec.and_not_self _

end Sys2Proof.Machine
end

section
/-! The converter array (R43–R49, R59, R60): where a command can stop, what a converter makes of its input, and a sample's way into the
ring and the filter's input. -/

namespace Sys2Proof.Machine

/-! ### The absolute maximum (R49) -/

section
variable {s : State} {c : Fin 384} {j : Fin 2} {level : Int} {peak : Nat} {onEdge cmBad : Bool}

theorem exec_sampleConversion_next (h : s.pw.por = true ∨ s.pw.coreRun = false ∨ beyondMax s c level = false) :
    exec (.sampleConversion c j level peak onEdge cmBad) s =
      .next (coreOnly (sampleOut c.val j.val level peak onEdge cmBad) s) := by
  refine if_neg ?_
  rcases h with h | h | h <;> simp [h]

theorem exec_sampleConversion_beyond (por : s.pw.por = false) (run : s.pw.coreRun = true) (h : beyondMax s c level = true) :
    exec (.sampleConversion c j level peak onEdge cmBad) s = .fault .beyondAbsoluteMaximum :=
  if_pos (by simp [por, run, h])

theorem exec_sampleConversion_within (por : s.pw.por = false) (run : s.pw.coreRun = true) (h : beyondMax s c level = false) :
    exec (.sampleConversion c j level peak onEdge cmBad) s = .next (sampleOut c.val j.val level peak onEdge cmBad s) := by
  rw [exec_sampleConversion_next (.inr (.inr h)), coreOnly_eq _ por run]

end

/-- Every meaning but that of SAMPLE_CONVERSION answers a next state by its form. -/
theorem exec_next_of_not_sampleConversion (s : State) (i : Instr)
    (other : ∀ c j level peak onEdge cmBad, i ≠ .sampleConversion c j level peak onEdge cmBad) : ∃ t, exec i s = .next t := by
  cases i
  case sampleConversion c j level peak onEdge cmBad => exact absurd rfl (other c j level peak onEdge cmBad)
  all_goals exact ⟨_, rfl⟩

/-- Settles O4: the fault of SAMPLE_CONVERSION is the only outcome of any command that is no next state. -/
theorem onlySampleConversionStops : Obligations.OnlySampleConversionStops := fun s =>
  ⟨exec_next_of_not_sampleConversion s, fun _ _ _ _ _ _ =>
    ⟨fun h => ⟨_, exec_sampleConversion_next h⟩, exec_sampleConversion_beyond⟩⟩

/-! ### Code and over-range (R46, R48) -/

section
variable {k : Conv} {v : Int} {peak : Nat} {onEdge : Bool}

theorem convert_above (h : 8192 < v) : convert k v peak onEdge =
    (0x3FFF, true, { k with high := true, recov := max (k.recov - 1) (recovery peak onEdge) }) := if_pos h

theorem convert_below (h : v < -8192) : convert k v peak onEdge =
    (0, true, { k with high := false, recov := max (k.recov - 1) (recovery peak onEdge) }) := by
  unfold convert
  rw [if_neg (by omega), if_pos h]

theorem convert_within (low : -8192 ≤ v) (high : v ≤ 8192) : convert k v peak onEdge =
    if 0 < k.recov then (railCode k.high, true, { k with recov := k.recov - 1 }) else (codeOf v, false, k) := by
  unfold convert
  rw [if_neg (by omega), if_neg (by omega)]

end

/-- Mid-scale is code 0x2000; from −8,192 LSB on only the upper end of the codes limits (R43). -/
theorem codeOf_eq {v : Int} (low : -8192 ≤ v) : codeOf v = (min 0x3FFF (v + 0x2000)).toNat := by
  unfold codeOf clampI
  rw [if_neg (by omega)]
  split <;> congr 1 <;> omega

/-- Settles O26: `convert` by the rails and, between them, by the samples of a recovery that are left. -/
theorem converterClampsAndRecovers : Obligations.ConverterClampsAndRecovers := by
  refine fun k v peak onEdge => ⟨fun h => ?_, fun h => ?_, fun low high => ⟨fun clean => ?_, fun n left => ?_⟩⟩
  · rw [convert_above h]
    exact ⟨rfl, rfl⟩
  · rw [convert_below h]
    exact ⟨rfl, rfl⟩
  · rw [convert_within low high, if_neg (by omega), codeOf_eq low]
  · rw [convert_within low high, if_pos (by omega), left]
    rfl

/-! ### What a delivered sample changes (R45, R46, R128) -/

/-- The word of a sample: 0 where the converter delivers none (R60). -/
def wordOf (live : Bool) (code : Nat) (ovr swap : Bool) : Nat := if live then sampleWord code ovr swap else 0

theorem b2n_le (b : Bool) : b2n b ≤ 1 := by cases b <;> decide

theorem wordOf_lt (live : Bool) (code : Nat) (ovr swap : Bool) : wordOf live code ovr swap < 2 ^ 16 := by
  have hovr := b2n_le ovr
  have hswap := b2n_le swap
  unfold wordOf sampleWord
  split <;> omega

/-- A sample of slot `e` with word `w` has left converter `c` of the hub `s` for the ring and the filter's input. -/
structure Delivered (s : State) (c e j w : Nat) (live : Bool) (t : State) : Prop where
  inq  : (getChan t c).inq = (getChan s c).inq ++ [⟨e, j, w, live⟩]
  ring : t.ring = if ringOn s (c / 64) e then ramPut 0 s.ring (ringKey (2 * e + j) c) (BitVec.ofNat 16 w) else s.ring
  regs : t.fab.regs = s.fab.regs

namespace Delivered

variable {s t u : State} {c e j w : Nat} {live : Bool}

theorem ringRead_eq (h : Delivered s c e j w live t) (keys : keysFrom 0 s.ring = true) (on : ringOn s (c / 64) e = true)
    (bound : w < 2 ^ 16) : ringRead t (2 * e + j) c = w := by
  unfold ringRead
  rw [h.ring, if_pos on, ramGet_ramPut 0 keys]
  exact Nat.mod_eq_of_lt bound

theorem ring_of_off (h : Delivered s c e j w live t) (off : ringOn s (c / 64) e = false) : t.ring = s.ring := by
  rw [h.ring, if_neg (by simp [off])]

theorem ring_other (h : Delivered s c e j w live t) (keys : keysFrom 0 s.ring = true) {k : Nat} (other : k ≠ ringKey (2 * e + j) c) :
    ramGet 0 t.ring k = ramGet 0 s.ring k := by
  rw [h.ring]
  split
  · exact ramGet_ramPut_ne 0 0 keys _ _ _ other
  · rfl

/-- What the converters and the free values held before plays no part. -/
theorem of_before (h : Delivered u c e j w live t) (before : Only [.pw, .conv] s u) : Delivered s c e j w live t := by
  have fab := before.fab
  have same : ringOn u (c / 64) e = ringOn s (c / 64) e := by
    have words : regsIn u e = regsIn s e := regsIn_congr (by rw [fab]) (by rw [fab]) e
    have page : pageSt u (0x08 + c / 64) = pageSt s (0x08 + c / 64) := by rw [pageSt, pageSt, fab]
    unfold ringOn pageOnIn
    rw [words, page]
  exact ⟨by rw [h.inq, getChan, getChan, before.chan], by rw [h.ring, same, before.ring], by rw [h.regs, fab]⟩

end Delivered

theorem delivered_deliver (c e j code : Nat) (ovr swap live : Bool) {s : State} (inside : c < s.chan.length) :
    Delivered s c e j (wordOf live code ovr swap) live (deliver c e j code ovr swap live s) := by
  unfold deliver wordOf
  dsimp only
  generalize (if live = true then sampleWord code ovr swap else 0) = w
  generalize written : (if ringOn s (c / 64) e = true then ringWrite (2 * e + j) c w s else s) = u
  have ring : u.ring = if ringOn s (c / 64) e then ramPut 0 s.ring (ringKey (2 * e + j) c) (BitVec.ofNat 16 w) else s.ring := by
    rw [← written]
    split <;> rfl
  have before : Only [.conv, .ring, .ringErr] s u := by simp [← written]
  refine ⟨?_, ?_, ?_⟩
  · rw [getChan_modChan _ _ _ (by simpa [before.chan] using inside)]
    simp only [getChan, onRise_frame, modConv_rest, before.chan]
    split <;> rfl
  · simp only [modChan_rest, onRise_frame, modConv_rest, ring]
  · simp only [modChan_rest, onRise_frame, modConv_rest, before.fab]

/-! ### The sample taken 12 sample periods ago (R44, R45, R48) -/

theorem convReadyAt_convBefore (s : State) (c e j t : Nat) : convReadyAt (convBefore s c e j) t = convReadyAt (getConv s c) t := by
  unfold convBefore
  split <;> rfl

theorem rotatedIn_convBefore (s : State) (c e j n : Nat) : rotatedIn (convBefore s c e j) n = rotatedIn (getConv s c) n := by
  unfold convBefore
  split <;> rfl

/-- The hub with converter `c` as it stands before the sample and `free` values drawn. -/
def beforeSample (s : State) (c e j free : Nat) : State :=
  { modConv c (fun _ => convBefore s c e j) s with pw := { s.pw with freeCtr := free } }

theorem modConv_const {c : Nat} {s : State} (f : Conv → Conv) (inside : c < s.conv.length) :
    modConv c f s = modConv c (fun _ => f (getConv s c)) s := by
  have same : getConv s c = s.conv[c] := by simp [getConv, inside]
  unfold modConv
  rw [same, List.modify_eq_set_get f inside, List.modify_eq_set_get _ inside]
  rfl

theorem modConv_getConv {c : Nat} {s : State} (inside : c < s.conv.length) : modConv c (fun _ => getConv s c) s = s := by
  refine (modConv_const id inside).symm.trans ?_
  simp [modConv]

section
variable {s : State} {c : Nat} (e j : Nat)

theorem recoverCut_eq (inside : c < s.conv.length) : recoverCut c e j s = beforeSample s c e j s.pw.freeCtr := by
  unfold recoverCut beforeSample convBefore
  split
  · exact modConv_const _ inside
  · exact (modConv_getConv inside).symm

theorem only_beforeSample (free : Nat) : Only [.pw, .conv] s (beforeSample s c e j free) :=
  (only_mk_pw_conv s s _ _).2 (.refl _ _)

/-- Code and OVR of a sample: those of the conversion, or the ones that stand open with the common mode out of range (R44). -/
def codeOrOpen (converted : Nat × Bool × Conv) : Option Nat → Nat × Bool
  | none => (converted.1, converted.2.1)
  | some f => (f % 0x4000, f.testBit 14)

/-- The word of sample `j` of slot `e` with the code and OVR `r`. -/
def takenWord (s : State) (c e j : Nat) (r : Nat × Bool) : Nat :=
  wordOf (convLive s c e j) r.1 r.2 ((tagOf s e).swap && rotatedIn (getConv s c) e)

theorem takenWord_of_off {e j : Nat} {r : Nat × Bool} (off : convLive s c e j = false) : takenWord s c e j r = 0 := by
  rw [takenWord, off]
  rfl

theorem delivered_sampleAt (conv : c < s.conv.length) (chan : c < s.chan.length) (v : Int) (peak : Nat) (onEdge : Bool)
    (taken : Option Nat) (free : Nat) :
    Delivered s c e j (takenWord s c e j (codeOrOpen (convert (convBefore s c e j) v peak onEdge) taken))
      (convLive s c e j) (sampleAt c e j v peak onEdge taken (beforeSample s c e j free)) := by
  have held : getConv (beforeSample s c e j free) c = convBefore s c e j := getConv_modConv c (fun _ => convBefore s c e j) s conv
  have live : convLive (beforeSample s c e j free) c e j = convLive s c e j :=
    congrArg (convEn (regsAt s e (instCycle s c e j)) c && ·) ((congrArg (convReadyAt · _) held).trans (convReadyAt_convBefore ..))
  have delivered (k : Conv) (code : Nat) (ovr swap on : Bool) : Delivered s c e j (wordOf on code ovr swap) on
      (deliver c e j code ovr swap on (modConv c (fun _ => k) (beforeSample s c e j free))) :=
    (delivered_deliver c e j code ovr swap on (s := modConv c (fun _ => k) (beforeSample s c e j free)) chan).of_before
      (by simpa using only_beforeSample e j free)
  unfold sampleAt takenWord
  dsimp only
  rw [held, live, rotatedIn_convBefore]
  by_cases on : convLive s c e j = true
  · rw [on]
    cases taken with
    | none => exact delivered _ _ _ _ _
    | some f => exact delivered _ _ _ _ _
  · rw [Bool.not_eq_true] at on
    rw [on]
    exact delivered _ 0 false false false

end

/-! ### SAMPLE_CONVERSION (R45) -/

section
variable {s : State} {c j : Nat} {level : Int} {peak : Nat} {onEdge cmBad : Bool}
variable (run : s.pw.coreRun = true) (late : 2054 ≤ s.pw.elapsed)
include run late

theorem sampleOut_missing (missing : instMissing s c (s.pw.elapsed - 6) j = true) : sampleOut c j level peak onEdge cmBad s =
    deliver c (s.pw.elapsed - 6) j 0 false false false (modConv c (fun k => { k with recov := 0 }) s) := by
  unfold sampleOut
  rw [if_neg (by simp [run, late])]
  exact if_pos missing

/-- Of a sample that was taken, only the pins with the common mode out of range leave the word open (R44). -/
theorem sampleOut_taken (conv : c < s.conv.length) (taken : instMissing s c (s.pw.elapsed - 6) j = false) :
    sampleOut c j level peak onEdge cmBad s =
      if inSel s c (s.pw.elapsed - 6) = 0 then
        if cmBad then sampleAt c (s.pw.elapsed - 6) j level peak onEdge (some (takeFree s).1)
          (beforeSample s c (s.pw.elapsed - 6) j (s.pw.freeCtr + 1))
        else sampleAt c (s.pw.elapsed - 6) j level peak onEdge none (beforeSample s c (s.pw.elapsed - 6) j s.pw.freeCtr)
      else
        sampleAt c (s.pw.elapsed - 6) j (inputAt s c (s.pw.elapsed - 6) level (sgn (takeFree s).1 14))
          (inputAt s c (s.pw.elapsed - 6) level (sgn (takeFree s).1 14)).natAbs onEdge none
          (beforeSample s c (s.pw.elapsed - 6) j (s.pw.freeCtr + 1)) := by
  unfold sampleOut
  rw [if_neg (by simp [run, late])]
  dsimp only
  rw [if_neg (by simp [taken]), recoverCut_eq _ _ conv]
  rfl

theorem delivered_sampleOut_missing (chan : c < s.chan.length) (missing : instMissing s c (s.pw.elapsed - 6) j = true) :
    Delivered s c (s.pw.elapsed - 6) j 0 false (sampleOut c j level peak onEdge cmBad s) := by
  rw [sampleOut_missing run late missing]
  exact (delivered_deliver c _ j 0 false false false (s := modConv c _ s) chan).of_before (by simp)

theorem delivered_sampleOut_pins (conv : c < s.conv.length) (chan : c < s.chan.length)
    (taken : instMissing s c (s.pw.elapsed - 6) j = false) (pins : inSel s c (s.pw.elapsed - 6) = 0) :
    ∃ open_ : Option Nat, (cmBad = false → open_ = none) ∧ Delivered s c (s.pw.elapsed - 6) j
      (takenWord s c (s.pw.elapsed - 6) j (codeOrOpen (convert (convBefore s c (s.pw.elapsed - 6) j) level peak onEdge) open_))
      (convLive s c (s.pw.elapsed - 6) j) (sampleOut c j level peak onEdge cmBad s) := by
  rw [sampleOut_taken run late conv taken, if_pos pins]
  cases cmBad with
  | false => exact ⟨none, fun _ => rfl, delivered_sampleAt _ j conv chan level peak onEdge none _⟩
  | true => exact ⟨some (takeFree s).1, nofun, delivered_sampleAt _ j conv chan level peak onEdge _ _⟩

/-- With the common mode in range a sample of the pins draws no free value. -/
theorem pw_sampleOut_pins (conv : c < s.conv.length) (pins : inSel s c (s.pw.elapsed - 6) = 0) :
    (sampleOut c j level peak onEdge false s).pw = s.pw := by
  have kept (u : State) (same : u.pw = s.pw) {t : State} (h : Only [.fab, .conv, .chan, .ring, .ringErr] u t) : t.pw = s.pw :=
    h.pw.trans same
  cases missing : instMissing s c (s.pw.elapsed - 6) j with
  | true =>
    rw [sampleOut_missing run late missing]
    exact kept s rfl (by simp)
  | false =>
    rw [sampleOut_taken run late conv missing, if_pos pins]
    exact kept (beforeSample s c (s.pw.elapsed - 6) j s.pw.freeCtr) rfl (by simp)

end

/-- Settles O25: `sampleOut` delivers one word, and the cases differ in the input, the free values drawn and what leaves a word open. -/
theorem sampleReachesRingAndFilter : Obligations.SampleReachesRingAndFilter := by
  intro s c j level peak onEdge cmBad por run canon shaped late
  have conv : c.val < s.conv.length := shaped.conv.symm ▸ c.isLt
  have chan : c.val < s.chan.length := shaped.chan.symm ▸ c.isLt
  have keys := ramWf_keys canon.ring
  have changed : Only [.pw, .fab, .conv, .chan, .ring, .ringErr] s (sampleOut c j level peak onEdge cmBad s) := by simp
  refine ⟨exec_sampleConversion_beyond por run, ?_, ?_⟩
  · rintro within common w live v p hlive rfl rfl hw
    have delivered : Delivered s c (s.pw.elapsed - 6) j w live (sampleOut c j level peak onEdge cmBad s) := by
      cases missing : instMissing s c (s.pw.elapsed - 6) j with
      | true =>
        obtain rfl : false = live := by simpa [missing] using hlive
        exact hw ▸ delivered_sampleOut_missing run late chan missing
      | false =>
        obtain rfl : convLive s c (s.pw.elapsed - 6) j = live := by simpa [missing] using hlive
        by_cases pins : inSel s c (s.pw.elapsed - 6) = 0
        · obtain ⟨_, closed, h⟩ := delivered_sampleOut_pins (cmBad := cmBad) run late conv chan missing pins
          rw [closed (common pins)] at h
          rw [hw, if_pos pins, inputAt, if_pos pins]
          exact h
        · rw [sampleOut_taken run late conv missing, hw, if_neg pins, if_neg pins]
          exact delivered_sampleAt _ _ conv chan _ _ onEdge none _
    have bound : w < 2 ^ 16 := hw.trans_lt (wordOf_lt ..)
    refine ⟨_, exec_sampleConversion_within por run within, delivered.inq, fun on => delivered.ringRead_eq keys on bound,
      delivered.ring_of_off, fun _ => delivered.ring_other keys, delivered.regs, changed, fun pins => ?_⟩
    rw [common pins]
    exact pw_sampleOut_pins run late conv pins
  · intro within pins bad
    have next := exec_sampleConversion_within (j := j) (peak := peak) (onEdge := onEdge) (cmBad := cmBad) por run within
    cases missing : instMissing s c (s.pw.elapsed - 6) j with
    | true =>
      have h := delivered_sampleOut_missing (level := level) (peak := peak) (onEdge := onEdge) (cmBad := cmBad) run late chan missing
      exact ⟨_, _, _, next, h.inq, fun _ => rfl, by simp, h.regs, changed⟩
    | false =>
      obtain ⟨_, -, h⟩ := delivered_sampleOut_pins (cmBad := cmBad) run late conv chan missing pins
      exact ⟨_, _, _, next, h.inq, takenWord_of_off, by simp, h.regs, changed⟩

end Sys2Proof.Machine
end

section
/-! Filter and peaks (R96, R98, R102, R103), and the converter that becomes ready (R59, R429). -/

namespace Sys2Proof.Machine

/-! ### FILTER_OUTPUT (R96, R102) -/

/-- The delay line before sample `p`: empty in the first sample of an orbit and after a flush of the channel's own (R102). -/
def tapsBefore (s : State) (c : Nat) (p : Samp) : List Tap :=
  if p.j = 0 ∧ ((tagOf s p.e).orb0 = true ∨ (getChan s c).flushes.any (fun e => decide (e ≤ p.e)) = true) then []
  else (getChan s c).taps

/-- The tap of sample `p`: the code in the scale of PED, less PED, or 0 of a converter that was not enabled (R93, R96). -/
def tapOf (x : Chan) (p : Samp) : Tap where
  n := 2 * p.e + p.j
  x := if p.en then 16 * ((p.w % 0x4000 : Nat) : Int) - (pedIn x p.e : Nat) else 0
  ovr := p.w.testBit 14
  swap := p.w.testBit 15
  en := p.en

/-- R96's sum over the delay line `taps` that sample `p` heads, shifted, rounded and saturated. -/
def filteredBy (s : State) (c : Nat) (p : Samp) (taps : List Tap) : Int × Bool :=
  satY (firShift (firAcc (coef s c p.e (tagOf s p.e).fir) taps 0) (chanReg s p.e c 0x040 3 4))

/-- What a channel holds once its oldest sample `p` has been filtered, the peaks aside. -/
structure Filtered (s : State) (c : Nat) (p : Samp) (rest : List Samp) (x : Chan) : Prop where
  inq  : x.inq = rest
  taps : x.taps = (tapOf (getChan s c) p :: tapsBefore s c p).take 10
  out  : (x.ys.head?).map (fun y => (y.n, y.y, y.sat)) = some (2 * p.e + p.j, filteredBy s c p x.taps)

/-- The first sample of a slot removes the feature record that an earlier slot has left under its key (R103). -/
def recordDropped (c : Nat) (p : Samp) (s : State) : State :=
  if p.j = 0 then
    { s with feat := ramDrop (· == featKey p.e c) s.feat, featErr := ramDrop (· == featKey p.e c) s.featErr }
  else s

/-- The peak that the output may complete plays no part in it. -/
theorem Filtered.ite_peaks {s : State} {c : Nat} {p : Samp} {rest : List Samp} {x : Chan} (h : Filtered s c p rest x) (found : Prop)
    [Decidable found] (l : List Peak) : Filtered s c p rest (if found then { x with peaks := l } else x) := by
  split
  · exact ⟨h.inq, h.taps, h.out⟩
  · exact h

theorem recordDropped_rest (c : Nat) (p : Samp) (s : State) : (recordDropped c p s).fab = s.fab ∧ (recordDropped c p s).chan = s.chan := by
  unfold recordDropped
  split <;> exact ⟨rfl, rfl⟩

theorem chanReg_of_fab {s t : State} (h : t.fab = s.fab) (e c o lo w : Nat) : chanReg t e c o lo w = chanReg s e c o lo w := by
  have words : regsIn t e = regsIn s e := regsIn_congr (by rw [h]) (by rw [h]) e
  rw [chanReg, chanReg, regIn, regIn, words]

theorem filterNext_waiting {s : State} {c : Nat} {p : Samp} {rest : List Samp} (waits : (getChan s c).inq = p :: rest) :
    ∃ f, filterNext c s = modChan c f (recordDropped c p s) ∧ Filtered s c p rest (f (getChan s c)) := by
  have word := chanReg_of_fab (recordDropped_rest c p s).1
  have coefs : coef (recordDropped c p s) c p.e (tagOf s p.e).fir = coef s c p.e (tagOf s p.e).fir := by
    funext k
    rw [coef, coef, word]
  unfold filterNext
  rw [waits]
  refine ⟨_, rfl, ?_⟩
  extract_lets flushed xv tap taps yr ys x
  have line : flushed.taps = tapsBefore s c p := by
    unfold flushed tapsBefore
    split <;> rfl
  have ped : pedIn flushed p.e = pedIn (getChan s c) p.e := by
    unfold flushed
    split <;> rfl
  have head : tap = tapOf (getChan s c) p := by
    unfold tap xv tapOf
    rw [ped]
  have judged : yr = filteredBy s c p taps :=
    congrArg₂ (fun h n => satY (firShift (firAcc h taps 0) n)) coefs (word p.e c 0x040 3 4)
  have filtered : Filtered s c p rest x := by
    refine ⟨rfl, ?_, congrArg (fun y => some (2 * p.e + p.j, y)) judged⟩
    rw [← head, ← line]
  clear_value x ys
  split
  · exact filtered.ite_peaks _ _
  · exact filtered

theorem feat_filterNext {s : State} {c : Nat} {p : Samp} {rest : List Samp} (waits : (getChan s c).inq = p :: rest) :
    (filterNext c s).feat = if p.j = 0 then ramDrop (· == featKey p.e c) s.feat else s.feat := by
  obtain ⟨f, step, -⟩ := filterNext_waiting waits
  rw [step, recordDropped]
  split <;> rfl

/-! ### PEAK_FINAL and CONVERTER_READY (R59, R103) -/

theorem peakStore_final {s : State} {c : Nat} {p : Peak} {rest : List Peak} (oldest : (getChan s c).peaks = p :: rest)
    (final : peakDone s c p = true) : peakStore c s =
      { modChan c (fun x => { x with peaks := rest }) s with feat := ramSet s.feat (featKey (p.n / 2) c) p } := by
  unfold peakStore
  rw [oldest]
  exact if_pos final

theorem convReady_powered {s : State} {c : Nat} (run : s.pw.coreRun = true) (on : (getConv s c).on = true)
    (waits : (getConv s c).ready = false) : convReady c s = modConv c (fun k => { k with
      ready := true, readyT := instTick s.pw.elapsed (s.pw.cyc + 1) }) s :=
  if_pos (by simp [run, on, waits])

/-- Settles O27: each command does its one step on its own channel or converter. -/
theorem filterPeakAndReadyConverter : Obligations.FilterPeakAndReadyConverter := by
  intro s c por run shaped
  have inside : c.val < s.chan.length := shaped.chan.symm ▸ c.isLt
  refine ⟨?_, ?_, ?_⟩
  · rintro p rest waits xv rfl old rfl
    have next : exec (.filterOutput c) s = .next (filterNext c s) := congrArg _ (coreOnly_eq (filterNext c.val) por run)
    obtain ⟨f, step, filtered⟩ := filterNext_waiting waits
    have chans := (recordDropped_rest c p s).2
    have same (k : Nat) : getChan (recordDropped c p s) k = getChan s k := by rw [getChan, chans, getChan]
    rw [← same, ← getChan_modChan c.val f _ (by rwa [chans]), ← step] at filtered
    refine ⟨_, next, by simp, filtered.inq, feat_filterNext waits, filtered.taps, filtered.out, fun k other => ?_⟩
    rw [step, getChan_modChan_ne _ _ _ _ other.symm, same]
  · intro p rest oldest final
    have next : exec (.peakFinal c) s = .next (peakStore c s) := congrArg _ (coreOnly_eq (peakStore c.val) por run)
    refine ⟨_, next, by simp, ?_⟩
    rw [peakStore_final oldest final]
    exact ⟨getChan_modChan c _ s inside, rfl, fun k other => getChan_modChan_ne c k _ s other.symm⟩
  · intro on waits
    rw [← convReady_powered run on waits]
    exact congrArg _ (coreOnly_eq (convReady c.val) por run)

end Sys2Proof.Machine
end

section
/-! The two-way probe and the time messages (R77–R81, R304, R305): the record an echo leaves, and what becomes of a complete message. -/

namespace Sys2Proof.Machine

/-! ### The echo (R80, R81) -/

/-- The record that the echo of probe `p` leaves when its K character leaves `frac` phase steps into the present slot (R81). -/
def echoRecord (p : Probe) (frac : Nat) (s : State) : Word × Word :=
  probeRecord p (placeOf s p.t2c)
    (8192 * ((tagHead s).cc0 : Int) + frac + sgn (regAt s 0x02 0x04C >>> 16) 16 - p.t2c)
    (decide (p.slot + 16 = s.pw.elapsed) && decide (canSend s = some p.trunk) && !p.bad && !s.pll.hold)

theorem sendEcho_due {s : State} {p : Probe} (waits : s.frm.probe = some p) (due : p.slot + 16 ≤ s.pw.elapsed) (frac : Nat) :
    sendEcho frac s = { s with frm := { s.frm with
      probe := none, recLo := (echoRecord p frac s).1, recHi := (echoRecord p frac s).2, recAt := (tagHead s).cc0 + frac / 8192 + 1,
      wasLo := (probeShown s).1, wasHi := (probeShown s).2,
      echoAt := if p.slot + 16 = s.pw.elapsed ∧ canSend s = some p.trunk then some s.pw.elapsed else s.frm.echoAt } } := by
  simp only [sendEcho, waits, if_neg (not_lt.2 due), Bool.and_eq_true, decide_eq_true_eq]
  rfl

/-! ### Time messages (R304, R305) -/

/-- The message of downlink `t` is over: nothing of it is kept. -/
def messageOver (t : Trunk) (s : State) : State := modDl t (fun d => { d with ttOn := false, tt := [] }) s

theorem tb_messageOver (t : Trunk) (s : State) : (messageOver t s).tb = s.tb := by cases t <;> rfl
theorem regs_messageOver (t : Trunk) (s : State) : (messageOver t s).fab.regs = s.fab.regs := by cases t <;> rfl

/-- The instant that a message carries, as the bases of `d` were captured in its first slot, joins the time bases (R305). -/
def transferred (d : Dl) (b : Bases) : Bases :=
  let v := ttBits d.tt
  let c := if v.testBit 80 then d.ttC3 else d.ttC1
  { b with ttV := fld v 0 64, ttVf := fld v 64 16, ttC := nsOf c, ttCf := fld c 16 16,
           ttBase := fld v 80 1, ttCount := (b.ttCount + 1) % 256, ttSlot := d.ttSlot }

/-- The CRC-8 of the message's 88 bits stands in its last eight (R304). -/
def MessageRight (d : Dl) : Prop := crc8 (leBytes 11 (fld (ttBits d.tt) 0 88)) = fld (ttBits d.tt) 88 8

theorem ttMessage_off {s : State} {t : Trunk} (off : (getDl s t).ttOn = false) : ttMessage t s = s := by
  simp [ttMessage, off]

theorem ttAbort_on {s : State} {t : Trunk} (on : (getDl s t).ttOn = true) : ttAbort t s = count 0x54 7 (messageOver t s) := if_pos on

section
variable {s : State} {t : Trunk} (on : (getDl s t).ttOn = true) (whole : (getDl s t).tt.length = 20)
include on whole

theorem ttMessage_right (holder : holds s t = true) (right : MessageRight (getDl s t)) :
    ttMessage t s = { messageOver t s with tb := transferred (getDl s t) s.tb } := by
  have crc : ¬ crc8 (leBytes 11 (fld (ttBits (getDl s t).tt) 0 88)) ≠ fld (ttBits (getDl s t).tt) 88 8 := not_not.2 right
  have bases := tb_messageOver t s
  unfold messageOver at bases
  simp only [ttMessage, on, holder, whole, if_neg crc, bases, Bool.not_true, Bool.false_eq_true, ne_eq, not_true_eq_false, if_false]
  rfl

theorem ttMessage_wrong (wrong : holds s t = false ∨ ¬ MessageRight (getDl s t)) : ttMessage t s = count 0x54 7 (messageOver t s) := by
  rw [← ttAbort_on on]
  by_cases holder : holds s t = true
  · have crc : crc8 (leBytes 11 (fld (ttBits (getDl s t).tt) 0 88)) ≠ fld (ttBits (getDl s t).tt) 88 8 := wrong.resolve_left (by simp [holder])
    simp only [ttMessage, on, holder, whole, if_pos crc, Bool.not_true, Bool.false_eq_true, ne_eq, not_true_eq_false, if_false]
  · simp [ttMessage, on, holder]

end

theorem getDl_ttAbort_peer (t : Trunk) (s : State) : getDl (ttAbort t s) (peer t) = getDl s (peer t) := by
  unfold ttAbort
  split
  · rw [getDl_count, getDl_modDl_peer]
  · rfl

theorem getDl_ttMessage_peer (t : Trunk) (s : State) : getDl (ttMessage t s) (peer t) = getDl s (peer t) := by
  unfold ttMessage
  extract_lets d v c u
  split_ifs
  · rfl
  · exact getDl_ttAbort_peer t s
  · rfl
  · exact getDl_ttAbort_peer t s
  · exact getDl_modDl_peer t _ s

/-- With a message on one downlink only, that one is all there is to complete. -/
theorem timeTransfer_one {s : State} {t : Trunk} (other : (getDl s (peer t)).ttOn = false) : timeTransfer s = ttMessage t s := by
  cases t with
  | a => exact ttMessage_off (by rw [← other]; exact congrArg Dl.ttOn (getDl_ttMessage_peer .a s))
  | b => exact congrArg (ttMessage .b) (ttMessage_off other)

/-- Settles O44: `sendEcho` of a due probe writes its record and shows the old one until it reads; a message on one downlink only is
`ttMessage` of it, which ends the message and records the time exactly when ACTIVE is held and the CRC is right. -/
theorem probesAndTimeMessages : Obligations.ProbesAndTimeMessages := by
  intro s hp run
  refine ⟨fun p frac waits due w hw => ?_, fun t on alone whole v hv => ?_⟩
  · have echoed : exec (.probeEcho frac) s = .next (sendEcho frac s) := congrArg _ (coreOnly_eq (sendEcho frac) hp run)
    have record : w = echoRecord p frac s := hw
    refine ⟨_, echoed, by simp, ?_⟩
    rw [sendEcho_due waits due, record]
  · subst hv
    have done : exec .timeTransferMessage s = .next (ttMessage t s) :=
      congrArg Host.Outcome.next ((coreOnly_eq timeTransfer hp run).trans (timeTransfer_one alone))
    by_cases right : holds s t = true ∧ MessageRight (getDl s t)
    · obtain ⟨holder, crc⟩ := right
      refine ⟨_, done, by simp, ?_⟩
      rw [ttMessage_right on whole holder crc]
      refine ⟨regs_messageOver t s, ?_, ?_, fun _ _ => rfl, fun wrong => ?_⟩
      · exact getDl_modDl t _ s
      · exact getDl_modDl_peer t _ s
      · exact absurd crc (wrong.resolve_left (by simp [holder]))
    · have wrong : holds s t = false ∨ ¬ MessageRight (getDl s t) := by
        rw [← Bool.not_eq_true]
        exact not_and_or.1 right
      refine ⟨_, done, by simp, ?_⟩
      rw [ttMessage_wrong on whole wrong]
      refine ⟨(regs_count _ _ _).trans (regs_messageOver t s), ?_, ?_, fun holder crc => absurd ⟨holder, crc⟩ right, fun _ => ?_⟩
      · rw [getDl_count]
        exact getDl_modDl t _ s
      · rw [getDl_count]
        exact getDl_modDl_peer t _ s
      · rw [← tb_messageOver t s]
        exact tb_of_only (by simp)

end Sys2Proof.Machine
end

section
/-! The core PLL (R86–R88): HOLD and UNCOMP, and what of the slots and boundaries leaves the PLL on its reference. -/

namespace Sys2Proof.Machine

theorem pll_of_only {s t : State} (h : Only (beside .pll) s t) : t.pll = s.pll := agree_of_beside h

/-! ### HOLD and UNCOMP (R87, R88) -/

theorem pll_markPhase (s : State) : (markPhase s).pll = s.pll := by
  unfold markPhase
  split <;> rfl

theorem forgetLevels_setPhase (h u : Bool) (s : State) :
    forgetLevels (setPhase h u s).pll = forgetLevels { s.pll with hold := h, uncomp := u } := by
  unfold setPhase
  extract_lets was p
  rw [pll_markPhase]
  dsimp only
  split_ifs <;> rfl

theorem sameCounter_of_tags {s u : State} (h : u.orb = { s.orb with tags := u.orb.tags }) : SameCounter s u := by
  unfold SameCounter
  rw [h]
  exact ⟨rfl, rfl, rfl, rfl, rfl, rfl, rfl⟩

theorem orb_markPhase (s : State) : (markPhase s).orb = { s.orb with tags := (markPhase s).orb.tags } := by
  unfold markPhase
  split <;> rfl

theorem sameCounter_setPhase (h u : Bool) (s : State) : SameCounter s (setPhase h u s) := sameCounter_of_tags (orb_markPhase _)

/-! ### What leaves the reference as it is -/

/-- The PLL stays on its reference, locked or not and in hold or not as it was; UNCOMP does not fall. -/
structure PllKept (s u : State) : Prop where
  ref    : u.pll.ref = s.pll.ref
  lock   : u.pll.lock = s.pll.lock
  hold   : u.pll.hold = s.pll.hold
  uncomp : s.pll.uncomp = true → u.pll.uncomp = true

namespace PllKept

variable {s u v : State}

theorem of_pll (h : u.pll = s.pll) : PllKept s u := by
  constructor
  · rw [h]
  · rw [h]
  · rw [h]
  · rw [h]
    exact id

theorem refl (s : State) : PllKept s s := of_pll rfl

theorem trans (h : PllKept s u) (k : PllKept u v) : PllKept s v :=
  ⟨k.ref.trans h.ref, k.lock.trans h.lock, k.hold.trans h.hold, fun x => k.uncomp (h.uncomp x)⟩

theorem of_only (h : Only (beside .pll) s u) : PllKept s u := of_pll (pll_of_only h)

theorem ite {c : Prop} [Decidable c] (h : PllKept s u) (k : PllKept s v) : PllKept s (if c then u else v) := by
  split
  · exact h
  · exact k

theorem foldl {α : Type} {g : State → α → State} (h : ∀ v x, PllKept v (g v x)) (l : List α) (s : State) : PllKept s (l.foldl g s) := by
  induction l generalizing s with
  | nil => exact refl s
  | cons a t ih => exact (h s a).trans (ih (g s a))

end PllKept

theorem pllKept_setUncomp (s : State) : PllKept s (setUncomp s) := by
  have phase : forgetLevels (setUncomp s).pll = forgetLevels { s.pll with hold := s.pll.hold, uncomp := true } := forgetLevels_setPhase _ _ s
  exact ⟨(congrArg Pll.ref phase :), (congrArg Pll.lock phase :), (congrArg Pll.hold phase :), fun _ => (congrArg Pll.uncomp phase :)⟩

/-! #### The end of a slot -/

theorem pllKept_sweepSlot (obs : SlotObs) (s : State) : PllKept s (sweepSlot obs s) := by
  unfold sweepSlot
  extract_lets k taps skew
  split
  · exact .refl s
  · have measured : PllKept s taps := .of_only (by simp [taps])
    exact measured.trans ⟨rfl, rfl, rfl, id⟩

theorem pllKept_sweepEnd (s : State) : PllKept s (sweepEnd s) := by
  have counted (u : State) : PllKept u (count 0x28 2 u) := .of_only (by simp)
  unfold sweepEnd
  dsimp only
  split_ifs
  · refine PllKept.trans ?_ (counted _)
    exact .of_pll rfl
  · refine PllKept.trans ?_ (counted _)
    exact ⟨rfl, rfl, rfl, id⟩
  · exact ⟨rfl, rfl, rfl, id⟩

theorem pllKept_sweepKeep (s : State) : PllKept s (sweepKeep s) := by
  unfold sweepKeep
  split
  · exact ⟨rfl, rfl, rfl, id⟩
  · exact .refl s

theorem pllKept_oasisEnd (s : State) : PllKept s (oasisEnd s) := by
  have ended : PllKept s (pedFinish (eyeEnd .b (eyeEnd .a s))) := .of_only (by simp)
  unfold oasisEnd
  generalize pedFinish (eyeEnd .b (eyeEnd .a s)) = u at ended
  obtain ⟨ref, lock, hold, uncomp⟩ := pllKept_sweepKeep { u with chan := u.chan.map pedCommit }
  exact .ite (ended.trans ⟨ref, lock, hold, uncomp⟩) (.refl s)

theorem pllKept_closeSlot (obs : SlotObs) (s : State) : PllKept s (closeSlot obs s) := by
  have counted (u : State) : PllKept u (markMissed (rearmFlush u)) := .of_only (by simp)
  have eyes (u : State) : PllKept u (eyeSlot .b obs.eyeB (eyeSlot .a obs.eyeA u)) := .of_only (by simp)
  have upset : PllKept s (upsetsPast s) := .of_only (by simp)
  have swept (u : State) : PllKept u (sweepOver u) := .ite (pllKept_sweepEnd u) (.refl u)
  exact ((((upset.trans (pllKept_sweepSlot obs _)).trans (eyes _)).trans (swept _)).trans (pllKept_oasisEnd _)).trans (counted _)

theorem pllKept_openSlot (s : State) : PllKept s (openSlot s) := .of_only (by simp)

/-! #### The boundary -/

theorem pllKept_applyEffect (s : State) : PllKept s (applyEffect s) := by
  have refused (c d : Nat) (u : State) : PllKept u (count 0x70 1 (refuse 0x70 c d u)) := .of_only (by simp)
  have loaded (u : State) : PllKept u (loadCorr (loadTrims u)) := .of_only (by simp)
  unfold applyEffect
  split
  · exact .refl s
  · dsimp only
    split_ifs
    · refine PllKept.trans ?_ (refused _ _ _)
      exact .of_pll rfl
    · refine PllKept.trans ?_ (refused _ _ _)
      exact .of_pll rfl
    · refine PllKept.trans ?_ (loaded _)
      exact .of_pll rfl
    · refine PllKept.trans (PllKept.trans ?_ (loaded _)) (pllKept_setUncomp _)
      exact .of_pll rfl

theorem pllKept_trackApply (s : State) : PllKept s (trackApply s) := by
  have judged (was lim : Bool) (first : Nat) (u : State) : PllKept u (onRise was lim 0x28 0 first u) := .of_only (by simp)
  unfold trackApply
  dsimp only
  refine PllKept.trans ?_ (judged _ _ _ _)
  split <;> exact ⟨rfl, rfl, rfl, id⟩

theorem pllKept_oasisResults (s : State) : PllKept s (oasisResults s) := by
  have stands : PllKept s (rotationStands s) := .of_only (by simp)
  have shown (u : State) : PllKept u (eyeShow .b (eyeShow .a u)) := .of_only (by simp)
  unfold oasisResults
  dsimp only
  refine PllKept.trans (PllKept.trans ?_ (.ite (pllKept_trackApply _) (.refl _))) (shown _)
  exact stands.trans ⟨rfl, rfl, rfl, id⟩

theorem pllKept_gridMoved (d : Nat) (s : State) : PllKept s (gridMoved d s) :=
  .ite (.refl s) ((pllKept_setUncomp s).trans (.of_pll rfl))

/-- Of the pages' effects a grid move alone touches the PLL: it sets UNCOMP (R69). -/
theorem pllKept_pageApplied (p : Nat) (r0 words : Ram Tri) (s : State) : PllKept s (pageApplied p r0 words s) := by
  by_cases grid : p = 0x02
  · subst grid
    have enabled : PllKept s (if (enReset 0x02).isSome && ramHas words (0x02 * 0x1000 + 0x004) then enApplied 0x02 s else s) :=
      .of_only (by simp)
    exact enabled.trans (pllKept_gridMoved _ _)
  · exact .of_only (by simp [pageApplied, grid])

theorem pllKept_applyPages (ps : List Nat) (s : State) : PllKept s (applyPages ps s) := by
  have done (p : Nat) (u : State) : PllKept u (pageDone p u) := .of_only (by simp)
  have dropped (u : State) : PllKept u (dropApplied ps u) := .of_pll rfl
  unfold applyPages
  dsimp only
  refine PllKept.trans (PllKept.trans ?_ (.foldl (fun u e => (pllKept_pageApplied _ _ _ u).trans (done _ _)) _ _)) (dropped _)
  exact .of_pll rfl

theorem pllKept_applyGroup (r0 : Ram Tri) (s : State) (g : Nat) : PllKept s (applyGroup r0 s g) := by
  unfold applyGroup
  extract_lets ps r causes applied flint
  split
  · exact .of_only (by simp)
  · exact (pllKept_applyPages ps s).trans (.of_pll rfl)

theorem pllKept_applyGroups (gs : List Nat) (s : State) : PllKept s (applyGroups gs s) := by
  have reset (p : Nat) (u : State) : PllKept u (softReset p u) := .of_only (by simp)
  have after (l : List Bool) (b : Bool) (u : State) : PllKept u (afterApply l b u) := .of_only (by simp)
  have groups (r0 : Ram Tri) (u : State) : PllKept u (gs.foldl (applyGroup r0) u) := .foldl (pllKept_applyGroup r0) gs u
  unfold applyGroups
  dsimp only
  refine .ite (.refl s) (PllKept.trans ?_ (after _ _ _))
  split
  · refine PllKept.trans (PllKept.trans ?_ (reset _ _)) (groups _ _)
    exact .of_pll rfl
  · refine PllKept.trans ?_ (groups _ _)
    exact .of_pll rfl

theorem pllKept_boundaryCore (s : State) : PllKept s (boundaryCore s) := by
  unfold boundaryCore
  extract_lets past la lb resid ph orbit captured oldOrb turned effected resids phased gs held applied oldFab waits
  have back (u : State) : PllKept u (powerBack u) := .of_only (by simp)
  have turn : PllKept s captured := .of_only (by simp [captured, past])
  have started : PllKept captured turned := .of_pll rfl
  have effect : PllKept turned effected := (pllKept_oasisResults _).trans (pllKept_applyEffect _)
  have judged : PllKept effected phased := .of_only (by simp [phased, resids])
  have groups : PllKept phased applied := (pllKept_applyGroups _ _).trans (back _)
  have waiting : PllKept applied waits := .of_pll rfl
  have rest : PllKept waits (recost (eyeRise la lb (restartDeferred waits))) := .of_only (by simp)
  exact (((((turn.trans started).trans effect).trans judged).trans groups).trans waiting).trans rest

/-! #### Slot starts -/

theorem pllKept_slotAdvance (obs : SlotObs) {s : State} (run : s.pw.coreRun = true) (h : s.orb.st = .idle ∨ s.orb.slot + 1 < orbLen s) :
    PllKept s (slotAdvance obs s) := by
  have numbered (u : State) : PllKept u (pushTag false (nextNumber (passSlot 0 u))) := .of_only (by simp)
  rw [slotAdvance_eq obs run h]
  exact ((pllKept_closeSlot obs s).trans (numbered _)).trans (pllKept_openSlot _)

theorem pllKept_orbitBoundary (obs : SlotObs) {s : State} (run : s.pw.coreRun = true) (out : s.orb.st ≠ .idle)
    (last : orbLen s ≤ s.orb.slot + 1) : PllKept s (orbitBoundary obs s) := by
  obtain ⟨n, h⟩ := orbitBoundary_eq obs run out last
  have ended (u : State) : PllKept u (pushTag true (passSlot n (cutoffNow (oasisSkipped u)))) := .of_only (by simp)
  have opened (u : State) : PllKept u (openSlot (retag (newOrbitMarks u))) := .of_only (by simp)
  rw [h]
  exact (((pllKept_closeSlot obs s).trans (ended _)).trans (pllKept_boundaryCore _)).trans (opened _)

theorem nextSlot_spec {s : State} (run : s.pw.coreRun = true) :
    PllKept s (nextSlot s) ∧ (nextSlot s).pw.elapsed = s.pw.elapsed + 1 := by
  by_cases last : lastSlot s = true
  · rw [nextSlot, if_pos last]
    obtain ⟨out, ends⟩ : s.orb.st ≠ .idle ∧ orbLen s ≤ s.orb.slot + 1 := by simpa [lastSlot] using last
    exact ⟨pllKept_orbitBoundary {} run out ends, elapsed_orbitBoundary {} run out ends⟩
  · rw [nextSlot, if_neg last]
    have goesOn : s.orb.st = .idle ∨ s.orb.slot + 1 < orbLen s := by
      simpa [lastSlot, imp_iff_not_or] using last
    exact ⟨pllKept_slotAdvance {} run goesOn, by rw [pw_slotAdvance {} run goesOn]⟩

end Sys2Proof.Machine
end

section
/-! Holds of the core PLL (R86, R88, R283): what ends one, what a long one leads to, the return of CK_CORE, and UNCOMP_ACK. -/

namespace Sys2Proof.Machine

/-! ### The hold ends (R86) -/

theorem phaseLock_due {s : State} (run : s.pw.coreRun = true) (hold : s.pll.hold = true) (good : fwdOk s s.pll.ref = true)
    (due : s.pll.lockFrom + 64 ≤ s.pw.elapsed) : phaseLock s =
      { setPhase false s.pll.uncomp s with pll := { (setPhase false s.pll.uncomp s).pll with lock := true, phaseLost := false } } :=
  if_pos (by simp [run, hold, good, due])

theorem phaseLock_early {s : State} (early : s.pw.elapsed < s.pll.lockFrom + 64) : phaseLock s = s :=
  if_neg (by simp [early])

theorem forgetLevels_phaseLock {s : State} (run : s.pw.coreRun = true) (hold : s.pll.hold = true) (good : fwdOk s s.pll.ref = true)
    (due : s.pll.lockFrom + 64 ≤ s.pw.elapsed) :
    forgetLevels (phaseLock s).pll = forgetLevels { s.pll with hold := false, lock := true, phaseLost := false } := by
  have phase := congrArg (fun p : Pll => { p with lock := true, phaseLost := false }) (forgetLevels_setPhase false s.pll.uncomp s)
  rw [phaseLock_due run hold good due]
  exact phase

/-! ### A long hold (R86, R283) -/

/-- The first time that a hold reaches its limit it is counted, and UNCOMP rises. -/
def holdNoted (s : State) : State :=
  if s.pll.phaseLost then s else count 0x02 1 (setUncomp { s with pll := { s.pll with phaseLost := true } })

theorem only_holdNoted (s : State) : Only [.fab, .orb, .pll] s (holdNoted s) := by
  unfold holdNoted
  split
  · exact .refl _ s
  · simp [only_mk_fab_orb_pll]

theorem pllKept_holdNoted (s : State) : PllKept s (holdNoted s) := by
  have counted (u : State) : PllKept u (count 0x02 1 u) := .of_only (by simp)
  refine .ite (.refl s) (PllKept.trans (PllKept.trans ?_ (pllKept_setUncomp _)) (counted _))
  exact ⟨rfl, rfl, rfl, id⟩

theorem regs_setUncomp (s : State) : (setUncomp s).fab.regs = s.fab.regs :=
  congrArg Fabric.regs (fab_of_only (by simp))

theorem regs_holdNoted (s : State) : (holdNoted s).fab.regs = s.fab.regs := by
  unfold holdNoted
  split
  · rfl
  · rw [regs_count, regs_setUncomp]

theorem fwdOk_of_only {M : List Part} {s u : State} (h : Only M s u) (hA : Part.lnA ∉ M) (hB : Part.lnB ∉ M) (t : Trunk) :
    fwdOk u t = fwdOk s t := by
  cases t
  · exact congrArg Lanes.fwdOk (h.lnA hA)
  · exact congrArg Lanes.fwdOk (h.lnB hB)

/-- A hold of 32,000 core cycles is noted; then the reference stays, changes, or CK_CORE stops. -/
theorem holdTimeout_due {s : State} (run : s.pw.coreRun = true) (hold : s.pll.hold = true) (due : s.pll.holdAt + 32000 ≤ s.pw.cc) :
    holdTimeout s =
      if fwdOk s s.pll.ref || s.sup.moving then holdNoted s
      else if fwdOk s (peer s.pll.ref) then changeRef (peer s.pll.ref) (holdNoted s) else coreStop (holdNoted s) := by
  have only := only_holdNoted s
  have good (t : Trunk) : fwdOk (holdNoted s) t = fwdOk s t := fwdOk_of_only only (by decide) (by decide) t
  have moving : (holdNoted s).sup = s.sup := only.sup (by decide)
  have early : ¬ (!s.pll.hold ∨ !s.pw.coreRun ∨ s.pw.cc < s.pll.holdAt + 32000) := by simp [run, hold, due]
  rw [← good s.pll.ref, ← good (peer s.pll.ref), ← moving, ← (pllKept_holdNoted s).ref]
  exact if_neg early

section
variable {s : State} (hold : s.pll.hold = true) (t : Trunk)
include hold

theorem enterHold_held : enterHold s = s := if_pos hold

theorem changeRef_held : (changeRef t s).pll.ref = t ∧ (changeRef t s).pll.hold = true ∧ (changeRef t s).fab.regs = s.fab.regs := by
  unfold changeRef
  rw [enterHold_held hold]
  extract_lets ok old changed
  have kept (u : State) : PllKept u (count 0x02 5 (setUncomp u)) := (pllKept_setUncomp u).trans (.of_only (by simp))
  split
  · exact ⟨rfl, hold, rfl⟩
  · exact ⟨(kept _).ref, (kept _).hold.trans hold, (regs_count _ _ _).trans (regs_setUncomp _)⟩

end

theorem pw_coreStop (s : State) : (coreStop s).pw = { s.pw with coreRun := false, coreStopped := true } := by
  have unsent : (unsend s).pw = s.pw := pw_of_only (by simp)
  show { (unsend s).pw with coreRun := false, coreStopped := true } = _
  rw [unsent]

theorem regs_coreStop (s : State) : (coreStop s).fab.regs = s.fab.regs := (told_unsend s).regs

theorem holdTimeout_spec {s : State} (run : s.pw.coreRun = true) (hold : s.pll.hold = true) (due : s.pll.holdAt + 32000 ≤ s.pw.cc) :
    (holdTimeout s).fab.regs = s.fab.regs ∧
    (fwdOk s s.pll.ref = true → (holdTimeout s).pw = s.pw ∧ (holdTimeout s).pll.ref = s.pll.ref) ∧
    (fwdOk s s.pll.ref = false → s.sup.moving = false → fwdOk s (peer s.pll.ref) = true →
      (holdTimeout s).pw = s.pw ∧ (holdTimeout s).pll.ref = peer s.pll.ref ∧ (holdTimeout s).pll.hold = true) ∧
    (fwdOk s s.pll.ref = false → s.sup.moving = false → fwdOk s (peer s.pll.ref) = false →
      (holdTimeout s).pw = { s.pw with coreRun := false, coreStopped := true } ∧ (holdTimeout s).pll.lock = false) := by
  have noted := pllKept_holdNoted s
  have regs := regs_holdNoted s
  have pw : (holdNoted s).pw = s.pw := (only_holdNoted s).pw (by decide)
  obtain ⟨ref, held, kept⟩ := changeRef_held (noted.hold.trans hold) (peer s.pll.ref)
  have moved : (changeRef (peer s.pll.ref) (holdNoted s)).pw = s.pw := (pw_of_only (by simp)).trans pw
  rw [holdTimeout_due run hold due]
  refine ⟨?_, fun good => ?_, fun bad still other => ?_, fun bad still other => ?_⟩
  · split_ifs
    · exact regs
    · exact kept.trans regs
    · exact (regs_coreStop _).trans regs
  · rw [if_pos (by simp [good])]
    exact ⟨pw, noted.ref⟩
  · rw [if_neg (by simp [bad, still]), if_pos other]
    exact ⟨moved, ref, held⟩
  · rw [if_neg (by simp [bad, still]), if_neg (by simp [other]), pw_coreStop, pw]
    exact ⟨rfl, rfl⟩

/-! ### CK_CORE returns (R283, R428) -/

/-- The first core cycle after the return, before the interrupted slot is over: the PLL is locked on trunk `t`, outside a hold, and
CK_CORE runs. -/
structure Returned (t : Trunk) (s : State) : Prop where
  run    : s.pw.coreRun = true
  ref    : s.pll.ref = t
  lock   : s.pll.lock = true
  hold   : s.pll.hold = false
  uncomp : s.pll.uncomp = true

theorem Returned.step {t : Trunk} {s u : State} (h : Returned t s) (pw : u.pw.coreRun = s.pw.coreRun) (k : PllKept s u) : Returned t u :=
  ⟨pw.trans h.run, k.ref.trans h.ref, k.lock.trans h.lock, k.hold.trans h.hold, k.uncomp h.uncomp⟩

theorem returned_setPhase {t : Trunk} {s : State} (run : s.pw.coreRun = true) (ref : s.pll.ref = t) (lock : s.pll.lock = true) :
    Returned t (setPhase false true s) := by
  have pw : (setPhase false true s).pw = s.pw := pw_of_only (by simp)
  have phase := forgetLevels_setPhase false true s
  exact ⟨by rw [pw, run], (congrArg Pll.ref phase :).trans ref, (congrArg Pll.lock phase :).trans lock,
    (congrArg Pll.hold phase :), (congrArg Pll.uncomp phase :)⟩

/-- What CK_CORE's return does in the interrupted slot itself: effective values that waited take effect. -/
theorem returned_effects {t : Trunk} {s : State} (h : Returned t s) :
    Returned t (flintJudge (applyEffect (gapSet s))) ∧ (flintJudge (applyEffect (gapSet s))).pw = s.pw := by
  have pw : (flintJudge (applyEffect (gapSet s))).pw = s.pw := pw_of_only (by simp)
  have gap : PllKept s (gapSet s) := .of_only (by simp)
  have judged (u : State) : PllKept u (flintJudge u) := .of_only (by simp)
  exact ⟨h.step (congrArg Power.coreRun pw) ((gap.trans (pllKept_applyEffect _)).trans (judged _)), pw⟩

theorem coreRun_nextSlot (s : State) : (nextSlot s).pw.coreRun = s.pw.coreRun := congrArg Skel.coreRun (skel_nextSlot s)

theorem returned_endInterrupted {t : Trunk} {s : State} (h : Returned t s) :
    Returned t (endInterrupted s) ∧ (endInterrupted s).pw.elapsed = s.pw.elapsed + 1 := by
  obtain ⟨kept, later⟩ := nextSlot_spec (s := slotOver s) h.run
  exact ⟨h.step (coreRun_nextSlot _) (PllKept.trans (u := slotOver s) (.of_pll rfl) kept), later⟩

/-- The state in which the PLL has locked to trunk `t` again, before HOLD falls and UNCOMP rises. -/
def relocked (t : Trunk) (s : State) : State :=
  let same := decide (s.pll.ref = t)
  flintResume { s with
    pw := { s.pw with coreRun := true },
    pll := { s.pll with ref := t, lock := true, phaseLost := false, lockFrom := s.pw.elapsed,
                        ofs := if same then s.pll.ofs else 0, skewValid := s.pll.skewValid && same,
                        skewDone := if same then s.pll.skewDone else none },
    dlA := { s.dlA with landed := none }, dlB := { s.dlB with landed := none } }

theorem coreReturn_eq (t : Trunk) (s : State) : coreReturn t s =
    coreFollows (releaseHeld (endInterrupted (flintJudge (applyEffect (gapSet (setPhase false true (relocked t s))))))) := rfl

theorem returned_coreReturn (t : Trunk) (s : State) :
    Returned t (coreReturn t s) ∧ (coreReturn t s).pw.elapsed = s.pw.elapsed + 1 := by
  have phase : Returned t (setPhase false true (relocked t s)) := returned_setPhase rfl rfl rfl
  have phasePw : (setPhase false true (relocked t s)).pw = (relocked t s).pw := pw_of_only (by simp)
  obtain ⟨effect, effectPw⟩ := returned_effects phase
  obtain ⟨ended, later⟩ := returned_endInterrupted effect
  rw [coreReturn_eq]
  generalize flintJudge (applyEffect (gapSet (setPhase false true (relocked t s)))) = v at *
  have followsPw : (coreFollows (releaseHeld (endInterrupted v))).pw = (endInterrupted v).pw := pw_of_only (by simp)
  have follows : PllKept (endInterrupted v) (coreFollows (releaseHeld (endInterrupted v))) := .of_only (by simp)
  refine ⟨ended.step (congrArg Power.coreRun followsPw) follows, ?_⟩
  rw [followsPw, later, effectPw, phasePw]
  rfl

theorem coreResume_due {s : State} {t : Trunk} (stopped : s.pw.coreRun = false) (ever : s.pw.coreEver = true) (vdda : s.pw.vdda = true)
    (found : lockRef s = some t) : coreResume s = leaveAgain (canSend s) (coreReturn t s) := by
  simp [coreResume, stopped, ever, vdda, found]

theorem returned_coreResume {s : State} {t : Trunk} (stopped : s.pw.coreRun = false) (ever : s.pw.coreEver = true) (vdda : s.pw.vdda = true)
    (found : lockRef s = some t) : Returned t (coreResume s) ∧ (coreResume s).pw.elapsed = s.pw.elapsed + 1 := by
  obtain ⟨back, later⟩ := returned_coreReturn t s
  rw [coreResume_due stopped ever vdda found]
  generalize coreReturn t s = v at back later
  have againPw : (leaveAgain (canSend s) v).pw = v.pw := pw_of_only (by simp)
  exact ⟨back.step (congrArg Power.coreRun againPw) (.of_only (by simp)), by rw [againPw, later]⟩

/-! ### UNCOMP_ACK (R88) -/

/-- A write of 1 to PH_CTL.UNCOMP_ACK: the buffered bits are buffered anew, after the cutoff where that is due, and UNCOMP falls. -/
theorem writeEffect_uncompAck (m : Master) (v : Nat) (ack : v.testBit 9 = true) (s : State) :
    writeEffect m 0x28 0x040 v s = ackUncomp (bufWrite 0x28 0x040 (v &&& 0xFF0173) s) := by
  simp [writeEffect, sideEffect, ownWrite, pgIn, regForm, formPhase, ack]

theorem pll_bufWrite (p o v : Nat) (s : State) : (bufWrite p o v s).pll = s.pll := pll_of_only (by simp)

theorem exec_uncompAck {s : State} (hp : s.pw.por = false) {m : Master} (serves : Serves s m 0x28) : exec (.uncompAck m) s =
    .next (ackUncomp (bufWrite 0x28 0x040 ((keptBits s 0x28040 ||| 0x200) &&& 0xFF0173) (beginAccess m s))) := by
  have ack : (keptBits s 0x28040 ||| 0x200).testBit 9 = true := by
    rw [Nat.testBit_or]
    exact Bool.or_true _
  rw [← writeEffect_uncompAck m _ ack, ← rowWrite_core serves (by decide) (by decide) (by decide) (by decide) (by decide) (by decide)
    (by simp [writeRefusal, rangeOk, pgIn])]
  exact congrArg _ (running_eq (cmdWrite m 0x28040 0x200) hp)

theorem ackUncomp_hold {s : State} (hold : s.pll.hold = true) : ackUncomp s = s := if_pos hold

theorem ackUncomp_free {s : State} (free : s.pll.hold = false) : ackUncomp s = setPhase false false s := if_neg (by simp [free])

theorem sameCounter_ackUncomp (s : State) : SameCounter s (ackUncomp s) := by
  unfold ackUncomp
  split
  · exact sameCounter_of_tags rfl
  · exact sameCounter_setPhase _ _ s

theorem sameCounter_of_orb {s v u : State} (h : v.orb = s.orb) (k : SameCounter v u) : SameCounter s u := by
  unfold SameCounter
  rw [← h]
  exact k

theorem regs_ackUncomp (s : State) : (ackUncomp s).fab.regs = s.fab.regs := congrArg Fabric.regs (fab_of_only (by simp))

/-- Settles O48: phase lock and the acknowledgement are one change of HOLD and UNCOMP each; a long hold is noted and then judged by the two
forwarded clocks; after the return nothing that the interrupted slot still does moves the PLL off its reference. -/
theorem holdsOfTheCorePll : Obligations.HoldsOfTheCorePll := by
  intro s hp
  refine ⟨fun run hold good => ?_, fun run hold due => ?_, fun stopped ever vdda t found => ?_, fun m serves => ?_⟩
  · have locks : exec .pllPhaseLock s = .next (phaseLock s) := congrArg _ (coreOnly_eq phaseLock hp run)
    refine ⟨fun due => ⟨_, locks, by simp, ?_, forgetLevels_phaseLock run hold good due⟩, fun early => ?_⟩
    · rw [phaseLock_due run hold good due]
      exact sameCounter_setPhase _ _ s
    · rw [locks, phaseLock_early early]
  · have timesOut : exec .pllHoldTimeout s = .next (holdTimeout s) := congrArg _ (coreOnly_eq holdTimeout hp run)
    exact ⟨_, timesOut, by simp, holdTimeout_spec run hold due⟩
  · obtain ⟨⟨run, ref, lock, hold, uncomp⟩, later⟩ := returned_coreResume stopped ever vdda found
    have resumes : exec .coreResume s = .next (coreResume s) := congrArg _ (running_eq coreResume hp)
    exact ⟨_, resumes, run, later, ref, lock, hold, uncomp⟩
  · have before : (bufWrite 0x28 0x040 ((keptBits s 0x28040 ||| 0x200) &&& 0xFF0173) (beginAccess m s)).pll = s.pll := pll_bufWrite _ _ _ _
    refine ⟨_, exec_uncompAck hp serves, by simp, ?_, ?_, fun free => ?_, fun hold => ?_⟩
    · rw [regs_ackUncomp]
      exact regs_bufWrite _ _ _ _
    · exact sameCounter_of_orb (orb_cutoffNow_beginAccess m s) (sameCounter_ackUncomp _)
    · rw [ackUncomp_free (by rw [before, free]), forgetLevels_setPhase, before, ← free]
    · rw [ackUncomp_hold (by rw [before, hold]), before]

end Sys2Proof.Machine
end

section
/-! Stuck masking (R122) and the seams' hold-off latches (R123). -/

namespace Sys2Proof.Machine

/-! ### The comparator judged again -/

/-- Channel `c` judged at the level it has, before an edge or a new contribution acts. -/
def rejudged (c : Nat) (now : Bool) (s : State) : State := judged c now (now && mayContribute s c s.pw.elapsed) s

section
variable {s : State} {c x : Nat} {now : Bool}

theorem getFlint_rejudged (hc : c < s.flint.length) :
    getFlint (rejudged c now s) c = { getFlint s c with on := now, contrib := now && mayContribute s c s.pw.elapsed } :=
  getFlint_modFlint c _ s hc

theorem getFlint_rejudged_ne {k : Nat} (h : k ≠ c) : getFlint (rejudged c now s) k = getFlint s k := getFlint_modFlint_ne c k _ s h.symm

/-- What the comparator's answer brings: an edge, a contribution that comes up, or nothing more (R116, R117, R119). -/
theorem judgeChan_cases (hn : now = comparator (flCtl s c s.pw.elapsed) (flThr s c s.pw.elapsed) (getFlint s c).on (getFlint s c).uv) :
    judgeChan c x s =
      if now && !(getFlint s c).on then edgeEvent c x (rejudged c now s)
      else if (now && mayContribute s c s.pw.elapsed) && !(getFlint s c).contrib then bothRise c x (rejudged c now s)
      else rejudged c now s := by
  subst hn
  rfl

/-- Judged again, a channel changes beside the answer at most its last counted edge and HITS, these at an edge only, and no other
channel changes. -/
theorem judgeChan_flint (hc : c < s.flint.length)
    (hn : now = comparator (flCtl s c s.pw.elapsed) (flThr s c s.pw.elapsed) (getFlint s c).on (getFlint s c).uv) :
    (∃ last hits, getFlint (judgeChan c x s) c = { getFlint s c with
        on := now, contrib := now && mayContribute s c s.pw.elapsed, last := last, hits := hits } ∧
      ((getFlint s c).on = true ∨ now = false → last = (getFlint s c).last ∧ hits = (getFlint s c).hits)) ∧
    ∀ k, k ≠ c → getFlint (judgeChan c x s) k = getFlint s k := by
  have own := getFlint_rejudged (now := now) hc
  have others (k : Nat) (hk : k ≠ c) := getFlint_rejudged_ne (s := s) (now := now) hk
  rw [judgeChan_cases hn]
  split_ifs with rises
  · have inRange : c < (rejudged c now s).flint.length := by simpa [rejudged, judged, modFlint] using hc
    obtain ⟨⟨last, hits, edge⟩, rest⟩ := edgeEvent_flint (rejudged c now s) c x inRange
    refine ⟨⟨last, hits, by rw [edge, own], fun noEdge => ?_⟩, fun k hk => (rest k hk).trans (others k hk)⟩
    rcases noEdge with was | below
    · simp [was] at rises
    · simp [below] at rises
  · simp only [getFlint, bothRise_flint] at own others ⊢
    exact ⟨⟨_, _, own, fun _ => ⟨rfl, rfl⟩⟩, others⟩
  · exact ⟨⟨_, _, own, fun _ => ⟨rfl, rfl⟩⟩, others⟩

end

/-! ### Stuck masking -/

/-- A channel that is masked, and contributes no more. -/
def maskedFlint (f : Flint) : Flint := { f with stuck := true, contrib := false }

/-- A channel whose mask is gone. -/
def freedFlint (f : Flint) : Flint := { f with stuck := false }

/-- Channel `c` and the present slot's stuck towers, once its mask is as `f` leaves it. -/
def restuck (c : Nat) (f : Flint → Flint) (s : State) : State := markStuck (modFlint c f s)

section
variable {s : State} {c : Nat} {f : Flint → Flint}

theorem only_restuck : Only [.orb, .flint] s (restuck c f s) := by simp [restuck]

theorem getFlint_restuck (hc : c < s.flint.length) : getFlint (restuck c f s) c = f (getFlint s c) := getFlint_modFlint c f s hc

theorem getFlint_restuck_ne {k : Nat} (h : k ≠ c) : getFlint (restuck c f s) k = getFlint s k := getFlint_modFlint_ne c k f s h.symm

theorem length_restuck : (restuck c f s).flint.length = s.flint.length :=
  congrArg Skel.nFlint (show skel (restuck c f s) = skel s by simp [restuck])

theorem stuckSet_masks (free : (getFlint s c).stuck = false) (past : fld (flCtl s c s.pw.elapsed) 16 8 < (getFlint s c).cnt) :
    stuckSet c s = countD (chPage c) 8 c (restuck c maskedFlint s) :=
  if_pos (by simp [free, past])

theorem stuckClear_frees (stuck : (getFlint s c).stuck = true) (past : 16 ≤ (getFlint s c).clr) :
    stuckClear c s = judgeChan c (nowPs (restuck c freedFlint s)) (restuck c freedFlint s) :=
  if_pos (by simp [stuck, past])

end

theorem flint_countD (p i d : Nat) (s : State) : (countD p i d s).flint = s.flint := Only.flint (M := [.fab]) (by simp)

theorem Canonical.tallyOf_countD {s : State} (h : Canonical s) {p : Nat} (i d : Nat) (hp : p ≠ 0x7C) :
    tallyOf (countD p i d s) p i = min 0xFF (tallyOf s p i + 1) := Machine.tallyOf_countD p i d s h.pages (h.tally_keys p) hp

/-- A channel's tallies stand on its own page, which is not the page of the notices. -/
theorem chPage_ne_notices (c : Fin 384) : chPage c ≠ 0x7C := by
  unfold chPage
  omega

/-- A channel above for more than STUCK_LIMIT slot starts is masked and counted (R122, R349). -/
theorem stuckSet_spec {s : State} {c : Fin 384} (shaped : Shaped s) (canonical : Canonical s) (free : (getFlint s c).stuck = false)
    (past : fld (flCtl s c s.pw.elapsed) 16 8 < (getFlint s c).cnt) :
    getFlint (stuckSet c s) c = { getFlint s c with stuck := true, contrib := false } ∧
      (∀ k, k ≠ c.val → getFlint (stuckSet c s) k = getFlint s k) ∧
      tallyOf (stuckSet c s) (chPage c) 8 = min 0xFF (tallyOf s (chPage c) 8 + 1) ∧ (stuckSet c s).fab.regs = s.fab.regs := by
  have hc : c.val < s.flint.length := by rw [shaped.flint]; exact c.isLt
  have marks : Only [.orb, .flint] s (restuck c maskedFlint s) := only_restuck
  have canon : Canonical (restuck c maskedFlint s) := canon_markStuck _ (canon_modFlint _ _ _ canonical)
  rw [stuckSet_masks free past]
  refine ⟨?_, fun k hk => ?_, ?_, ?_⟩
  · rw [getFlint, flint_countD]
    exact getFlint_restuck hc
  · rw [getFlint, flint_countD]
    exact getFlint_restuck_ne hk
  · rw [canon.tallyOf_countD 8 c (chPage_ne_notices c), tallyOf_congr (congrArg Fabric.pages marks.fab)]
  · rw [(told_countD (P := [chPage c, 0x7C]) _ (by simp) 8 c (by simp)).regs, marks.fab]

/-- A masked channel not above for 16 slot starts is free, and is judged as it then stands (R119, R122). -/
theorem stuckClear_spec {s : State} {c : Fin 384} {now : Bool} (shaped : Shaped s) (stuck : (getFlint s c).stuck = true)
    (past : 16 ≤ (getFlint s c).clr)
    (hn : now = comparator (flCtl s c s.pw.elapsed) (flThr s c s.pw.elapsed) (getFlint s c).on (getFlint s c).uv) :
    (∃ last hits, getFlint (stuckClear c s) c = { getFlint s c with
        stuck := false, on := now, contrib := now && (flCtl s c s.pw.elapsed).testBit 9, last := last, hits := hits } ∧
      ((getFlint s c).on = true ∨ now = false → last = (getFlint s c).last ∧ hits = (getFlint s c).hits)) ∧
    ∀ k, k ≠ c.val → getFlint (stuckClear c s) k = getFlint s k := by
  have hc : c.val < s.flint.length := by rw [shaped.flint]; exact c.isLt
  have rules := sameFlintRules_of_only (only_restuck (s := s) (c := c) (f := freedFlint)).mono
  have own : getFlint (restuck c freedFlint s) c = { getFlint s c with stuck := false } := getFlint_restuck hc
  have others (k : Nat) (hk : k ≠ c.val) := getFlint_restuck_ne (s := s) (f := freedFlint) hk
  rw [stuckClear_frees stuck past]
  have inRange := hc.trans_eq (length_restuck (s := s) (c := c) (f := freedFlint)).symm
  generalize restuck c freedFlint s = w at rules own others inRange ⊢
  have may : mayContribute w c w.pw.elapsed = (flCtl s c s.pw.elapsed).testBit 9 := by
    simp [mayContribute, own, rules.elapsed, rules.flCtl]
  obtain ⟨⟨last, hits, after, same⟩, rest⟩ := judgeChan_flint (s := w) (c := c) (x := nowPs w) (now := now) inRange
    (by rw [own, rules.elapsed, rules.flCtl, rules.flThr]; exact hn)
  rw [own] at same
  exact ⟨⟨last, hits, by rw [after, own, may], same⟩, fun k hk => (rest k hk).trans (others k hk)⟩

/-! ### The hold-off latch -/

/-- Two updates that agree on the output as it stands are one. -/
theorem modFout_congr {s : State} {o : Nat} {f g : FlintOut → FlintOut} (ho : o < s.fout.length) (h : f (getFout s o) = g (getFout s o)) :
    modFout o f s = modFout o g s := by
  have same : getFout s o = s.fout[o] := by simp [getFout, ho]
  rw [same] at h
  unfold modFout
  rw [List.modify_eq_set_get f ho, List.modify_eq_set_get g ho]
  exact congrArg (fun out => { s with fout := s.fout.set o out }) h

/-- A seam without a latch that rises takes the latch exactly where HOLDOFF is not 0 (R123). -/
theorem outRise_latches {s : State} {o x : Nat} (seam : o < 6) (ho : o < s.fout.length) (rises : mayRise s o x) :
    outRise o x s = modFout o (fun f => { f with
      high := true, t0 := some x, latch := decide (fld (flSeam s o s.pw.elapsed) 0 8 ≠ 0),
      slot := if fld (flSeam s o s.pw.elapsed) 0 8 ≠ 0 then s.pw.elapsed + fld (flSeam s o s.pw.elapsed) 0 8 + 1 else f.slot }) s := by
  obtain ⟨_, _, _, unlatched⟩ := id rises
  rw [outRise_rises rises]
  refine modFout_congr ho ?_
  simp [holdoffOf, seam, unlatched seam]

theorem latchClear_clears {s : State} {i : Nat} (latched : (getFout s i).latch = true) (due : (getFout s i).slot ≤ s.pw.elapsed) :
    latchClear i s = modFout i (fun f => { f with latch := false }) s := if_pos (by simp [latched, due])

/-! ### The commands -/

section
variable {s : State} (hp : s.pw.por = false) (run : s.pw.coreRun = true)
include hp run

theorem exec_stuckMask (c : Fin 384) : exec (.stuckMask c) s = .next (stuckSet c s) := congrArg _ (coreOnly_eq _ hp run)

theorem exec_stuckRelease (c : Fin 384) : exec (.stuckRelease c) s = .next (stuckClear c s) := congrArg _ (coreOnly_eq _ hp run)

theorem exec_holdoffLatchClear (i : Fin 6) : exec (.holdoffLatchClear i) s = .next (latchClear i s) := congrArg _ (coreOnly_eq _ hp run)

end

/-- Settles O29: masking writes the channel's own mask and counts on its page; a release judges the comparator again, which leaves
HITS and the last edge alone where it sees no edge; a rise without a latch takes one where HOLDOFF is not 0, until its slot. -/
theorem stuckMaskingAndHoldoffLatch : Obligations.StuckMaskingAndHoldoffLatch := by
  intro s hp run shaped canonical
  refine ⟨fun c free past => ⟨_, exec_stuckMask hp run c, ?_⟩, fun c stuck past now hn => ⟨_, exec_stuckRelease hp run c, ?_⟩,
    fun i x enabled low unlatched past h hh => ?_, fun i latched due => ?_⟩
  · obtain ⟨own, others, tally, regs⟩ := stuckSet_spec shaped canonical free past
    exact ⟨own, others, tally, regs, by simp⟩
  · obtain ⟨⟨last, hits, own, same⟩, others⟩ := stuckClear_spec shaped stuck past hn
    rw [own]
    exact ⟨rfl, rfl, rfl, fun noEdge => (same noEdge).symm, others, by simp⟩
  · subst hh
    exact outRise_latches i.isLt (by rw [shaped.fout]; omega) ⟨enabled, low, past, fun _ => unlatched⟩
  · rw [exec_holdoffLatchClear hp run, latchClear_clears latched due]

end Sys2Proof.Machine
end

section
/-! Arming (R147): arm and disarm events, by the oldest due frame or by ARM_CMD, and the ends of priming, the holdoff and TRIG_OUT. -/

namespace Sys2Proof.Machine

/-! ### ARM_CMD -/

/-- ARM_CMD holds command bits alone: a served write acts on a state that differs in the master's record (R147). -/
theorem cmdWrite_armCmd {s : State} {m : Master} (serves : Serves s m 0x31) (bits : Nat) :
    cmdWrite m 0x31040 bits s = armCmd bits (beginAccess m s) := by
  have kept : keptBits s 0x31040 = 0 := by simp [keptBits, regForm, pgIn, formArm]
  have effect : writeEffect m 0x31 0x040 bits (beginAccess m s) = armCmd bits (beginAccess m s) := by
    simp [writeEffect, sideEffect, ownWrite, pgIn, regForm, formArm]
  unfold cmdWrite
  rw [kept, Nat.zero_or, ← effect, ← rowWrite_core serves (by decide) (by decide) (by decide) (by decide) (by decide) (by decide)
    (by simp [writeRefusal, rangeOk, pgIn])]
  rfl

section
variable {s : State} {m : Master} (hp : s.pw.por = false) (serves : Serves s m 0x31)
include hp serves

theorem exec_armCmdArm : exec (.armCmdArm m) s = .next (armEvent (beginAccess m s)) :=
  congrArg _ ((running_eq (cmdWrite m 0x31040 1) hp).trans (cmdWrite_armCmd serves 1))

theorem exec_disarm : exec (.disarm m) s = .next (disarmNow (beginAccess m s)) :=
  congrArg _ ((running_eq (cmdWrite m 0x31040 2) hp).trans (cmdWrite_armCmd serves 2))

theorem exec_softTrig : exec (.softTrig m) s = .next (softTrigger (acceptFirst (beginAccess m s))) :=
  congrArg _ ((running_eq (cmdWrite m 0x31040 4) hp).trans (cmdWrite_armCmd serves 4))

end

/-! ### Arm and disarm events (R147) -/

/-- From DISARMED an arm event starts PRIMING, unless a disarm event came before it in the slot; from another state it changes neither the
state nor TAKEN. -/
theorem acq_armEvent (s : State) :
    (armEvent s).acq.fifo = s.acq.fifo ∧ (armEvent s).acq.seq = s.acq.seq ∧
    (s.acq.disIn = some s.pw.elapsed → (armEvent s).acq = s.acq) ∧
    (s.acq.disIn ≠ some s.pw.elapsed → s.acq.arm = .disarmed →
      (armEvent s).acq.arm = .priming ∧ (armEvent s).acq.armAt = s.pw.elapsed ∧ (armEvent s).acq.armSlot = s.orb.slot ∧
      (armEvent s).acq.armOrb = s.orb.orbit ∧ (armEvent s).acq.taken = 0 ∧ (armEvent s).acq.hoTo = none ∧ (armEvent s).acq.hoN = 0) ∧
    (s.acq.arm ≠ .disarmed → (armEvent s).acq.arm = s.acq.arm ∧ (armEvent s).acq.taken = s.acq.taken) := by
  unfold armEvent
  by_cases barred : s.acq.disIn = some s.pw.elapsed
  · simp [barred]
  · cases arm : s.acq.arm <;> simp [barred, arm]

/-- A disarm event disarms, and takes back what an arm event from DISARMED has changed in the same slot. -/
theorem acq_disarmNow (s : State) :
    (s.acq.armUndo = none ∨ s.acq.armAt ≠ s.pw.elapsed → (disarmNow s).acq =
      { s.acq with arm := .disarmed, disIn := some s.pw.elapsed, reArms := 0, armUndo := none }) ∧
    (∀ x, s.acq.armUndo = some x → s.acq.armAt = s.pw.elapsed → (disarmNow s).acq =
      { s.acq with arm := .disarmed, disIn := some s.pw.elapsed, reArms := 0, armUndo := none, armAt := x.armAt
                   armSlot := x.armSlot, armOrb := x.armOrb, taken := x.taken, hoTo := x.hoTo, hoN := x.hoN }) := by
  unfold disarmNow
  dsimp only
  refine ⟨fun stays => ?_, fun x undo now => by rw [undo]; exact if_pos now⟩
  cases undo : s.acq.armUndo with
  | none => rfl
  | some x => exact if_neg (stays.resolve_left (by simp [undo]))

/-! ### The ends of priming, the holdoff and TRIG_OUT (R145, R147, R148) -/

theorem primingOver_due {s : State} (priming : s.acq.arm = .priming) (due : readyFrom s ≤ s.pw.elapsed) :
    primingOver s = { s with acq := { s.acq with arm := .armed } } := if_pos ⟨priming, due⟩

theorem holdoffOver_due {s : State} {n : Nat} (held : s.acq.hoTo = some n) (due : n + 16 ≤ s.pw.elapsed) :
    holdoffOver s = { s with acq := { s.acq with hoTo := none } } := by
  unfold holdoffOver
  rw [held]
  exact if_pos due

theorem trigOutFall_due {s : State} (high : s.acq.trigOut = true) (due : s.acq.trigEnd ≤ s.pw.elapsed) :
    trigOutFall s = { s with acq := { s.acq with trigOut := false } } := if_pos (by simp [high, due])

/-- A command of the acquisition alone leaves, with the access that brings it, every register as it was. -/
theorem regs_of_command {m : Master} {s u : State} (h : Only [.acq] (beginAccess m s) u) : u.fab.regs = s.fab.regs :=
  (congrArg Fabric.regs (h.fab (by decide)) :)

/-- Settles O32: both ways to arm are one arm event, on a state whose acquisition is the same, and each end is judged by its own time. -/
theorem armingStates : Obligations.ArmingStates := by
  intro s hp run
  refine ⟨fun t d head code => ?_, fun m serves => ⟨⟨_, exec_armCmdArm hp serves, ?_⟩, ⟨_, exec_disarm hp serves, ?_⟩⟩,
    fun priming due => ?_, fun n held due => ?_, fun high due => ?_⟩
  · have acts : exec .arm s = .next (armEvent (codeTaken t d s)) :=
      congrArg _ ((coreOnly_eq armFast hp run).trans (onCode_due head code (want := (· == 3)) rfl (fun _ => armEvent)))
    have taken := only_codeTaken t d s
    obtain ⟨pw, -, orb, acq, -⟩ := codeTaken_rest t d s
    have event := acq_armEvent (codeTaken t d s)
    rw [pw, orb, acq] at event
    exact ⟨_, acts, taken.mono.trans (by simp), event⟩
  · obtain ⟨fifo, -, barred, arms, again⟩ := acq_armEvent (beginAccess m s)
    refine ⟨by simp, regs_of_command (m := m) (by simp), fifo, barred, fun free disarmed => ?_, again⟩
    obtain ⟨arm, since, -, -, counts⟩ := arms free disarmed
    exact ⟨arm, since, counts⟩
  · exact ⟨by simp, regs_of_command (m := m) (by simp), acq_disarmNow (beginAccess m s)⟩
  · exact congrArg _ ((coreOnly_eq primingOver hp run).trans (primingOver_due priming due))
  · exact congrArg _ ((coreOnly_eq holdoffOver hp run).trans (holdoffOver_due held due))
  · exact congrArg _ ((coreOnly_eq trigOutFall hp run).trans (trigOutFall_due high due))

end Sys2Proof.Machine
end

section
/-! Local triggers (R144–R148): a trigger that nothing stops makes one entry; a DISARMED hub takes none. -/

namespace Sys2Proof.Machine

/-! ### The accept of the slot comes first (R136) -/

theorem acceptFirst_none {s : State} (first : NoAccept s) : acceptFirst s = s := by
  unfold acceptFirst
  split
  · next t d head => exact if_neg (by simp [first t d head])
  · rfl

/-! ### A trigger that is taken -/

section
variable (c : Cause) (named seq : Nat) (s : State)

/-- TRIG_OUT is beside the FIFO and TAKEN (R145). -/
theorem acq_trigOutRise : ∃ high till, (trigOutRise c s).acq = { s.acq with trigOut := high, trigEnd := till } := by
  unfold trigOutRise
  dsimp only
  split
  · exact ⟨_, _, rfl⟩
  · exact ⟨_, _, rfl⟩

theorem kept_trigOutRise {C : Set Nat} : FabKept C s (trigOutRise c s) := .of_fab (Only.fab (M := [.acq]) (by simp) (by decide))

theorem kept_afterTaken {C : Set Nat} : FabKept C s (afterTaken named seq s) := by
  unfold afterTaken noteLocal
  dsimp only
  exact FabKept.ite ((kept_count _ _ _).since rfl) (.of_fab rfl)

/-- A taken trigger advances TAKEN and leaves the FIFO and the sequence as they are (R147, R148). -/
theorem acq_afterTaken : fifoAt (afterTaken named seq s) = fifoAt s ∧ (afterTaken named seq s).acq.taken = (s.acq.taken + 1) % 65536 := by
  unfold afterTaken noteLocal
  dsimp only
  split
  · rw [fifoAt_of_acq (count_acq _ _ _), count_acq]
    exact ⟨rfl, rfl⟩
  · exact ⟨rfl, rfl⟩

end

section
variable {s : State} {named : Nat} (fresh : FreshLocal s named)
include fresh

theorem outOfIdle_of_freshLocal : s.orb.st ≠ .idle := fresh.1

theorem noAccept_of_freshLocal : NoAccept s := by
  obtain ⟨-, -, -, -, -, -, -, first, -⟩ := fresh
  exact first

theorem localTrigger_fresh (c : Cause) :
    localTrigger named c s = afterTaken named s.acq.seq (trigOutRise c (createEntry named c s)) := by
  obtain ⟨runs, armed, ready, free, noHold, alone, noExt, -, new, credit⟩ := fresh
  have takes : localTrigger named c s = takeLocal named c s := by
    unfold localTrigger
    rw [if_neg runs, alone, armed]
    dsimp only
    rw [if_neg (Nat.not_lt.2 ready), if_neg (show ¬ 0 < s.acq.hoN by omega)]
    cases ho : s.acq.hoTo with
    | none => rfl
    | some t => exact if_neg (by simpa using free t ho)
  rw [takes]
  unfold takeLocal
  rw [noExt]
  dsimp only
  rw [new]
  exact if_pos credit

/-- A local trigger that nothing stops makes one entry, which carries its causes alone (R135, R136). -/
theorem entryMade_localTrigger (c : Cause) (own : c.ext = false) : EntryMade s (localTrigger named c s) named c.self c.pin c.host := by
  rw [localTrigger_fresh fresh c]
  have made := kept_createEntry (C := ∅) named c s
  obtain ⟨e, wm, acq, names, seq, ext, self, pin, host, created⟩ := acq_createEntry named c s
  have only : Only [.fab, .acq] s (createEntry named c s) := by simp
  generalize createEntry named c s = v at acq only made
  obtain ⟨high, till, rose⟩ := acq_trigOutRise c v
  have kept := made.trans (kept_trigOutRise c v)
  have only' : Only [.fab, .acq] s (trigOutRise c v) := only.trans (by simp)
  generalize trigOutRise c v = w at rose only' kept
  obtain ⟨fifo, taken⟩ := acq_afterTaken named s.acq.seq w
  simp only [fifoAt, Prod.mk.injEq, rose, acq] at fifo taken
  obtain ⟨fifo, next, total⟩ := fifo
  exact ⟨only'.trans (by simp), (kept.trans (kept_afterTaken _ _ _)).regs, ⟨e, fifo, names, seq, ext.trans own, self, pin, host, created⟩,
    next, total, taken⟩

end

/-! ### A DISARMED hub -/

theorem localTrigger_disarmed {s : State} (disarmed : s.acq.arm = .disarmed) {named : Nat} (alone : localOf s named = none) (c : Cause) :
    localTrigger named c s = s := by
  unfold localTrigger
  rw [alone, disarmed]
  exact ite_self _

/-! ### The triggers -/

section
variable {s : State} (hp : s.pw.por = false) (run : s.pw.coreRun = true) (first : NoAccept s)
include hp run first

theorem exec_selfTrigger : exec .selfTrigger s = .next (selfTrig s) :=
  congrArg _ ((coreOnly_eq (fun s => selfTrig (acceptFirst s)) hp run).trans (congrArg selfTrig (acceptFirst_none first)))

theorem exec_trigInEdge (ps : Nat) (late : Bool) : exec (.trigInEdge ps late) s = .next (if pinsOk s then trigInEdge ps late s else s) := by
  have acts := coreOnly_eq (fun s => if pinsOk s then trigInEdge ps late (acceptFirst s) else s) hp run
  rw [acceptFirst_none first] at acts
  exact congrArg _ acts

end

/-- What begins an access is nothing to a local trigger. -/
theorem noAccept_beginAccess {s : State} (first : NoAccept s) (m : Master) : NoAccept (beginAccess m s) := first

theorem freshLocal_beginAccess {s : State} {named : Nat} (fresh : FreshLocal s named) (m : Master) : FreshLocal (beginAccess m s) named := fresh

theorem exec_softTrig_noAccept {s : State} (hp : s.pw.por = false) {m : Master} (serves : Serves s m 0x31) (first : NoAccept s) :
    exec (.softTrig m) s = .next (softTrigger (beginAccess m s)) := by
  rw [exec_softTrig hp serves, acceptFirst_none (noAccept_beginAccess first m)]

/-- SELF_TRIGGER is the local trigger of the slot eight back, for the seams whose conditions hold there (R144). -/
theorem selfTrig_fires {s : State} (runs : (tagOf s (s.pw.elapsed - 8)).idle = false) (kept : (tagOf s (s.pw.elapsed - 8)).self = true)
    (out : s.orb.st ≠ .idle) (fires : ∃ i < 6, selfFires s i (s.pw.elapsed - 8) = true) :
    ∃ seams, selfTrig s = localTrigger (s.pw.elapsed - 8) { self := true, seams := seams } s := by
  obtain ⟨i, below, fire⟩ := fires
  have some : ((List.range 6).filter (fun i => selfFires s i (s.pw.elapsed - 8))).isEmpty = false := by
    rw [List.isEmpty_eq_false_iff_exists_mem]
    exact ⟨i, List.mem_filter.2 ⟨List.mem_range.2 below, fire⟩⟩
  unfold selfTrig
  dsimp only
  rw [if_neg (by simp [runs, kept, out]), if_neg (ne_true_of_eq_false some)]
  exact ⟨_, rfl⟩

theorem selfTrig_disarmed {s : State} (disarmed : s.acq.arm = .disarmed) (alone : ∀ n, localOf s n = none) : selfTrig s = s := by
  unfold selfTrig
  dsimp only
  rw [localTrigger_disarmed disarmed (alone _)]
  simp only [ite_self]

/-- In mode 1 an edge seen in the present slot is the local trigger of the pin's delay back (R145). -/
theorem trigInEdge_mode_one {s : State} (mode : regF s 0x31 0x04C 0 2 = 1) {ps : Nat} {late : Bool} (early : seenCycle ps late < s.pw.slotLen) :
    trigInEdge ps late s = localTrigger (s.pw.elapsed - regF s 0x31 0x04C 4 4) { pin := true } s := by
  unfold trigInEdge trigInSeen
  rw [if_pos early]
  exact if_pos mode

theorem trigInEdge_past {s : State} {ps : Nat} {late : Bool} (past : s.pw.slotLen ≤ seenCycle ps late) :
    trigInEdge ps late s = { s with acq := { s.acq with pinNext := s.acq.pinNext + 1 } } := if_neg (Nat.not_lt.2 past)

/-- The access that brings a trigger leaves all that an entry rests on. -/
theorem entryMade_beginAccess {m : Master} {s t : State} {named : Nat} {self pin host : Bool}
    (made : EntryMade (beginAccess m s) t named self pin host) : EntryMade s t named self pin host := by
  obtain ⟨only, regs, entry, counts⟩ := made
  have begun : Only [.fab, .acq] s (beginAccess m s) := by simp
  exact ⟨begun.trans only, regs, entry, counts⟩

/-- Settles O31: each trigger is one local trigger, of its own slot and cause; a DISARMED hub takes none of them. -/
theorem localTriggersMakeAnEntry : Obligations.LocalTriggersMakeAnEntry := by
  intro s hp run
  refine ⟨fun runs kept fires fresh => ?_, fun ps late pins mode fresh early => ?_, fun ps late pins first past => ?_,
    fun m serves fresh => ?_, fun disarmed runs alone first => ⟨?_, fun ps late mode early => ?_, fun m serves => ?_⟩⟩
  · obtain ⟨seams, trigger⟩ := selfTrig_fires runs kept (outOfIdle_of_freshLocal fresh) fires
    exact ⟨_, exec_selfTrigger hp run (noAccept_of_freshLocal fresh),
      trigger ▸ entryMade_localTrigger fresh { self := true, seams := seams } rfl⟩
  · refine ⟨_, exec_trigInEdge hp run (noAccept_of_freshLocal fresh) ps late, ?_⟩
    rw [if_pos pins, trigInEdge_mode_one mode early]
    exact entryMade_localTrigger fresh { pin := true } rfl
  · rw [exec_trigInEdge hp run first, if_pos pins, trigInEdge_past past]
  · exact ⟨_, exec_softTrig_noAccept hp serves (noAccept_of_freshLocal fresh),
      entryMade_beginAccess (entryMade_localTrigger (freshLocal_beginAccess fresh m) { host := true } rfl)⟩
  · rw [exec_selfTrigger hp run first, selfTrig_disarmed disarmed alone]
  · rw [exec_trigInEdge hp run first, trigInEdge_mode_one mode early, localTrigger_disarmed disarmed (alone _), ite_self]
  · have same : softTrigger (beginAccess m s) = beginAccess m s := localTrigger_disarmed (s := beginAccess m s) disarmed (alone _) _
    refine ⟨_, exec_softTrig_noAccept hp serves first, ?_⟩
    rw [same]
    exact ⟨by simp, rfl⟩

end Sys2Proof.Machine
end

section
/-! Lifts (R139–R142): a start copies the window or reports at once, and an end hands the window to the engine. -/

namespace Sys2Proof.Machine

/-! ### What a start can do -/

/-- The errors that a lift of entry `e` on seam `i` reads are counted (R103, R129). -/
def liftRead (e : Entry) (i : Nat) (s : State) : State := liftEcc e i { s with pw := { s.pw with freeCtr := s.pw.freeCtr + 786432 } }

/-- Seam `i` lifts the window `w` of entry `e` from now on, and the entry's report notes it (R140). -/
def liftRuns (e : Entry) (i : Nat) (w : Window) (s : State) : State :=
  modRep e.seq i (fun r => { r with started := true, liftAt := some s.pw.cc, liftLen := winLen e i, phase := w.hold && !r.her })
    (modSeam i (fun x => { x with lifts := x.lifts ++ [{ seq := e.seq, start := s.pw.cc, len := winLen e i, win := w }] }) s)

/-- A start does nothing, reports at once for its entry, or lifts the window as it then stands. -/
theorem liftBegin_cases (i : Nat) (s : State) : liftBegin i s = s ∨ (∃ e status tally, liftBegin i s = liftNothing e i status tally s) ∨
    ∃ e, liftBegin i s = liftRuns e i (liftWindow s e i) (liftRead e i s) := by
  unfold liftBegin
  split
  · exact .inl rfl
  · dsimp only
    split
    · exact .inl rfl
    · split
      · exact .inr (.inl ⟨_, _, _, rfl⟩)
      · split
        · exact .inr (.inl ⟨_, _, _, rfl⟩)
        · exact .inr (.inr ⟨_, rfl⟩)

/-- With the window complete and a buffer free, a start misses a rewritten window, finds one from before the rings ran not primed, and
lifts any other (R139, R141, R142). -/
theorem liftBegin_due {s : State} {i : Nat} {e : Entry} (run : s.pw.coreRun = true) (next : nextLift s i = some e)
    (later : e.created < s.pw.elapsed) (buffer : bufUsed (getSeam s i) < 2) (complete : winComplete s e i = true) :
    liftBegin i s =
      if rewritten s i (winStart e i) then liftNothing e i 0x43 0 s
      else if winStart e i < (getSeam s i).startN then liftNothing e i 0x41 1 s
      else liftRuns e i (liftWindow s e i) (liftRead e i s) := by
  unfold liftBegin
  rw [next]
  exact if_neg (by simp [run, later, buffer, complete])

/-! ### What it leaves -/

theorem kept_liftEcc {C : Set Nat} (e : Entry) (i : Nat) (s : State) : FabKept C s (liftEcc e i s) := by
  unfold liftEcc
  extract_lets n0 w once both
  have groups : FabKept C s both := (kept_countN _ _ _ _).trans (kept_countN _ _ _ _)
  exact groups.ite (groups.trans (FabKept.foldl (fun v _ => FabKept.foldl (fun u _ => (kept_count u _ _).ite (.refl u)) _ v) _ _))

theorem acq_countD (p i d : Nat) (s : State) : (countD p i d s).acq = s.acq := Only.acq (M := [.fab]) (by simp) (by decide)

theorem liftRead_rest (e : Entry) (i : Nat) (s : State) : FabKept ∅ s (liftRead e i s) ∧ (liftRead e i s).seams = s.seams ∧
    (liftRead e i s).pw = { s.pw with freeCtr := s.pw.freeCtr + 786432 } := by
  have counted (v : State) : Only [.fab] v (liftEcc e i v) := by simp
  exact ⟨(kept_liftEcc e i _).since rfl, (counted _).seams (by decide), (counted _).pw (by decide)⟩

/-- A lift of seam `i` changes that seam alone, of its seams (R140). -/
theorem liftRuns_rest (e : Entry) (i : Nat) (w : Window) (s : State) : (liftRuns e i w s).fab = s.fab ∧ (liftRuns e i w s).pw = s.pw ∧
    (∀ k, k ≠ i → getSeam (liftRuns e i w s) k = getSeam s k) ∧
    (i < s.seams.length → getSeam (liftRuns e i w s) i =
      { getSeam s i with lifts := (getSeam s i).lifts ++ [{ seq := e.seq, start := s.pw.cc, len := winLen e i, win := w }] }) :=
  ⟨rfl, rfl, fun _ hk => getSeam_modSeam_ne i _ _ s hk.symm, fun hi => getSeam_modSeam i _ s hi⟩

/-- A seam that lifts nothing keeps its lifts, and the entry's report tells why (R141–R143). -/
theorem liftNothing_rest (e : Entry) (i status tally : Nat) (s : State) : FabKept ∅ s (liftNothing e i status tally s) ∧
    (liftNothing e i status tally s).pw = s.pw ∧ (∀ k, getSeam (liftNothing e i status tally s) k = getSeam s k) ∧
    (liftNothing e i status tally s).acq =
      (modRep e.seq i (fun r => { r with started := true, done := true, status := status }) s).acq := by
  have told : Only [.fab, .acq] s (liftNothing e i status tally s) := by simp
  refine ⟨(kept_countD _ _ _ _).since rfl, told.pw (by decide), fun k => ?_, acq_countD _ _ _ _⟩
  unfold getSeam
  rw [told.seams (by decide)]

/-- Whatever a start does, it writes no register, takes at most free values, and changes no other seam. -/
theorem liftBegin_frame (i : Nat) (s : State) : (liftBegin i s).fab.regs = s.fab.regs ∧
    (liftBegin i s).pw = { s.pw with freeCtr := (liftBegin i s).pw.freeCtr } ∧ ∀ k, k ≠ i → getSeam (liftBegin i s) k = getSeam s k := by
  rcases liftBegin_cases i s with same | ⟨e, status, tally, nothing⟩ | ⟨e, lifts⟩
  · rw [same]
    exact ⟨rfl, rfl, fun _ _ => rfl⟩
  · obtain ⟨kept, pw, seams, -⟩ := liftNothing_rest e i status tally s
    rw [nothing, pw]
    exact ⟨kept.regs, rfl, fun k _ => seams k⟩
  · obtain ⟨kept, seams, pw⟩ := liftRead_rest e i s
    obtain ⟨fab, pw', others, -⟩ := liftRuns_rest e i (liftWindow s e i) (liftRead e i s)
    rw [lifts, fab, pw', pw]
    refine ⟨kept.regs, rfl, fun k hk => (others k hk).trans ?_⟩
    unfold getSeam
    rw [seams]

/-! ### The end of a lift (R140) -/

theorem liftEnd_due {s : State} {i : Nat} {l : Lift} {rest : List Lift} (lifts : (getSeam s i).lifts = l :: rest)
    (due : l.start + l.len ≤ s.pw.cc) :
    liftEnd i s = engineStart i (modSeam i (fun x => { x with lifts := rest, bufs := x.bufs ++ [l.win] }) s) := by
  unfold liftEnd
  rw [lifts]
  exact if_neg (Nat.not_lt.2 due)

/-- Settles O33: of the three outcomes of a start the window's age decides; the end stages the oldest lift's window before the engine looks. -/
theorem liftsCopyTheWindow : Obligations.LiftsCopyTheWindow := by
  intro s i hp run shaped
  have inRange : i.val < s.seams.length := by rw [shaped.seams]; exact i.isLt
  refine ⟨fun e next later buffer complete => ?_, fun l rest lifts due => ?_⟩
  · have acts : exec (.liftStart i) s = .next (liftBegin i s) := congrArg _ (coreOnly_eq (liftBegin i.val) hp run)
    have outcome := liftBegin_due run next later buffer complete
    obtain ⟨regs, pw, others⟩ := liftBegin_frame i s
    refine ⟨_, acts, by simp, regs, pw, others, fun whole primed => ?_, fun missed => ?_, fun whole early => ?_⟩
    · rw [outcome, if_neg (ne_true_of_eq_false whole), if_neg (not_lt.2 primed)]
      obtain ⟨-, seams, pw⟩ := liftRead_rest e i s
      obtain ⟨-, -, -, own⟩ := liftRuns_rest e i (liftWindow s e i) (liftRead e i s)
      have same : getSeam (liftRead e i s) i = getSeam s i := by unfold getSeam; rw [seams]
      rw [own (by rw [seams]; exact inRange), same, pw]
    · rw [outcome, if_pos missed]
      obtain ⟨-, -, seams, acq⟩ := liftNothing_rest e i 0x43 0 s
      exact ⟨seams i, congrArg Acq.fifo acq⟩
    · rw [outcome, if_neg (ne_true_of_eq_false whole), if_pos early]
      obtain ⟨-, -, seams, acq⟩ := liftNothing_rest e i 0x41 1 s
      exact ⟨seams i, congrArg Acq.fifo acq⟩
  · have acts : exec (.liftEnd i) s = .next (liftEnd i s) := congrArg _ (coreOnly_eq (liftEnd i.val) hp run)
    rw [liftEnd_due lifts due] at acts
    exact ⟨_, _, acts, rfl, by simp, fun k hk => getSeam_modSeam_ne i k _ s hk.symm, getSeam_modSeam i _ s inRange⟩

end Sys2Proof.Machine
end

section
/-! Manifests (R134, R220–R223): the writer's order, and what a manifest that Q12 takes whole leaves in its queue, its store and the FIFO. -/

namespace Sys2Proof.Machine

/-! ### Bytes of a manifest (R156, R218) -/

theorem leNat_leBytes (n v : Nat) : leNat (leBytes n v) = v % 2 ^ (8 * n) := by
  induction n generalizing v with
  | zero => simp [leBytes, leNat, Nat.mod_one]
  | succ n ih =>
    have rest : leBytes (n + 1) v = BitVec.ofNat 8 v :: leBytes n (v >>> 8) := by
      simp [leBytes, List.range_succ_eq_map, Nat.shiftRight_add, Nat.mul_add, Nat.add_comm]
    rw [rest, leNat, ih, BitVec.toNat_ofNat, Nat.shiftRight_eq_div_pow, show 8 * (n + 1) = 8 + 8 * n by omega, Nat.pow_add, Nat.mod_mul]

section
variable (typ seam : Nat) (last : Bool) (seq slot orbit : Nat)

theorem baleSeq_mkBale (l : List Byte) : baleSeq (mkBale typ seam last seq slot orbit l) = seq % 2 ^ 24 := leNat_leBytes 3 seq

theorem accOf_mkBale (b : Byte) (l : List Byte) : accOf (mkBale typ seam last seq slot orbit (b :: l)) = b.toNat := rfl

theorem length_mkBale (l : List Byte) : (mkBale typ seam last seq slot orbit l).length = 20 + l.length := by
  simp [mkBale, withTrailer, baleHeader, leBytes_length]
  omega

end

theorem length_seamEntry (status : Nat) (phase ecc her : Bool) (raw feat bytes : Nat) :
    (seamEntry status phase ecc her raw feat bytes).length = 8 := by simp [seamEntry, leBytes_length]

theorem length_repEntries (l : List Report) : (l.flatMap repEntry).length = 8 * l.length := by
  induction l with
  | nil => rfl
  | cons r l ih =>
    rw [List.flatMap_cons, List.length_append, ih, repEntry, length_seamEntry, List.length_cons]
    omega

theorem length_manifestPayload (acc flags seams user arrival pre post lastSeq : Nat) (l : List Byte) :
    (manifestPayload acc flags seams user arrival pre post lastSeq l).length = 12 + l.length := by
  simp [manifestPayload, leBytes_length]
  omega

theorem cells_refusedManifest (on : Bool) (r : Refusal1) : cellsOf (refusedManifest on r).length = 1 := by
  have entries : ((List.replicate 6 (seamEntry 0x42 false false false 0 0 0)).flatten ++
      (if on then seamEntry 0x42 false false false 0 0 0 else List.replicate 8 0)).length = 56 := by cases on <;> rfl
  unfold refusedManifest
  rw [length_mkBale, length_manifestPayload, entries]
  rfl

theorem cells_replayManifest (s : State) (n c : Nat) : cellsOf (replayManifest s n c).length = 1 := by
  unfold replayManifest
  rw [length_mkBale]
  simp [leBytes_length]
  rfl

theorem cells_entryManifest (e : Entry) (on : Bool) : cellsOf (entryManifest e on).length = 1 := by
  unfold entryManifest
  extract_lets reps h acc ph flags
  have seams : reps.length ≤ 6 := by simp [reps]
  have her : (if h.isEmpty then List.replicate 8 0 else repEntry e.hrep).length = 8 := by
    split
    · rfl
    · exact length_seamEntry _ _ _ _ _ _ _
  rw [length_mkBale, length_manifestPayload, List.length_append, her, length_repEntries]
  unfold cellsOf ceilDiv
  omega

/-- A status of the highest precedence is no replay's (R220, R223). -/
theorem accStatus_mem (l : List Nat) : accStatus l ∈ [0x42, 0x43, 0x41, 0x44, 0x46, 0x40] := by
  unfold accStatus
  cases found : [0x42, 0x43, 0x41, 0x44, 0x46].find? (fun c => l.contains c) with
  | none => simp
  | some c => exact List.mem_append_left [0x40] (List.mem_of_find?_eq_some found)

theorem accOf_replayManifest (s : State) (n c : Nat) : accOf (replayManifest s n c) = 0x45 := rfl

theorem accOf_entryManifest (e : Entry) (on : Bool) : accOf (entryManifest e on) ≠ 0x45 := by
  have byte : ∀ acc ∈ [0x42, 0x43, 0x41, 0x44, 0x46, 0x40], (BitVec.ofNat 8 acc).toNat ≠ 0x45 := by decide
  unfold entryManifest
  exact byte _ (accStatus_mem _)

/-! ### A manifest that Q12 takes (R134, R190) -/

theorem regs_manifestIn (l : List Byte) (s : State) : (manifestIn l s).fab.regs = s.fab.regs := by
  have synced (v : State) : FabKept ∅ v (acqSync v) := kept_acqSync v
  unfold manifestIn freeEntry
  dsimp only
  split
  · rfl
  · exact (synced _).regs

/-- A refused trigger's or a replay's manifest frees no entry. -/
theorem acq_manifestIn_stays {l : List Byte} (other : accOf l = 0x42 ∨ accOf l = 0x45) (s : State) :
    (manifestIn l s).acq.refused = s.acq.refused ∧ (manifestIn l s).acq.replay = s.acq.replay ∧
      (manifestIn l s).acq.fifo = s.acq.fifo := by
  unfold manifestIn
  rw [if_pos other]
  exact ⟨rfl, rfl, rfl⟩

theorem fifo_manifestIn_frees {l : List Byte} (own : ¬ (accOf l = 0x42 ∨ accOf l = 0x45)) (s : State) :
    (manifestIn l s).acq.fifo = s.acq.fifo.filter (fun e => e.seq != baleSeq l) := by
  unfold manifestIn freeEntry
  dsimp only
  rw [if_neg own, acq_acqSync]

/-- A manifest that Q12 takes whole, out of its store, is the newest bale there; what it does to the entries is `manifestIn`'s. -/
theorem putManifest_whole {s u : State} (store : Only [.acq] s u) (queues : s.ser.qs.length = 32) {l : List Byte}
    (one : cellsOf l.length = 1) (whole : TakesWhole s 12 1) :
    ∃ v b, putManifest l u = manifestIn l v ∧ v.acq = u.acq ∧ OnlyAndUnfit [.fab, .acq, .ser] s (putManifest l u) ∧
      (putManifest l u).fab.regs = s.fab.regs ∧ OtherQueues s (putManifest l u) 12 ∧
      (getQ (putManifest l u) 12).ready = (getQ s 12).ready ++ [b] ∧ b.bytes = l := by
  have some : l ≠ [] := by
    rintro rfl
    exact absurd one (by decide)
  have ser := store.ser (by decide)
  have fab := store.fab (by decide)
  obtain ⟨b, ready, bytes, emptied, others⟩ := writeBale_whole (s := u) (q := 12) (by rw [ser, queues]; decide) some
    (one.symm ▸ takesWhole_congr whole ser fab)
  have written : putManifest l u = manifestIn l (writeBale 12 l u) := by
    unfold putManifest
    exact if_pos (by rw [emptied]; rfl)
  have entered : Only [.fab, .acq] (writeBale 12 l u) (manifestIn l (writeBale 12 l u)) := by simp
  have before := congrArg Serai.qs ser
  have after := congrArg Serai.qs (entered.ser (by decide))
  refine ⟨writeBale 12 l u, b, written, acq_writeBale _ _ _, ?_⟩
  rw [written]
  refine ⟨(OnlyAndUnfit.of_only store.mono).trans ((unfit_writeBale 12 l u).mono.trans (.of_only entered.mono)), ?_,
    fun k hk => ?_, ?_, bytes⟩
  · rw [regs_manifestIn, (told_writeBale 12 l u).regs, fab]
  · rw [bareQ_congr after, others k hk, bareQ_congr before]
  · rw [getQ_congr after, ready, getQ_congr before]

/-! ### The order of the writer (R222) -/

/-- The oldest refused trigger's manifest is out of its store. -/
def refusedTaken (rest : List Refusal1) (s : State) : State := { s with acq := { s.acq with refused := rest } }

/-- The oldest replay manifest is out of its store. -/
def replayTaken (rest : List (Nat × Nat)) (s : State) : State := { s with acq := { s.acq with replay := rest } }

theorem only_refusedTaken (rest : List Refusal1) (s : State) : Only [.acq] s (refusedTaken rest s) := (only_mk_acq s s _).2 (.refl _ _)

theorem only_replayTaken (rest : List (Nat × Nat)) (s : State) : Only [.acq] s (replayTaken rest s) := (only_mk_acq s s _).2 (.refl _ _)

section
variable {s : State} (free : writerFree s = true)
include free

theorem manifestNext_refused {r : Refusal1} {rest : List Refusal1} (h : s.acq.refused = r :: rest) :
    manifestNext s = putManifest (refusedManifest s.her.on r) (refusedTaken rest s) := by
  unfold manifestNext
  rw [if_neg (by simp [free]), h]
  rfl

theorem manifestNext_replay (none : s.acq.refused = []) {n c : Nat} {rest : List (Nat × Nat)} (h : s.acq.replay = (n, c) :: rest) :
    manifestNext s = putManifest (replayManifest s n c) (replayTaken rest s) := by
  unfold manifestNext
  rw [if_neg (by simp [free]), none, h]
  rfl

theorem manifestNext_entry (none : s.acq.refused = []) (noReplay : s.acq.replay = []) {e : Entry} {rest : List Entry}
    (h : s.acq.fifo = e :: rest) (done : entryDone e = true) : manifestNext s = putManifest (entryManifest e s.her.on) s := by
  unfold manifestNext
  rw [if_neg (by simp [free]), none, noReplay, h]
  exact if_pos done

theorem manifestNext_none (none : s.acq.refused = []) (noReplay : s.acq.replay = []) (h : s.acq.fifo = []) : manifestNext s = s := by
  unfold manifestNext
  rw [if_neg (by simp [free]), none, noReplay, h]

end

/-- Settles O41: the stores are looked at in their order; each manifest fits one cell, and only an entry's own frees an entry. -/
theorem manifestsLeaveInOrder : Obligations.ManifestsLeaveInOrder := by
  intro s hp run shaped free
  have acts {t : State} (next : manifestNext s = t) : exec .manifestWrite s = .next t :=
    congrArg _ ((coreOnly_eq manifestNext hp run).trans next)
  refine ⟨fun r rest waits whole => ?_, fun n c rest none waits whole => ?_,
    fun e rest none noReplay head done own whole => ?_, fun none noReplay empty => acts (manifestNext_none free none noReplay empty)⟩
  · obtain ⟨v, b, written, acq, only, regs, others, ready, bytes⟩ :=
      putManifest_whole (only_refusedTaken rest s) shaped.queues (cells_refusedManifest s.her.on r) whole
    have kept := acq_manifestIn_stays (.inl (accOf_refusedManifest s.her.on r)) v
    rw [← written, acq] at kept
    obtain ⟨refused, replay, fifo⟩ := kept
    exact ⟨_, b, acts (manifestNext_refused free waits), only, regs, refused, fifo, replay, others, ready, bytes⟩
  · obtain ⟨v, b, written, acq, only, regs, others, ready, bytes⟩ :=
      putManifest_whole (only_replayTaken rest s) shaped.queues (cells_replayManifest s n c) whole
    have kept := acq_manifestIn_stays (.inr (accOf_replayManifest s n c)) v
    rw [← written, acq] at kept
    obtain ⟨-, replay, fifo⟩ := kept
    exact ⟨_, b, acts (manifestNext_replay free none waits), only, regs, replay, fifo, others, ready, bytes⟩
  · obtain ⟨v, b, written, acq, only, regs, others, ready, bytes⟩ :=
      putManifest_whole (.refl _ s) shaped.queues (cells_entryManifest e s.her.on) whole
    have frees := fifo_manifestIn_frees (not_or.2 ⟨own, accOf_entryManifest e s.her.on⟩) v
    have seq : baleSeq (entryManifest e s.her.on) = e.seq % 2 ^ 24 := baleSeq_mkBale _ _ _ _ _ _ _
    rw [← written, acq, seq] at frees
    exact ⟨_, b, acts (manifestNext_entry free none noReplay head done), only, regs, frees, others, ready, bytes⟩

end Sys2Proof.Machine
end

section
/-! CK_CORE starts (R359, R428, R429): its pages are as after reset, and nothing that the first core cycle then settles moves the counter,
the PLL or a tally of a lane page. -/

namespace Sys2Proof.Machine

/-! ### The pages of CK_CORE (R359) -/

/-- The header of a page whose counts are gone. -/
def uncounted (x : PageSt) : PageSt := { x with tally := [], bumped := [], cause := 0, refused := false }

/-- The pages of the list read as without counts. -/
theorem tally_uncounted (l : List Nat) {p : Nat} {s : State} (keys : keysFrom 0 s.fab.pages = true)
    (gone : p ∈ l ∨ (pageSt s p).tally = []) : (pageSt (l.foldl (fun s p => modPage p uncounted s) s) p).tally = [] := by
  induction l generalizing s with
  | nil => exact gone.resolve_left List.not_mem_nil
  | cons q l ih =>
    refine ih (keys_modPage q uncounted s keys) ?_
    by_cases same : p = q
    · subst same
      rw [pageSt_modPage _ _ _ keys]
      exact .inr rfl
    · rw [pageSt_modPage_ne _ _ _ _ keys same]
      exact gone.imp_left fun mem => (List.mem_cons.1 mem).resolve_left same

/-- Every page of CK_CORE without its counts. -/
def pagesUncounted (s : State) : State := corePages.foldl (fun s p => modPage p uncounted s) s

/-- The lane pages' code errors are gone. -/
def codesUncounted (s : State) : State := modLn .b (fun l => { l with codeErr := 0 }) (modLn .a (fun l => { l with codeErr := 0 }) s)

theorem corePagesReset_eq (s : State) : corePagesReset s = codesUncounted (pagesUncounted s) := rfl

theorem codesUncounted_rest (s : State) : (codesUncounted s).fab = s.fab ∧ (codesUncounted s).lnA.codeErr = 0 ∧
    (codesUncounted s).lnB.codeErr = 0 := ⟨rfl, rfl, rfl⟩

theorem kept_pagesUncounted (s : State) : FabKept ∅ s (pagesUncounted s) := FabKept.foldl (fun v p => kept_modPage v p uncounted) corePages s

theorem lanePages_core : 0x48 ∈ corePages ∧ 0x49 ∈ corePages := by decide

theorem tallyOf_pagesUncounted {s : State} (canon : Canonical s) {p : Nat} (core : p ∈ corePages) (i : Nat) :
    tallyOf (pagesUncounted s) p i = 0 := by
  have gone : (pageSt (pagesUncounted s) p).tally = [] := tally_uncounted corePages canon.pages (.inl core)
  rw [tallyOf, gone]
  rfl

/-- The pages' reset leaves the words in force, and of a page of CK_CORE no count (R359, R429). -/
theorem corePagesReset_spec {s : State} (canon : Canonical s) : (corePagesReset s).fab.regs = s.fab.regs ∧
    (∀ p ∈ corePages, ∀ i, tallyOf (corePagesReset s) p i = 0) ∧
    (corePagesReset s).lnA.codeErr = 0 ∧ (corePagesReset s).lnB.codeErr = 0 := by
  obtain ⟨fab, codes⟩ := codesUncounted_rest (pagesUncounted s)
  rw [corePagesReset_eq, fab]
  exact ⟨(kept_pagesUncounted s).regs, fun p core i => (tallyOf_of_fab fab p i).trans (tallyOf_pagesUncounted canon core i), codes⟩

/-! ### The first core cycle (R429) -/

/-- CK_CORE runs on the forwarded clock of trunk `t`, before what follows from it is settled. -/
def coreBegun (t : Trunk) (s : State) : State :=
  { s with
    pw := { s.pw with coreRun := true, coreEver := true }
    pll := { s.pll with ref := t, lock := true, lockFrom := s.pw.elapsed }
    orb := { s.orb with orbit := regAt s 0x03 0x048, slot := 0, st := .idle }
    conv := mapIdxN (fun c k => { k with on := convEn s.fab.regs c, ready := false, slices := List.replicate 11 (seedOf s c) }) s.conv
    seams := s.seams.map (fun x => { x with startN := 2 * s.pw.elapsed, startSlot := 0, startOrb := regAt s 0x03 0x048 }) }

theorem coreBegun_rest (t : Trunk) (s : State) : (coreBegun t s).fab = s.fab ∧ (coreBegun t s).lnA = s.lnA ∧
    (coreBegun t s).lnB = s.lnB ∧ (coreBegun t s).pll.ref = t ∧ (coreBegun t s).pll.lock = true ∧
    (coreBegun t s).pw = { s.pw with coreRun := true, coreEver := true } ∧
    counterAt (coreBegun t s) = ⟨.idle, 0, regAt s 0x03 0x048⟩ := ⟨rfl, rfl, rfl, rfl, rfl, rfl, rfl⟩

/-- HOLD falls, and the trims, the corrections and the costs reach their blocks. -/
def coreLoaded (s : State) : State := recost (retag (loadCorr (loadTrims (setPhase false s.pll.uncomp s))))

/-- Effective values that waited take effect, comparators are judged, held notices enter the store, and trunks in LOCK go on. -/
def coreSettled (s : State) : State := coreFollows (releaseHeld (flintJudge (applyEffect s)))

theorem coreInit_eq (t : Trunk) (s : State) : coreInit t s = coreSettled (coreLoaded (coreBegun t (corePagesReset s))) := rfl

/-- Parts that settling the first core cycle leaves alone: time, converters and seams among them. -/
theorem only_coreSettled (s : State) :
    Only [.fab, .orb, .pll, .chan, .flint, .fout, .frm, .lnA, .lnB, .cal] s (coreSettled (coreLoaded s)) := by
  simp [coreSettled, coreLoaded]

theorem counterAt_coreSettled (s : State) : counterAt (coreSettled (coreLoaded s)) = counterAt s := by
  have follows (u : State) : counterAt (coreFollows (releaseHeld u)) = counterAt u := counterAt_of_only (by simp)
  have costs (u : State) : counterAt (recost u) = counterAt u := counterAt_of_only (by simp)
  have loads (u : State) : counterAt (loadCorr (loadTrims u)) = counterAt u := counterAt_of_only (by simp)
  unfold coreSettled coreLoaded
  rw [follows, counterAt_flintJudge, counterAt_applyEffect, costs, counterAt_retag, loads, counterAt_setPhase]

theorem pll_coreSettled (s : State) : (coreSettled (coreLoaded s)).pll.ref = s.pll.ref ∧
    (coreSettled (coreLoaded s)).pll.lock = s.pll.lock ∧ (coreSettled (coreLoaded s)).pll.hold = false := by
  have phase := forgetLevels_setPhase false s.pll.uncomp s
  have ref : (setPhase false s.pll.uncomp s).pll.ref = s.pll.ref := (congrArg Pll.ref phase :)
  have lock : (setPhase false s.pll.uncomp s).pll.lock = s.pll.lock := (congrArg Pll.lock phase :)
  have hold : (setPhase false s.pll.uncomp s).pll.hold = false := (congrArg Pll.hold phase :)
  have loads (u : State) : PllKept u (recost (retag (loadCorr (loadTrims u)))) := .of_only (by simp)
  have follows (u : State) : PllKept u (coreFollows (releaseHeld (flintJudge u))) := .of_only (by simp)
  have kept : PllKept (setPhase false s.pll.uncomp s) (coreSettled (coreLoaded s)) :=
    (loads _).trans ((pllKept_applyEffect _).trans (follows _))
  exact ⟨kept.ref.trans ref, kept.lock.trans lock, kept.hold.trans hold⟩

/-! ### Tallies of the lane pages -/

/-- Tallies off the pages `P` have not changed. -/
structure TalliesKept (P : List Nat) (s t : State) : Prop where
  keys    : keysFrom 0 s.fab.pages = true → keysFrom 0 t.fab.pages = true
  tallies : keysFrom 0 s.fab.pages = true → ∀ p i, p ∉ P → tallyOf t p i = tallyOf s p i

namespace TalliesKept

variable {P Q : List Nat} {s t u : State}

theorem of_told (h : Told P s t) (k : P ⊆ Q := by decide) : TalliesKept Q s t :=
  ⟨h.keys, fun a p i hp => h.tallies a p i fun mem => hp (k mem)⟩

theorem of_pages (h : t.fab.pages = s.fab.pages) : TalliesKept P s t :=
  ⟨fun a => by rw [h]; exact a, fun _ _ _ _ => tallyOf_congr h⟩

theorem trans (h : TalliesKept P s t) (k : TalliesKept P t u) : TalliesKept P s u :=
  ⟨fun a => k.keys (h.keys a), fun a p i hp => (k.tallies (h.keys a) p i hp).trans (h.tallies a p i hp)⟩

end TalliesKept

/-- The pages that count or post when the first core cycle settles: the calibration store, Serai, the framer and the notices. -/
def settlePages : List Nat := 0x70 :: serPages

theorem talliesKept_releaseHeld (s : State) : TalliesKept settlePages s (releaseHeld s) := by
  have bumps (k : Nat) (u : State) : Told [0x7C] u (Nat.iterate (bump 0x7C 0) k u) := by
    induction k generalizing u with
    | zero => exact .refl u
    | succ k ih => exact (told_bump u 0 (by decide)).trans (ih _)
  refine .of_told (P := [0x7C]) (Told.foldl (fun u p => ?_) assignedPages s)
  split
  · exact .refl u
  · exact (told_header u p _).trans ((bumps _ _).trans (told_storeNotice _ (by decide) p _))

theorem talliesKept_loaded (s : State) : TalliesKept settlePages s (loadCorr (loadTrims s)) := .of_pages rfl

theorem talliesKept_applyEffect (s : State) : TalliesKept settlePages s (applyEffect s) := by
  have refused (c d : Nat) (u : State) : TalliesKept settlePages u (count 0x70 1 (refuse 0x70 c d u)) :=
    .of_told (P := [0x70, 0x7C]) ((told_refuse u (by decide) 0x70 c d).trans (told_count _ (by decide) 1 (by decide)))
  have uncomp (u : State) : TalliesKept settlePages u (setUncomp u) := .of_pages (congrArg Fabric.pages (fab_of_only (by simp)))
  unfold applyEffect
  split
  · exact .of_pages rfl
  · dsimp only
    split_ifs
    · refine TalliesKept.trans ?_ (refused _ _ _)
      exact .of_pages rfl
    · refine TalliesKept.trans ?_ (refused _ _ _)
      exact .of_pages rfl
    · refine TalliesKept.trans ?_ (talliesKept_loaded _)
      exact .of_pages rfl
    · refine TalliesKept.trans ?_ ((talliesKept_loaded _).trans (uncomp _))
      exact .of_pages rfl

theorem talliesKept_coreSettled (s : State) : TalliesKept settlePages s (coreSettled (coreLoaded s)) := by
  have phase : TalliesKept settlePages s (setPhase false s.pll.uncomp s) := .of_pages (congrArg Fabric.pages (fab_of_only (by simp)))
  have tagged (u : State) : TalliesKept settlePages u (retag u) := .of_pages rfl
  have costs (u : State) : TalliesKept settlePages u (recost u) := by
    refine TalliesKept.trans ?_ (.of_told (told_unfitSync _))
    exact .of_pages rfl
  have judged (u : State) : TalliesKept settlePages u (flintJudge u) := .of_pages (congrArg Fabric.pages (fab_of_only (by simp)))
  have follows (u : State) : TalliesKept settlePages u (coreFollows u) := .of_pages (congrArg Fabric.pages (fab_of_only (by simp)))
  have loaded : TalliesKept settlePages s (coreLoaded s) := phase.trans ((talliesKept_loaded _).trans ((tagged _).trans (costs _)))
  exact loaded.trans ((talliesKept_applyEffect _).trans ((judged _).trans ((talliesKept_releaseHeld _).trans (follows _))))

/-! ### Code errors of the lanes -/

theorem codeErr_deskewJudge (t : Trunk) (s : State) :
    (deskewJudge t s).lnA.codeErr = s.lnA.codeErr ∧ (deskewJudge t s).lnB.codeErr = s.lnB.codeErr := by
  unfold deskewJudge
  dsimp only
  split
  · cases t <;> exact ⟨rfl, rfl⟩
  · exact ⟨rfl, rfl⟩

theorem codeErr_coreFollows (s : State) : (coreFollows s).lnA.codeErr = s.lnA.codeErr ∧ (coreFollows s).lnB.codeErr = s.lnB.codeErr := by
  obtain ⟨firstA, firstB⟩ := codeErr_deskewJudge .a s
  obtain ⟨secondA, secondB⟩ := codeErr_deskewJudge .b (deskewJudge .a s)
  exact ⟨secondA.trans firstA, secondB.trans firstB⟩

theorem codeErr_coreSettled (s : State) :
    (coreSettled (coreLoaded s)).lnA.codeErr = s.lnA.codeErr ∧ (coreSettled (coreLoaded s)).lnB.codeErr = s.lnB.codeErr := by
  have before : Only [.fab, .orb, .pll, .chan, .flint, .fout, .frm, .cal] s (releaseHeld (flintJudge (applyEffect (coreLoaded s)))) := by
    simp [coreLoaded]
  rw [coreSettled]
  generalize releaseHeld (flintJudge (applyEffect (coreLoaded s))) = v at before ⊢
  have follows := codeErr_coreFollows v
  rwa [before.lnA (by decide), before.lnB (by decide)] at follows

/-! ### CORE_PLL_FIRST_LOCK (R428) -/

theorem lockRef_good {s : State} (good : fwdOk s s.pll.start = true ∨ fwdOk s (peer s.pll.start) = true) :
    lockRef s = some (if fwdOk s s.pll.start then s.pll.start else peer s.pll.start) := by
  unfold lockRef
  rcases good with start | other
  · rw [if_pos start, if_pos start]
  · rw [if_pos other]
    split <;> rfl

theorem coreFirstLock_due {s : State} (never : s.pw.coreEver = false) (stage : 4 ≤ s.pw.stage) (vdda : s.pw.vdda = true) {t : Trunk}
    (found : lockRef s = some t) : coreFirstLock s = coreSettled (coreLoaded (coreBegun t (corePagesReset s))) := by
  unfold coreFirstLock
  rw [if_neg (by simp [never, vdda, stage]), found]
  exact coreInit_eq t s

/-- Converters and seams as CK_CORE's start leaves them. -/
theorem units_coreBegun (t : Trunk) (s : State) :
    (∀ c, c < s.conv.length → (getConv (coreBegun t s) c).on = convEn s.fab.regs c ∧ (getConv (coreBegun t s) c).ready = false) ∧
    ∀ i, i < s.seams.length → (getSeam (coreBegun t s) i).startN = 2 * s.pw.elapsed := by
  refine ⟨fun c inRange => ?_, fun i inRange => ?_⟩
  · unfold getConv coreBegun
    rw [getD_mapIdxN _ _ _ inRange]
    exact ⟨rfl, rfl⟩
  · simp [getSeam, coreBegun, List.getD, inRange]

/-- Settles O12: the pages' reset comes first, and what the first core cycle settles leaves the state of R429 as it was begun. -/
theorem firstLockOfTheCorePll : Obligations.FirstLockOfTheCorePll := by
  intro s hp never stage vdda canon good
  have locks := coreFirstLock_due never stage vdda (lockRef_good good)
  have acts : exec .corePllFirstLock s = .next (coreFirstLock s) := congrArg _ (running_eq coreFirstLock hp)
  refine ⟨_, acts, by simp, ?_⟩
  rw [locks]
  generalize (if fwdOk s s.pll.start then s.pll.start else peer s.pll.start) = t
  have reset : Only [.fab, .lnA, .lnB] s (corePagesReset s) := by simp
  obtain ⟨regs, tallies, codeA, codeB⟩ := corePagesReset_spec canon
  have keys := (canon_corePagesReset s canon).pages
  generalize corePagesReset s = v at reset regs tallies codeA codeB keys
  obtain ⟨convs, seams⟩ := units_coreBegun t v
  have settled := only_coreSettled (coreBegun t v)
  have counter := counterAt_coreSettled (coreBegun t v)
  obtain ⟨ref, lock, hold⟩ := pll_coreSettled (coreBegun t v)
  have tally := (talliesKept_coreSettled (coreBegun t v)).tallies
  obtain ⟨errA, errB⟩ := codeErr_coreSettled (coreBegun t v)
  generalize coreSettled (coreLoaded (coreBegun t v)) = u at *
  have pw := settled.pw (by decide)
  have conv (c : Nat) : getConv u c = getConv (coreBegun t v) c := by unfold getConv; rw [settled.conv (by decide)]
  have seam (i : Nat) : getSeam u i = getSeam (coreBegun t v) i := by unfold getSeam; rw [settled.seams (by decide)]
  obtain ⟨fab, lnA, lnB, begunRef, begunLock, begunPw, begun⟩ := coreBegun_rest t v
  have orbit : regAt v 0x03 0x048 = regAt s 0x03 0x048 := by unfold regAt; rw [regs]
  rw [begun, orbit] at counter
  rw [fab] at tally
  refine ⟨?_, ref.trans begunRef, lock.trans begunLock, hold, congrArg Counter.st counter, congrArg Counter.slot counter,
    congrArg Counter.orbit counter, fun c units => ?_, fun i units => ?_, fun i => ⟨?_, ?_⟩, ?_, ?_⟩
  · rw [pw, begunPw, reset.pw (by decide)]
  · rw [conv, ← regs]
    exact convs c (by rw [reset.conv (by decide), units]; exact c.isLt)
  · rw [seam, seams i (by rw [reset.seams (by decide), units]; exact i.isLt), reset.pw (by decide)]
  · rw [tally keys 0x48 i (by decide), tallyOf_of_fab fab]
    exact tallies 0x48 lanePages_core.1 i
  · rw [tally keys 0x49 i (by decide), tallyOf_of_fab fab]
    exact tallies 0x49 lanePages_core.2 i
  · rw [errA, lnA, codeA]
  · rw [errB, lnB, codeB]

end Sys2Proof.Machine
end

section
/-! The pages of the compressors (R165, R168, R176–R178): flushes of the block in progress, and the decoder test port. -/

namespace Sys2Proof.Machine

/-! ### Accesses to a compressor's page -/

/-- CMP_CMD, TP_CTL and TP_IN are plain words of pages outside CK_SUP. -/
theorem cmpWord_plain : ∀ (i : Fin 6), ∀ o ∈ [0x044, 0x080, 0x090], isSup (0x34 + i.val) = false ∧ o < 0x1000 ∧ o % 4 = 0 ∧
    isGuarded (0x34 + i.val) o = false ∧ ¬ (0x800 ≤ o ∧ isGuarded (0x34 + i.val) (o - 0x800) = true) ∧
    (regForm (0x34 + i.val) o).isSome = true := by decide

theorem writeRefusal_cmp (s : State) (i : Fin 6) {o : Nat} (ho : o ∈ [0x044, 0x080, 0x090]) (v : Nat) :
    writeRefusal s (0x34 + i.val) o v = none := by
  have word : o = 0x044 ∨ o = 0x080 ∨ o = 0x090 := by simpa using ho
  fin_cases i <;> rcases word with rfl | rfl | rfl <;> rfl

section
variable {s : State} {m : Master} {i : Fin 6}

theorem rowWrite_cmp (serves : Serves s m (0x34 + i.val)) {o : Nat} (ho : o ∈ [0x044, 0x080, 0x090]) (v : Nat) :
    rowWrite m (addrOf (0x34 + i.val) o) v s = writeEffect m (0x34 + i.val) o v (beginAccess m s) := by
  obtain ⟨core, inPage, aligned, unguarded, value, listed⟩ := cmpWord_plain i o ho
  exact rowWrite_core serves core inPage aligned unguarded value listed (writeRefusal_cmp s i ho v)

/-- Without the FLUSH bit a write of CMP_CMD has no effect. -/
theorem writeEffect_noFlush : writeEffect m (0x34 + i.val) 0x044 0 s = s := by fin_cases i <;> rfl

/-- TP_CTL as stored, with CMP_EN as given. -/
def tpCtl (old : Nat) (cmpEn : Bool) : Nat := (old - (old &&& 2)) ||| ((1 + 2 * b2n cmpEn) &&& 2)

theorem writeEffect_tpStart (cmpEn : Bool) : writeEffect m (0x34 + i.val) 0x080 (1 + 2 * b2n cmpEn) s =
    tpStartJob i.val (setReg (0x34 + i.val) 0x080 (tpCtl (regAt s (0x34 + i.val) 0x080) cmpEn) s) := by
  fin_cases i <;> cases cmpEn <;> rfl

theorem writeEffect_tpIn (w : Word) : writeEffect m (0x34 + i.val) 0x090 w.toNat s = tpIn i.val w s := by
  have effect : writeEffect m (0x34 + i.val) 0x090 w.toNat s = tpIn i.val (BitVec.ofNat 32 w.toNat) s := by fin_cases i <;> rfl
  rw [effect, BitVec.ofNat_toNat, BitVec.setWidth_eq]

theorem servedRead_tpOut : servedRead m (0x34 + i.val) 0x0AC s = tpOut i.val s := by fin_cases i <;> rfl

theorem fabRead_tpOut (serves : Serves s m (0x34 + i.val)) :
    fabRead m (addrOf (0x34 + i.val) 0x0AC) s = setRdata m (tpOut i.val (beginAccess m s)) := by
  have page : addrOf (0x34 + i.val) 0x0AC / 0x1000 = 0x34 + i.val := addr_page _ _ (by decide)
  have off : addrOf (0x34 + i.val) 0x0AC % 0x1000 = 0x0AC := addr_off _ _ (by decide)
  rw [fabRead_serves (by rwa [page]) (by rw [off]), page, off, servedRead_tpOut]

end

theorem fld_bit (v k : Nat) : fld v k 1 = b2n (v.testBit k) := by
  unfold fld b2n
  rw [Nat.testBit_eq_decide_div_mod_eq, Nat.shiftRight_eq_div_pow, pow_one]
  simp only [decide_eq_true_eq]
  split <;> omega

/-- CMP_EN reads back as it is written, whatever TP_CTL held. -/
theorem fld_tpCtl (old : Nat) (cmpEn : Bool) : fld (tpCtl old cmpEn % 2 ^ 32) 1 1 = b2n cmpEn := by
  have cleared : (old - (old &&& 2)).testBit 1 = false := by
    have masked : old &&& 2 = (old.testBit 1).toNat * 2 := Nat.and_two_pow old 1
    rw [masked, Nat.toNat_testBit, Nat.testBit_eq_decide_div_mod_eq, decide_eq_false_iff_not]
    omega
  rw [fld_bit, Nat.testBit_mod_two_pow]
  unfold tpCtl
  rw [Nat.testBit_or, cleared]
  cases cmpEn <;> rfl

/-! ### The commands -/

section
variable {s : State} (hp : s.pw.por = false) {m : Master} {i : Fin 6}
include hp

theorem exec_tpJobDone (run : s.pw.coreRun = true) : exec (.tpJobDone i) s = .next (tpDone i.val s) :=
  congrArg _ (coreOnly_eq _ hp run)

variable (serves : Serves s m (0x34 + i.val))
include serves

theorem exec_tpStart (cmpEn : Bool) : exec (.tpStart m i cmpEn) s = .next (tpStartJob i.val
    (setReg (0x34 + i.val) 0x080 (tpCtl (regAt s (0x34 + i.val) 0x080) cmpEn) (beginAccess m s))) :=
  congrArg _ ((running_eq _ hp).trans ((rowWrite_cmp serves (by decide) _).trans (writeEffect_tpStart cmpEn)))

theorem exec_tpInWrite (w : Word) : exec (.tpInWrite m i w) s = .next (tpIn i.val w (beginAccess m s)) :=
  congrArg _ ((running_eq _ hp).trans ((rowWrite_cmp serves (by decide) _).trans (writeEffect_tpIn w)))

theorem exec_tpOutRead : exec (.tpOutRead m i) s = .next (setRdata m (tpOut i.val (beginAccess m s))) :=
  congrArg _ ((running_eq _ hp).trans (fabRead_tpOut serves))

/-- A served write of FLUSH is refused by nothing, so the flush acts on a state that differs in the master's record (R168). -/
theorem exec_cmpFlush (four : s.fab.masters.length = 4) (taken : Nat) :
    exec (.cmpFlush m i taken) s = .next (flushBale i.val taken (beginAccess m s)) := by
  have written : rowWrite m (addrOf (0x34 + i.val) 0x044) 0 s = beginAccess m s :=
    (rowWrite_cmp serves (by decide) 0).trans writeEffect_noFlush
  have flush : flushCmd m i.val taken s = flushBale i.val taken (beginAccess m s) := by
    have cause : (getMaster (beginAccess m s) m).cause = 0 := by rw [getMaster_beginAccess four]
    unfold flushCmd
    simp only [written, cause, serves.runs, decide_true, Bool.and_self, if_true]
  exact congrArg _ ((running_eq _ hp).trans flush)

end

/-! ### Flushes (R165, R168, R171) -/

/-- The count at which a flush ends the block in progress lies between its bounds, and the presented words stand under it unless it is
the least. -/
theorem takenAt_spec (e : Entry) (i : Nat) (j : Job) (taken : Nat) :
    takenLow e i j ≤ takenAt e i j taken ∧ takenAt e i j taken ≤ takenHigh e i j ∧
      (takenAt e i j taken = takenLow e i j ∨ flushFits e i j (takenAt e i j taken) = true) := by
  have bounds : takenLow e i j ≤ takenHigh e i j := le_max_left _ _
  unfold takenAt
  dsimp only
  cases found : List.find? (flushFits e i j) _ with
  | none => exact ⟨le_refl _, bounds, .inl rfl⟩
  | some n =>
    obtain ⟨k, below, at_k⟩ := List.mem_map.1 (List.mem_of_find?_eq_some found)
    have := List.mem_range.1 below
    have := le_max_left (takenLow e i j) (min taken (takenHigh e i j))
    exact ⟨by simp only [Option.getD_some]; omega, by simp only [Option.getD_some]; omega, .inr (List.find?_some found)⟩

/-- The engine's raw bale in progress is the first of its seam's raw jobs. -/
theorem raw_of_engineBale {s : State} {i : Nat} {e : Entry} {j : Job} {l : List Byte} (bale : engineBale s i .raw = some (e, j, l)) :
    ∃ rest, (getSeam s i).raw = j :: rest := by
  unfold engineBale at bale
  dsimp only at bale
  split at bale
  · next job rest window windows _ jobs _ =>
    obtain ⟨entry, -, same⟩ := Option.map_eq_some_iff.1 bale
    cases same
    exact ⟨rest, jobs⟩
  · cases bale

section
variable {s : State} {i taken : Nat}

theorem flushBale_none (none : engineBale s i .raw = none) : flushBale i taken s = s := by
  unfold flushBale
  rw [none]

variable {e : Entry} {j : Job} {l : List Byte} (bale : engineBale s i .raw = some (e, j, l))
include bale

/-- A fallback holds no block to end, nor does an image that has been taken whole. -/
theorem flushBale_over (done : j.fallback = true ∨ j.image.length ≤ takenAt e i j taken) : flushBale i taken s = s := by
  unfold flushBale
  rw [bale]
  exact if_pos (by simpa using done)

/-- With image bytes left the block in progress ends at the count, which changes the bale in progress and none behind it. -/
theorem flushBale_cuts (hi : i < s.seams.length) (coded : j.fallback = false) (left : takenAt e i j taken < j.image.length) :
    (getSeam (flushBale i taken s) i).raw = flushJob e i j (takenAt e i j taken) :: (getSeam s i).raw.tail ∧
      (getSeam (flushBale i taken s) i).flushing = flushAtEnd e i j (takenAt e i j taken) := by
  obtain ⟨rest, jobs⟩ := raw_of_engineBale bale
  have acts : ¬ (j.fallback || decide (j.image.length ≤ takenAt e i j taken)) = true := by simp [coded, left]
  unfold flushBale
  rw [bale]
  dsimp only
  rw [if_neg acts, getSeam_modSeam _ _ _ hi]
  exact ⟨by rw [jobs]; rfl, rfl⟩

end

theorem flushBale_others (i taken : Nat) (s : State) {k : Nat} (hk : k ≠ i) : getSeam (flushBale i taken s) k = getSeam s k := by
  unfold flushBale
  split
  · rfl
  · dsimp only
    split
    · rfl
    · exact getSeam_modSeam_ne _ _ _ _ hk.symm

/-! ### The test port (R176, R178) -/

section
variable {s : State} {i : Nat} (hi : i < s.seams.length)
include hi

theorem getSeam_tpStartJob : getSeam (tpStartJob i s) i = if (getSeam s i).tp.running then getSeam s i else
    { getSeam s i with tp := { (getSeam s i).tp with running := true, done := false, aborted := false, err := 0, ptr := 0 } } :=
  getSeam_modSeam _ _ _ hi

theorem getSeam_tpIn (w : Word) (idle : (getSeam s i).tp.running = false) : getSeam (tpIn i w s) i =
    { getSeam s i with tp := { (getSeam s i).tp with
      inp := ramPutBytes 0 (getSeam s i).tp.inp (getSeam s i).tp.ptr (leBytes 4 w.toNat), ptr := ((getSeam s i).tp.ptr + 4) % 8192,
      stepI := some s.pw.cc } } :=
  (getSeam_modSeam _ _ _ hi).trans (if_neg (by simp [idle]))

theorem getSeam_tpOut : getSeam (tpOut i s).2 i =
    { getSeam s i with tp := { (getSeam s i).tp with outPtr := ((getSeam s i).tp.outPtr + 4) % 4096, stepO := some s.pw.cc } } :=
  getSeam_modSeam _ _ _ hi

end

theorem tpDone_due {s : State} {i : Nat} (runs : (getSeam s i).tp.running = true) (free : (getSeam s i).started = false) :
    tpDone i s = modSeam i (fun x => { x with tp := tpShow (tpResult i s).out (tpResult i s).err (tpResult i s).pos x.tp }) s := by
  unfold tpDone
  simp [runs, free]

/-- Settles O36: each served access acts on a state that differs in the master's record alone; the flush is judged at `takenAt`, and the
port's commands step their own seam. -/
theorem flushesAndTheTestPort : Obligations.FlushesAndTheTestPort := by
  intro s i hp shaped canon
  have inRange : i.val < s.seams.length := by rw [shaped.seams]; exact i.isLt
  refine ⟨fun m serves => ?_, fun run runs free r hr => ?_⟩
  · refine ⟨fun taken => ?_, fun cmpEn => ?_, fun w idle => ?_, ?_⟩
    · have same : engineBale (beginAccess m s) i .raw = engineBale s i .raw := rfl
      have flushed : Only [.seams] (beginAccess m s) (flushBale i taken (beginAccess m s)) := by simp
      refine ⟨_, exec_cmpFlush hp serves shaped.masters taken, by simp, ?_, fun k hk => flushBale_others _ _ _ hk, fun idle => ?_,
        fun e j l n bale hn => ?_⟩
      · rw [flushed.fab]
        rfl
      · rw [flushBale_none (same.trans idle)]
        rfl
      · subst hn
        obtain ⟨low, high, fits⟩ := takenAt_spec e i j taken
        refine ⟨low, high, fits, fun done => ?_, fun coded left => ?_⟩
        · rw [flushBale_over (same.trans bale) done]
          rfl
        · exact flushBale_cuts (same.trans bale) inRange coded left
    · refine ⟨_, exec_tpStart hp serves cmpEn, by simp, ?_, fun k hk => getSeam_modSeam_ne _ _ _ _ hk.symm, getSeam_tpStartJob inRange⟩
      have word := regAt_setReg (0x34 + i.val) 0x080 (tpCtl (regAt s (0x34 + i.val) 0x080) cmpEn) (beginAccess m s) canon.regs
      exact (congrArg (fld · 1 1) word).trans (fld_tpCtl _ cmpEn)
    · exact ⟨_, exec_tpInWrite hp serves w, by simp, rfl, fun k hk => getSeam_modSeam_ne _ _ _ _ hk.symm, getSeam_tpIn inRange w idle⟩
    · have four : (tpOut i.val (beginAccess m s)).2.fab.masters.length = 4 := (noted_beginAccess m s).four.trans shaped.masters
      refine ⟨_, exec_tpOutRead hp serves, by simp [setRdata], rfl, ?_, fun k hk => getSeam_modSeam_ne _ _ _ _ hk.symm,
        getSeam_tpOut inRange⟩
      exact congrArg MasterSt.rdata (getMaster_setRdata four m _)
  · subst hr
    rw [exec_tpJobDone hp run, tpDone_due runs free]
    rfl

end Sys2Proof.Machine
end

section
/-! The END word of the heritage formatter on Q26 (R188, R409): a state in which its bale is shorter than a header. -/

namespace Sys2Proof.Machine

/-- Q26 holds sixteen bytes of a bale in progress, and the formatter that writes it has no bale to take them from. -/
def emptyFormatter : State :=
  { State.reset with
    pw := { State.reset.pw with por := false, coreRun := true }
    ser := { State.reset.ser with
      qs := State.reset.ser.qs.set 26 { cur := some { id := 0, seq := 0, typ := 0, bytes := List.replicate 16 0 } } }
    her := { fmt := true } }

theorem shaped_emptyFormatter : Shaped emptyFormatter where
  conv := List.length_replicate
  chan := List.length_replicate
  flint := List.length_replicate
  fout := rfl
  seams := rfl
  queues := rfl
  masters := rfl

/-- The four header words replace sixteen bytes, whether or not the formatter's bale has as many; the END word adds four. -/
theorem closed_emptyFormatter : (getQ (coreOnly (serEnd 26 0 0) emptyFormatter) 26).ready.map (·.bytes.length) = [20] := by
  decide +kernel

/-- What O35 gives the same bale: none of the header bytes, as the formatter has none, and the END word's four. -/
theorem length_stated_emptyFormatter : (finalBytes emptyFormatter.her.bale (progBytes emptyFormatter 26) ++
    (leBytes 4 (wordAt emptyFormatter.her.bale emptyFormatter.her.sent)).take
      (endBytes ((emptyFormatter.her.bale.length - emptyFormatter.her.sent) % 4))).length = 4 := by
  decide +kernel

/-- Refutes O35: the clause on Q26's END word fails while the formatter's bale is shorter than a header. The four header words then
still replace sixteen bytes, the missing ones by 0, and `finalBytes` gives only as many as the bale has. The statement speaks of every
state with a busy formatter; HERITAGE_FORMAT_START itself formats no bale so short. -/
theorem not_enginesWriteTheirOwnWords : ¬ Obligations.EnginesWriteTheirOwnWords := by
  intro holds
  obtain ⟨formatter, -⟩ := holds
  obtain ⟨writes, -⟩ := formatter emptyFormatter rfl rfl shaped_emptyFormatter
  obtain ⟨-, ends⟩ := (writes rfl).1 rfl
  obtain ⟨t, b, acts, -, -, -, -, ready, bytes, -⟩ := ends 0 0 (by decide) (by decide +kernel) rfl
  obtain rfl : coreOnly (serEnd 26 0 0) emptyFormatter = t := Host.Outcome.next.inj acts
  have closed := closed_emptyFormatter
  have alone : (getQ emptyFormatter 26).ready = [] := rfl
  have four := length_stated_emptyFormatter
  rw [← bytes] at four
  rw [ready, alone, List.nil_append, List.map_singleton, four] at closed
  exact absurd closed (by decide)

end Sys2Proof.Machine
end

section
/-! One queue after an operation of Serai (R184, R187–R190): its new contents, beside which only live causes, page headers and notices
change. -/

namespace Sys2Proof.Machine

/-- A queue without its live causes WM_HIGH and AT_QUOTA. -/
def bared (x : Queue) : Queue := { x with wmHigh := false, atQuota := false }

/-- Whatever does not read the live causes is the same in two queues that differ in them only. -/
theorem field_of_bared {x y : Queue} (h : bared x = bared y) {α : Type} (f : Queue → α)
    (hf : ∀ x, f (bared x) = f x := by exact fun _ => rfl) : f x = f y := (hf x).symm.trans ((congrArg f h).trans (hf y))

/-- Queue `q` holds `y` but for its live causes, and beside it no queue and no word in force has changed. -/
structure AtQueue (q : Nat) (y : Queue) (s t : State) : Prop where
  only   : OnlyAndUnfit [.fab, .ser] s t
  regs   : t.fab.regs = s.fab.regs
  others : OtherQueues s t q
  bare   : bareQ t q = bared y

namespace AtQueue

variable {q : Nat} {y : Queue} {s t u : State}

theorem field (h : AtQueue q y s t) {α : Type} (f : Queue → α) (hf : ∀ x, f (bared x) = f x := by exact fun _ => rfl) :
    f (getQ t q) = f y := field_of_bared h.bare f hf

theorem of_queues (only : OnlyAndUnfit [.fab, .ser] s t) (regs : t.fab.regs = s.fab.regs) (queues : t.ser.qs = s.ser.qs) :
    AtQueue q (getQ s q) s t := ⟨only, regs, fun k _ => bareQ_congr queues k, bareQ_congr queues q⟩

theorem of_fab (h : Only [.fab] s t) (regs : t.fab.regs = s.fab.regs) : AtQueue q (getQ s q) s t :=
  of_queues (.of_only h.mono) regs (congrArg Serai.qs h.ser)

theorem trans {x : Queue} (h : AtQueue q x s t) (k : AtQueue q y t u) : AtQueue q y s u :=
  ⟨h.only.trans k.only, k.regs.trans h.regs, fun j hj => (k.others j hj).trans (h.others j hj), k.bare⟩

/-- What leaves every queue leaves the contents. -/
theorem beside (h : AtQueue q y s t) (k : AtQueue q (getQ t q) t u) : AtQueue q y s u := { h.trans k with bare := k.bare.trans h.bare }

/-- A tally or a notice leaves the contents. -/
theorem told {P : List Nat} (h : AtQueue q y s t) (k : Told P t u) (only : Only [.fab] t u) : AtQueue q y s u :=
  h.beside (of_fab only k.regs)

/-- The live causes follow. -/
theorem sync (h : AtQueue q y s t) : AtQueue q y s (seraiSync t) where
  only := h.only.trans (unfit_seraiSync t)
  regs := (told_seraiSync t).regs.trans h.regs
  others k hk := (bareQ_seraiSync k t).trans (h.others k hk)
  bare := (bareQ_seraiSync q t).trans h.bare

theorem of_withQ (hq : q < s.ser.qs.length) (ids : Nat) : AtQueue q y s (withQ q y ids s) where
  only := .of_only (only_withQ y ids).mono
  regs := rfl
  others := otherQueues_withQ y ids
  bare := congrArg bared (getQ_withQ hq y ids)

theorem of_modQ (hq : q < s.ser.qs.length) (f : Queue → Queue) : AtQueue q (f (getQ s q)) s (modQ q f s) := by
  rw [modQ_eq_withQ hq]
  exact of_withQ hq _

/-- A change that neither reads nor writes the live causes. -/
theorem modQ (hq : q < t.ser.qs.length) (h : AtQueue q y s t) (f : Queue → Queue)
    (hf : ∀ x, bared (f x) = bared (f (bared x)) := by exact fun _ => rfl) : AtQueue q (f y) s (modQ q f t) :=
  have then_ : AtQueue q (f (getQ t q)) t (Machine.modQ q f t) := of_modQ hq f
  have same : bared (f (getQ t q)) = bared (f y) := (hf _).trans ((congrArg (fun x => bared (f x)) h.bare).trans (hf y).symm)
  { h.trans then_ with bare := then_.bare.trans same }

end AtQueue

/-! ### Words of a bale -/

/-- The bale in progress of a queue, or the one that a first word starts, with `l` added. -/
def grownBale (ids : Nat) (l : List Byte) (x : Queue) : Bale :=
  { x.cur.getD { id := ids, seq := 0, typ := 0, bytes := [] } with bytes := curBytesOf x ++ l }

/-- A queue whose bale in progress has taken `l`. -/
def grown (ids : Nat) (l : List Byte) (x : Queue) : Queue :=
  { x with cur := some (grownBale ids l x), held := none, curSent := if x.cur.isSome then x.curSent else 0 }

/-- A queue that holds a word which was not admitted. -/
def holding (w : Word) (fin : Option Nat) (x : Queue) : Queue := { x with held := some ⟨w, fin⟩ }

/-- A queue whose bale in progress has closed. -/
def closing (x : Queue) : Queue :=
  match x.cur with
  | none => x
  | some b =>
    if x.discard then { x with cur := none, curSent := 0, ctUnder := false, discard := false, total := (x.total + 1) % 2 ^ 32 }
    else
      { x with ready := x.ready ++ [{ b with seq := baleSeq b.bytes, typ := baleTyp b.bytes }], cur := none,
               sent := if x.ready.isEmpty then x.curSent else x.sent, curSent := 0, ctUnder := x.ctUnder && !x.ready.isEmpty,
               total := (x.total + 1) % 2 ^ 32 }

/-- A queue whose bale in progress is cancelled (R189). -/
def cancelled (x : Queue) : Queue :=
  { x with
    cur := none, held := none, curSent := 0, ctUnder := x.ctUnder && !x.ready.isEmpty, released := x.released && !x.ready.isEmpty,
    late := x.late && !x.ready.isEmpty, abort := x.abort || (!x.discard && decide (0 < x.curSent)), discard := false,
    waiting := (match x.waiting with | b :: t => if b.ord = 0 then x.waiting else t | [] => []) }

theorem closeBale_eq (q : Nat) (s : State) : closeBale q s = modQ q closing s := rfl

theorem closing_bared (x : Queue) : bared (closing x) = bared (closing (bared x)) := by
  unfold closing
  cases hc : x.cur with
  | none => simp [bared, hc]
  | some b => cases hd : x.discard <;> simp [bared, hc, hd]

theorem closing_grown (ids : Nat) (l : List Byte) {x : Queue} (keep : x.discard = false) : closing (grown ids l x) =
    { grown ids l x with
      ready := x.ready ++ [{ grownBale ids l x with seq := baleSeq (curBytesOf x ++ l), typ := baleTyp (curBytesOf x ++ l) }],
      cur := none, sent := if x.ready.isEmpty then (grown ids l x).curSent else x.sent, curSent := 0,
      ctUnder := x.ctUnder && !x.ready.isEmpty, total := (x.total + 1) % 2 ^ 32 } := by
  unfold closing
  simp [grown, keep, grownBale]

section
variable {s : State} {q : Nat} (hq : q < s.ser.qs.length)
include hq

theorem putBytes_eq (l : List Byte) : ∃ ids, putBytes q l s = withQ q (grown s.ser.ids l (getQ s q)) ids s := by
  unfold putBytes
  cases hc : (getQ s q).cur with
  | some b => exact ⟨s.ser.ids, (modQ_eq_withQ hq _).trans (by simp [grown, grownBale, curBytesOf, hc])⟩
  | none =>
    refine ⟨s.ser.ids + 1, ?_⟩
    simp only [modQ_eq_withQ hq]
    simp [withQ, grown, grownBale, curBytesOf, hc]

theorem at_putBytes (l : List Byte) : AtQueue q (grown s.ser.ids l (getQ s q)) s (putBytes q l s) := by
  obtain ⟨ids, put⟩ := putBytes_eq hq l
  rw [put]
  exact .of_withQ hq ids

theorem at_closeBale_putBytes (l : List Byte) : AtQueue q (closing (grown s.ser.ids l (getQ s q))) s (closeBale q (putBytes q l s)) := by
  obtain ⟨ids, put⟩ := putBytes_eq hq l
  rw [closeBale_eq, put]
  exact AtQueue.modQ (by simpa [withQ] using hq) (.of_withQ hq ids) closing closing_bared

section
variable (free : (getQ s q).held = none)
include free

theorem at_wrData (ok : wordOk s q = true) (w : Word) : AtQueue q (grown s.ser.ids (leBytes 4 w.toNat) (getQ s q)) s (wrData q w s) := by
  simp only [wrData, free, ok, Option.isSome_none, Bool.false_eq_true, if_false, if_true]
  exact (at_putBytes hq _).sync

theorem at_wrData_held (held : wordOk s q = false) (w : Word) : AtQueue q (holding w none (getQ s q)) s (wrData q w s) := by
  simp only [wrData, free, held, Option.isSome_none, Bool.false_eq_true, if_false]
  exact (AtQueue.of_modQ hq (holding w none)).sync

theorem at_wrEnd (ok : wordOk s q = true) (w : Word) (v : Nat) :
    AtQueue q (closing (grown s.ser.ids ((leBytes 4 w.toNat).take (endBytes v)) (getQ s q))) s (wrEnd q w v s) := by
  simp only [wrEnd, free, ok, Option.isSome_none, Bool.false_eq_true, if_false, if_true]
  exact (at_closeBale_putBytes hq _).sync

theorem at_wrEnd_held (held : wordOk s q = false) (w : Word) (v : Nat) :
    AtQueue q (holding w (some v) (getQ s q)) s (wrEnd q w v s) := by
  simp only [wrEnd, free, held, Option.isSome_none, Bool.false_eq_true, if_false]
  exact (AtQueue.of_modQ hq (holding w (some v))).sync

end

theorem at_cancelBale (some : (getQ s q).cur.isSome = true) : AtQueue q (cancelled (getQ s q)) s (cancelBale q s) := by
  obtain ⟨c, hc⟩ := Option.isSome_iff_exists.1 some
  unfold cancelBale
  rw [hc]
  exact ((AtQueue.of_modQ hq cancelled).told (told_count (P := serPages) _ (by decide) 3 (by decide)) (by simp)).sync

end

/-- Without a bale in progress CANCEL has no effect (R189). -/
theorem cancelBale_none {s : State} {q : Nat} (none : (getQ s q).cur = none) : cancelBale q s = s := by
  unfold cancelBale
  rw [none]

/-- A header word replaces its four bytes in the queue's bale in progress (R188). -/
theorem wrHdr_eq {s : State} {q : Nat} {b : Bale} (cur : (getQ s q).cur = some b) (header : 16 ≤ b.bytes.length) (i : Nat) (w : Word) :
    wrHdr q i w s = modQ q (fun x => { x with cur := some { b with
      bytes := b.bytes.take (4 * i) ++ leBytes 4 w.toNat ++ b.bytes.drop (4 * i + 4) } }) s := by
  unfold wrHdr
  rw [cur]
  exact if_pos header

end Sys2Proof.Machine
end

section
/-! The words that host and fixed writers present to Q12–Q25 and Q27–Q31 (R187–R190): DATA, HDR, END and CANCEL. -/

namespace Sys2Proof.Machine

/-- The bale in progress that CANCEL takes from a fixed writer of whole bales is the front waiting one again, from its first word. -/
def rewound (c b : Bale) (x : Queue) : Queue :=
  { x with waiting := { b with bytes := c.bytes ++ b.bytes, ord := 0 } :: x.waiting }

section
variable {s : State} {q : Nat} (hq : q < s.ser.qs.length)

include hq in
/-- A fixed writer whose words were partly in presents its bale again (R189). -/
theorem at_writerCancel_begun {c b : Bale} {rest : List Bale} (cur : (getQ s q).cur = some c) (waiting : (getQ s q).waiting = b :: rest)
    (begun : b.ord ≠ 0) : AtQueue q (rewound c b (cancelled (getQ s q))) s (writerCancel q s) := by
  have gone := at_cancelBale hq (by rw [cur]; rfl)
  have still : q < (cancelBale q s).ser.qs.length := by rwa [queues_skel, skel_cancelBale, ← queues_skel]
  unfold writerCancel
  rw [waiting, cur]
  dsimp only
  rw [if_neg begun]
  exact gone.modQ still (rewound c b)

/-- Otherwise its CANCEL is that of any writer. -/
theorem writerCancel_fresh (fresh : ∀ b rest, (getQ s q).waiting = b :: rest → b.ord = 0) : writerCancel q s = cancelBale q s := by
  unfold writerCancel
  split
  · next b rest c waiting cur => exact if_pos (fresh b rest waiting)
  · rfl

theorem writerCancel_none (none : (getQ s q).cur = none) : writerCancel q s = s := by
  unfold writerCancel
  rw [none]
  split
  · next some => cases some
  · exact cancelBale_none none

include hq in
/-- After CANCEL no bale is in progress and no write is held; a fixed writer whose words were partly in presents its bale again. -/
theorem at_serCancel (above : 11 < q) (other : q ≠ 26) {c : Bale} (cur : (getQ s q).cur = some c) :
    ∃ y, AtQueue q y s (serCancel q s) ∧ y.held = none ∧ y.cur = none ∧ y.ready = (getQ s q).ready ∧
      y.retained = (getQ s q).retained ∧
      ∀ b rest, q ≤ 15 → (getQ s q).waiting = b :: rest → b.ord ≠ 0 →
        y.waiting = { b with bytes := c.bytes ++ b.bytes, ord := 0 } :: rest := by
  have gone := at_cancelBale hq (by rw [cur]; rfl)
  unfold serCancel
  rw [if_neg (by omega)]
  by_cases fixed : q ≤ 15
  · rw [if_pos fixed]
    by_cases fresh : ∀ b rest, (getQ s q).waiting = b :: rest → b.ord = 0
    · rw [writerCancel_fresh fresh]
      exact ⟨_, gone, rfl, rfl, rfl, rfl, fun b rest _ waiting begun => absurd (fresh b rest waiting) begun⟩
    · push Not at fresh
      obtain ⟨b, rest, waiting, begun⟩ := fresh
      refine ⟨_, at_writerCancel_begun hq cur waiting begun, rfl, rfl, rfl, rfl, fun b' rest' _ waiting' _ => ?_⟩
      obtain ⟨rfl, rfl⟩ := List.cons.inj (waiting.symm.trans waiting')
      simp [rewound, cancelled, waiting, begun]
  · rw [if_neg fixed, if_neg other]
    exact ⟨_, gone, rfl, rfl, rfl, rfl, fun b rest h => absurd h fixed⟩

theorem serCancel_none (above : 11 < q) (other : q ≠ 26) (none : (getQ s q).cur = none) : serCancel q s = s := by
  unfold serCancel
  rw [if_neg (by omega), if_neg other, writerCancel_none none, cancelBale_none none, ite_self]

end

section
variable {s : State} (hp : s.pw.por = false) (run : s.pw.coreRun = true) {q : Fin 32} (above : 11 < q.val) (other : q.val ≠ 26)
include hp run

theorem exec_seraiCancel : exec (.seraiCancel q) s = .next (serCancel q s) := congrArg _ (coreOnly_eq (serCancel q.val) hp run)

include above other

theorem exec_seraiDataWord (w : Word) : exec (.seraiDataWord q w) s = .next (wrData q w s) :=
  congrArg _ ((coreOnly_eq (serData q.val w) hp run).trans ((if_neg (by omega)).trans (if_neg other)))

theorem exec_seraiEndWord (w : Word) (v : Fin 4) : exec (.seraiEndWord q w v) s = .next (wrEnd q w v s) :=
  congrArg _ ((coreOnly_eq (serEnd q.val w v.val) hp run).trans ((if_neg (by omega)).trans (if_neg other)))

theorem exec_seraiHdrWord (i : Fin 4) (w : Word) : exec (.seraiHdrWord q i w) s = .next (wrHdr q i w s) :=
  congrArg _ ((coreOnly_eq (serHdr q.val i.val w) hp run).trans ((if_neg (by omega)).trans (if_neg other)))

end

theorem endBytes_fin : ∀ v : Fin 4, endBytes v.val = if v = 0 then 4 else v.val := by decide

/-- Settles O34: an admitted word grows the bale, an END word closes the grown bale, a word that is not admitted is held, and CANCEL leaves
neither bale nor held word. -/
theorem wordsReachTheBale : Obligations.WordsReachTheBale := by
  intro s q hp run shaped above other
  have inRange : q.val < s.ser.qs.length := by rw [shaped.queues]; exact q.isLt
  refine ⟨fun free => ⟨fun w => ?_, fun w v => ?_⟩, fun i w b cur header => ?_, fun some => ?_, fun none => ?_⟩
  · refine ⟨_, exec_seraiDataWord hp run above other w, ?_⟩
    cases ok : wordOk s q with
    | true =>
      have grows := at_wrData inRange free ok w
      exact ⟨grows.only, grows.regs, grows.others, grows.field (·.ready),
        fun _ => ⟨grows.field curBytesOf, grows.field (·.cur.isSome), grows.field (·.held)⟩, fun h => nomatch h⟩
    | false =>
      have holds := at_wrData_held inRange free ok w
      exact ⟨holds.only, holds.regs, holds.others, holds.field (·.ready), fun h => (nomatch h),
        fun _ => ⟨holds.field (·.cur), holds.field (·.held)⟩⟩
  · refine ⟨_, exec_seraiEndWord hp run above other w v, ?_⟩
    cases ok : wordOk s q with
    | true =>
      have closes := at_wrEnd inRange free ok w v
      refine ⟨closes.only, closes.regs, closes.others, fun _ keep => ?_, fun h => nomatch h⟩
      rw [closing_grown _ _ keep, endBytes_fin] at closes
      exact ⟨_, closes.field (·.ready), closes.field (·.cur), closes.field (·.held), rfl, rfl, rfl, closes.field (·.total)⟩
    | false =>
      have holds := at_wrEnd_held inRange free ok w v
      exact ⟨holds.only, holds.regs, holds.others, fun h => (nomatch h),
        fun _ => ⟨holds.field (·.cur), holds.field (·.ready), holds.field (·.held)⟩⟩
  · have acts := (exec_seraiHdrWord hp run above other i w).trans (congrArg _ (wrHdr_eq cur header i w))
    exact ⟨_, acts, by simp, (AtQueue.of_modQ inRange _).others, getQ_modQ _ _ _ inRange⟩
  · obtain ⟨c, cur⟩ := Option.isSome_iff_exists.1 some
    obtain ⟨y, gone, held, none, ready, retained, again⟩ := at_serCancel inRange above other cur
    refine ⟨_, exec_seraiCancel hp run, gone.only, gone.regs, gone.others, (gone.field (·.held)).trans held,
      (gone.field (·.cur)).trans none,
      (gone.field (·.ready)).trans ready, (gone.field (·.retained)).trans retained, fun b rest c' fixed waiting begun cur' => ?_⟩
    obtain rfl := Option.some.inj (cur.symm.trans cur')
    exact (gone.field (·.waiting)).trans (again b rest fixed waiting begun)
  · exact (exec_seraiCancel hp run).trans (congrArg _ (serCancel_none above other none))

end Sys2Proof.Machine
end

section
/-! Queues that release, retain and drain (R185, R190, R196, R199), and the end of a replay (R198, R223). -/

namespace Sys2Proof.Machine

/-! ### The held word (R185, R190) -/

/-- A word that is admitted has started no early release. -/
theorem releaseRetained_admitted {s : State} {q : Nat} (ok : cellOk s q = true) : releaseRetained q s = s := by
  unfold releaseRetained
  generalize (s.ser.qs.map (fun x => x.retained.length)).sum = fuel
  cases fuel <;> simp [releaseFor, ok]

theorem heldComplete_data {s : State} {q : Nat} {w : Word} (held : (getQ s q).held = some ⟨w, none⟩) (ok : wordOk s q = true) :
    heldComplete q s = seraiSync (putBytes q (leBytes 4 w.toNat) s) := by
  have admitted := ok
  simp only [wordOk, Bool.and_eq_true, Bool.or_eq_true, Bool.not_eq_true'] at admitted
  obtain ⟨start, cell⟩ := admitted
  have early : (if needsCell (getQ s q) = true then releaseRetained q s else s) = s := by
    split
    · next needs => exact releaseRetained_admitted (cell.resolve_left (by simp [needs]))
    · rfl
  unfold heldComplete
  simp only [held, start, early, ok, Bool.not_true, Bool.false_eq_true, if_false, if_true]

/-! ### Retention and draining (R196, R199) -/

/-- A queue that keeps of its retained bales those the test names. -/
def retaining (p : Retained → Bool) (x : Queue) : Queue := { x with retained := x.retained.filter p }

theorem at_retentionEnd {s : State} {q : Nat} (hq : q < s.ser.qs.length) : AtQueue q (retaining (fun r =>
    decide (s.pw.elapsed < r.till) || (s.ser.replaying && s.ser.rlist.contains r.bale.id)) (getQ s q)) s (retentionEnd q s) :=
  (AtQueue.of_modQ hq (retaining _)).sync

/-- A queue with nothing left runs again where its enable was deferred, in IDLE, and is disabled otherwise. -/
theorem queueDrained_empty {s : State} {q : Nat} (draining : (getQ s q).draining = true) (ready : (getQ s q).ready = [])
    (cur : (getQ s q).cur = none) : queueDrained q s = if (getQ s q).deferred = true ∧ s.orb.st = .idle
      then modQ q (fun x => { x with draining := false, deferred := false, active := true }) s
      else modQ q (fun x => { x with draining := false, active := false }) s := by
  simp [queueDrained, draining, ready, cur]

/-! ### What the writer of whole bales leaves of Serai -/

/-- Of Serai only the queues, the count of bale identities and MEM_LOW have changed. -/
def SerKept (s t : State) : Prop := t.ser = { s.ser with qs := t.ser.qs, ids := t.ser.ids, memLow := t.ser.memLow }

namespace SerKept

variable {s t u : State}

theorem of_ser (h : t.ser = s.ser) : SerKept s t := by unfold SerKept; rw [h]

theorem trans (h : SerKept s t) (k : SerKept t u) : SerKept s u := by
  unfold SerKept at *
  rw [k, h]

theorem modQ (q : Nat) (f : Queue → Queue) (s : State) : SerKept s (modQ q f s) := rfl

theorem ite {c : Prop} [Decidable c] (h : SerKept s t) (k : SerKept s u) : SerKept s (if c then t else u) := by
  split
  · exact h
  · exact k

theorem ser (h : SerKept s t) : t.ser = { s.ser with qs := t.ser.qs, ids := t.ser.ids, memLow := t.ser.memLow } := h

theorem replaying (h : SerKept s t) : t.ser.replaying = s.ser.replaying := by rw [h.ser]

theorem rdLast (h : SerKept s t) : t.ser.rdLast = s.ser.rdLast := by rw [h.ser]

end SerKept

theorem serKept_qSync (q : Nat) (s : State) : SerKept s (qSync q s) := by
  have rise (was isNow : Bool) (i d : Nat) (v : State) : SerKept v (onRise was isNow 0x40 i d v) :=
    .of_ser (Only.ser (M := [.fab]) (by simp))
  exact (SerKept.modQ q _ s).trans ((rise _ _ _ _ _).trans (rise _ _ _ _ _))

theorem serKept_foldl_qSync (l : List Nat) (s : State) : SerKept s (l.foldl (fun s q => qSync q s) s) := by
  induction l generalizing s with
  | nil => exact .of_ser rfl
  | cons q l ih => exact (serKept_qSync q s).trans (ih _)

theorem serKept_seraiSync (s : State) : SerKept s (seraiSync s) := by
  have queues := serKept_foldl_qSync (List.range 32) s
  have unfit (v : State) : SerKept v (unfitSync v) := .of_ser (Only.ser (M := [.fab, .frm]) (by simp))
  have rise (was isNow : Bool) (v : State) : SerKept v (onRise was isNow 0x40 1 0 v) := .of_ser (Only.ser (M := [.fab]) (by simp))
  unfold seraiSync
  generalize (List.range 32).foldl (fun s q => qSync q s) s = v at queues
  have low : SerKept v { v with ser := { v.ser with memLow := memLowNow v } } := rfl
  exact queues.trans (low.trans ((rise _ _ _).trans (unfit _)))

theorem serKept_putBytes (q : Nat) (l : List Byte) (s : State) : SerKept s (putBytes q l s) := by
  unfold putBytes
  split <;> rfl

theorem serKept_stampClose (q : Nat) (s : State) : SerKept s (stampClose q s) := (SerKept.modQ q _ s).ite (.of_ser rfl)

theorem serKept_pourCell (q : Nat) (s : State) : SerKept s (pourCell q s) := by
  have closed (f : Queue → Queue) (v : State) : SerKept v (closeBale q (stampClose q (modQ q f v))) :=
    (SerKept.modQ q f v).trans ((serKept_stampClose q _).trans (.modQ q closing _))
  unfold pourCell
  dsimp only
  split
  · exact .of_ser rfl
  · exact (serKept_putBytes q _ s).trans ((closed _ _).ite (.modQ q _ _))

theorem serKept_pour (q : Nat) (s : State) : SerKept s (pour q s) := by
  have go (n : Nat) (v : State) : SerKept v (pourGo q n v) := by
    induction n generalizing v with
    | zero => exact .of_ser rfl
    | succ n ih => exact ((serKept_pourCell q v).trans (ih _)).ite (.of_ser rfl)
  exact go _ s

theorem serKept_writeBale (q : Nat) (l : List Byte) (s : State) : SerKept s (writeBale q l s) :=
  (SerKept.modQ q _ s).trans ((serKept_pour q _).trans (serKept_seraiSync _))

/-! ### The manifest writer -/

/-- What a writer of manifests may do: Serai but for a queue's contents stays, and so do the words in force. -/
structure Writes (s t : State) : Prop where
  only : OnlyAndUnfit [.fab, .acq, .ser] s t
  regs : t.fab.regs = s.fab.regs
  ser  : SerKept s t

namespace Writes

variable {s t u : State}

theorem refl (s : State) : Writes s s := ⟨.of_only (.refl _ _), rfl, .of_ser rfl⟩

theorem trans (h : Writes s t) (k : Writes t u) : Writes s u := ⟨h.only.trans k.only, k.regs.trans h.regs, h.ser.trans k.ser⟩

theorem ite {c : Prop} [Decidable c] (h : Writes s t) (k : Writes s u) : Writes s (if c then t else u) := by
  split
  · exact h
  · exact k

theorem of_acq (h : Only [.acq] s t) : Writes s t := ⟨.of_only h.mono, by rw [h.fab], .of_ser h.ser⟩

end Writes

theorem writes_putManifest (l : List Byte) (s : State) : Writes s (putManifest l s) := by
  have written : Writes s (writeBale 12 l s) := ⟨(unfit_writeBale 12 l s).mono, (told_writeBale 12 l s).regs, serKept_writeBale 12 l s⟩
  have entered (v : State) : Only [.fab, .acq] v (manifestIn l v) := by simp
  have taken (v : State) : Writes v (manifestIn l v) := ⟨.of_only (entered v).mono, regs_manifestIn l v, .of_ser (entered v).ser⟩
  unfold putManifest
  exact (written.trans (taken _)).ite written

theorem writes_manifestNext (s : State) : Writes s (manifestNext s) := by
  unfold manifestNext
  split
  · exact .refl s
  · split
    · next r rest _ => exact (Writes.of_acq (only_refusedTaken rest s)).trans (writes_putManifest _ _)
    · split
      · next n b rest _ => exact (Writes.of_acq (only_replayTaken rest s)).trans (writes_putManifest _ _)
      · split
        · exact (writes_putManifest _ s).ite (.refl s)
        · exact .refl s

/-! ### The end of a replay (R198, R223) -/

/-- The replay is over, and its manifest waits with the writer. -/
def replayEnded (s : State) : State :=
  { s with ser := { s.ser with replaying := false, rsent := 0 },
           acq := { s.acq with replay := s.acq.replay ++ [(s.ser.rBales, s.ser.rBytes)] } }

theorem only_replayEnded (s : State) : Only [.acq, .ser] s (replayEnded s) := by
  have cleared : Only [.ser] s { s with ser := { s.ser with replaying := false, rsent := 0 } } := (only_mk_ser s s _).2 (.refl _ _)
  exact cleared.mono.trans ((only_mk_acq _ { s with ser := { s.ser with replaying := false, rsent := 0 } } _).2 (.refl _ _)).mono

theorem replayOver_empty {s : State} (replaying : s.ser.replaying = true) (none : s.ser.rlist = []) :
    replayOver s = manifestNext (replayEnded s) := by
  unfold replayOver
  rw [if_pos (by simp [replaying, none])]
  rfl

/-! ### The commands -/

section
variable {s : State} (hp : s.pw.por = false) (run : s.pw.coreRun = true)
include hp run

theorem exec_heldWriteComplete {q : Fin 32} (above : 12 < q.val) (other : q.val ≠ 26) :
    exec (.heldWriteComplete q) s = .next (heldComplete q s) :=
  congrArg _ ((coreOnly_eq (heldDone q.val) hp run).trans
    ((if_neg (by omega)).trans ((if_neg (by omega)).trans (if_neg other))))

theorem exec_retentionEnd (q : Fin 32) : exec (.retentionEnd q) s = .next (retentionEnd q s) :=
  congrArg Host.Outcome.next (coreOnly_eq (retentionEnd q.val) hp run)

theorem exec_queueDisabled (q : Fin 32) : exec (.queueDisabled q) s = .next (queueDrained q s) :=
  congrArg _ (coreOnly_eq (queueDrained q.val) hp run)

theorem exec_replayEnd : exec .replayEnd s = .next (replayOver s) := congrArg _ (coreOnly_eq replayOver hp run)

end

/-- Settles O37: each command is one change of its own queue; the replay's manifest is handed over before the writer looks at its stores. -/
theorem queuesReleaseAndRetain : Obligations.QueuesReleaseAndRetain := by
  intro s hp run shaped
  have inRange (q : Fin 32) : q.val < s.ser.qs.length := by rw [shaped.queues]; exact q.isLt
  refine ⟨fun q w above other held ok => ?_, fun q => ?_, fun q draining ready cur => ?_, fun replaying none => ?_⟩
  · have grows := (at_putBytes (inRange q) (leBytes 4 w.toNat)).sync
    exact ⟨_, (exec_heldWriteComplete hp run above other).trans (congrArg _ (heldComplete_data held ok)), grows.only, grows.regs,
      grows.field (·.held), grows.field (·.ready), grows.field curBytesOf, grows.others⟩
  · have kept := at_retentionEnd (inRange q)
    exact ⟨_, exec_retentionEnd hp run q, kept.only, kept.regs, kept.others, kept.bare⟩
  · refine ⟨_, exec_queueDisabled hp run q, by simp, ?_⟩
    rw [queueDrained_empty draining ready cur]
    split
    · next again => exact ⟨fun k hk => getQ_modQ_ne _ _ _ _ hk.symm, fun _ => getQ_modQ _ _ _ (inRange q), fun h => absurd again h⟩
    · next ended => exact ⟨fun k hk => getQ_modQ_ne _ _ _ _ hk.symm, fun h => absurd h ended, fun _ => getQ_modQ _ _ _ (inRange q)⟩
  · have writes := writes_manifestNext (replayEnded s)
    exact ⟨_, replayEnded s, (exec_replayEnd hp run).trans (congrArg _ (replayOver_empty replaying none)),
      (OnlyAndUnfit.of_only (only_replayEnded s).mono).trans writes.only, writes.regs, writes.ser.replaying, rfl, rfl⟩

end Sys2Proof.Machine
end

section
/-! The host port (R201–R204): its words on page 0x40, the queue's words they are, and QH_RD. -/

namespace Sys2Proof.Machine

/-! ### Accesses to the port -/

/-- QH_SEL, QH_CTL, QH_WR, QH_WR_LAST and QH_HDR0–3. -/
def portWords : List Nat := [0x080, 0x084, 0x088, 0x08C, 0x090, 0x094, 0x098, 0x09C]

/-- They are plain words of a page outside CK_SUP whose writes have an effect of their own. -/
theorem portWords_plain : ∀ o ∈ portWords, o < 0x1000 ∧ o % 4 = 0 ∧ isGuarded 0x40 o = false ∧
    ¬ (0x800 ≤ o ∧ isGuarded 0x40 (o - 0x800) = true) ∧ (regForm 0x40 o).isSome = true ∧ ownWrite 0x40 o = true := by decide

/-- A refused write of a plain word leaves its cause with the master and has no effect (R333). -/
theorem servedWrite_refused {s : State} {m : Master} {p o v c : Nat} (h : Serves s m p) (ho : o < 0x1000) (hg : isGuarded p o = false)
    (hc : ¬ (0x800 ≤ o ∧ isGuarded p (o - 0x800) = true)) (hf : (regForm p o).isSome = true) (hr : writeRefusal s p o v = some c) :
    servedWrite m p o v s = refuseAt m (addrOf p o) c s := by
  have unbroken : breakGuard m (addrOf p o) s = s := breakGuard_none (by rw [addr_page p o ho]; exact h.guard)
  have listed : (regForm p o).isNone = false := by rw [Option.isNone_eq_false_iff]; exact hf
  unfold servedWrite
  simp only [if_neg hc, unbroken, hg, overrun_idle h.idle, listed, hr]
  rfl

section
variable {s : State} {m : Master}

/-- Only QH_SEL refuses a value: a queue that is no host queue (R202). -/
theorem writeRefusal_qhSel (v : Nat) : writeRefusal s 0x40 0x080 v = if 16 ≤ v % 32 ∧ v % 32 ≠ 26 then none else some 0x02 := by
  have range : rangeOk 0x40 0x080 v = decide (16 ≤ v % 32 ∧ v % 32 ≠ 26) := rfl
  have other : ¬ ((0x080 : Nat) = 0x004 ∧ updPending s 0x40 = true ∧ fld v 4 4 ≠ regF s 0x40 0x004 4 4) := fun ⟨h, _⟩ =>
    absurd h (by decide)
  unfold writeRefusal
  rw [range, if_neg other, if_neg (show ¬ (0x40 = 0x5C ∧ (0x080 : Nat) = 0x04C) by decide)]
  simp only [Bool.not_eq_true', decide_eq_false_iff_not, ite_not]

theorem writeRefusal_port {o : Nat} (ho : o ∈ portWords) (data : o ≠ 0x080) (v : Nat) : writeRefusal s 0x40 o v = none := by
  have word : o = 0x080 ∨ o = 0x084 ∨ o = 0x088 ∨ o = 0x08C ∨ o = 0x090 ∨ o = 0x094 ∨ o = 0x098 ∨ o = 0x09C := by
    simpa [portWords] using ho
  rcases word with rfl | rfl | rfl | rfl | rfl | rfl | rfl | rfl
  · exact absurd rfl data
  all_goals rfl

variable (serves : Serves s m 0x40)
include serves

theorem rowWrite_port {o : Nat} (ho : o ∈ portWords) {v : Nat} (hr : writeRefusal s 0x40 o v = none) :
    rowWrite m (addrOf 0x40 o) v s = hostWrite m o v (beginAccess m s) := by
  obtain ⟨inPage, aligned, unguarded, value, listed, own⟩ := portWords_plain o ho
  have effect : writeEffect m 0x40 o v (beginAccess m s) = hostWrite m o v (beginAccess m s) := if_pos own
  exact (rowWrite_core serves rfl inPage aligned unguarded value listed hr).trans effect

theorem rowWrite_portRefused {o v c : Nat} (ho : o ∈ portWords) (hr : writeRefusal s 0x40 o v = some c) :
    rowWrite m (addrOf 0x40 o) v s = refuseAt m (addrOf 0x40 o) c (beginAccess m s) := by
  obtain ⟨inPage, aligned, unguarded, value, listed, -⟩ := portWords_plain o ho
  have page := addr_page 0x40 o inPage
  have off := addr_off 0x40 o inPage
  have even : ¬ addrOf 0x40 o % 4 ≠ 0 := by rw [addr_aligned 0x40 o aligned]; decide
  have core (u : State) : ownPosted m 0x40 u = u := rfl
  unfold rowWrite
  rw [page, core, fabWrite_serves (by rwa [page]), if_neg even, page, off,
    servedWrite_refused (serves_beginAccess serves) inPage unguarded value listed hr]

end

theorem hostWrite_hdr (m : Master) (i : Fin 4) (v : Nat) (s : State) :
    hostWrite m (0x090 + 4 * i.val) v s = hostHdr m i (BitVec.ofNat 32 v) s := by fin_cases i <;> rfl

/-! ### The commands -/

section
variable {s : State} (hp : s.pw.por = false) {m : Master} (serves : Serves s m 0x40)
include hp serves

theorem exec_qhSel {q : Fin 32} (legal : 16 ≤ q.val ∧ q.val ≠ 26) : exec (.qhSel m q) s = .next (hostSel m q (beginAccess m s)) := by
  have low : q.val % 32 = q.val := Nat.mod_eq_of_lt q.isLt
  have free : writeRefusal s 0x40 0x080 q = none := by rw [writeRefusal_qhSel, low]; exact if_pos legal
  have written : rowWrite m (addrOf 0x40 0x080) q s = hostSel m (q.val % 32) (beginAccess m s) := rowWrite_port serves (by decide) free
  rw [low] at written
  exact congrArg Host.Outcome.next ((running_eq _ hp).trans written)

theorem exec_qhSel_refused {q : Fin 32} (illegal : q.val < 16 ∨ q.val = 26) :
    exec (.qhSel m q) s = .next (refuseAt m (addrOf 0x40 0x080) 0x02 (beginAccess m s)) := by
  have bad : ¬ (16 ≤ q.val % 32 ∧ q.val % 32 ≠ 26) := by omega
  have barred : writeRefusal s 0x40 0x080 q = some 0x02 := by rw [writeRefusal_qhSel]; exact if_neg bad
  exact congrArg Host.Outcome.next ((running_eq _ hp).trans (rowWrite_portRefused serves (by decide) barred))

theorem exec_qhWr (w : Word) : exec (.qhWr m w) s = .next (hostWord m w none (beginAccess m s)) := by
  have written : rowWrite m (addrOf 0x40 0x088) w.toNat s = hostWord m (BitVec.ofNat 32 w.toNat) none (beginAccess m s) :=
    rowWrite_port serves (by decide) (writeRefusal_port (by decide) (by decide) _)
  rw [BitVec.ofNat_toNat, BitVec.setWidth_eq] at written
  exact congrArg Host.Outcome.next ((running_eq _ hp).trans written)

theorem exec_qhWrLast (w : Word) : exec (.qhWrLast m w) s = .next (hostWord m w (some (regF s 0x40 0x084 0 2)) (beginAccess m s)) := by
  have written : rowWrite m (addrOf 0x40 0x08C) w.toNat s =
      hostWord m (BitVec.ofNat 32 w.toNat) (some (regF s 0x40 0x084 0 2)) (beginAccess m s) :=
    rowWrite_port serves (by decide) (writeRefusal_port (by decide) (by decide) _)
  rw [BitVec.ofNat_toNat, BitVec.setWidth_eq] at written
  exact congrArg Host.Outcome.next ((running_eq _ hp).trans written)

theorem exec_qhWrHdr (i : Fin 4) (w : Word) : exec (.qhWrHdr m i w) s = .next (hostHdr m i w (beginAccess m s)) := by
  have word : 0x090 + 4 * i.val ∈ portWords ∧ 0x090 + 4 * i.val ≠ 0x080 := by revert i; decide
  have address : addrOf 0x40 (0x090 + 4 * i.val) = 0x40090 + 4 * i.val := by unfold addrOf; omega
  have written := rowWrite_port serves word.1 (writeRefusal_port word.1 word.2 w.toNat)
  rw [address, hostWrite_hdr, BitVec.ofNat_toNat, BitVec.setWidth_eq] at written
  exact congrArg Host.Outcome.next ((running_eq _ hp).trans written)

theorem exec_qhCancel (wb : Fin 4) : exec (.qhCancel m wb) s = .next (hostCtl m (0x100 + wb.val) (beginAccess m s)) :=
  have written : rowWrite m (addrOf 0x40 0x084) (0x100 + wb.val) s = hostCtl m (0x100 + wb.val) (beginAccess m s) :=
    rowWrite_port serves (by decide) (writeRefusal_port (by decide) (by decide) _)
  congrArg Host.Outcome.next ((running_eq _ hp).trans written)

theorem exec_qhRd : exec (.qhRd m) s = .next (setRdata m (hostRead m (beginAccess m s))) :=
  congrArg Host.Outcome.next ((running_eq _ hp).trans (fabRead_serves (a := 0x400A0) serves rfl))

end

/-! ### The port's words (R202, R203) -/

theorem hostQ_lt (s : State) : hostQ s < 32 := Nat.mod_lt _ (by decide)

theorem at_beginAccess (m : Master) (q : Nat) (s : State) : AtQueue q (getQ s q) s (beginAccess m s) :=
  .of_fab (noted_beginAccess m s).only (noted_beginAccess m s).regs

/-- The word of another master is discarded (R202). -/
theorem hostWord_other {s : State} {m : Master} (other : s.ser.owner ≠ some m) (w : Word) (fin : Option Nat) :
    hostWord m w fin s = discardHost s := by
  have not_own : owns s m = false := beq_eq_false_iff_ne.2 other
  simp [hostWord, not_own]

section
variable {s : State} {m : Master} (own : s.ser.owner = some m) (writes : hostWrites (hostQ s) = true)
include own

theorem owns_owner : owns s m = true := beq_iff_eq.2 own

theorem hostCtl_cancel {v : Nat} (cancel : v.testBit 8 = true) : hostCtl m v s =
    if hostWrites (hostQ (setReg 0x40 0x084 (v % 4) s)) = true
      then cancelBale (hostQ (setReg 0x40 0x084 (v % 4) s)) (setReg 0x40 0x084 (v % 4) s) else setReg 0x40 0x084 (v % 4) s := by
  simp [hostCtl, owns_owner own, cancel]

include writes

theorem hostWord_data (ok : wordOk s (hostQ s) = true) (w : Word) : hostWord m w none s = wrData (hostQ s) w s := by
  simp [hostWord, owns_owner own, writes, ok]

theorem hostWord_end (ok : wordOk s (hostQ s) = true) (w : Word) (v : Nat) : hostWord m w (some v) s = wrEnd (hostQ s) w v s := by
  simp [hostWord, owns_owner own, writes, ok]

theorem hostHdr_own (i : Nat) (w : Word) : hostHdr m i w s = wrHdr (hostQ s) i w s := by simp [hostHdr, owns_owner own, writes]

end

/-- The valid-byte count is kept, whatever the queue selected. -/
theorem hostQ_setCtl {s : State} (keys : keysFrom 0 s.fab.regs = true) (v : Nat) : hostQ (setReg 0x40 0x084 v s) = hostQ s := by
  unfold hostQ regF
  rw [regAt_setReg_ne _ _ _ _ _ _ keys (by decide)]

theorem hostQ_setSel {s : State} (keys : keysFrom 0 s.fab.regs = true) {q : Nat} (hq : q < 32) : hostQ (setReg 0x40 0x080 q s) = q := by
  unfold hostQ regF
  rw [regAt_setReg _ _ _ _ keys, fld, Nat.shiftRight_zero, Nat.mod_eq_of_lt (show q < 2 ^ 32 by omega), Nat.mod_eq_of_lt (by omega)]

/-! ### QH_SEL (R202) -/

/-- The bale in progress on a write queue selected before is cancelled. -/
def deselected (s : State) : State := if hostWrites (hostQ s) then cancelBale (hostQ s) s else s

theorem hostSel_eq (m : Master) (q : Nat) (s : State) : hostSel m q s =
    { setReg 0x40 0x080 q (deselected s) with ser := { (setReg 0x40 0x080 q (deselected s)).ser with owner := some m } } := rfl

theorem unfit_hostSel (m : Master) (q : Nat) (s : State) : OnlyAndUnfit [.fab, .ser] s (hostSel m q s) := by
  have cancels : OnlyAndUnfit [.fab, .ser] s (deselected s) := by
    unfold deselected
    split
    · exact unfit_cancelBale _ s
    · exact .of_only (.refl _ _)
  have selects : Only [.fab] (deselected s) (setReg 0x40 0x080 q (deselected s)) := by simp
  rw [hostSel_eq]
  exact cancels.trans (.of_only (selects.mono.trans ((only_mk_ser _ _ _).2 (.refl _ _)).mono))

theorem hostQ_hostSel {s : State} (keys : keysFrom 0 s.fab.regs = true) (m : Master) {q : Nat} (hq : q < 32) : hostQ (hostSel m q s) = q := by
  have kept : (deselected s).fab.regs = s.fab.regs := ((told_cancelBale (hostQ s) s).ite (.refl s)).regs
  exact hostQ_setSel (s := deselected s) (by rwa [kept]) hq

/-! ### QH_RD (R201, R204) -/

/-- The queue whose head bale has given its word from `x.sent` on: it keeps the bale until the word was the last. -/
def wordRead (b : Bale) (rest : List Bale) (x : Queue) : Queue :=
  if b.bytes.length ≤ x.sent + 4 then { x with ready := rest, sent := 0, ctUnder := false } else { x with sent := x.sent + 4 }

section
variable {s : State} {m : Master} (own : s.ser.owner = some m) (reads : hostReads s (hostQ s) = true)
  (whole : (getQ s (hostQ s)).abort = false) {b : Bale} {rest : List Bale} (ready : (getQ s (hostQ s)).ready = b :: rest)
  (left : (getQ s (hostQ s)).sent < b.bytes.length)
include own reads whole ready left

theorem hostRead_closed : hostRead m s = (wordAt (eccBytes s b.id 0 b.bytes) (getQ s (hostQ s)).sent,
    if b.bytes.length ≤ (getQ s (hostQ s)).sent + 4 then
      seraiSync (setRd true (min 4 (b.bytes.length - (getQ s (hostQ s)).sent) % 4) false
        (modQ (hostQ s) (fun x => { x with ready := rest, sent := 0, ctUnder := false }) (eccRead (hostQ s) b (getQ s (hostQ s)).sent 4 s)))
    else setRd false 0 false
      (modQ (hostQ s) (fun x => { x with sent := x.sent + 4 }) (eccRead (hostQ s) b (getQ s (hostQ s)).sent 4 s))) := by
  have some_left : hostAvail s (hostQ s) ≠ 0 := by
    simp only [hostAvail, reads, ready, Bool.not_true, Bool.false_eq_true, if_false]
    omega
  unfold hostRead
  simp only [owns_owner own, reads, whole, some_left, ready, Bool.not_true, Bool.false_eq_true, if_false, and_false]
  split <;> rfl

/-- The word is that of the bale as its stored errors leave it; the queue and the port's flags follow. -/
theorem at_hostRead (hq : hostQ s < s.ser.qs.length) : AtQueue (hostQ s) (wordRead b rest (getQ s (hostQ s))) s (hostRead m s).2 ∧
    (b.bytes.length ≤ (getQ s (hostQ s)).sent + 4 → (hostRead m s).2.ser.rdLast = true) := by
  have met : Only [.fab] s (eccRead (hostQ s) b (getQ s (hostQ s)).sent 4 s) := by simp
  have read : AtQueue (hostQ s) (getQ s (hostQ s)) s (eccRead (hostQ s) b (getQ s (hostQ s)).sent 4 s) :=
    .of_fab met (told_eccRead _ _ _ _ s).regs
  have still : hostQ s < (eccRead (hostQ s) b (getQ s (hostQ s)).sent 4 s).ser.qs.length := by rwa [met.ser]
  have shown (last ab : Bool) (vb : Nat) (v : State) : AtQueue (hostQ s) (getQ v (hostQ s)) v (setRd last vb ab v) :=
    .of_queues (.of_only (by simp)) rfl rfl
  rw [hostRead_closed own reads whole ready left]
  unfold wordRead
  dsimp only
  split
  · next last =>
    have taken := read.modQ still (fun x => { x with ready := rest, sent := 0, ctUnder := false })
    exact ⟨(taken.beside (shown _ _ _ _)).sync, fun _ => (serKept_seraiSync _).rdLast⟩
  · next more =>
    have taken := read.modQ still (fun x => { x with sent := x.sent + 4 })
    exact ⟨taken.beside (shown _ _ _ _), fun last => absurd last more⟩

end

/-! ### QH_CANCEL and QH_RD at the port -/

section
variable {s : State} (shaped : Shaped s) {m : Master} (own : s.ser.owner = some m)
include shaped own

theorem qhCancel_cancels (canon : Canonical s) (writes : hostWrites (hostQ s) = true) (wb : Fin 4)
    (some : (getQ s (hostQ s)).cur.isSome = true) : ∀ t, t = hostCtl m (0x100 + wb.val) (beginAccess m s) →
      OnlyAndUnfit [.fab, .ser] s t ∧ OtherQueues s t (hostQ s) ∧ (getQ t (hostQ s)).cur = none ∧
      (getQ t (hostQ s)).ready = (getQ s (hostQ s)).ready ∧ regF t 0x40 0x084 0 2 = wb.val := by
  rintro t rfl
  have cancel : (0x100 + wb.val).testBit 8 = true := by revert wb; decide
  have count : fld ((0x100 + wb.val) % 4 % 2 ^ 32) 0 2 = wb.val := by revert wb; decide
  have selected := hostQ_setCtl (s := beginAccess m s) canon.regs ((0x100 + wb.val) % 4)
  have word := regAt_setReg 0x40 0x084 ((0x100 + wb.val) % 4) (beginAccess m s) canon.regs
  have kept : Only [.fab] s (setReg 0x40 0x084 ((0x100 + wb.val) % 4) (beginAccess m s)) := by simp
  rw [hostCtl_cancel (s := beginAccess m s) own cancel, selected, if_pos (show hostWrites (hostQ (beginAccess m s)) = true from writes)]
  generalize setReg 0x40 0x084 ((0x100 + wb.val) % 4) (beginAccess m s) = u at kept word
  have queues := congrArg Serai.qs kept.ser
  have gone := at_cancelBale (s := u) (q := hostQ s) (by rw [queues, shaped.queues]; exact hostQ_lt s) (by rwa [getQ_congr queues])
  have ready : (getQ u (hostQ s)).ready = (getQ s (hostQ s)).ready := by rw [getQ_congr queues]
  have here : hostQ (beginAccess m s) = hostQ s := rfl
  rw [here]
  refine ⟨(OnlyAndUnfit.of_only kept.mono).trans gone.only, fun k hk => (gone.others k hk).trans (bareQ_congr queues k),
    gone.field (·.cur), (gone.field (·.ready)).trans ready, ?_⟩
  unfold regF
  rw [show regAt (cancelBale (hostQ s) u) 0x40 0x084 = regAt u 0x40 0x084 by unfold regAt; rw [gone.regs], word, count]

theorem qhRd_reads (reads : hostReads s (hostQ s) = true) (whole : (getQ s (hostQ s)).abort = false) {b : Bale} {rest : List Bale}
    (ready : (getQ s (hostQ s)).ready = b :: rest) (left : (getQ s (hostQ s)).sent < b.bytes.length) :
    ∀ t, t = setRdata m (hostRead m (beginAccess m s)) → OnlyAndUnfit [.fab, .ser] s t ∧ t.fab.regs = s.fab.regs ∧
      OtherQueues s t (hostQ s) ∧
      (getMaster t m).rdata = BitVec.ofNat 32 (wordAt (eccBytes s b.id 0 b.bytes) (getQ s (hostQ s)).sent) ∧
      (if b.bytes.length ≤ (getQ s (hostQ s)).sent + 4 then (getQ t (hostQ s)).ready = rest ∧ t.ser.rdLast = true
       else (getQ t (hostQ s)).ready = b :: rest ∧ (getQ t (hostQ s)).sent = (getQ s (hostQ s)).sent + 4) := by
  rintro t rfl
  have inRange : hostQ s < s.ser.qs.length := by rw [shaped.queues]; exact hostQ_lt s
  obtain ⟨read, last⟩ := at_hostRead (s := beginAccess m s) own reads whole ready left inRange
  have word := congrArg Prod.fst (hostRead_closed (s := beginAccess m s) own reads whole ready left)
  have four : (hostRead m (beginAccess m s)).2.fab.masters.length = 4 :=
    ((kept_same (skel_hostRead m (beginAccess m s))).shaped ((kept_same (by simp)).shaped shaped)).masters
  have answered := noted_setRdata m (hostRead m (beginAccess m s))
  have taken := ((at_beginAccess m (hostQ s) s).trans read).beside (.of_fab answered.only answered.regs)
  refine ⟨taken.only, taken.regs, taken.others, ?_, ?_⟩
  · exact (congrArg MasterSt.rdata (getMaster_setRdata four m _)).trans (congrArg (BitVec.ofNat 32) word)
  · split
    · next ends =>
      have queue : wordRead b rest (getQ s (hostQ s)) = { getQ s (hostQ s) with ready := rest, sent := 0, ctUnder := false } := if_pos ends
      exact ⟨(taken.field (·.ready)).trans (congrArg Queue.ready queue), last ends⟩
    · next more =>
      have queue : wordRead b rest (getQ s (hostQ s)) = { getQ s (hostQ s) with sent := (getQ s (hostQ s)).sent + 4 } := if_neg more
      exact ⟨(taken.field (·.ready)).trans ((congrArg Queue.ready queue).trans ready),
        (taken.field (·.sent)).trans (congrArg Queue.sent queue)⟩

end

/-- Settles O38: a served access acts on a state that differs in the master's record alone, and for the owner each word is the selected
queue's own. -/
theorem hostPortMovesWords : Obligations.HostPortMovesWords := by
  intro s m hp shaped canon serves
  have inRange : hostQ s < s.ser.qs.length := by rw [shaped.queues]; exact hostQ_lt s
  have begun := at_beginAccess m (hostQ s) s
  refine ⟨fun q => ?_, fun own writes free => ⟨fun w ok => ⟨?_, fun keep => ?_⟩, fun i w b cur header => ?_, fun wb some => ?_⟩,
    fun b rest own reads whole ready left => ?_, fun other w => ?_⟩
  · by_cases legal : 16 ≤ q.val ∧ q.val ≠ 26
    · exact ⟨_, exec_qhSel hp serves legal, begun.only.trans (unfit_hostSel m q _),
        fun _ _ => ⟨rfl, hostQ_hostSel (s := beginAccess m s) canon.regs m q.isLt⟩, fun illegal => by omega⟩
    · have refused : Only [.fab] s (refuseAt m (addrOf 0x40 0x080) 0x02 (beginAccess m s)) := by simp
      have four : (beginAccess m s).fab.masters.length = 4 := (noted_beginAccess m s).four.trans shaped.masters
      exact ⟨_, exec_qhSel_refused hp serves (by omega), .of_only refused.mono, fun h k => absurd ⟨h, k⟩ legal,
        fun _ => ⟨refused.ser, (noted_refuseAt m _ _ _).regs, cause_refuseAt four m _ _⟩⟩
  · have grows := begun.trans (at_wrData (s := beginAccess m s) inRange free ok w)
    refine ⟨_, (exec_qhWr hp serves w).trans (congrArg _ (hostWord_data (s := beginAccess m s) own writes ok w)), grows.only, grows.regs,
      grows.others, grows.field curBytesOf, grows.field (·.ready)⟩
  · have closes := begun.trans (at_wrEnd (s := beginAccess m s) inRange free ok w (regF s 0x40 0x084 0 2))
    rw [closing_grown _ _ (show (getQ (beginAccess m s) (hostQ s)).discard = false from keep)] at closes
    exact ⟨_, _, (exec_qhWrLast hp serves w).trans (congrArg _ (hostWord_end (s := beginAccess m s) own writes ok w _)), closes.only,
      closes.regs, closes.others, closes.field (·.cur), closes.field (·.ready), rfl⟩
  · have acts := wrHdr_eq (s := beginAccess m s) cur header i w
    have replaced := begun.trans (AtQueue.of_modQ (s := beginAccess m s) inRange (fun x => { x with cur := some { b with
      bytes := b.bytes.take (4 * i) ++ leBytes 4 w.toNat ++ b.bytes.drop (4 * i + 4) } }))
    exact ⟨_, (exec_qhWrHdr hp serves i w).trans (congrArg _ ((hostHdr_own (s := beginAccess m s) own writes i w).trans acts)),
      replaced.only, replaced.regs, replaced.others, replaced.field curBytesOf⟩
  · exact ⟨_, exec_qhCancel hp serves wb, qhCancel_cancels shaped own canon writes wb some _ rfl⟩
  · exact ⟨_, exec_qhRd hp serves, qhRd_reads shaped own reads whole ready left _ rfl⟩
  · have counted : Only [.fab] s (discardHost (beginAccess m s)) := by simp
    have told : Told serPages (beginAccess m s) (discardHost (beginAccess m s)) := told_count _ (by decide) 8 (by decide)
    exact ⟨_, (exec_qhWr hp serves w).trans (congrArg _ (hostWord_other (s := beginAccess m s) other w none)), counted, told.regs⟩

end Sys2Proof.Machine
end

section
/-! Launches (R306–R308): the head of a launch queue is released in its time; a late one meets its policy. -/

namespace Sys2Proof.Machine

/-! ### The head leaves its queue -/

/-- A queue whose head is dropped: a closed one is gone, and the rest of one still being written will be discarded. -/
def headGone (x : Queue) : Queue :=
  match x.ready with
  | _ :: t => { x with ready := t, sent := 0, released := false, late := false, ctUnder := false }
  | [] => { x with discard := x.cur.isSome, released := false, late := false }

theorem headGone_closed {x : Queue} {b : Bale} {rest : List Bale} (h : x.ready = b :: rest) :
    headGone x = { x with ready := rest, sent := 0, released := false, late := false, ctUnder := false } := by
  unfold headGone
  rw [h]

theorem headGone_open {x : Queue} (h : x.ready = []) : headGone x = { x with discard := x.cur.isSome, released := false, late := false } := by
  unfold headGone
  rw [h]

theorem at_removeHead {s : State} {q : Nat} (hq : q < s.ser.qs.length) : AtQueue q (headGone (getQ s q)) s (removeHead q s) := by
  unfold removeHead
  cases h : (getQ s q).ready with
  | cons b rest =>
    rw [headGone_closed h]
    exact (AtQueue.of_modQ hq fun x => { x with ready := rest, sent := 0, released := false, late := false, ctUnder := false }).sync
  | nil =>
    rw [headGone_open h]
    exact .of_modQ hq fun x => { x with discard := x.cur.isSome, released := false, late := false }

theorem told_removeHead (q : Nat) (s : State) : Told serPages s (removeHead q s) := by
  unfold removeHead
  split
  · exact (told_modQ _ _ _).trans (told_seraiSync _)
  · exact told_modQ _ _ _

/-! ### A late head (R308) -/

/-- What LATE_POL says of a late head of the queue: 1 drops it. -/
def latePolicy (s : State) (q : Nat) : Nat := if q < 20 then regF s 0x54 0x074 8 1 else regF s 0x54 0x074 9 1

/-- A dropped egress item that asks for a timestamp leaves its record first. -/
def lateRecord (q : Nat) (s : State) : State :=
  if 20 ≤ q ∧ ((headBytes s q).getD 2 0).getLsbD 0 = true then
    tsePush (tsRecord s none (leNat (((headBytes s q).drop 4).take 2)) true false true (q - 20)) s else s

theorem only_lateRecord (q : Nat) (s : State) : Only [.fab, .tb] s (lateRecord q s) := by simp [lateRecord]

theorem told_lateRecord (q : Nat) (s : State) : Told [0x54, 0x7C] s (lateRecord q s) := (told_tsePush _ s).ite (.refl s)

theorem Canonical.lateRecord {s : State} (h : Canonical s) (q : Nat) : Canonical (lateRecord q s) := by
  unfold Machine.lateRecord
  split
  · exact canon_tsePush _ _ h
  · exact h

/-- A record that is lost counts under an item of its own. -/
theorem tallyOf_lateRecord {s : State} (h : Canonical s) (q : Nat) : tallyOf (lateRecord q s) 0x54 5 = tallyOf s 0x54 5 := by
  unfold lateRecord tsePush
  split_ifs
  · exact tallyOf_count_ne 0x54 6 0x54 5 s h.pages (h.tally_keys _) (by decide) (.inr (by decide))
  · rfl
  · rfl

section
variable {s : State} {q : Nat}

/-- The policy as `lateAct` reads it. -/
theorem latePolicy_one : (if q < 20 then regF s 0x54 0x074 8 1 = 1 else regF s 0x54 0x074 9 1 = 1) ↔ latePolicy s q = 1 := by
  unfold latePolicy
  split <;> rfl

theorem lateAct_send (send : latePolicy s q ≠ 1) :
    lateAct q s = countD 0x54 4 q (modQ q (fun x => { x with released := true, late := true }) s) := if_neg (mt latePolicy_one.1 send)

theorem lateAct_drop (drop : latePolicy s q = 1) : lateAct q s = countD 0x54 5 q (removeHead q (lateRecord q s)) :=
  if_pos (latePolicy_one.2 drop)

theorem told_countLaunch (i d : Nat) (s : State) : Told [0x54, 0x7C] s (countD 0x54 i d s) := told_countD s (by decide) i d (by decide)

/-- Either policy touches Serai, the tallies and the timestamp records, and of the queues only the head's. -/
theorem lateAct_frame (hq : q < s.ser.qs.length) : OnlyAndUnfit [.fab, .ser, .tb] s (lateAct q s) ∧
    (lateAct q s).fab.regs = s.fab.regs ∧ OtherQueues s (lateAct q s) q := by
  by_cases drop : latePolicy s q = 1
  · have recorded := only_lateRecord q s
    have ser := recorded.ser
    have gone := (at_removeHead (s := lateRecord q s) (by rwa [ser])).told (told_countLaunch 5 q _) (by simp)
    rw [lateAct_drop drop]
    exact ⟨(OnlyAndUnfit.of_only recorded.mono).trans gone.only.mono, gone.regs.trans (told_lateRecord q s).regs,
      fun k hk => (gone.others k hk).trans (bareQ_congr (congrArg Serai.qs ser) k)⟩
  · have marked := (AtQueue.of_modQ hq fun x => { x with released := true, late := true }).told (told_countLaunch 4 q _) (by simp)
    rw [lateAct_send drop]
    exact ⟨marked.only.mono, marked.regs, marked.others⟩

/-- Sent at once, the head is released as late, and LATE_SENT counts. -/
theorem lateAct_sends (hq : q < s.ser.qs.length) (send : latePolicy s q ≠ 1) :
    getQ (lateAct q s) q = { getQ s q with released := true, late := true } ∧ (lateAct q s).tb = s.tb ∧
      (Canonical s → tallyOf (lateAct q s) 0x54 4 = min 0xFF (tallyOf s 0x54 4 + 1)) := by
  have counted (v : State) : Only [.fab] v (countD 0x54 4 q v) := by simp
  rw [lateAct_send send]
  refine ⟨(getQ_congr (congrArg Serai.qs (counted _).ser) q).trans (getQ_modQ _ _ _ hq), (counted _).tb, fun canon => ?_⟩
  exact tallyOf_countD 0x54 4 q (modQ q _ s) canon.pages (canon.tally_keys _) (by decide)

/-- Dropped, the head is gone, and LATE_DROP counts. -/
theorem lateAct_drops (hq : q < s.ser.qs.length) (drop : latePolicy s q = 1) :
    bared (getQ (lateAct q s) q) = bared (headGone (getQ s q)) ∧
      (Canonical s → tallyOf (lateAct q s) 0x54 5 = min 0xFF (tallyOf s 0x54 5 + 1)) := by
  have ser := (only_lateRecord q s).ser
  have gone := (at_removeHead (s := lateRecord q s) (by rwa [ser])).told (told_countLaunch 5 q _) (by simp)
  rw [lateAct_drop drop]
  refine ⟨gone.bare.trans (by rw [getQ_congr (congrArg Serai.qs ser)]), fun canon => ?_⟩
  have recorded := canon.lateRecord q
  have removed := canon_removeHead q _ recorded
  rw [tallyOf_countD 0x54 5 q _ removed.pages (removed.tally_keys _) (by decide),
    (told_removeHead q _).tallies recorded.pages 0x54 5 (by decide), tallyOf_lateRecord canon]

end

/-! ### The head's time (R306, R307) -/

theorem launchLate_inTime {s : State} {q : Nat} (inTime : lateHead s q 0 = false) : launchLate q s = s := by simp [launchLate, inTime]

section
variable {s : State} {q : Nat} (timed : isTimed q = true) (waits : headWaits s q = true)
include timed waits

theorem launchRelease_late (late : lateHead s q 0 = true) : launchRelease q s = lateAct q s := by simp [launchRelease, timed, waits, late]

theorem launchLate_late (late : lateHead s q 0 = true) : launchLate q s = lateAct q s := by simp [launchLate, timed, waits, late]

variable (inTime : lateHead s q 0 = false)
include inTime

/-- An uplink head in time is released in the first core cycle of a slot that allows launches, from its launch slot on. -/
theorem launchRelease_uplink (uplink : q < 20) : launchRelease q s = if s.pw.cyc = 0 ∧ launchSlot s = true ∧
    0 ≤ sinceLaunch s (upLaunch (headBytes s q)).1 (upLaunch (headBytes s q)).2 then releaseHead q s else s := by
  simp [launchRelease, timed, waits, inTime, uplink, and_assoc]

/-- An egress head in time is released once the instant at the pins has reached its launch instant. -/
theorem launchRelease_egress (egress : 20 ≤ q) : launchRelease q s = if 16 ≤ (headBytes s q).length ∧
    ((mgLaunch (headBytes s q) * 2 ^ 32 : Nat) : Int) ≤ pinAt s (launchBase s q) 0 then releaseHead q s else s := by
  have low : ¬ q < 20 := by omega
  simp only [launchRelease, timed, waits, inTime, low, mgReached, Bool.not_true, Bool.false_eq_true, or_self, if_false,
    Bool.and_eq_true, decide_eq_true_eq]

end

section
variable {s : State} (hp : s.pw.por = false) (run : s.pw.coreRun = true) (q : Fin 32)
include hp run

theorem exec_launchRelease : exec (.launchRelease q) s = .next (launchRelease q s) := congrArg _ (coreOnly_eq (launchRelease q.val) hp run)

theorem exec_launchLate : exec (.launchLate q) s = .next (launchLate q s) := congrArg _ (coreOnly_eq (launchLate q.val) hp run)

end

/-- Settles O39: a head in time waits for its own instant alone; a late one is handled alike by both commands, as the policy says. -/
theorem launchedHeadsLeaveInTheirTime : Obligations.LaunchedHeadsLeaveInTheirTime := by
  intro s q hp run shaped waits timed l head
  subst head
  have inRange : q.val < s.ser.qs.length := by rw [shaped.queues]; exact q.isLt
  have release {t : State} (h : launchRelease q s = t) : exec (.launchRelease q) s = .next t :=
    (exec_launchRelease hp run q).trans (congrArg _ h)
  have late {t : State} (h : launchLate q s = t) : exec (.launchLate q) s = .next t := (exec_launchLate hp run q).trans (congrArg _ h)
  refine ⟨fun inTime uplink first slot due => ?_, fun inTime uplink early => ?_, fun inTime egress whole due => ?_,
    fun inTime egress early => ?_, fun inTime => late (launchLate_inTime inTime), fun tooLate => ?_⟩
  · exact release ((launchRelease_uplink timed waits inTime uplink).trans (if_pos ⟨first, slot, due⟩))
  · refine release ((launchRelease_uplink timed waits inTime uplink).trans (if_neg fun ⟨first, slot, due⟩ => ?_))
    rcases early with cycle | barred | before
    · exact cycle first
    · exact absurd slot (by simp [barred])
    · omega
  · exact release ((launchRelease_egress timed waits inTime egress).trans (if_pos ⟨whole, due⟩))
  · refine release ((launchRelease_egress timed waits inTime egress).trans (if_neg fun ⟨whole, due⟩ => ?_))
    rcases early with short | before <;> omega
  · obtain ⟨only, regs, others⟩ := lateAct_frame (s := s) inRange
    refine ⟨_, late (launchLate_late timed waits tooLate), release (launchRelease_late timed waits tooLate), only, regs, others,
      fun send => lateAct_sends inRange send, fun drop => (lateAct_drops inRange drop).2, fun drop b rest closed => ?_,
      fun drop opened => ?_⟩
    · have gone := (lateAct_drops inRange drop).1
      rw [headGone_closed closed] at gone
      exact ⟨field_of_bared gone (·.ready), field_of_bared gone (·.sent), field_of_bared gone (·.cur)⟩
    · have gone := (lateAct_drops inRange drop).1
      rw [headGone_open opened] at gone
      exact ⟨field_of_bared gone (·.cur), field_of_bared gone (·.discard)⟩

end Sys2Proof.Machine
end

section
/-! Uplink framing (R211–R217, R226): a frame start takes Serai's grant with it, and the credit count follows. -/

namespace Sys2Proof.Machine

/-! ### What a grant does to Serai (R193–R198) -/

/-- Serai moves on: its live causes follow, among them the framer's UNFIT, and what is counted is told on its own pages. -/
structure SerTurn (s t : State) : Prop where
  only : OnlyAndUnfit [.fab, .ser] s t
  told : Told serPages s t

namespace SerTurn

variable {s t u : State}

theorem of_ser (h : Only [.ser] s t) : SerTurn s t := ⟨.of_only h.mono, .of_fab h.fab⟩

theorem refl (s : State) : SerTurn s s := of_ser (.refl _ _)

theorem trans (h : SerTurn s t) (k : SerTurn t u) : SerTurn s u := ⟨h.only.trans k.only, h.told.trans k.told⟩

theorem ite {c : Prop} [Decidable c] (h : SerTurn s t) (k : SerTurn s u) : SerTurn s (if c then t else u) := by
  split
  · exact h
  · exact k

theorem pw (h : SerTurn s t) : t.pw = s.pw := h.only.1.pw

end SerTurn

theorem serTurn_mk (ser : Serai) (s : State) : SerTurn s { s with ser := ser } := .of_ser ((only_mk_ser s s ser).2 (.refl _ _))

theorem serTurn_modQ (q : Nat) (f : Queue → Queue) (s : State) : SerTurn s (modQ q f s) := .of_ser (by simp)

theorem serTurn_eccRead (q : Nat) (b : Bale) (a n : Nat) (s : State) : SerTurn s (eccRead q b a n s) :=
  have read : Only [.fab] s (eccRead q b a n s) := by simp
  ⟨.of_only read.mono, told_eccRead q b a n s⟩

theorem serTurn_headSent (q : Nat) (s : State) : SerTurn s (headSent q s) := ⟨unfit_headSent q s, told_headSent q s⟩

theorem serTurn_replayed (q id : Nat) (s : State) : SerTurn s (replayed q id s) :=
  (serTurn_mk _ s).trans ((serTurn_modQ q _ _).ite (serTurn_headSent q _))

/-! ### The granted bytes (R214) -/

/-- A stored error changes bytes, not their number. -/
theorem length_eccBytes (s : State) (id a : Nat) (l : List Byte) : (eccBytes s id a l).length = l.length := by
  unfold eccBytes mapIdxN
  split
  · rfl
  · simp

/-- A frame's share of a bale fits in the frame. -/
theorem length_grantBytes_le (s : State) (id a : Nat) (l : List Byte) : (eccBytes s id a ((l.drop a).take 88)).length ≤ 88 := by
  rw [length_eccBytes]
  exact List.length_take_le 88 _

/-- What comes of a frame's grant: Serai moves on, and the bytes fit in the frame. -/
structure Granted (s : State) (r : Grant × State) : Prop where
  turn : SerTurn s r.2
  fits : r.1.l.length ≤ 88

theorem granted_none (s : State) : Granted s ({}, s) := ⟨.refl s, Nat.zero_le _⟩

theorem granted_takeReplay (q : Nat) (b : Bale) (s : State) : Granted s (takeReplay q b s) where
  turn := (serTurn_eccRead q b _ _ s).trans ((serTurn_replayed q b.id _).ite (serTurn_mk _ _))
  fits := length_grantBytes_le s b.id _ b.bytes

theorem granted_takeHead (q : Nat) (b : Bale) (s : State) : Granted s (takeHead q b s) where
  turn := (serTurn_mk _ s).trans <| (((serTurn_mk _ _).trans (serTurn_modQ q _ _)).ite (.refl _)).trans <|
    (serTurn_eccRead q b _ _ _).trans ((serTurn_headSent q _).ite (serTurn_modQ q _ _))
  fits := length_grantBytes_le s b.id _ b.bytes

theorem granted_takeGrant (s : State) : Granted s (takeGrant s) := by
  unfold takeGrant
  split
  · exact granted_none s
  · split
    · exact granted_takeReplay _ _ s
    · split
      · exact granted_none s
      · split
        · exact granted_takeHead _ _ s
        · exact granted_none s

/-! ### The frame number (R212) -/

theorem fOf_setF (t : Trunk) (v : Nat) (s : State) : fOf (setF t v s) t = v := by cases t <;> rfl

theorem fOf_setF_peer (t : Trunk) (v : Nat) (s : State) : fOf (setF t v s) (peer t) = fOf s (peer t) := by cases t <;> rfl

/-- A frame number is one of the framer's own words, which UNFIT is no part of. -/
theorem fOf_of_unfit {M : List Part} {s u : State} (h : OnlyAndUnfit M s u) (t : Trunk) : fOf u t = fOf s t := by
  unfold fOf
  rw [h.2]

/-- The credit counts are no frame number. -/
theorem credits_setF (t : Trunk) (v : Nat) (s : State) :
    (setF t v s).frm.x = s.frm.x ∧ (setF t v s).frm.adv = s.frm.adv := by cases t <;> exact ⟨rfl, rfl⟩

/-! ### The frame on its lanes (R211) -/

/-- A frame of bytes `l` on `n` lanes begins to leave; `last` is the bale whose last byte is in it. -/
def loadFrame (n : Nat) (l : List Byte) (last : Option (Nat × Bale)) (s : State) : State :=
  { s with frm := { s.frm with lanes := n, busyTo := s.pw.elapsed + framePeriod n, caravan := l, shares := laneShares n l,
                               laneGrp := shareGroups (laneShares n l) 0, last := last } }

theorem fOf_loadFrame (n : Nat) (l : List Byte) (last : Option (Nat × Bale)) (s : State) (t : Trunk) :
    fOf (loadFrame n l last s) t = fOf s t := by cases t <;> rfl

/-- The state after a frame start of trunk `t`: the frame carries the grant of this moment and the credit value of its own number. -/
def caravanSent (t : Trunk) (s : State) : State :=
  loadFrame (dataLanes s) (caravanBytes (takeGrant s).1 (fOf s t % 4) (cvalOf s (fOf s t % 4)))
    ((takeGrant s).1.own.map fun b => ((takeGrant s).1.q, b)) (setF t ((fOf s t + 1) % 2 ^ 32) (takeGrant s).2)

section
variable (t : Trunk) (s : State)

/-- Beside the grant a frame start sets words of the framer only. -/
theorem only_caravanSent : Only [.frm] (takeGrant s).2 (caravanSent t s) := by
  have numbered : Only [.frm] (takeGrant s).2 (setF t ((fOf s t + 1) % 2 ^ 32) (takeGrant s).2) := by simp
  exact numbered.trans ((only_mk_frm _ _ _).2 (.refl _ _))

theorem fOf_caravanSent : fOf (caravanSent t s) t = (fOf s t + 1) % 2 ^ 32 := (fOf_loadFrame _ _ _ _ t).trans (fOf_setF t _ _)

theorem fOf_caravanSent_peer : fOf (caravanSent t s) (peer t) = fOf s (peer t) := by
  unfold caravanSent
  rw [fOf_loadFrame, fOf_setF_peer, fOf_of_unfit (granted_takeGrant s).turn.only]

theorem credits_caravanSent : (caravanSent t s).frm.x = s.frm.x ∧ (caravanSent t s).frm.adv = s.frm.adv := by
  have granted := (granted_takeGrant s).turn.only.2
  obtain ⟨x, adv⟩ := credits_setF t ((fOf s t + 1) % 2 ^ 32) (takeGrant s).2
  exact ⟨x.trans (by rw [granted]), adv.trans (by rw [granted])⟩

/-- The next frame starts after the slots that the lanes of this one need. -/
theorem busyTo_caravanSent : (caravanSent t s).frm.busyTo = s.pw.elapsed + framePeriod (dataLanes s) := by
  have same : (setF t ((fOf s t + 1) % 2 ^ 32) (takeGrant s).2).pw = (takeGrant s).2.pw := Only.pw (M := [.frm]) (by simp)
  have clock := same.trans (granted_takeGrant s).turn.pw
  exact congrArg (fun w => w.elapsed + framePeriod (dataLanes s)) clock

end

section
variable {s : State} {t : Trunk} (leave : canSend s = some t)
include leave

theorem sendCaravan_start (start : s.frm.busyTo ≤ s.pw.elapsed) : sendCaravan s = caravanSent t s := by
  unfold sendCaravan
  rw [leave]
  exact if_neg (not_lt.2 start)

theorem sendTowers_leave :
    sendTowers s = { s with frm := { s.frm with tower0 := towerBytes s t 0, tower1 := towerBytes s t 1 } } := by
  unfold sendTowers
  rw [leave]

end

section
variable {s : State} (idle : canSend s = none)
include idle

theorem sendCaravan_none : sendCaravan s = s := by
  unfold sendCaravan
  rw [idle]

theorem sendTowers_none : sendTowers s = s := by
  unfold sendTowers
  rw [idle]

end

theorem creditStep_of_run {s : State} (run : s.pw.coreRun = true) :
    creditStep s = if creditOk s = true then { s with frm := { s.frm with adv := s.frm.adv + 1 } } else s := by
  simp [creditStep, run]

/-! ### The commands -/

section
variable {s : State} (hp : s.pw.por = false) (run : s.pw.coreRun = true)
include hp run

theorem exec_caravanFrameSend : exec .caravanFrameSend s = .next (sendCaravan s) := congrArg _ (coreOnly_eq sendCaravan hp run)

theorem exec_towerFrameSend : exec .towerFrameSend s = .next (sendTowers s) := congrArg _ (coreOnly_eq sendTowers hp run)

theorem exec_creditAdvance : exec .creditAdvance s = .next (creditStep s) := congrArg _ (coreOnly_eq creditStep hp run)

end

/-- Settles O40: beside the grant a frame start sets the frame's words and its trunk's frame number; a tower frame sets its own bytes,
and a credit the count. -/
theorem framesLeaveOnTheActiveTrunk : Obligations.FramesLeaveOnTheActiveTrunk := by
  intro s hp run
  refine ⟨fun t leave start => ?_, fun t leave => ?_, fun idle => ⟨?_, ?_⟩, fun free => ?_, fun spent => ?_⟩
  · obtain ⟨turn, fits⟩ := granted_takeGrant s
    have sets := only_caravanSent t s
    obtain ⟨x, adv⟩ := credits_caravanSent t s
    exact ⟨_, (exec_caravanFrameSend hp run).trans (congrArg _ (sendCaravan_start leave start)), turn.only.1.mono.trans sets.mono,
      (congrArg Fabric.regs sets.fab).trans turn.told.regs, rfl, rfl, rfl, rfl, busyTo_caravanSent t s, fOf_caravanSent t s,
      fOf_caravanSent_peer t s, x, adv, sets.ser, fits⟩
  · exact (exec_towerFrameSend hp run).trans (congrArg _ (sendTowers_leave leave))
  · exact (exec_caravanFrameSend hp run).trans (congrArg _ (sendCaravan_none idle))
  · exact (exec_towerFrameSend hp run).trans (congrArg _ (sendTowers_none idle))
  · exact (exec_creditAdvance hp run).trans (congrArg _ ((creditStep_of_run run).trans (if_pos free)))
  · exact (exec_creditAdvance hp run).trans (congrArg _ ((creditStep_of_run run).trans (if_neg (by simp [spent]))))

end Sys2Proof.Machine
end

section
/-! The lanes of a trunk (R238–R249): the operations that leave them alone, and what those of bring-up, clock and lock make of them. -/

namespace Sys2Proof.Machine

/-! ### What leaves the lanes alone -/

theorem getLn_of_only {M : List Part} {s t : State} (h : Only M s t) (x : Trunk) (hA : Part.lnA ∉ M) (hB : Part.lnB ∉ M) :
    getLn t x = getLn s x := by
  cases x
  · exact h.lnA hA
  · exact h.lnB hB

section
variable (x t : Trunk) (p i n : Nat) (s : State)

@[simp] theorem getLn_countD : getLn (countD p i n s) x = getLn s x :=
  getLn_of_only (M := [.fab]) (by simp) x (by decide) (by decide)
@[simp] theorem getLn_count : getLn (count p i s) x = getLn s x := getLn_countD x p i 0 s
@[simp] theorem getLn_roleSync : getLn (roleSync s) x = getLn s x :=
  getLn_of_only (M := [.fab, .sup]) (by simp) x (by decide) (by decide)
@[simp] theorem getLn_refLost : getLn (refLost t s) x = getLn s x :=
  getLn_of_only (M := [.fab, .orb, .pll]) (by simp) x (by decide) (by decide)
@[simp] theorem getLn_refFirst : getLn (refFirst t s) x = getLn s x :=
  getLn_of_only (M := [.pll]) (by simp) x (by decide) (by decide)
@[simp] theorem getLn_stageClock : getLn (stageClock s) x = getLn s x :=
  getLn_of_only (M := [.pw]) (by simp) x (by decide) (by decide)
@[simp] theorem getLn_setVddl (v : Bool) : getLn (setVddl t v s) x = getLn s x :=
  getLn_of_only (M := [.pw]) (by simp) x (by decide) (by decide)
@[simp] theorem getLn_modTs (f : TrunkSup → TrunkSup) : getLn (modTs t f s) x = getLn s x :=
  getLn_of_only (M := [.sup]) (by simp) x (by decide) (by decide)
@[simp] theorem getLn_modDl (f : Dl → Dl) : getLn (modDl t f s) x = getLn s x :=
  getLn_of_only (M := [.dlA, .dlB]) (by simp) x (by decide) (by decide)
@[simp] theorem getLn_ctlLost : getLn (ctlLost t s) x = getLn s x :=
  getLn_of_only (M := [.fab, .dlA, .dlB]) (by simp) x (by decide) (by decide)

end

/-! ### What the lanes send (R244, R246) -/

/-- The training sets and capability blocks follow the state; nothing else of a lane does. -/
theorem sameLane_txBoth (s : State) (x : Trunk) : SameLane s (txBoth s) x := by cases x <;> rfl

/-- Lanes that an operation left alone are the same after the lanes' streams have followed. -/
theorem sameLane_sent {s v : State} {x : Trunk} (h : getLn v x = getLn s x) : SameLane s (txBoth v) x :=
  (sameLane_txBoth v x).trans (by rw [h])

@[simp] theorem lanes_txBoth (s : State) (x : Trunk) :
    (getLn (txBoth s) x).st = (getLn s x).st ∧ (getLn (txBoth s) x).since = (getLn s x).since ∧
    (getLn (txBoth s) x).fwdPres = (getLn s x).fwdPres ∧ (getLn (txBoth s) x).fwdOk = (getLn s x).fwdOk ∧
    (getLn (txBoth s) x).fwdCnt = (getLn s x).fwdCnt ∧ (getLn (txBoth s) x).dlSignal = (getLn s x).dlSignal ∧
    (getLn (txBoth s) x).dlLock = (getLn s x).dlLock ∧ (getLn (txBoth s) x).service = (getLn s x).service ∧
    (getLn (txBoth s) x).capMis = (getLn s x).capMis ∧ (getLn (txBoth s) x).retrain = (getLn s x).retrain := by
  cases x <;> exact ⟨rfl, rfl, rfl, rfl, rfl, rfl, rfl, rfl, rfl, rfl⟩

/-! ### DETECT and TRAIN (R243) -/

/-- The lanes of a trunk that has entered DETECT in CK_SUP cycle `now` (R243, R247, R249). -/
def detecting (now : Nat) (l : Lanes) : Lanes :=
  { l with st := 1, since := now, lastPulse := now, service := 0, wasIn := 0, good := 0, runL := 0, runD := 0, runA := 0,
           capMis := false, idle := 0, pulsed := 0, retrain := false }

section
variable (t : Trunk) (s : State)

theorem getLn_enterDetect : getLn (enterDetect t s) t = detecting s.pw.sup (getLn s t) := getLn_modLn _ _ _

theorem getLn_trainFail : getLn (trainFail t s) t =
    if 2 ≤ (getLn s t).st ∧ (getLn s t).st ≤ 5 then detecting s.pw.sup (getLn s t) else getLn s t := by
  unfold trainFail
  split <;> simp [getLn_enterDetect]

@[simp] theorem getLn_trainFail_peer : getLn (trainFail t s) (peer t) = getLn s (peer t) := by
  unfold trainFail
  split <;> simp [enterDetect]

/-- A failed training leaves clock, signal and lock of the trunk. -/
@[simp] theorem lanes_trainFail :
    (getLn (trainFail t s) t).fwdPres = (getLn s t).fwdPres ∧ (getLn (trainFail t s) t).fwdOk = (getLn s t).fwdOk ∧
    (getLn (trainFail t s) t).fwdCnt = (getLn s t).fwdCnt ∧ (getLn (trainFail t s) t).dlSignal = (getLn s t).dlSignal ∧
    (getLn (trainFail t s) t).dlLock = (getLn s t).dlLock := by
  rw [getLn_trainFail]
  split <;> simp [detecting]

theorem st_detectJudge :
    (getLn (detectJudge t s) t).st = if (getLn s t).fwdOk && trainable s t then 2 else (getLn s t).st := by
  have goes : (decide ((getLn s t).st = 1) && s.pw.xtal && (getLn s t).fwdOk && (getLn s t).dlSignal && (getLn s t).pulsed.getLsbD 0
      && (getLn s t).pulsed.getLsbD 4 && (getLn s t).pulsed.getLsbD 5) = ((getLn s t).fwdOk && trainable s t) := by
    unfold trainable
    ac_rfl
  simp only [detectJudge, goes]
  split <;> simp [enterSt]

@[simp] theorem getLn_detectJudge_peer : getLn (detectJudge t s) (peer t) = getLn s (peer t) := by
  unfold detectJudge
  dsimp only
  split <;> simp [enterSt]

/-- So does the entry into TRAIN. -/
@[simp] theorem lanes_detectJudge :
    (getLn (detectJudge t s) t).fwdPres = (getLn s t).fwdPres ∧ (getLn (detectJudge t s) t).fwdOk = (getLn s t).fwdOk ∧
    (getLn (detectJudge t s) t).fwdCnt = (getLn s t).fwdCnt ∧ (getLn (detectJudge t s) t).dlSignal = (getLn s t).dlSignal ∧
    (getLn (detectJudge t s) t).dlLock = (getLn s t).dlLock := by
  unfold detectJudge
  dsimp only
  split <;> simp [enterSt]

end

end Sys2Proof.Machine
end

section
/-! The trunks' rails (R243, R432, R433, R439, R440): what a rail's return does out of the POR, and what levels do under it. -/

namespace Sys2Proof.Machine

/-! ### A trunk's supply (R243, R440) -/

/-- Every level from 0.93 V to below 1.08 V is the rise of a trunk's supply, and leaves a powered trunk alone. -/
theorem vddlTo_up (t : Trunk) (s : State) {mv : Nat} (low : 930 ≤ mv) (high : mv < 1080) : vddlTo t mv s = vddlTo t 1000 s := by
  have inside : ¬ (mv < 900 ∨ 1100 < mv) := by omega
  simp only [vddlTo, if_neg inside, if_pos (And.intro low high)]
  rfl

section
variable (t : Trunk) (s : State)

theorem vddlOk_setVddl (v : Bool) : vddlOk (setVddl t v s) t = v := by cases t <;> rfl

theorem sup_setVddl (v : Bool) : (setVddl t v s).pw.sup = s.pw.sup := by cases t <;> rfl

/-- A trunk that is OFF goes to DETECT when its supply rises, whether or not the bring-up clears a latch (R243, R286, R287). -/
theorem getLn_supplyUp (off : (getLn s t).st = 0) : getLn (supplyUp t s) t = detecting s.pw.sup (getLn s t) := by
  unfold supplyUp beginDetect
  simp only [getLn_setVddl, off, ne_eq, not_true_eq_false, if_false]
  split <;> simp [getLn_enterDetect, sup_setVddl]

theorem pw_supplyUp : (supplyUp t s).pw = (setVddl t true s).pw := by
  have kept (u : State) (h : Only [.fab, .lnA, .lnB, .sup] (setVddl t true s) u) : u.pw = (setVddl t true s).pw := h.pw (by decide)
  unfold supplyUp
  dsimp only
  split_ifs <;> exact kept _ (by simp)

theorem kept_supplyUp : FabKept ∅ s (supplyUp t s) := by
  have risen : FabKept ∅ s (setVddl t true s) := kept_beside (by simp)
  have begun : FabKept ∅ s (enterDetect t (setVddl t true s)) := risen.trans (kept_beside (by simp))
  have anew : FabKept ∅ s (beginDetect t (setVddl t true s)) := risen.trans (kept_beside (by simp))
  unfold supplyUp
  exact (risen.trans (kept_roleSync _)).ite ((begun.trans (kept_roleSync _)).ite (anew.trans (kept_roleSync _)))

end

theorem exec_trunkSupplyUp {s : State} (hp : s.pw.por = false) {t : Trunk} (unpowered : vddlOk s t = false) :
    exec (.trunkSupplyUp t) s = .next (txBoth (supplyUp t s)) := by
  have rises : vddlTo t 1000 s = supplyUp t s := by simp [vddlTo, unpowered]
  have sent := running_eq (fun s => txBoth (vddlTo t 1000 s)) hp
  rw [rises] at sent
  exact congrArg Host.Outcome.next sent

/-! ### Levels under the POR (R424, R440) -/

/-- Under the POR no command reaches the lanes. -/
theorem lanesAfter_held {s : State} (hp : s.pw.por = true) (f : State → State) : lanesAfter f s = s := if_pos hp

/-- VDDIO's POR detector sets at 1.55 V and, once set, clears below 1.45 V. -/
theorem porLevel_eq (was : Bool) (rise fall mv : Nat) (order : fall ≤ rise) :
    porLevel was rise fall mv = decide (rise ≤ mv ∨ (was = true ∧ fall ≤ mv)) := by
  cases was
  · simp [porLevel]
  · have above : (rise ≤ mv ∨ fall ≤ mv) ↔ fall ≤ mv := ⟨fun h => h.elim order.trans id, .inr⟩
    simp [porLevel, above]

theorem vddTo_up {s : State} {mv : Nat} (up : 800 ≤ mv) : vddTo mv s = { s with pw := { s.pw with vdd := true } } := by
  have set : porLevel s.pw.vdd 800 740 mv = true := by simp [porLevel_eq, up]
  exact if_pos set

theorem vddTo_low {s : State} {mv : Nat} (off : s.pw.vdd = false) (low : mv < 800) : vddTo mv s = s := by
  simp [vddTo, porLevel, off, low]

theorem vddaTo_held {s : State} (hp : s.pw.por = true) (up : Bool) : vddaTo up s = { s with pw := { s.pw with vdda := up } } := if_pos hp

/-- Where nothing is lost of VDDIO, its level changes detector and range only. -/
theorem vddioTo_kept {s : State} {mv : Nat} (kept : s.pw.por = true ∨ railInRange .vddio mv = true) :
    vddioTo mv s = { s with pw := { s.pw with vddioPor := porLevel s.pw.vddioPor 1550 1450 mv, vddio := railInRange .vddio mv } } := by
  have still : (s.pw.vddio && !railInRange .vddio mv && !s.pw.por) = false := by
    rcases kept with held | inside
    · simp [held]
    · simp [inside]
  simp [vddioTo, still]

/-- In its range VDDIO's POR detector is set (R439, R440). -/
theorem porLevel_vddio {mv : Nat} (inside : railInRange .vddio mv = true) (was : Bool) : porLevel was 1550 1450 mv = true := by
  simp only [railInRange, Bool.and_eq_true, decide_eq_true_eq] at inside
  rw [porLevel_eq _ _ _ _ (by decide), decide_eq_true_eq]
  omega

/-- Settles O14: out of the POR each rail's return is the branch of its own range, and a trunk's supply brings the trunk to DETECT;
under the POR only levels follow. -/
theorem railReturnAndRailsUnderThePor : Obligations.RailReturnAndRailsUnderThePor := by
  intro s
  refine ⟨fun hp => ⟨fun mv off inside => ?_, fun mv inside => ?_, fun mv inside => ?_, fun mv low high => ⟨?_, ?_⟩,
    fun t unpowered off => ?_⟩, fun hp mv => ⟨?_, ?_, ?_, rfl, rfl, rfl, fun up => ?_, fun off low => ?_, ?_, ?_, ?_, ?_⟩⟩
  · have returns : vddaTo (railInRange .vdda mv) s = vddaReturn s := by simp [vddaTo, hp, inside]
    exact congrArg _ (returns.trans (if_neg (by simp [off])))
  · have noted := vddioTo_kept (s := s) (.inr inside)
    rw [porLevel_vddio inside, inside] at noted
    exact congrArg _ noted
  · exact congrArg (fun up => Host.Outcome.next { s with pw := { s.pw with vddp := up } }) inside
  · exact congrArg _ (congrArg (lanesAfter · s) (funext fun u => vddlTo_up .a u low high))
  · exact congrArg _ (congrArg (lanesAfter · s) (funext fun u => vddlTo_up .b u low high))
  · have lane := getLn_supplyUp t s off
    have sent : Only [.lnA, .lnB] (supplyUp t s) (txBoth (supplyUp t s)) := by simp
    have powered : vddlOk (txBoth (supplyUp t s)) t = vddlOk (setVddl t true s) t := by
      unfold vddlOk
      rw [sent.pw (by decide), pw_supplyUp]
    have regs : (txBoth (supplyUp t s)).fab.regs = s.fab.regs :=
      (congrArg Fabric.regs (sent.fab (by decide))).trans (kept_supplyUp t s).regs
    refine ⟨_, exec_trunkSupplyUp hp unpowered, powered.trans (vddlOk_setVddl t s true), ?_, ?_, ?_, ?_, ?_, regs, by simp⟩ <;>
      simp [lane, detecting]
  · exact congrArg _ (vddaTo_held hp _)
  · exact congrArg _ (vddaTo_held hp _)
  · have noted := vddioTo_kept (s := s) (mv := mv) (.inl hp)
    rw [porLevel_eq _ _ _ _ (by decide)] at noted
    exact congrArg _ noted
  · exact congrArg _ (vddTo_up up)
  · exact congrArg _ (vddTo_low off low)
  all_goals exact congrArg _ (lanesAfter_held hp _)

end Sys2Proof.Machine
end

section
/-! Forwarded clock, downlink signal and lock, test checkers (R238–R240, R243, R255, R256, R449). -/

namespace Sys2Proof.Machine

/-! ### The forwarded clock (R238) -/

/-- What FWD_OK shows: the clock is present and its last count lies in range. -/
def clockGood (l : Lanes) : Bool := l.fwdPres && decide (1480 ≤ l.fwdCnt ∧ l.fwdCnt ≤ 1720)

section
variable (t : Trunk) (s : State)

theorem fwdSync_falls (was : (getLn s t).fwdOk = true) (bad : clockGood (getLn s t) = false) : fwdSync t s =
    trainFail t (refLost t (count (lnPage t) 1 (modLn t (fun l => { l with fwdOk := false }) s))) := by
  unfold clockGood at bad
  simp only [fwdSync, was, bad, Bool.not_false, Bool.and_self, if_true]

theorem fwdSync_rises (was : (getLn s t).fwdOk = false) (good : clockGood (getLn s t) = true) : fwdSync t s =
    detectJudge t (stageClock (refFirst t (modLn t (fun l => { l with fwdOk := true, fwdAt := s.pw.sup }) s))) := by
  unfold clockGood at good
  simp only [fwdSync, was, good, Bool.not_true, Bool.not_false, Bool.and_self, Bool.false_eq_true, if_false, if_true]

theorem fwdSync_stays (same : (getLn s t).fwdOk = clockGood (getLn s t)) : fwdSync t s = s := by
  unfold clockGood at same
  simp only [fwdSync, same, Bool.and_not_self, Bool.not_and_self, Bool.false_eq_true, if_false]

/-- FWD_OK follows clock and count, which it leaves, and the other trunk's lanes. -/
theorem lanes_fwdSync :
    (getLn (fwdSync t s) t).fwdOk = clockGood (getLn s t) ∧ (getLn (fwdSync t s) t).fwdPres = (getLn s t).fwdPres ∧
    (getLn (fwdSync t s) t).fwdCnt = (getLn s t).fwdCnt ∧ getLn (fwdSync t s) (peer t) = getLn s (peer t) := by
  cases was : (getLn s t).fwdOk <;> cases good : clockGood (getLn s t)
  · rw [fwdSync_stays t s (was.trans good.symm)]
    exact ⟨was, rfl, rfl, rfl⟩
  · simp [fwdSync_rises t s was good]
  · simp [fwdSync_falls t s was good]
  · rw [fwdSync_stays t s (was.trans good.symm)]
    exact ⟨was, rfl, rfl, rfl⟩

/-- The fall of FWD_OK ends a training. -/
theorem st_fwdSync_falls (was : (getLn s t).fwdOk = true) (bad : clockGood (getLn s t) = false)
    (trains : 2 ≤ (getLn s t).st ∧ (getLn s t).st ≤ 5) : (getLn (fwdSync t s) t).st = 1 := by
  rw [fwdSync_falls t s was bad, getLn_trainFail]
  simp [trains, detecting]

/-- The rise of FWD_OK starts one where the trunk in DETECT waits for it. -/
theorem st_fwdSync_rises (was : (getLn s t).fwdOk = false) :
    (getLn (fwdSync t s) t).st = if clockGood (getLn s t) && trainable s t then 2 else (getLn s t).st := by
  cases good : clockGood (getLn s t)
  · simp [fwdSync_stays t s (was.trans good.symm)]
  · have shown (u : State) (shape : skel u = skel s) (lane : getLn u t = { getLn s t with fwdOk := true, fwdAt := s.pw.sup }) :
        (getLn (detectJudge t u) t).st = if trainable s t then 2 else (getLn s t).st := by
      have xtal : u.pw.xtal = s.pw.xtal := congrArg Skel.xtal shape
      simp [st_detectJudge, trainable, xtal, lane]
    rw [fwdSync_rises t s was good, Bool.true_and]
    exact shown _ (by simp) (by simp)

end

/-! ### The downlink's signal and lock (R239, R240) -/

section
variable (t : Trunk) (s : State)

@[simp] theorem lanes_lockFall :
    (getLn (lockFall t s) t).dlLock = false ∧ (getLn (lockFall t s) t).st = (getLn s t).st ∧
    (getLn (lockFall t s) t).dlSignal = (getLn s t).dlSignal := by
  unfold lockFall
  cases lock : (getLn s t).dlLock
  · simp [lock]
  · simp only [if_true]
    split <;> simp

@[simp] theorem getLn_lockFall_peer : getLn (lockFall t s) (peer t) = getLn s (peer t) := by
  unfold lockFall
  dsimp only
  split_ifs <;> simp

@[simp] theorem lanes_bitLose :
    (getLn (bitLose t s) t).dlLock = false ∧ (getLn (bitLose t s) t).st = (getLn s t).st ∧
    (getLn (bitLose t s) t).dlSignal = (getLn s t).dlSignal := by
  simp [bitLose]

@[simp] theorem getLn_bitLose_peer : getLn (bitLose t s) (peer t) = getLn s (peer t) := by simp [bitLose]

/-- A signal on a powered trunk is shown and leaves the lock; its loss clears both and ends a training. -/
theorem lanes_signalChange (on : Bool) (powered : vddlOk s t = true) :
    (getLn (signalChange t on s) t).dlSignal = on ∧ (getLn (signalChange t on s) t).dlLock = ((getLn s t).dlLock && on) := by
  cases on <;> simp [signalChange, powered]

theorem st_signalChange_lost (trains : 2 ≤ (getLn s t).st ∧ (getLn s t).st ≤ 5) : (getLn (signalChange t false s) t).st = 1 := by
  simp [signalChange, getLn_trainFail, trains, detecting]

theorem getLn_signalChange_peer (on : Bool) : getLn (signalChange t on s) (peer t) = getLn s (peer t) := by
  unfold signalChange
  split_ifs <;> simp

/-- The amplitude that decides nothing leaves the signal to a free value (R449; log entry 4). -/
theorem signalLevel_eq (mv : Nat) : ∃ on v, signalLevel t mv s = signalChange t on v ∧ Only [.pw] s v ∧ vddlOk v t = vddlOk s t ∧
    (75 ≤ mv → on = true) ∧ (mv ≤ 35 → on = false) ∧ ((75 ≤ mv ∨ mv ≤ 35) → v = s) := by
  by_cases high : 75 ≤ mv
  · exact ⟨true, s, if_pos high, .refl _ _, rfl, fun _ => rfl, fun low => by omega, fun _ => rfl⟩
  by_cases low : mv ≤ 35
  · exact ⟨false, s, (if_neg high).trans (if_pos low), .refl _ _, rfl, fun up => absurd up high, fun _ => rfl, fun _ => rfl⟩
  · exact ⟨(takeFree s).1.testBit 0, (takeFree s).2, (if_neg high).trans (if_neg low), by simp, by cases t <;> rfl,
      fun up => absurd up high, fun down => absurd down low, fun out => absurd out (by omega)⟩

end

section
variable {s : State} {t : Trunk} {why : LockLoss}

/-- What R240 lists takes the lock, where the frames say so. -/
theorem lanes_lockLose (commas : why = .commas → badCommas (getLn s t) = true)
    (errors : why = .codeErrors → badSymbols (getLn s t) = true) :
    (getLn (lockLose t why s) t).dlLock = false ∧ getLn (lockLose t why s) (peer t) = getLn s (peer t) := by
  cases why with
  | signal => exact ⟨by simp [lockLose, signalChange], getLn_signalChange_peer t s false⟩
  | bitLock => exact ⟨by simp [lockLose], getLn_bitLose_peer t s⟩
  | commas => simp [lockLose, commas rfl]
  | codeErrors => simp [lockLose, errors rfl]

theorem lockLose_otherwise
    (otherwise : why = .commas ∧ badCommas (getLn s t) = false ∨ why = .codeErrors ∧ badSymbols (getLn s t) = false) :
    lockLose t why s = s := by
  obtain ⟨rfl, few⟩ | ⟨rfl, few⟩ := otherwise <;> exact if_neg (by simp [few])

end

/-! ### The test checkers (R255) -/

theorem prbsSync_loopback {s : State} {t : Trunk} (on : lbOn s t = true) (errs : Nat) : prbsSync t true errs s =
    modLn t (fun l => { l with lb := { l.lb with sync := true, err := min 0xFFFF (l.lb.err + errs) } }) s := by
  simp [prbsSync, modChk, on]

/-- The downlink's checker matches bits with the bit clock recovered. -/
theorem prbsSync_downlink {s : State} {t : Trunk} (on : dlChk s t = true) (errs : Nat) : prbsSync t false errs s =
    modLn t (fun l => { l with prbs := { l.prbs with sync := true, err := min 0xFFFF (l.prbs.err + errs) }, bitLock := true }) s := by
  simp [prbsSync, modChk, on]

/-! ### The commands -/

section
variable {s : State} (hp : s.pw.por = false) (t : Trunk)
include hp

theorem exec_fwdClockLoss : exec (.fwdClockLoss t) s = .next (txBoth (fwdSync t (modLn t (fun l => { l with fwdPres := false }) s))) :=
  congrArg _ (running_eq (fun s => txBoth (fwdLoss t s)) hp)

theorem exec_fwdClockReturn (powered : vddlOk s t = true) :
    exec (.fwdClockReturn t) s = .next (txBoth (fwdSync t (modLn t (fun l => { l with fwdPres := true }) s))) :=
  congrArg _ ((running_eq (fun s => txBoth (fwdReturn t s)) hp).trans (congrArg txBoth (if_pos powered)))

theorem exec_fwdCountWindow (n : BitVec 12) :
    exec (.fwdCountWindow t n) s = .next (txBoth (fwdSync t (modLn t (fun l => { l with fwdCnt := n.toNat }) s))) :=
  congrArg _ (running_eq (fun s => txBoth (fwdWindow t n.toNat s)) hp)

theorem exec_dlSignalChange (mv : Nat) : exec (.dlSignalChange t mv) s = .next (txBoth (signalLevel t mv s)) :=
  congrArg _ (running_eq (fun s => txBoth (signalLevel t mv s)) hp)

theorem exec_dlLockAcquire (signal : (getLn s t).dlSignal = true) (off : dlChk s t = false) : exec (.dlLockAcquire t) s =
    .next (txBoth (modLn t (fun l => { l with dlLock := true, bitLock := true, badSym0 := 0, errBits := [] }) s)) :=
  congrArg _ ((running_eq (fun s => txBoth (lockAcquire t s)) hp).trans (congrArg txBoth (if_pos (by simp [signal, off]))))

theorem exec_dlLockLoss (why : LockLoss) : exec (.dlLockLoss t why) s = .next (txBoth (lockLose t why s)) :=
  congrArg _ (running_eq (fun s => txBoth (lockLose t why s)) hp)

theorem exec_prbsSync (loopback : Bool) (errs : Nat) : exec (.prbsSync t loopback errs) s = .next (prbsSync t loopback errs s) :=
  congrArg _ (running_eq (prbsSync t loopback errs) hp)

theorem exec_prbsSyncLoss (loopback : Bool) (errs : Nat) : exec (.prbsSyncLoss t loopback errs) s = .next (prbsLoss t loopback errs s) :=
  congrArg _ (running_eq (prbsLoss t loopback errs) hp)

end

/-- Settles O47: each command of clock, count, signal and lock ends in one operation on the lanes of its trunk, whose cases `fwdSync`,
`signalChange` and `lockFall` are; a checker changes alone. -/
theorem clockSignalLockAndCheckers : Obligations.ClockSignalLockAndCheckers := by
  intro s t hp
  refine ⟨⟨?_, fun powered => ?_, fun n => ?_⟩, fun mv powered => ?_, fun signal off => ?_, fun why commas errors => ?_,
    fun why otherwise => ?_, fun errs => ⟨fun on => ?_, fun on => ?_, fun sync => ?_, fun sync => ?_⟩⟩
  · obtain ⟨ok, pres, -, other⟩ := lanes_fwdSync t (modLn t (fun l => { l with fwdPres := false }) s)
    refine ⟨_, exec_fwdClockLoss hp t, by simp, by simp [pres], by simp [ok, clockGood], sameLane_sent (by simp [other]),
      fun low high was => ?_⟩
    have falls := st_fwdSync_falls t (modLn t (fun l => { l with fwdPres := false }) s) (by simp [was]) (by simp [clockGood])
      (by simp [low, high])
    simp [falls]
  · obtain ⟨ok, pres, -, other⟩ := lanes_fwdSync t (modLn t (fun l => { l with fwdPres := true }) s)
    refine ⟨_, exec_fwdClockReturn hp t powered, by simp, by simp [pres], by simp [ok, clockGood], sameLane_sent (by simp [other]),
      fun was => ?_⟩
    have rises := st_fwdSync_rises t (modLn t (fun l => { l with fwdPres := true }) s) (by simp [was])
    simp [rises, ok, trainable]
  · obtain ⟨ok, -, cnt, other⟩ := lanes_fwdSync t (modLn t (fun l => { l with fwdCnt := n.toNat }) s)
    refine ⟨_, exec_fwdCountWindow hp t n, by simp, by simp [cnt], by simp [ok, clockGood], sameLane_sent (by simp [other]),
      fun was => ?_⟩
    have rises := st_fwdSync_rises t (modLn t (fun l => { l with fwdCnt := n.toNat }) s) (by simp [was])
    simp [rises, ok, trainable]
  · obtain ⟨on, v, level, only, rail, high, low, sure⟩ := signalLevel_eq t s mv
    have lane (x : Trunk) : getLn v x = getLn s x := getLn_of_only only x (by decide) (by decide)
    obtain ⟨shows, lock⟩ := lanes_signalChange t v on (rail.trans powered)
    refine ⟨_, on, (exec_dlSignalChange hp t mv).trans (by rw [level]), only.mono.trans (by simp), high, low, fun out => ?_,
      by simp [shows], by simp [lock, lane], sameLane_sent ((getLn_signalChange_peer t v on).trans (lane _)), fun lost two five => ?_⟩
    · rw [sure out]
      exact Only.pw (M := [.fab, .lnA, .lnB, .dlA, .dlB, .sup]) (by simp) (by decide)
    · subst lost
      simp [st_signalChange_lost t v (by simp [lane, two, five])]
  · exact ⟨_, exec_dlLockAcquire hp t signal off, by simp, sameLane_txBoth _ t, sameLane_sent (by simp)⟩
  · obtain ⟨lock, other⟩ := lanes_lockLose commas errors
    exact ⟨_, exec_dlLockLoss hp t why, by simp, by simp [lock], sameLane_sent other⟩
  · exact ⟨_, (exec_dlLockLoss hp t why).trans (by rw [lockLose_otherwise otherwise]), by simp, sameLane_txBoth s t,
      sameLane_txBoth s _⟩
  · exact (exec_prbsSync hp t true errs).trans (congrArg _ (prbsSync_loopback on errs))
  · exact (exec_prbsSync hp t false errs).trans (congrArg _ (prbsSync_downlink on errs))
  · exact ⟨_, exec_prbsSyncLoss hp t true errs, by simp, by simp [prbsLoss, modChk, sync], by simp [prbsLoss]⟩
  · exact ⟨_, exec_prbsSyncLoss hp t false errs, by simp, by simp [prbsLoss, modChk, sync], by simp [prbsLoss]⟩

end Sys2Proof.Machine
end

section
/-! One downlink frame (R240, R260–R264): where it lands, what its fast byte leaves due, and what the rest of it leaves alone. -/

namespace Sys2Proof.Machine

/-! ### What a frame's control word and probe byte leave alone -/

/-- What landing slot, fast byte and counts of frames make of a downlink: landing slot, due commands, last fast byte, counts. -/
def fastPart (d : Dl) : Option Nat × List Due × Nat × Nat × Nat := (d.landed, d.due, d.fc, d.frames, d.crcErr)

/-- Of downlink `t` its fast part, the other downlink and every word in force have stayed. -/
structure BesideFast (t : Trunk) (s u : State) : Prop where
  kept  : FabKept ∅ s u
  other : getDl u (peer t) = getDl s (peer t)
  own   : fastPart (getDl u t) = fastPart (getDl s t)

namespace BesideFast

variable {t : Trunk} {s u v : State}

theorem refl (s : State) : BesideFast t s s := ⟨.refl s, rfl, rfl⟩

theorem trans (h : BesideFast t s u) (k : BesideFast t u v) : BesideFast t s v :=
  ⟨h.kept.trans k.kept, k.other.trans h.other, k.own.trans h.own⟩

theorem ite {c : Prop} [Decidable c] (h : BesideFast t s u) (k : BesideFast t s v) : BesideFast t s (if c then u else v) := by
  split
  · exact h
  · exact k

/-- An update of the downlink outside its fast part. -/
theorem modDl (h : BesideFast t s u) (f : Dl → Dl) (hf : ∀ d, fastPart (f d) = fastPart d := by exact fun _ => rfl) :
    BesideFast t s (modDl t f u) :=
  h.trans ⟨(FabKept.refl u).modDl t f, getDl_modDl_peer t f u, (congrArg fastPart (getDl_modDl t f u)).trans (hf _)⟩

theorem count (h : BesideFast t s u) (p i : Nat) : BesideFast t s (count p i u) :=
  h.trans ⟨kept_count u p i, getDl_count p i u _, congrArg fastPart (getDl_count p i u t)⟩

theorem frm (h : BesideFast t s u) (x : Framer) : BesideFast t s { u with frm := x } :=
  h.trans ⟨(FabKept.refl u).frm x, by cases t <;> rfl, by cases t <;> rfl⟩

end BesideFast

section
variable (t : Trunk) (s : State)

theorem beside_arrival (ph : Nat) : BesideFast t s (arrival t ph s) := by
  unfold arrival onRise
  have noted := (BesideFast.refl (t := t) s).modDl
    fun d => { d with phase := ph % 65536, near := decide (ph < 2048) || decide (63487 < ph) }
  exact (noted.count _ _).ite noted

/-! #### The probe byte (R77, R305) -/

theorem beside_ttAbort : BesideFast t s (ttAbort t s) := ((BesideFast.refl s).modDl _ |>.count _ _).ite (.refl s)

theorem beside_ttByte (b e n : Nat) : BesideFast t s (ttByte t b e n s) := by
  have aborted := beside_ttAbort t s
  have same := BesideFast.refl (t := t) s
  exact same.ite <| ((same.count _ _).ite same).ite <| (aborted.modDl _).ite <| same.ite <| aborted.ite (same.modDl _)

theorem beside_serveProbe (tag ph e : Nat) : BesideFast t s (serveProbe t tag ph e s) :=
  ((BesideFast.refl s).count _ _).ite ((BesideFast.refl s).frm _)

theorem beside_probeByte (b ph e : Nat) : BesideFast t s (probeByte t b ph e s) := by
  have other : BesideFast t s (ttOther t b s) := (beside_ttAbort t s).ite (.refl s)
  unfold probeByte
  generalize ttOther t b s = v at other
  exact other.ite <| ((other.trans (beside_serveProbe t v _ ph e)).ite (other.count _ _)).ite <| (other.count _ _).ite <|
    (other.trans (beside_ttByte t v b e _)).ite other

/-! #### The control word (R268, R269, R272) -/

theorem beside_ctlAbort : BesideFast t s (ctlAbort t s) := by
  unfold ctlAbort
  split
  · exact ((BesideFast.refl s).modDl _).count _ _
  · exact .refl s

theorem beside_ctlHeader (w e : Nat) : BesideFast t s (ctlHeader t w e s) := by
  have same := BesideFast.refl (t := t) s
  have held := (same.modDl fun d => { d with drop := 0 }).modDl
    fun d => { d with held := d.held ++ [{ hdr := BitVec.ofNat 32 w, ready := e + 3 }] }
  exact same.ite <| (((same.modDl _).ite same).count _ _).ite <| ((same.modDl _).modDl _).ite <| (held.count _ _).ite held

theorem beside_ctlData (k : Packet) (w e : Nat) : BesideFast t s (ctlData t k w e s) :=
  ((BesideFast.refl s).modDl _).ite ((BesideFast.refl s).modDl _)

theorem beside_ctlWord (w e : Nat) : BesideFast t s (ctlWord t w e s) := by
  have same := BesideFast.refl (t := t) s
  have lost : BesideFast t s (ctlLost t s) := same.ite ((beside_ctlAbort t s).modDl _)
  unfold ctlWord
  refine lost.ite ((same.modDl _).ite ?_)
  split
  · exact ((beside_ctlAbort t s).trans (beside_ctlHeader t _ w e)).ite (beside_ctlData t s _ w e)
  · exact beside_ctlHeader t s w e

end

/-! ### The fast byte (R264) -/

/-- The commands of fast byte `b` of a frame landed in slot `e`. -/
def fastDue (e b : Nat) : Due :=
  { slot := e + 3, code := if b / 4 = 0 then none else some (b / 4), orbit := b.testBit 1, accept := b.testBit 0 }

/-- A downlink that has taken fast byte `b` in landing slot `e`. -/
def fastTaken (e b : Nat) (d : Dl) : Dl := if b = 0 then d else { d with fc := b, due := d.due ++ [fastDue e b] }

theorem fastPart_fastTaken {d d' : Dl} (h : fastPart d = fastPart d') (e b : Nat) :
    fastPart (fastTaken e b d) = fastPart (fastTaken e b d') := by
  simp only [fastPart, Prod.mk.injEq] at h
  obtain ⟨landed, due, fc, frames, crc⟩ := h
  unfold fastTaken
  split <;> simp [fastPart, *]

section
variable {s : State} {t : Trunk} (run : s.pw.coreRun = true)
include run

/-- With CK_CORE running a fast byte that is not zero is shown and falls due. -/
theorem fastByte_due {b : Nat} (some : b ≠ 0) (e : Nat) : fastByte t b e s =
    modDl t (fun d => { d with due := d.due ++ [fastDue e b] })
      (modDl t (fun d => { d with fc := b, fcSlot := slotNumber s e, acc := (d.acc + b % 2) % 2 ^ 32 }) s) := by
  have runs (f : Dl → Dl) : (modDl t f s).pw.coreRun = true := by simp [run]
  simp only [fastByte, if_neg some, runs, if_true]
  rfl

theorem fastPart_fastByte (b e : Nat) : fastPart (getDl (fastByte t b e s) t) = fastPart (fastTaken e b (getDl s t)) := by
  by_cases none : b = 0
  · simp [fastByte, fastTaken, none]
  · rw [fastByte_due run none, getDl_modDl, getDl_modDl, fastTaken, if_neg none]
    rfl

theorem kept_fastByte (b e : Nat) : FabKept ∅ s (fastByte t b e s) ∧ getDl (fastByte t b e s) (peer t) = getDl s (peer t) := by
  by_cases none : b = 0
  · simp [fastByte, none, FabKept.refl]
  · rw [fastByte_due run none]
    exact ⟨((FabKept.refl s).modDl t _).modDl t _, by simp⟩

/-! ### A decoded frame -/

/-- A decoded frame counts and gives its fast byte to its downlink; the rest of it is beside both. -/
theorem decodedFrame_taken (f : DlFrame) (e : Nat) : FabKept ∅ s (decodedFrame t f e s) ∧
    getDl (decodedFrame t f e s) (peer t) = getDl s (peer t) ∧ fastPart (getDl (decodedFrame t f e s) t) =
      fastPart (fastTaken e (frameByte f 1) { getDl s t with frames := ((getDl s t).frames + 1) % 2 ^ 32 }) := by
  unfold decodedFrame
  extract_lets s1 s2 s3 s4
  have runs : s1.pw.coreRun = true := by simp [s1, run]
  have counted : getDl s1 t = { getDl s t with frames := ((getDl s t).frames + 1) % 2 ^ 32 } := getDl_modDl _ _ _
  have arrived : BesideFast t s1 s2 := (beside_arrival t s1 f.phase).ite (.refl s1)
  have runs2 : s2.pw.coreRun = true := by
    have pw : s2.pw = s1.pw := Only.pw (M := [.fab, .dlA, .dlB]) (by simp [s2]) (by decide)
    rw [pw, runs]
  obtain ⟨kept, other⟩ := kept_fastByte (t := t) runs2 (frameByte f 1) e
  have fast : fastPart (getDl s3 t) = fastPart (fastTaken e (frameByte f 1) (getDl s2 t)) := fastPart_fastByte runs2 _ e
  have rest : BesideFast t s3 (ctlWord t (leNat (frameBytes f 2 4)) e s4) := (beside_probeByte t s3 _ _ e).trans (beside_ctlWord t s4 _ e)
  refine ⟨((FabKept.refl s).modDl t _).trans (arrived.kept.trans (kept.trans rest.kept)),
    rest.other.trans (other.trans (arrived.other.trans (getDl_modDl_peer _ _ _))), ?_⟩
  rw [rest.own, fast, fastPart_fastTaken arrived.own, counted]

/-! ### A frame's errors and its landing (R240, R262) -/

theorem ctlLost_running (t : Trunk) : ctlLost t s = s := if_pos run

/-- With CK_CORE running the errors of a frame reach the lanes and their page's count only. -/
theorem lockFall_running (t : Trunk) : Only [.fab, .lnA, .lnB] s (lockFall t s) ∧ FabKept ∅ s (lockFall t s) := by
  have fallen (f : Lanes → Lanes) : FabKept ∅ s (modLn t f s) := kept_beside (by simp)
  unfold lockFall
  rw [ctlLost_running run]
  exact ⟨by simp, ((fallen _).ite ((fallen _).trans (kept_countD _ _ _ _))).ite (.refl s)⟩

theorem frameErrs_running (t : Trunk) (f : DlFrame) : Only [.fab, .lnA, .lnB] s (frameErrs t f s) ∧ FabKept ∅ s (frameErrs t f s) := by
  unfold frameErrs
  extract_lets u
  have counted : Only [.lnA, .lnB] s u := by simp [u]
  have runs : u.pw.coreRun = true := by rw [counted.pw (by decide), run]
  obtain ⟨only, kept⟩ := lockFall_running runs t
  have errors : FabKept ∅ s u := .of_fab (counted.fab (by decide))
  split_ifs
  · exact ⟨.refl _ s, .refl s⟩
  · exact ⟨counted.mono.trans only, errors.trans kept⟩
  · exact ⟨counted.mono, errors⟩

theorem landFrame_running (t : Trunk) (e : Nat) : FabKept ∅ s (landFrame t e s) ∧
    getDl (landFrame t e s) t = { getDl s t with landed := some e } ∧ getDl (landFrame t e s) (peer t) = getDl s (peer t) := by
  have landed : FabKept ∅ s (modDl t (fun d => { d with landed := some e }) s) := (FabKept.refl s).modDl t _
  simp only [landFrame, run, Bool.not_true, Bool.false_eq_true, if_false]
  exact ⟨(landed.trans (kept_count _ _ _)).ite landed, by split <;> simp [getDl_count], by split <;> simp [getDl_count]⟩

end

/-- The other trunk's lanes take no part in a frame. -/
theorem getLn_frameErrs_peer (t : Trunk) (f : DlFrame) (s : State) : getLn (frameErrs t f s) (peer t) = getLn s (peer t) := by
  unfold frameErrs
  extract_lets u
  have counted : getLn u (peer t) = getLn s (peer t) := getLn_modLn_peer _ _ _
  split_ifs <;> simp [counted]

theorem getLn_endRuns_peer (t : Trunk) (s : State) : getLn (endRuns t s) (peer t) = getLn s (peer t) := by
  unfold endRuns
  split <;> simp

/-! ### The frame as a whole (R261) -/

/-- What a frame that lands in slot `e` makes of its downlink, with the lock kept or lost by it (R240, R261; log entry 60). -/
def withFrame (f : DlFrame) (kept : Bool) (e : Nat) (d : Dl) : Dl :=
  if decodes f then
    if kept then fastTaken e (frameByte f 1) { d with landed := some e, frames := (d.frames + 1) % 2 ^ 32 } else { d with landed := some e }
  else { d with landed := some e, crcErr := (d.crcErr + 1) % 65536 }

theorem landed_withFrame (f : DlFrame) (kept : Bool) (e : Nat) (d : Dl) : (withFrame f kept e d).landed = some e := by
  unfold withFrame fastTaken
  split_ifs <;> rfl

/-- A frame has been taken: its downlink is `d` as far as frames go, its lock stands as `kept`, and the rest has its frame. -/
structure DlFrameTaken (t : Trunk) (s w : State) (kept : Bool) (d : Dl) : Prop where
  only  : Only [.fab, .frm, .lnA, .lnB, .dlA, .dlB] s w
  fab   : FabKept ∅ s w
  other : getDl w (peer t) = getDl s (peer t)
  lanes : getLn w (peer t) = getLn s (peer t)
  lock  : (getLn w t).dlLock = kept
  own   : fastPart (getDl w t) = fastPart d

section
variable {s : State} (run : s.pw.coreRun = true) (t : Trunk) (f : DlFrame)
include run

/-- Errors and landing of a frame. -/
theorem dlFrameTaken_landed (e : Nat) :
    DlFrameTaken t s (landFrame t e (frameErrs t f (endRuns t s))) (getLn (frameErrs t f (endRuns t s)) t).dlLock
      { getDl s t with landed := some e } := by
  have ended : Only [.lnA, .lnB] s (endRuns t s) := by simp
  have runs : (endRuns t s).pw.coreRun = true := by rw [ended.pw (by decide), run]
  obtain ⟨only, errors⟩ := frameErrs_running runs t f
  have lanes := (getLn_frameErrs_peer t f (endRuns t s)).trans (getLn_endRuns_peer t s)
  generalize frameErrs t f (endRuns t s) = v at only errors lanes
  have runs' : v.pw.coreRun = true := by rw [only.pw (by decide), runs]
  obtain ⟨landed, own, other⟩ := landFrame_running runs' t e
  have same (x : Trunk) : getDl v x = getDl s x :=
    (getDl_of_only only x (by decide) (by decide)).trans (getDl_of_only ended x (by decide) (by decide))
  have land (x : Trunk) : getLn (landFrame t e v) x = getLn v x :=
    getLn_of_only (M := [.fab, .dlA, .dlB]) (by simp) x (by decide) (by decide)
  exact ⟨ended.mono.trans (only.mono.trans (by simp)), (kept_beside (by simp)).trans (errors.trans landed),
    other.trans (same _), (land _).trans lanes, by rw [land], by rw [own, same]⟩

/-- A frame that trains nothing is decoded, discarded, or lost with the lock that its errors cost. -/
theorem downlinkFrame_taken (lock : (getLn s t).dlLock = true) (service : isK283 (symAt f 1) = false) {kept : Bool}
    (h : kept = (getLn (frameErrs t f (endRuns t s)) t).dlLock) :
    DlFrameTaken t s (downlinkFrame t f s) kept (withFrame f kept (landSlot s t) (getDl s t)) := by
  have landed := dlFrameTaken_landed run t f (landSlot s t)
  rw [← h] at landed
  simp only [downlinkFrame, lock, service, run, Bool.not_true, Bool.false_eq_true, if_false, if_true, withFrame]
  generalize landFrame t (landSlot s t) (frameErrs t f (endRuns t s)) = v at landed
  obtain ⟨only, fab, other, lanes, stands, own⟩ := landed
  have runs : v.pw.coreRun = true := by rw [only.pw (by decide), run]
  simp only [fastPart, Prod.mk.injEq] at own
  obtain ⟨ownLanded, ownDue, ownFc, ownFrames, ownCrc⟩ := own
  rw [stands, ctlLost_running runs, ite_self]
  split_ifs
  · obtain ⟨taken, peers, parts⟩ := decodedFrame_taken (t := t) runs f (landSlot s t)
    have lane (x : Trunk) : getLn (decodedFrame t f (landSlot s t) v) x = getLn v x :=
      getLn_of_only (M := [.fab, .frm, .dlA, .dlB]) (by simp) x (by decide) (by decide)
    refine ⟨only.trans (by simp), fab.trans taken, peers.trans other, (lane _).trans lanes, by rw [lane, stands], ?_⟩
    exact parts.trans (fastPart_fastTaken (by simp [fastPart, *]) _ _)
  · exact ⟨only, fab, other, lanes, stands, by simp [fastPart, *]⟩
  · exact ⟨only.trans (by simp), fab.trans (((FabKept.refl v).modDl t _).trans (kept_count _ _ _)), by simp [getDl_count, other],
      by rw [getLn_count]; exact (getLn_modDl _ _ _ _).trans lanes, by rw [getLn_count, getLn_modDl, stands],
      by simp [getDl_count, fastPart, *]⟩

end

/-- Settles O42: a frame's errors, its landing and, where the lock stands, its fast byte each write their own part of the downlink, and
what follows them writes none of it. -/
theorem downlinkFramesAreTakenApart : Obligations.DownlinkFramesAreTakenApart := by
  intro s t f hp run service
  have acts : exec (.downlinkFrame t f) s = .next (txBoth (downlinkFrame t f s)) :=
    congrArg _ (running_eq (fun s => txBoth (downlinkFrame t f s)) hp)
  refine ⟨fun lost => ?_, fun lock kept h => ?_⟩
  · have still : downlinkFrame t f s = s := by simp [downlinkFrame, lost, ctlLost_running run]
    rw [still] at acts
    exact ⟨_, acts, by simp, sameLane_txBoth s t, sameLane_txBoth s _⟩
  · obtain ⟨only, fab, other, lanes, stands, own⟩ := downlinkFrame_taken run t f lock service h
    generalize downlinkFrame t f s = w at *
    have dl (x : Trunk) : getDl (txBoth w) x = getDl w x := getDl_of_only (M := [.lnA, .lnB]) (by simp) x (by decide) (by decide)
    have regs : (txBoth w).fab = w.fab := Only.fab (M := [.lnA, .lnB]) (by simp) (by decide)
    refine ⟨_, acts, only.trans (by simp), (congrArg Fabric.regs regs).trans fab.regs, (dl _).trans other, sameLane_sent lanes, ?_⟩
    simp only [dl, lanes_txBoth, stands, true_and]
    refine ⟨(congrArg Prod.fst own).trans (landed_withFrame f kept _ _), fun decoded gone => ?_, fun decoded stays => ?_,
      fun discarded => ?_⟩
    · simp only [withFrame, decoded, gone, if_true, Bool.false_eq_true, if_false, fastPart, Prod.mk.injEq] at own
      obtain ⟨-, due, -, frames, crc⟩ := own
      exact ⟨frames, due, crc⟩
    · by_cases none : frameByte f 1 = 0 <;>
        simp only [withFrame, decoded, stays, fastTaken, none, if_true, if_false, fastPart, Prod.mk.injEq] at own <;>
        obtain ⟨-, due, fc, frames, crc⟩ := own
      · exact ⟨frames, crc, fun _ => ⟨due, fc⟩, fun some => absurd none some⟩
      · exact ⟨frames, crc, fun zero => absurd zero none, fun _ => ⟨fc, due⟩⟩
    · simp only [withFrame, discarded, Bool.false_eq_true, if_false, fastPart, Prod.mk.injEq] at own
      obtain ⟨-, due, -, frames, crc⟩ := own
      exact ⟨frames, due, crc⟩

end Sys2Proof.Machine
end

section
/-! RETRAIN of the holder (R249) in a state without a record for the master that writes it. -/

namespace Sys2Proof.Machine

/-- Trunk A holds the token, CK_CORE runs, and there is no master's record for a cause to be kept in. -/
def unrecorded : State :=
  { State.reset with
    pw := { State.reset.pw with por := false, coreRun := true }
    fab := { State.reset.fab with masters := [] }
    sup := { State.reset.sup with tok0 := 1, tok1 := 1, tok2 := 1 } }

theorem serves_unrecorded : Serves unrecorded .mgmt (lnPage .a) := ⟨by decide, rfl, rfl⟩

/-- A master without a record reads no cause. -/
theorem cause_of_no_masters {s : State} (h : s.fab.masters = []) (m : Master) : (getMaster s m).cause = 0 := by
  rw [getMaster, h]
  rfl

/-- Refutes O46: its clause on the holder asks for cause 0x09 at the master that writes RETRAIN, for every state. The refusal keeps that
cause in the master's record, and the statement does not ask that the four masters of R15 have theirs, as `Shaped` does. -/
theorem not_trainingMovesForward : ¬ Obligations.TrainingMovesForward := by
  intro holds
  obtain ⟨-, -, -, retrain⟩ := holds unrecorded .a rfl
  obtain ⟨refused, -⟩ := retrain .mgmt serves_unrecorded
  obtain ⟨u, acts, -, -, -, -, cause⟩ := refused (.inl rfl)
  have masters : u.fab.masters.length = 0 := congrArg Skel.nMasters (exec_skel _ _ _ rfl acts)
  rw [cause_of_no_masters (List.eq_nil_of_length_eq_zero masters)] at cause
  exact absurd cause (by decide)

end Sys2Proof.Machine
end

section
/-! The scope of the model (00_scope, 01_architecture, R359): what one step runs, whose the queue is, and the state at reset. -/

namespace Sys2Proof.Machine

/-- Settles O1: on a non-empty queue `step` is the front command on the state with the rest. -/
theorem stepRunsTheFrontCommand : Obligations.StepRunsTheFrontCommand := by
  intro c rest s front
  rw [step, front]

/-- Settles O3: the queue is part of what every command keeps (`exec_kept`). -/
theorem queueIsTheSendersAlone : Obligations.QueueIsTheSendersAlone :=
  fun c s t next => (exec_kept c s t next).pending

theorem clocked_reset : Clocked State.reset where
  held _ := ⟨rfl, rfl⟩
  core run := absurd run (by decide)
  crystal run := absurd run (by decide)
  released out := absurd out (by decide)

theorem shaped_reset : Shaped State.reset :=
  have ⟨conv, chan, flint, fout, seams, queues, masters⟩ := reset_sizes
  ⟨conv, chan, flint, fout, seams, queues, masters⟩

/-- At reset every sparse memory lists nothing. -/
theorem canonical_reset : Canonical State.reset where
  regs := rfl
  pages := rfl
  tallies _ listed := absurd listed List.not_mem_nil
  live := rfl
  shadow := rfl
  ring := rfl
  flash := rfl

/-- Settles O8: clocks and supplies, units and sparse memories at reset, one invariant each. -/
theorem resetIsASoundState : Obligations.ResetIsASoundState := ⟨clocked_reset, shaped_reset, canonical_reset⟩

end Sys2Proof.Machine
end

section
/-! Guarded registers (R344, R345): what a read of the value position and of the complement position gives, and how the complement closes
the pair. -/

namespace Sys2Proof.Machine

/-! ### Reads -/

/-- The words of R364: nothing of a guarded register is stored at the write, set by the hub or preset. -/
theorem isGuarded_read {p o : Nat} (guarded : isGuarded p o = true) (s : State) : ∃ f, regForm p o = some f ∧ f.gd ≠ 0 ∧ f.rw = 0 ∧ f.rb = 0 ∧
    f.reset = 0 ∧ 0x040 ≤ o ∧ pgIn p 0x04 0x07 = false ∧ liveWord s p o = 0 := by
  simp only [isGuarded, List.contains_eq_mem, decide_eq_true_eq, List.mem_cons, List.not_mem_nil, or_false, Prod.mk.injEq] at guarded
  rcases guarded with ⟨rfl, rfl⟩ | ⟨rfl, rfl⟩ | ⟨rfl, rfl⟩ | ⟨rfl, rfl⟩ | ⟨rfl, rfl⟩ | ⟨rfl, rfl⟩ | ⟨rfl, rfl⟩ <;>
    exact ⟨_, rfl, by decide, rfl, rfl, rfl, by decide, rfl, rfl⟩

theorem readPlain_guarded (s : State) {p o : Nat} (guarded : isGuarded p o = true) :
    ∃ f, regForm p o = some f ∧ f.gd ≠ 0 ∧ readPlain s p o = bufGet s p o &&& f.gd := by
  obtain ⟨f, form, bits, rw, rb, preset, low, page, live⟩ := isGuarded_read guarded s
  refine ⟨f, form, bits, ?_⟩
  simp [readPlain, Nat.not_lt.2 low, form, page, rw, rb, preset, live]

/-- No register stands at a complement position, and no capture pair or word whose read acts. -/
theorem complement_vacant {p o : Nat} (guarded : isGuarded p o = true) : regForm p (o + 0x800) = none ∧ pairLow p (o + 0x800) = none ∧
    p ≠ 0x40 ∧ pgIn p 0x34 0x39 = false ∧ (o + 0x800) % 4 = 0 ∧ 0x040 ≤ o + 0x800 ∧ o + 0x800 < 0x1000 := by
  simp only [isGuarded, List.contains_eq_mem, decide_eq_true_eq, List.mem_cons, List.not_mem_nil, or_false, Prod.mk.injEq] at guarded
  rcases guarded with ⟨rfl, rfl⟩ | ⟨rfl, rfl⟩ | ⟨rfl, rfl⟩ | ⟨rfl, rfl⟩ | ⟨rfl, rfl⟩ | ⟨rfl, rfl⟩ | ⟨rfl, rfl⟩ <;> decide

theorem servedRead_complement (m : Master) (s : State) {p o : Nat} (guarded : isGuarded p o = true) :
    servedRead m p (o + 0x800) s = (0, s) := by
  obtain ⟨vacant, single, host, port, -, low, -⟩ := complement_vacant guarded
  simp [servedRead, single, host, port, readPlain, Nat.not_lt.2 low, vacant]

section
variable {s : State} {m : Master} {p o : Nat} (hp : s.pw.por = false) (shaped : Shaped s) (guarded : isGuarded p o = true)
  {a : Addr} (ha : a.toNat = addrOf p (o + 0x800))
include hp shaped guarded ha

theorem captureLowRead_complement (serves : Serves s m p) :
    ∃ u, exec (.captureLowRead m a) s = .next u ∧ Only [.fab] s u ∧ u.fab.regs = s.fab.regs ∧ (getMaster u m).rdata = 0 := by
  obtain ⟨-, -, -, -, aligned, -, below⟩ := complement_vacant guarded
  have page := addr_page p (o + 0x800) below
  have off := addr_off p (o + 0x800) below
  have there : Serves s m (addrOf p (o + 0x800) / 0x1000) := by rw [page]; exact serves
  have read := exec_captureLowRead hp m a
  rw [ha, fabRead_serves there (by rw [off]; exact aligned), page, off, servedRead_complement m _ guarded] at read
  have begun := noted_beginAccess m s
  have noted := begun.trans (noted_setRdata m (0, beginAccess m s))
  refine ⟨_, read, noted.only, noted.regs, ?_⟩
  rw [getMaster_setRdata (begun.four.trans shaped.masters)]
  rfl

end

/-! ### The complement closes the pair -/

theorem masters_bufWrite (p o v : Nat) (s : State) : (bufWrite p o v s).fab.masters = s.fab.masters := by
  show (cutoffNow s).fab.masters = s.fab.masters
  unfold cutoffNow
  split <;> rfl

theorem masters_supResetPair (v : Nat) (s : State) : (supResetPair v s).fab.masters = s.fab.masters := by
  unfold supResetPair
  split
  · rw [(kept_softReset _ _).fab]
  · rfl

/-- A guarded word of a page outside CK_SUP takes its value into the buffer; SRST may reset page 0x50 (R292). -/
theorem writeEffect_guarded {p o : Nat} (guarded : isGuarded p o = true) (core : isSup p = false) (m : Master) (v : Nat) (s : State) :
    ∃ w, writeEffect m p o v s = bufWrite p o w s ∨ writeEffect m p o v s = supResetPair v (bufWrite p o w s) := by
  simp only [isGuarded, List.contains_eq_mem, decide_eq_true_eq, List.mem_cons, List.not_mem_nil, or_false, Prod.mk.injEq] at guarded
  rcases guarded with ⟨rfl, rfl⟩ | ⟨rfl, rfl⟩ | ⟨rfl, rfl⟩ | ⟨rfl, rfl⟩ | ⟨rfl, rfl⟩ | ⟨rfl, rfl⟩ | ⟨rfl, rfl⟩
  · exact ⟨_, .inr rfl⟩
  · exact ⟨_, .inl rfl⟩
  · exact ⟨_, .inl rfl⟩
  · cases core
  · cases core
  · exact ⟨_, .inl rfl⟩
  · cases core

theorem masters_acceptWrite_guarded {p o : Nat} (guarded : isGuarded p o = true) (m : Master) (v : Nat) (s : State) :
    (acceptWrite m p o v s).fab.masters = s.fab.masters := by
  cases sup : isSup p with
  | true => rw [acceptWrite_sup sup]; rfl
  | false =>
    obtain ⟨w, plain | reset⟩ := writeEffect_guarded guarded sup m v s
    · simp only [acceptWrite, sup, Bool.false_eq_true, if_false, plain, masters_bufWrite]
    · simp only [acceptWrite, sup, Bool.false_eq_true, if_false, reset, masters_supResetPair, masters_bufWrite]

section
variable {s : State} {m : Master} {p o : Nat} (hp : s.pw.por = false) (shaped : Shaped s) (guarded : isGuarded p o = true)
  {a : Addr} (ha : a.toNat = addrOf p (o + 0x800))
include hp shaped guarded ha

theorem registerWrite_complement {v : Word} (runs : pageRuns s p = true) (idle : (pageSt s p).posted = none)
    (opened : openGuard s m p = some ⟨p, o, v⟩) (allowed : writeRefusal s p o v.toNat = none) :
    ∃ u, exec (.registerWrite m a (~~~v)) s = .next u ∧ openGuard u m p = none ∧ (getMaster u m).cause = 0 := by
  obtain ⟨-, -, -, -, -, -, below⟩ := complement_vacant guarded
  have written := exec_registerWrite hp m a (~~~v)
  rw [ha, fabWrite_complement (g := ⟨p, o, v⟩) (addr_page p _ below).symm runs idle (addr_off p _ below) guarded,
    servedWrite_complement idle guarded opened ((complement_iff _ v).2 rfl) allowed] at written
  have same := masters_acceptWrite_guarded guarded m v.toNat (dropGuard m p (beginAccess m s))
  have four := (noted_beginAccess m s).four.trans shaped.masters
  refine ⟨_, written, ?_, ?_⟩
  · rw [← openGuard_dropGuard four m p]
    simp only [openGuard, getMaster, same]
  · have cause : (getMaster (dropGuard m p (beginAccess m s)) m).cause = 0 := by
      rw [dropGuard, getMaster_modMaster m _ _ four, getMaster_beginAccess shaped.masters]
    rw [← cause]
    simp only [getMaster, same]

end

/-- Settles O58: the value position reads the buffer, the complement position is no register, and the complement drops the pair. -/
theorem guardedWordsAndTheirComplements : Obligations.GuardedWordsAndTheirComplements := by
  intro s m p o hp shaped guarded
  exact ⟨readPlain_guarded s guarded, fun a ha serves => captureLowRead_complement hp shaped guarded ha serves,
    fun a v ha runs idle opened allowed => registerWrite_complement hp shaped guarded ha runs idle opened allowed⟩

end Sys2Proof.Machine
end

section
/-! The power-on reset and the start-up loads (R321, R325, R370, R372, R424, R426, R427): what the POR holds, what its release reads, and what
the user store's load reports. -/

namespace Sys2Proof.Machine

/-! ### The POR (R424) -/

theorem porAssert_released {s : State} (h : s.pw.released = true) : porAssert .vddio s = s ∧ porAssert .resetN s = s := by
  simp [porAssert, h]

/-- Before the first release VDDIO and RESET_N hold the hub as VDD does. -/
theorem porAssert_first {s : State} (h : s.pw.released = false) :
    porAssert .vddio s = porHeld s s.pw.vdd false s.pw.resetN false ∧ porAssert .resetN s = porHeld s s.pw.vdd s.pw.vddioPor false s.pw.vddio := by
  simp only [porAssert, h, Bool.false_eq_true, if_false]
  exact ⟨rfl, rfl⟩

theorem porRelease_out (adr : Nat) (r : Bool) {s : State} (h : s.pw.por = false) : porRelease adr r s = s := by simp [porRelease, h]

section
variable {s : State} (held : s.pw.por = true) (adr : Nat) (r : Bool)
include held

/-- While a condition of R424 stands, the POR samples RESET_N and nothing else. -/
theorem porRelease_stays (stands : s.pw.vdd = false ∨ (s.pw.released = false ∧ (s.pw.vddioPor = false ∨ r = false))) :
    porRelease adr r s = { s with pw := { s.pw with resetN := r } } := by
  have ends : porEnds { s with pw := { s.pw with resetN := r } } = false := by
    rcases stands with vdd | ⟨first, vddio | low⟩
    · simp [porEnds, vdd]
    · simp [porEnds, first, vddio]
    · simp [porEnds, first, low]
  exact (if_neg (by simp [held])).trans (if_pos (by rw [ends]; rfl))

theorem porRelease_leaves (vdd : s.pw.vdd = true) (free : s.pw.released = true ∨ (s.pw.vddioPor = true ∧ r = true)) :
    porRelease adr r s = fuseLoad { s with pw := { s.pw with
      por := false, released := true, stage := 1, sup := 0, adr := adr, resetN := r } } := by
  have ends : porEnds { s with pw := { s.pw with resetN := r } } = true := by
    rcases free with again | ⟨vddio, high⟩
    · simp [porEnds, vdd, again]
    · simp [porEnds, vdd, vddio, high]
  exact (if_neg (by simp [held])).trans (if_neg (by rw [ends]; decide))

end

/-! ### The fuse bank (R370) -/

/-- The records of the fuse bank that fail their check. -/
def badRecords (s : State) : List Nat := (List.range 8).filter (fun r => !fuseRecOk s.cal.bank r)

theorem isEmpty_badRecords (s : State) : (badRecords s).isEmpty = bankOk s := by
  rw [badRecords, bankOk, Bool.eq_iff_iff]
  simp

theorem cal_fuseLoad (s : State) : (fuseLoad s).cal = { s.cal with
    read := s.cal.bank, fuseFail := BitVec.ofNat 8 (maskOf (badRecords s)), fuseBad := !bankOk s, fuseOk := bankOk s, useFuse := bankOk s } := by
  rw [← isEmpty_badRecords]
  rfl

/-- FUSE_FAIL names the records that fail. -/
theorem fuseFail_bit (s : State) (k : Fin 8) : (BitVec.ofNat 8 (maskOf (badRecords s))).getLsbD k = !fuseRecOk s.cal.bank k := by
  rw [BitVec.getLsbD_ofNat, testBit_maskOf]
  simp [badRecords]

/-- Settles O10: what holds the hub, what its release needs, and what the release reads. -/
theorem powerOnResetHoldsAndReleases : Obligations.PowerOnResetHoldsAndReleases := by
  intro s
  refine ⟨rfl, fun first => congrArg _ (porAssert_first first).1, fun first => congrArg _ (porAssert_first first).2,
    fun again => ⟨congrArg _ (porAssert_released again).1, congrArg _ (porAssert_released again).2⟩, fun adr r => ⟨fun out =>
      congrArg _ (porRelease_out _ r out), fun held stands => congrArg _ (porRelease_stays held _ r stands), fun held vdd free => ?_⟩⟩
  refine ⟨_, congrArg Host.Outcome.next (porRelease_leaves held adr.val r vdd free), ?_, rfl, ?_, fun k => ?_⟩
  · exact (only_fuseLoad _ _ _ (by decide)).2 (((only_mk_pw s s _).2 (.refl _ _)).mono)
  · rw [cal_fuseLoad]
    rfl
  · rw [cal_fuseLoad]
    exact fuseFail_bit _ k

/-! ### The user store (R325, R372) -/

/-- The boot header has been read: identification, HDR_OK and USR_BASE. -/
def headerRead (id : Nat) (s : State) : State := { s with slow := { s.slow with
  spiId := id, hdrOk := pinsOk s && bootHdrOk s id, usrBase := if pinsOk s && bootHdrOk s id then leNat (flashBytes s 6 3) else s.slow.usrBase } }

/-- The slot that the load takes, if any. -/
def loadedSlot (id : Nat) (s : State) : Option (Nat × Nat) := if pinsOk s && bootHdrOk s id then pickSlot (headerRead id s) else none

section
variable (id : Nat) (s : State)

theorem slow_userLoad : (userLoad id s).slow = (headerRead id s).slow := by
  unfold userLoad
  dsimp only
  split <;> rfl

theorem cal_userLoad_none (h : loadedSlot id s = none) :
    (userLoad id s).cal = { s.cal with userBad := true, user := [], eff := [], loaded := true } := by
  unfold userLoad
  dsimp only
  split
  · rfl
  · next found => cases found.symm.trans h

theorem cal_userLoad_some {i g : Nat} (h : loadedSlot id s = some (i, g)) : (userLoad id s).cal = { s.cal with
    userOk := true, anyOk := true, slotNo := i, gen := g, loaded := true
    lockIgn := decide (unlockedOnly (slotImage (headerRead id s) i) ≠ slotImage (headerRead id s) i)
    user := unlockedOnly (slotImage (headerRead id s) i), eff := unlockedOnly (slotImage (headerRead id s) i) } := by
  unfold userLoad
  dsimp only
  split
  · next none => cases none.symm.trans h
  · next found =>
    cases found.symm.trans h
    rfl

/-- What the fuse load found stays, and the user store counts as loaded. -/
theorem cal_userLoad_kept : (userLoad id s).cal.loaded = true ∧ (userLoad id s).cal.read = s.cal.read ∧
    (userLoad id s).cal.fuseFail = s.cal.fuseFail ∧ (userLoad id s).cal.fuseBad = s.cal.fuseBad ∧ (userLoad id s).cal.fuseOk = s.cal.fuseOk := by
  cases h : loadedSlot id s with
  | none =>
    rw [cal_userLoad_none id s h]
    exact ⟨rfl, rfl, rfl, rfl, rfl⟩
  | some x =>
    rw [cal_userLoad_some id s h]
    exact ⟨rfl, rfl, rfl, rfl, rfl⟩

end

section
variable {s t : State} (flash : t.slow.flash = s.slow.flash) (base : t.slow.usrBase = s.slow.usrBase)
include flash base

/-- The choice of the slot reads the flash at USR_BASE only. -/
theorem pickSlot_congr : pickSlot t = pickSlot s := by
  unfold pickSlot slotGen slotBase flashBytes
  rw [flash, base]

theorem slotImage_congr (i : Nat) : slotImage t i = slotImage s i := by
  unfold slotImage slotBase flashBytes
  rw [flash, base]

end

/-- The user slots stand where the boot header says (R325). -/
def slotsAtHeader (s : State) : State := { s with slow := { s.slow with usrBase := leNat (flashBytes s 6 3) } }

section
variable {id : Nat} {s : State} (header : (pinsOk s && bootHdrOk s id) = true)
include header

theorem usrBase_headerRead : (headerRead id s).slow.usrBase = leNat (flashBytes s 6 3) := if_pos header

theorem loadedSlot_header : loadedSlot id s = pickSlot (slotsAtHeader s) :=
  (if_pos header).trans (pickSlot_congr (t := headerRead id s) (s := slotsAtHeader s) rfl (usrBase_headerRead header))

theorem slotImage_header (i : Nat) : slotImage (headerRead id s) i = slotImage (slotsAtHeader s) i :=
  slotImage_congr (t := headerRead id s) (s := slotsAtHeader s) rfl (usrBase_headerRead header) i

end

/-- The load counts the sums it limits and takes STAGE on. -/
theorem loadStores_eq {id : Nat} {s : State} (early : s.pw.stage < 3) :
    loadStores id s = stageLoaded (countN 0x70 0 (clamped (userLoad id s) (userLoad id s).cal.eff) (userLoad id s)) :=
  if_neg (Nat.not_le.2 early)

theorem loadStores_rest {id : Nat} {s : State} (early : s.pw.stage < 3) :
    (loadStores id s).cal = (userLoad id s).cal ∧ (loadStores id s).slow = (userLoad id s).slow ∧
      (loadStores id s).pw.stage = (if s.lnA.fwdOk || s.lnB.fwdOk then 4 else 3) := by
  have counted : Only [.fab] (userLoad id s) (countN 0x70 0 (clamped (userLoad id s) (userLoad id s).cal.eff) (userLoad id s)) := by simp
  have loaded : Only [.slow, .cal] s (userLoad id s) := by simp
  rw [loadStores_eq early]
  generalize countN 0x70 0 (clamped (userLoad id s) (userLoad id s).cal.eff) (userLoad id s) = v at counted
  refine ⟨counted.cal, counted.slow, ?_⟩
  unfold stageLoaded stageLoaded.stageTo
  rw [counted.lnA, counted.lnB, counted.pw, loaded.lnA, loaded.lnB, loaded.pw]
  show max _ s.pw.stage = _
  split <;> omega

/-- Settles O11: what the header and the slots give, and the stage after them. -/
theorem startupLoadReportsTheStores : Obligations.StartupLoadReportsTheStores := by
  intro s id out early
  obtain ⟨cal, slow, stage⟩ := loadStores_rest (id := id.toNat) early
  obtain ⟨loaded, read, fail, bad, ok⟩ := cal_userLoad_kept id.toNat s
  refine ⟨_, congrArg Host.Outcome.next (running_eq _ out), by simp, stage, ?_⟩
  rw [cal, slow, slow_userLoad]
  refine ⟨loaded, read, fail, bad, ok, rfl, rfl, rfl, fun none => ?_, fun header => ?_⟩
  · have empty : loadedSlot id.toNat s = Option.none := by simp only [loadedSlot, none, Bool.false_eq_true, if_false]
    rw [cal_userLoad_none _ _ empty]
    exact ⟨rfl, rfl, rfl⟩
  · refine ⟨usrBase_headerRead header, fun none => ?_, fun i g found => ?_⟩
    · rw [cal_userLoad_none _ _ ((loadedSlot_header header).trans none)]
      exact ⟨rfl, rfl, rfl⟩
    · rw [cal_userLoad_some _ _ ((loadedSlot_header header).trans found), slotImage_header header]
      exact ⟨rfl, rfl, rfl, rfl, by dsimp only [slotsAtHeader]⟩

end Sys2Proof.Machine
end

section
/-! Commands of the time bases (R297, R298, R301, R303): increments, holdover, the latch, and the head of the timestamp FIFO. -/

namespace Sys2Proof.Machine

/-! ### Increments (R297) -/

/-- INCRn_INT takes every word; its range is judged with the fraction held. -/
theorem writeRefusal_incr (s : State) (n : NetBase) (v : Nat) : writeRefusal s 0x54 (incrReg n + 4) v = none := by
  cases n <;> simp [writeRefusal, rangeOk, incrReg, pgIn]

theorem writeEffect_incr (m : Master) (n : NetBase) (v : Nat) (s : State) : writeEffect m 0x54 (incrReg n + 4) v s = incrCommit m n v s := by
  cases n <;> simp [writeEffect, ownWrite, ownEffect, incrReg, pgIn]

section
variable {s : State} (hp : s.pw.por = false)

section
variable {m : Master} (serves : Serves s m 0x54)
include hp serves

theorem exec_incrCommit (n : NetBase) (v : Word) : exec (.incrCommit m n v) s = .next (incrCommit m n v.toNat (beginAccess m s)) := by
  have row := rowWrite_core serves (by decide) (by cases n <;> decide) (by cases n <;> decide) (by cases n <;> decide) (by cases n <;> decide)
    (by cases n <;> decide) (writeRefusal_incr s n v.toNat)
  rw [writeEffect_incr] at row
  exact congrArg _ ((running_eq _ hp).trans row)

end

section
variable (m : Master) (n : NetBase) {v x : Nat} (hx : x = v % 256 * 2 ^ 32 + regAt s 0x54 (incrReg n))
include hx

theorem incrCommit_refused (h : x < 0x0200000000 ∨ 0x0400000000 < x) :
    incrCommit m n v (beginAccess m s) = refuseAt m (0x54000 + incrReg n + 4) 0x02 (beginAccess m s) := by
  subst hx
  exact if_pos h

theorem incrCommit_taken (h : 0x0200000000 ≤ x ∧ x ≤ 0x0400000000) : incrCommit m n v (beginAccess m s) =
    { setReg 0x54 (incrReg n + 4) (v % 256) (beginAccess m s) with tb := setIncr n x s.pw.sup s.tb } := by
  subst hx
  exact if_neg fun out => by have : regAt (beginAccess m s) 0x54 (incrReg n) = regAt s 0x54 (incrReg n) := rfl; omega

end

/-! ### Holdover (R298) -/

theorem holdoverSet_tb1 (counting : s.tb.hov1 = false) (limit : regF s 0x54 0x058 0 16 ≠ 0)
    (past : s.tb.wr1 + supMs (regF s 0x54 0x058 0 16) ≤ s.pw.sup) :
    holdoverSet .tb1 s = count 0x54 1 { s with tb := { s.tb with hov1 := true } } := by
  refine if_neg ?_
  simp [limit, inHoldover, counting, past]

theorem holdoverSet_tb3 (counting : s.tb.hov3 = false) (limit : regF s 0x54 0x058 16 16 ≠ 0)
    (past : s.tb.wr3 + supMs (regF s 0x54 0x058 16 16) ≤ s.pw.sup) :
    holdoverSet .tb3 s = count 0x54 2 { s with tb := { s.tb with hov3 := true } } := by
  refine if_neg ?_
  simp [limit, inHoldover, counting, past]

/-- A base's holdover is counted, and beside it only the base's flag changes. -/
theorem counted_tb (i : Nat) (b : Bases) : Only [.fab, .tb] s (count 0x54 i { s with tb := b }) ∧
    (count 0x54 i { s with tb := b }).fab.regs = s.fab.regs ∧ (count 0x54 i { s with tb := b }).tb = b := by
  have set : Only [.fab, .tb] s { s with tb := b } := ((only_mk_tb s s b).2 (.refl _ _)).mono
  exact ⟨(only_count _ _ _ _ _ (by decide)).2 set, by simp, by simp⟩

/-! ### The latch and the timestamp FIFO (R301, R303) -/

/-- A command bit written on a served page of CK_CORE acts with the word's kept bits beside it. -/
theorem cmdWrite_core {m : Master} {p o : Nat} (serves : Serves s m p) (core : isSup p = false) (ho : o < 0x1000) (aligned : o % 4 = 0)
    (plain : isGuarded p o = false) (value : ¬ (0x800 ≤ o ∧ isGuarded p (o - 0x800) = true)) (listed : (regForm p o).isSome = true) (bits : Nat)
    (allowed : writeRefusal s p o (keptBits s (addrOf p o) ||| bits) = none) :
    cmdWrite m (addrOf p o) bits s = writeEffect m p o (keptBits s (addrOf p o) ||| bits) (beginAccess m s) :=
  rowWrite_core serves core ho aligned plain value listed allowed

theorem testBit_zero_or_one (k : Nat) : (k ||| 1).testBit 0 = true := by simp

section
variable {m : Master} (serves : Serves s m 0x54)
include hp serves

theorem exec_tbLatch : ∃ v, exec (.tbLatch m) s = .next (latchBases (setReg 0x54 0x040 v (beginAccess m s))) := by
  have row := cmdWrite_core serves (o := 0x040) (by decide) (by decide) (by decide) (by decide) (by decide) (by decide) 1
    (by simp [writeRefusal, rangeOk, pgIn])
  exact ⟨_, congrArg Host.Outcome.next ((running_eq (cmdWrite m 0x54040 1) hp).trans (row.trans (if_pos (testBit_zero_or_one _))))⟩

theorem exec_tsePop : exec (.tsePop m) s = .next (tsePopHead (beginAccess m s)) := by
  have row := cmdWrite_core serves (o := 0x080) (by decide) (by decide) (by decide) (by decide) (by decide) (by decide) 1
    (by simp [writeRefusal, rangeOk, pgIn])
  refine congrArg _ ((running_eq (cmdWrite m 0x54080 1) hp).trans (row.trans ?_))
  exact if_pos (testBit_zero_or_one _)

end

end

/-- Settles O52: an increment in range is the base's from the next core cycle on, and each other command acts on its own part. -/
theorem timeBaseCommands : Obligations.TimeBaseCommands := by
  intro s hp
  refine ⟨fun m n v serves => ⟨_, exec_incrCommit hp serves n v, fun x hx => ⟨fun fits => ?_, fun out => ?_⟩⟩, ⟨?_, ?_⟩,
    fun m serves => ⟨?_, ?_⟩⟩
  · rw [incrCommit_taken m n hx fits]
    have set : Only [.fab] s (setReg 0x54 (incrReg n + 4) (v.toNat % 256) (beginAccess m s)) := by simp [beginAccess]
    exact ⟨((only_mk_tb _ _ _).2 (.refl _ _)).mono.via (.refl _) set.mono, by cases n <;> rfl⟩
  · rw [incrCommit_refused m n hx out]
    have noted := (noted_beginAccess m s).trans (noted_refuseAt m (0x54000 + incrReg n + 4) 0x02 _)
    exact ⟨noted.only, noted.regs⟩
  · exact fun counting limit past => ⟨_, congrArg Host.Outcome.next ((running_eq _ hp).trans (holdoverSet_tb1 counting limit past)), counted_tb 1 _⟩
  · exact fun counting limit past => ⟨_, congrArg Host.Outcome.next ((running_eq _ hp).trans (holdoverSet_tb3 counting limit past)), counted_tb 2 _⟩
  · obtain ⟨v, latched⟩ := exec_tbLatch hp serves
    exact ⟨_, latched, by simp [beginAccess], rfl⟩
  · exact ⟨_, exec_tsePop hp serves, by simp [beginAccess], rfl⟩

end Sys2Proof.Machine
end

section
/-! What the supervisor judges (R275–R280): the parts of the state that roles, evidence and the decision table read, and what `roleSync`
writes. -/

namespace Sys2Proof.Machine

/-! ### What the rules of the supervisor read -/

/-- What the roles and the decision table read of one trunk. -/
def judgedOf (u : TrunkSup) : Bool × Bool × Bool × Bool × Bool := (u.ev, u.latched, u.repair, u.tpwr, u.seen)

/-- The two states give the supervisor the same trunks, token and check to judge. -/
structure Judged (s t : State) : Prop where
  lanes    : ∀ x, getLn t x = getLn s x
  power    : ∀ x, vddlOk t x = vddlOk s x
  regs     : t.fab.regs = s.fab.regs
  token    : token t = token s
  checking : t.sup.checking = s.sup.checking
  trunks   : ∀ x, judgedOf (getTs t x) = judgedOf (getTs s x)

namespace Judged

variable {s t u : State}

theorem refl (s : State) : Judged s s := ⟨fun _ => rfl, fun _ => rfl, rfl, rfl, rfl, fun _ => rfl⟩

theorem trans (h : Judged s t) (k : Judged t u) : Judged s u where
  lanes x := (k.lanes x).trans (h.lanes x)
  power x := (k.power x).trans (h.power x)
  regs := k.regs.trans h.regs
  token := k.token.trans h.token
  checking := k.checking.trans h.checking
  trunks x := (k.trunks x).trans (h.trunks x)

/-- Nothing but fabric, power flags and supervisor may differ, and of these what is judged does not. -/
theorem of_only (only : Only [.pw, .fab, .ser, .frm, .sup] s t) (power : ∀ x, vddlOk t x = vddlOk s x) (regs : t.fab.regs = s.fab.regs)
    (token : Machine.token t = Machine.token s) (checking : t.sup.checking = s.sup.checking)
    (trunks : ∀ x, judgedOf (getTs t x) = judgedOf (getTs s x)) : Judged s t :=
  ⟨fun x => getLn_of_only only x (by decide) (by decide), power, regs, token, checking, trunks⟩

section
variable (h : Judged s t) (x : Trunk)
include h

theorem trunk : (getTs t x).ev = (getTs s x).ev ∧ (getTs t x).latched = (getTs s x).latched ∧ (getTs t x).repair = (getTs s x).repair ∧
    (getTs t x).tpwr = (getTs s x).tpwr ∧ (getTs t x).seen = (getTs s x).seen := by
  simpa only [judgedOf, Prod.mk.injEq] using h.trunks x

theorem regAt (p o : Nat) : regAt t p o = Machine.regAt s p o := by
  unfold Machine.regAt
  rw [h.regs]

theorem holder : holder t = Machine.holder s := by
  unfold Machine.holder
  rw [h.token]

theorem evGood : evGood t x = Machine.evGood s x := by
  unfold Machine.evGood forceBad regF
  rw [(h.trunk x).1, h.regAt]

theorem lanesServe : lanesServe t x = Machine.lanesServe s x := by
  unfold Machine.lanesServe dataLanes
  rw [h.lanes, h.regs]

theorem qualifies : qualifies t x = Machine.qualifies s x := by
  obtain ⟨-, latched, repair, -⟩ := h.trunk x
  unfold Machine.qualifies
  rw [h.lanes, h.evGood, h.lanesServe, latched, repair]

theorem quiet : quiet t x = Machine.quiet s x := by
  obtain ⟨-, latched, repair, tpwr, -⟩ := h.trunk x
  unfold Machine.quiet
  simp only [h.lanes, h.power, h.holder, latched, repair, tpwr]

theorem hbSeen : hbSeen t x = Machine.hbSeen s x := by
  obtain ⟨-, -, -, -, seen⟩ := h.trunk x
  unfold Machine.hbSeen
  rw [h.quiet, seen]

theorem roleOf : roleOf t x = Machine.roleOf s x := by
  obtain ⟨-, latched, repair, tpwr, -⟩ := h.trunk x
  unfold Machine.roleOf
  simp only [h.lanes, h.power, h.holder, h.checking, h.qualifies, h.hbSeen, h.evGood, latched, repair, tpwr]

theorem preferred : preferred t = Machine.preferred s := by
  unfold Machine.preferred regF
  rw [h.regAt]

end

end Judged

/-! ### What `roleSync` writes -/

theorem sup_darkSync (s : State) : (darkSync s).sup = { s.sup with wasDark := dark s } := by
  unfold darkSync onRise
  dsimp only
  split <;> simp

/-- A role's step may end the count of failed repairs, when the role is STANDBY or UNCONFIRMED (R287). -/
theorem sup_roleStep (t : Trunk) (old : Nat) (s : State) : ∃ n, (roleStep t old s).sup = (modTs t (fun u => { u with fails := n }) s).sup ∧
    ((getTs s t).role ≠ 2 → (getTs s t).role ≠ 3 → n = (getTs s t).fails) := by
  have same : (modTs t (fun u => { u with fails := (getTs s t).fails }) s).sup = s.sup := by cases t <;> rfl
  have counted (v : State) : (modTs t (fun u => { u with fails := 0 }) (count 0x50 4 v)).sup = (modTs t (fun u => { u with fails := 0 }) v).sup := by
    cases t <;> simp [modTs]
  unfold roleStep
  dsimp only
  by_cases h0 : (getTs s t).role = old
  · exact ⟨_, by rw [if_pos h0, same], fun _ _ => rfl⟩
  by_cases h23 : (getTs s t).role = 2 ∨ (getTs s t).role = 3
  · refine ⟨0, ?_, fun h2 h3 => absurd h23 (not_or.2 ⟨h2, h3⟩)⟩
    rw [if_neg h0, if_pos h23]
    split <;> simp [counted]
  · refine ⟨_, ?_, fun _ _ => rfl⟩
    obtain ⟨-, h3⟩ := not_or.1 h23
    rw [if_neg h0, if_neg h23, if_neg h3, same]
    simp

/-- A trunk's record once its role has been set. -/
def roleSet (r n : Nat) (u : TrunkSup) : TrunkSup := { u with role := r, fails := n }

theorem sup_roleSync (s : State) : ∃ a b, (roleSync s).sup = { s.sup with
      ta := roleSet (roleOf s .a) a s.sup.ta, tb := roleSet (roleOf s .b) b s.sup.tb, wasDark := dark s } ∧
    (roleOf s .a ≠ 2 → roleOf s .a ≠ 3 → a = s.sup.ta.fails) ∧ (roleOf s .b ≠ 2 → roleOf s .b ≠ 3 → b = s.sup.tb.fails) := by
  have told : Judged s (darkSync s) := by
    have dark := sup_darkSync s
    refine .of_only (by simp) (fun x => ?_) (kept_darkSync s).regs ?_ (by rw [dark]) (fun x => ?_)
    · have : (darkSync s).pw = s.pw := Only.pw (M := [.fab, .sup]) (by simp)
      unfold vddlOk
      rw [this]
    · unfold token
      rw [dark]
    · cases x <;> simp only [getTs, dark]
  unfold roleSync
  extract_lets v oa ob ra rb
  have hra : ra = roleOf s .a := told.roleOf .a
  have hrb : rb = roleOf s .b := told.roleOf .b
  generalize eq : modTs .b (fun u => { u with role := rb }) (modTs .a (fun u => { u with role := ra }) v) = w
  have hw : w.sup = { s.sup with
      ta := { s.sup.ta with role := roleOf s .a }, tb := { s.sup.tb with role := roleOf s .b }, wasDark := dark s } := by
    rw [← eq, ← hra, ← hrb]
    show { v.sup with ta := { v.sup.ta with role := ra }, tb := { v.sup.tb with role := rb } } = _
    rw [sup_darkSync s]
  obtain ⟨a, ha, fa⟩ := sup_roleStep .a oa w
  obtain ⟨b, hb, fb⟩ := sup_roleStep .b ob (roleStep .a oa w)
  simp only [modTs, getTs, hw] at ha fa
  simp only [modTs, getTs, ha] at hb fb
  exact ⟨a, b, hb, fa, fb⟩

/-- Beside roles, failure counts and the note of DARK nothing of the supervisor changes. -/
theorem sup_roleSync_rest (s : State) :
    { (roleSync s).sup with ta := s.sup.ta, tb := s.sup.tb, wasDark := s.sup.wasDark } = s.sup := by
  obtain ⟨a, b, sup, -⟩ := sup_roleSync s
  rw [sup]

theorem getTs_roleSync (s : State) (x : Trunk) : ∃ n, getTs (roleSync s) x = roleSet (roleOf s x) n (getTs s x) ∧
    (roleOf s x ≠ 2 → roleOf s x ≠ 3 → n = (getTs s x).fails) := by
  obtain ⟨a, b, sup, fa, fb⟩ := sup_roleSync s
  cases x
  · exact ⟨a, congrArg Sup.ta sup, fa⟩
  · exact ⟨b, congrArg Sup.tb sup, fb⟩

theorem judged_roleSync (s : State) : Judged s (roleSync s) := by
  have rest := sup_roleSync_rest s
  refine .of_only (by simp) (fun x => ?_) (kept_roleSync (C := ∅) s).regs ?_ (congrArg Sup.checking rest :) (fun x => ?_)
  · unfold vddlOk
    rw [show (roleSync s).pw = s.pw from pw_of_only (by simp)]
  · unfold token
    rw [(congrArg Sup.tok0 rest :), (congrArg Sup.tok1 rest :), (congrArg Sup.tok2 rest :)]
  · obtain ⟨n, eq, -⟩ := getTs_roleSync s x
    rw [eq]
    rfl

theorem roles_roleSync (s : State) : RolesFollow (roleSync s) := by
  intro x
  obtain ⟨n, eq, -⟩ := getTs_roleSync s x
  rw [eq, (judged_roleSync s).roleOf]
  rfl

/-! ### A trunk's record is changed and the roles follow -/

section
variable (t : Trunk) (f : TrunkSup → TrunkSup) (s : State)

theorem getTs_modTs_of_ne {t x : Trunk} (h : x ≠ t) (f : TrunkSup → TrunkSup) (s : State) : getTs (modTs t f s) x = getTs s x := by
  have other : x = peer t := by cases t <;> cases x <;> simp_all [peer]
  rw [other, getTs_modTs_peer]

theorem token_modTs : token (modTs t f s) = token s := by cases t <;> rfl

theorem holder_modTs : holder (modTs t f s) = holder s := by
  unfold holder
  rw [token_modTs]

theorem only_synced : Only [.fab, .sup] s (roleSync (modTs t f s)) := by simp

theorem regs_synced : (roleSync (modTs t f s)).fab.regs = s.fab.regs := by
  have kept : FabKept ∅ s (roleSync (modTs t f s)) := (kept_modTs t f s).trans (kept_roleSync _)
  exact kept.regs

theorem token_synced : token (roleSync (modTs t f s)) = token s := (judged_roleSync _).token.trans (token_modTs t f s)

theorem getTs_synced : ∃ r n, getTs (roleSync (modTs t f s)) t = roleSet r n (f (getTs s t)) := by
  obtain ⟨n, eq, -⟩ := getTs_roleSync (modTs t f s) t
  exact ⟨_, n, eq.trans (by rw [getTs_modTs])⟩

theorem getTs_synced_peer : ∃ r n, getTs (roleSync (modTs t f s)) (peer t) = roleSet r n (getTs s (peer t)) := by
  obtain ⟨n, eq, -⟩ := getTs_roleSync (modTs t f s) (peer t)
  exact ⟨_, n, eq.trans (by rw [getTs_modTs_peer])⟩

end

/-! ### Evidence and heartbeats -/

/-- Evidence that changes changes alone of what the trunks' records hold beside roles and failures (R276). -/
theorem evidence_set (t : Trunk) (v : Bool) (s : State) :
    let u := roleSync (modTs t (fun u => { u with ev := v }) s)
    Only [.fab, .sup] s u ∧ u.fab.regs = s.fab.regs ∧ (getTs u t).ev = v ∧ (getTs u (peer t)).ev = (getTs s (peer t)).ev ∧
      token u = token s ∧ RolesFollow u := by
  obtain ⟨r, n, own⟩ := getTs_synced t (fun u => { u with ev := v }) s
  obtain ⟨r', n', other⟩ := getTs_synced_peer t (fun u => { u with ev := v }) s
  exact ⟨only_synced _ _ _, regs_synced _ _ _, by rw [own]; rfl, by rw [other]; rfl, token_synced _ _ _, roles_roleSync _⟩

/-! ### The token moves or is lost (R279, R280) -/

section
variable (t : Trunk) (r n : Nat) (s : State)

theorem sup_moveToken : (moveToken t r n s).sup = { s.sup with
    tok0 := tokenCode (some t), tok1 := tokenCode (some t), tok2 := tokenCode (some t), checking := true, moving := true, moveTo := t,
    prev := holder s, granted := true, returning := decide (r = 6), lastHold := some t, startUp := decide (r = 1), coreTok := coreHolder s,
    decAt := if [1, 2, 7].contains r then s.pw.sup + 1 else s.sup.decAt, reason := r, lastTo := (tokenCode (some t)).toNat,
    result := n } := by
  unfold moveToken
  extract_lets old core s1 oldSup s2
  have counted : (count 0x50 0 (setLast r (tokenCode (some t)).toNat n s2)).sup = (setLast r (tokenCode (some t)).toNat n s2).sup := by simp
  rw [counted]
  rfl

theorem token_moveToken : token (moveToken t r n s) = (tokenCode (some t)).toNat := by simp [token, sup_moveToken]

theorem holder_moveToken : holder (moveToken t r n s) = some t := by
  unfold holder
  rw [token_moveToken]
  cases t <;> rfl

theorem getTs_moveToken (x : Trunk) : getTs (moveToken t r n s) x = getTs s x := by
  cases x <;> simp only [getTs, sup_moveToken]

theorem sup_goDark : (goDark r n s).sup = { s.sup with
    tok0 := 0, tok1 := 0, tok2 := 0, checking := false, moving := false, prev := none, prevCmd := none, returning := false, reason := r, lastTo := 0, result := n } := by
  unfold goDark
  have unsent : (unsend s).sup = s.sup := Only.sup (M := [.fab, .ser, .frm]) (by simp)
  show { (unsend s).sup with
    tok0 := 0, tok1 := 0, tok2 := 0, checking := false, moving := false, prev := none, prevCmd := none, returning := false, reason := r,
    lastTo := 0, result := n } = _
  rw [unsent]

theorem token_goDark : token (goDark r n s) = 0 := by simp [token, sup_goDark]

theorem getTs_goDark (x : Trunk) : getTs (goDark r n s) x = getTs s x := by
  cases x <;> simp only [getTs, sup_goDark]

theorem kept_goDark : FabKept ∅ s (goDark r n s) := by
  have lost (u : State) : FabKept ∅ u (noHolder u) := .of_fab rfl
  exact (FabKept.of_told (told_unsend s)).trans ((lost _).trans (kept_setLast _ _ _ _))

end

theorem holder_of_token_zero {s : State} (h : token s = 0) : holder s = none := by simp [holder, h]

/-! ### The decision table (R279) -/

theorem token_setXdown (v : Bool) (s : State) : token (setXdown v s) = token s := by
  unfold setXdown onRise
  dsimp only
  unfold token
  split <;> simp

theorem kept_setXdown (v : Bool) (s : State) : FabKept ∅ s (setXdown v s) := by
  unfold setXdown
  exact (kept_onRise _ _ _ _ _ _).since rfl

theorem kept_grantRow (s : State) : FabKept ∅ s (grantRow s) :=
  FabKept.ite (kept_moveToken _ _ _ s) (FabKept.ite (kept_moveToken _ _ _ s) (.refl s))

theorem kept_holderRow (h : Trunk) (s : State) : FabKept ∅ s (holderRow h s) := by
  unfold holderRow
  extract_lets o
  exact FabKept.ite (FabKept.ite ((kept_latchTrunk _ _ s).trans (kept_moveToken _ _ _ _)) (kept_goDark _ _ s))
    (FabKept.ite (kept_setXdown _ s) (kept_setXdown _ s))

theorem kept_decide279 (s : State) : FabKept ∅ s (decide279 s) := by
  unfold decide279
  split
  · exact FabKept.ite (.refl s) (kept_grantRow s)
  · exact FabKept.ite (.refl s) (kept_holderRow _ s)

theorem decide279_holder {s : State} {h : Trunk} (holds : holder s = some h) :
    decide279 s = if s.sup.checking then s else holderRow h s := by
  unfold decide279
  rw [holds]

theorem decide279_none {s : State} (h : token s = 0) : decide279 s = grantRow s := by
  unfold decide279
  rw [holder_of_token_zero h]
  exact if_neg (by simp [h])

/-- A holder with good evidence, or one that is checked, keeps the token. -/
theorem decide279_keeps {s : State} {h : Trunk} (holds : holder s = some h) (good : s.sup.checking = true ∨ evGood s h = true) :
    token (decide279 s) = token s := by
  rw [decide279_holder holds]
  split
  · rfl
  next idle =>
    have good : evGood s h = true := good.resolve_left idle
    unfold holderRow
    simp only [good, Bool.not_true, Bool.false_eq_true, if_false]
    split <;> exact token_setXdown _ s

/-- A holder with bad evidence loses the token: to the other trunk where that qualifies, and is then latched. -/
theorem decide279_loses {s : State} {h : Trunk} (holds : holder s = some h) (idle : s.sup.checking = false) (bad : evGood s h = false) :
    decide279 s = if qualifies s (peer h) then moveToken (peer h) 2 0 (latchTrunk h false s) else goDark 2 0 s := by
  rw [decide279_holder holds, idle]
  unfold holderRow
  simp [bad]

/-! ### One CK_SUP cycle -/

/-- The state that the decision table sees in a CK_SUP cycle. -/
def beforeDecision (s : State) : State :=
  qualTrack .b (qualTrack .a (roleSync (evidenceCycle .b (evidenceCycle .a (upsetsPast { s with
    pw := { s.pw with sup := s.pw.sup + 1, stage := if s.pw.stage = 1 then 2 else s.pw.stage } })))))

theorem supCycle_eq (s : State) : supCycle s = roleSync (decide279 (beforeDecision s)) := rfl

theorem judged_modTs (t : Trunk) (f : TrunkSup → TrunkSup) (s : State) (same : judgedOf (f (getTs s t)) = judgedOf (getTs s t)) :
    Judged s (modTs t f s) := by
  refine .of_only (by simp) (fun _ => by cases t <;> rfl) (by cases t <;> rfl) (token_modTs t f s) (by cases t <;> rfl) fun x => ?_
  by_cases own : x = t
  · rw [own, getTs_modTs, same]
  · rw [getTs_modTs_of_ne own]

theorem judged_beforeDecision (s : State) : Judged s (beforeDecision s) := by
  have begun : Judged s (upsetsPast { s with
      pw := { s.pw with sup := s.pw.sup + 1, stage := if s.pw.stage = 1 then 2 else s.pw.stage } }) :=
    ⟨fun x => by cases x <;> rfl, fun x => by cases x <;> rfl, rfl, rfl, rfl, fun x => by cases x <;> rfl⟩
  have seen (t : Trunk) (u : State) : Judged u (evidenceCycle t u) := by
    unfold evidenceCycle
    exact judged_modTs _ _ _ rfl
  have tracked (t : Trunk) (u : State) : Judged u (qualTrack t u) := by
    unfold qualTrack
    exact judged_modTs _ _ _ rfl
  exact begun.trans ((seen _ _).trans ((seen _ _).trans ((judged_roleSync _).trans ((tracked _ _).trans (tracked _ _)))))

theorem kept_beforeDecision (s : State) : FabKept ∅ s (beforeDecision s) := by
  have begun : FabKept ∅ s (upsetsPast { s with
      pw := { s.pw with sup := s.pw.sup + 1, stage := if s.pw.stage = 1 then 2 else s.pw.stage } }) := .of_regs rfl
  have seen (t : Trunk) (u : State) : FabKept ∅ u (evidenceCycle t u) := by
    unfold evidenceCycle
    exact kept_modTs _ _ _
  have tracked (t : Trunk) (u : State) : FabKept ∅ u (qualTrack t u) := by
    unfold qualTrack
    exact kept_modTs _ _ _
  exact begun.trans ((seen _ _).trans ((seen _ _).trans ((kept_roleSync _).trans ((tracked _ _).trans (tracked _ _)))))

/-- A CK_SUP cycle writes no word in force and counts the cycle. -/
theorem supCycle_frame (s : State) : Only [.pw, .fab, .ser, .frm, .sup] s (supCycle s) ∧ (supCycle s).fab.regs = s.fab.regs ∧
    (supCycle s).pw.sup = s.pw.sup + 1 := by
  have kept : FabKept ∅ s (supCycle s) := (kept_beforeDecision s).trans ((kept_decide279 _).trans (kept_roleSync _))
  have after (u : State) : Only [.fab, .ser, .frm, .sup] u (roleSync (decide279 (qualTrack .b (qualTrack .a (roleSync (evidenceCycle .b
    (evidenceCycle .a (upsetsPast u)))))))) := by simp
  exact ⟨by simp, kept.regs, congrArg Power.sup ((after _).pw (by decide))⟩

/-- A holder with bad evidence loses the token in the CK_SUP cycle (R279). -/
theorem supCycle_loses {s : State} {h : Trunk} (holds : holder s = some h) (idle : s.sup.checking = false) (bad : evGood s h = false) :
    (getTs (supCycle s) h).latched = ((getTs s h).latched || qualifies s (peer h)) ∧
    (qualifies s (peer h) = true →
      holder (supCycle s) = some (peer h) ∧ (supCycle s).sup.checking = true ∧ (supCycle s).sup.prev = some h) ∧
    (qualifies s (peer h) = false → token (supCycle s) = 0) := by
  have seen := judged_beforeDecision s
  have holds' : holder (beforeDecision s) = some h := seen.holder.trans holds
  obtain ⟨-, latched, -⟩ := seen.trunk h
  have synced := judged_roleSync (decide279 (beforeDecision s))
  obtain ⟨-, latched', -⟩ := synced.trunk h
  rw [supCycle_eq, latched', synced.holder, synced.checking, synced.token,
    (congrArg Sup.prev (sup_roleSync_rest (decide279 (beforeDecision s))) :),
    decide279_loses holds' (seen.checking.trans idle) (by rw [seen.evGood, bad]), seen.qualifies]
  by_cases other : qualifies s (peer h) = true
  · have old : holder (latchTrunk h false (beforeDecision s)) = some h := (holder_modTs _ _ _).trans holds'
    rw [if_pos other, holder_moveToken, getTs_moveToken, sup_moveToken, old]
    unfold latchTrunk
    rw [getTs_modTs]
    simp [other]
  · rw [if_neg other, getTs_goDark, latched, token_goDark]
    simp [other]

/-- Without a holder the preferred trunk is granted the token where it qualifies; where neither trunk does, it stays with none (R284). -/
theorem supCycle_grants {s : State} (none : token s = 0) :
    (qualifies s (preferred s) = true → holder (supCycle s) = some (preferred s) ∧ (supCycle s).sup.checking = true) ∧
    (qualifies s .a = false → qualifies s .b = false → token (supCycle s) = 0) := by
  have seen := judged_beforeDecision s
  have synced := judged_roleSync (decide279 (beforeDecision s))
  rw [supCycle_eq, synced.holder, synced.checking, synced.token, decide279_none (seen.token.trans none)]
  unfold grantRow
  simp only [seen.qualifies, seen.preferred]
  refine ⟨fun good => ?_, fun notA notB => ?_⟩
  · rw [if_pos good, holder_moveToken, sup_moveToken]
    exact ⟨rfl, rfl⟩
  · have neither (x : Trunk) : qualifies s x = false := by cases x <;> assumption
    simp [neither, seen.token, none]

/-- Settles O49: each command changes one trunk's record, or the token by R279, and `roleSync` gives every trunk its role anew. -/
theorem evidenceHeartbeatsAndDecisions : Obligations.EvidenceHeartbeatsAndDecisions := by
  unfold Obligations.EvidenceHeartbeatsAndDecisions
  intro s hp
  refine ⟨fun t good bad => ?_, fun t bad good => ?_, fun t power xtal heard => ?_, fun t due => ?_, ?_⟩
  · refine ⟨_, congrArg Host.Outcome.next ((running_eq (evidenceChange t) hp).trans ?_), evidence_set t false s⟩
    exact if_pos ⟨good, bad⟩
  · refine ⟨_, congrArg Host.Outcome.next ((running_eq (evidenceChange t) hp).trans ?_), evidence_set t true s⟩
    exact (if_neg (by simp [bad])).trans (if_pos ⟨by simp [bad], good⟩)
  · obtain ⟨r, n, own⟩ := getTs_synced t
      (fun u => { u with toggles := u.toggles + 1, hbAt := s.pw.sup, seen := u.seen || decide (4 ≤ u.toggles + 1) }) s
    refine ⟨_, congrArg Host.Outcome.next ((running_eq (heartToggle t) hp).trans (if_neg (by simp [power, xtal, heard]))), ?_⟩
    exact ⟨only_synced _ _ _, by rw [own]; rfl, by rw [own]; rfl, by rw [own]; rfl, token_synced _ _ _, roles_roleSync _⟩
  · obtain ⟨r, n, own⟩ := getTs_synced t (fun u => { u with toggles := 0, seen := false }) s
    refine ⟨_, congrArg Host.Outcome.next ((running_eq (heartTimeout t) hp).trans (if_pos due)), ?_⟩
    exact ⟨only_synced _ _ _, by rw [own]; rfl, by rw [own]; rfl, token_synced _ _ _, roles_roleSync _⟩
  · obtain ⟨only, regs, cycle⟩ := supCycle_frame s
    have seen := judged_beforeDecision s
    refine ⟨supCycle s, congrArg Host.Outcome.next (running_eq supCycle hp), only, regs, cycle, roles_roleSync _, fun h holds good => ?_,
      fun h holds idle bad => supCycle_loses holds idle bad, fun none => (supCycle_grants none).1, fun none => (supCycle_grants none).2⟩
    have keeps := decide279_keeps (seen.holder.trans holds) (by rwa [seen.checking, seen.evGood])
    have same : token (supCycle s) = token s := (judged_roleSync _).token.trans (keeps.trans seen.token)
    unfold holder at holds ⊢
    rwa [same]

end Sys2Proof.Machine
end

section
/-! Moves of the token, takeover checks, power cycles and repairs (R280–R287). -/

namespace Sys2Proof.Machine

/-! ### Counts leave the supervisor -/

@[simp] theorem sup_count (p i : Nat) (s : State) : (count p i s).sup = s.sup := Only.sup (M := [.fab]) (by simp)

@[simp] theorem getTs_count (p i : Nat) (s : State) (x : Trunk) : getTs (count p i s) x = getTs s x := by
  cases x <;> simp [getTs]

theorem token_of_sup {s t : State} (h : t.sup = s.sup) : token t = token s := by
  unfold token
  rw [h]

/-- A failure count survives the roles' step on a latched trunk that is not repairing (R287). -/
theorem fails_roleSync_latched {s : State} {t : Trunk} (latched : (getTs s t).latched = true) (still : (getTs s t).repair = false) :
    ∃ r, getTs (roleSync s) t = roleSet r (getTs s t).fails (getTs s t) := by
  have role : roleOf s t = 0 ∨ roleOf s t = 7 := by
    unfold roleOf
    dsimp only
    rw [still, latched]
    by_cases off : (!(getTs s t).tpwr || !vddlOk s t) = true <;> simp [off]
  obtain ⟨n, eq, kept⟩ := getTs_roleSync s t
  have same : n = (getTs s t).fails := kept (by omega) (by omega)
  exact ⟨_, same ▸ eq⟩

/-! ### The grant after the wait, and the move start (R280, R284) -/

/-- A grant to `t` followed by the roles' step. -/
theorem granted_synced (t : Trunk) (r n : Nat) (s : State) :
    holder (roleSync (moveToken t r n s)) = some t ∧ (roleSync (moveToken t r n s)).sup.checking = true ∧
    (roleSync (moveToken t r n s)).sup.granted = true ∧ (roleSync (moveToken t r n s)).sup.reason = r := by
  have synced := judged_roleSync (moveToken t r n s)
  have rest := sup_roleSync_rest (moveToken t r n s)
  have sup := sup_moveToken t r n s
  refine ⟨synced.holder.trans (holder_moveToken t r n s), synced.checking.trans ?_, (congrArg Sup.granted rest :).trans ?_,
    (congrArg Sup.reason rest :).trans ?_⟩ <;> rw [sup]

theorem prefWait_due {s : State} {q : Nat} (first : s.sup.granted = false) (none : token s = 0)
    (mine : qualifies s (preferred s) = false) (other : qualifies s (peer (preferred s)) = true)
    (since : (getTs s (peer (preferred s))).qualAt = some q) (due : q + supMs (regF s 0x50 0x040 16 8) ≤ s.pw.sup) :
    prefWait s = roleSync (moveToken (peer (preferred s)) 1 0 s) := by
  unfold prefWait
  dsimp only
  rw [if_neg (by simp [first, none, mine, other]), since]
  exact if_pos due

theorem ref_changeRef (t : Trunk) (s : State) : (changeRef t s).pll.ref = t := by
  unfold changeRef
  extract_lets s1 ok old s2
  have noted : PllKept s2 (count 0x02 5 (setUncomp s2)) := (pllKept_setUncomp s2).trans (.of_only (by simp))
  split
  · rfl
  · exact noted.ref

/-- The PLL refers to the new holder once the move starts (R85, R280). -/
def moveRef (n : Trunk) (s : State) : State :=
  if s.pll.ref = n then (if s.sup.startUp then count 0x02 5 (setUncomp s) else s) else changeRef n s

theorem only_moveRef (n : Trunk) (s : State) : Only [.fab, .orb, .pll] s (moveRef n s) := by
  unfold moveRef
  split
  · split
    · simp
    · exact .refl _ _
  · simp

theorem ref_moveRef (n : Trunk) (s : State) : (moveRef n s).pll.ref = n := by
  have noted : PllKept s (count 0x02 5 (setUncomp s)) := (pllKept_setUncomp s).trans (.of_only (by simp))
  unfold moveRef
  split
  next same =>
    split
    · exact noted.ref.trans same
    · exact same
  · exact ref_changeRef n s

theorem kept_enterHold (s : State) : FabKept ∅ s (enterHold s) := by
  have phased : (setPhase true s.pll.uncomp s).fab = s.fab := fab_of_only (by simp)
  unfold enterHold
  exact (FabKept.refl s).ite ((kept_count _ _ _).since phased)

theorem kept_changeRef (n : Trunk) (s : State) : FabKept ∅ s (changeRef n s) := by
  have noted (u : State) : FabKept ∅ u (count 0x02 5 (setUncomp u)) := (kept_beside (by simp)).trans (kept_count _ _ _)
  unfold changeRef
  extract_lets s1 ok old s2
  have changed : FabKept ∅ s s2 := (kept_enterHold s).trans (.of_fab rfl)
  exact changed.ite (changed.trans (noted _))

theorem kept_moveRef (n : Trunk) (s : State) : FabKept ∅ s (moveRef n s) := by
  have noted : FabKept ∅ s (count 0x02 5 (setUncomp s)) := (kept_beside (by simp)).trans (kept_count _ _ _)
  exact FabKept.ite (noted.ite (.refl s)) (kept_changeRef n s)

/-- The state at a move start before the move is noted as made. -/
def moveBegun (n : Trunk) (s : State) : State :=
  modLn n (fun l => { l with eyeErr := [], eyeNow := [], eyeNew := none, held := true }) (testCancel n (moveRef n (unsend s)))

theorem only_moveBegun (n : Trunk) (s : State) : Only [.fab, .ser, .frm, .orb, .pll, .lnA, .lnB] s (moveBegun n s) := by
  have cut : Only [.fab, .ser, .frm] s (unsend s) := by simp
  have after (u : State) : Only [.fab, .lnA, .lnB] u (modLn n (fun l => { l with eyeErr := [], eyeNow := [], eyeNew := none, held := true })
    (testCancel n u)) := by simp
  exact (cut.mono (by decide)).trans (((only_moveRef n _).mono (by decide)).trans ((after _).mono (by decide)))

theorem dataLanes_of_kept {C : Set Nat} {s t : State} (h : FabKept C s t) (keys : keysFrom 0 s.fab.regs = true)
    (hC : 0x44040 ∉ C) : dataLanes t = dataLanes s := by
  unfold dataLanes lanesUnder regsGet
  rw [h.words keys _ _ hC]

/-- A cancelled test function writes the trunk's LN_TEST alone. -/
theorem kept_testCancel (t : Trunk) (s : State) : FabKept {lnPage t * 0x1000 + 0x048} s (testCancel t s) :=
  (kept_setReg s (lnPage t) 0x048 0 (Set.mem_singleton _)).trans (kept_testApplied t _)

theorem dataLanes_moveBegun (n : Trunk) {s : State} (canon : Canonical s) : dataLanes (moveBegun n s) = dataLanes s := by
  have kept : FabKept {lnPage n * 0x1000 + 0x048} s (moveBegun n s) :=
    (FabKept.of_told (told_unsend s)).trans (((kept_moveRef n _).mono (Set.empty_subset _)).trans ((kept_testCancel n _).trans (kept_modLn _ _ _)))
  exact dataLanes_of_kept kept canon.regs (by cases n <;> decide)

theorem moveStart_eq {s : State} (run : s.pw.coreRun = true) (moving : s.sup.moving = true) (holds : holder s = some s.sup.moveTo) :
    moveStart s = dueSlot (peer s.sup.moveTo) { (moveBegun s.sup.moveTo s) with
      sup := { (moveBegun s.sup.moveTo s).sup with
        moving := false, passed := false, startUp := false,
        moveAt := (moveBegun s.sup.moveTo s).pw.elapsed + 4 * (dataLanes (moveBegun s.sup.moveTo s) + 2) } } :=
  if_neg (by simp [run, moving, holds])

/-- The move start: no move is under way, the PLL refers to the new holder, and the check's end is set (R280, R281). -/
theorem moveStart_spec {s : State} (run : s.pw.coreRun = true) (moving : s.sup.moving = true)
    (holds : holder s = some s.sup.moveTo) (canon : Canonical s) :
    (moveStart s).sup =
      { s.sup with moving := false, passed := false, startUp := false, moveAt := s.pw.elapsed + 4 * (dataLanes s + 2) } ∧
    (moveStart s).pll.ref = s.sup.moveTo := by
  have begun := only_moveBegun s.sup.moveTo s
  have cut : Only [.fab, .ser, .frm] s (unsend s) := by simp
  have after : Only [.fab, .lnA, .lnB] (moveRef s.sup.moveTo (unsend s)) (moveBegun s.sup.moveTo s) := by simp [moveBegun]
  have ends (u : State) : Only [.fab, .dlA, .dlB] u (dueSlot (peer s.sup.moveTo) u) := by simp
  rw [moveStart_eq run moving holds]
  refine ⟨((ends _).sup (by decide)).trans ?_, (congrArg Pll.ref ((ends _).pll (by decide))).trans ?_⟩
  · rw [begun.sup (by decide), begun.pw (by decide), dataLanes_moveBegun _ canon]
  · exact (congrArg Pll.ref (after.pll (by decide))).trans (ref_moveRef _ _)

/-- Once no move is under way the fabric sees the token's holder. -/
theorem coreHolder_still {s : State} (h : s.sup.moving = false) : coreHolder s = holder s := by
  unfold coreHolder
  rw [h]
  rfl

/-! ### The end of the check (R280–R282) -/

/-- The latch of a LATCH command falls on the old holder alone (R285). -/
theorem latchCmd_or (s : State) : latchCmd s = s ∨ ∃ p, s.sup.prevCmd = some p ∧ latchCmd s = latchTrunk p true s := by
  unfold latchCmd
  split
  next p eq => exact .inr ⟨p, eq, rfl⟩
  · exact .inl rfl

theorem kept_latchCmd (s : State) : FabKept ∅ s (latchCmd s) := kept_beside (by simp)

theorem latched_latchTrunk (t x : Trunk) (c : Bool) (s : State) (h : (getTs s x).latched = true) :
    (getTs (latchTrunk t c s) x).latched = true := by
  unfold latchTrunk
  by_cases own : x = t
  · rw [own, getTs_modTs]
  · rw [getTs_modTs_of_ne own, h]

theorem latched_latchCmd (x : Trunk) (s : State) (h : (getTs s x).latched = true) : (getTs (latchCmd s) x).latched = true := by
  obtain same | ⟨p, -, eq⟩ := latchCmd_or s
  · rw [same, h]
  · rw [eq, latched_latchTrunk p x true s h]

theorem sup_modTs_failL (t : Trunk) (f : TrunkSup → TrunkSup) (s : State) : (modTs t f s).sup.failL = s.sup.failL := by cases t <;> rfl

theorem failL_latchCmd (s : State) : (latchCmd s).sup.failL = s.sup.failL := by
  obtain same | ⟨p, -, eq⟩ := latchCmd_or s
  · rw [same]
  · rw [eq]
    exact sup_modTs_failL _ _ _

theorem token_latchCmd (s : State) : token (latchCmd s) = token s := by
  obtain same | ⟨p, -, eq⟩ := latchCmd_or s
  · rw [same]
  · rw [eq]
    exact token_modTs _ _ _

/-- Trunk `p` as the token returns to it: it is latched no more, and no command's latch is due (R282, R285). -/
def unlatched (p : Trunk) (s : State) : State :=
  { (modTs p (fun u => { u with latched := false, byCmd := false }) s) with
    sup := { (modTs p (fun u => { u with latched := false, byCmd := false }) s).sup with prevCmd := none } }

theorem getTs_unlatched_of_ne {p x : Trunk} (h : x ≠ p) (s : State) : getTs (unlatched p s) x = getTs s x := by
  have noted : getTs (unlatched p s) x = getTs (modTs p (fun u => { u with latched := false, byCmd := false }) s) x := by cases x <;> rfl
  rw [noted, getTs_modTs_of_ne h]

/-- The trunk whose check failed, latched and counted. -/
def failedCheck (h : Trunk) (s : State) : State := count 0x50 1 (latchTrunk h false s)

/-- A failed check gives the token back to the old holder, or to nobody (R282). -/
theorem checkFail_or (h : Trunk) (s : State) :
    (∃ p, (failedCheck h s).sup.prev = some p ∧ checkFail h s = moveToken p 6 2 (unlatched p (failedCheck h s))) ∨
    checkFail h s = goDark (failedCheck h s).sup.reason 3 (latchCmd (failedCheck h s)) := by
  unfold checkFail
  extract_lets s1 back
  cases eq : back with
  | none => exact .inr rfl
  | some p =>
    refine .inl ⟨p, ?_, rfl⟩
    dsimp only [back] at eq
    split at eq
    next q prev =>
      split at eq
      · rw [← eq]
        exact prev
      · exact absurd eq nofun
    · exact absurd eq nofun

theorem checkFail_spec {h : Trunk} {s : State} (prev : s.sup.prev ≠ some h) :
    holder (checkFail h s) ≠ some h ∧ (getTs (checkFail h s) h).latched = true ∧ (checkFail h s).sup.failL = s.sup.failL ∧
    FabKept ∅ s (checkFail h s) := by
  have kept : FabKept ∅ s (failedCheck h s) := (kept_latchTrunk h false s).trans (kept_count _ _ _)
  have latched : (getTs (failedCheck h s) h).latched = true := by
    unfold failedCheck latchTrunk
    rw [getTs_count, getTs_modTs]
  have same : (failedCheck h s).sup.prev = s.sup.prev ∧ (failedCheck h s).sup.failL = s.sup.failL := by
    unfold failedCheck
    rw [sup_count]
    cases h <;> exact ⟨rfl, rfl⟩
  obtain ⟨old, lanes⟩ := same
  obtain ⟨p, back, eq⟩ | eq := checkFail_or h s
  · have other : h ≠ p := fun e => prev (by rw [← old, back, e])
    rw [eq, holder_moveToken, getTs_moveToken, getTs_unlatched_of_ne other, sup_moveToken]
    refine ⟨fun e => other (Option.some.inj e).symm, latched, (sup_modTs_failL _ _ _).trans lanes, kept.trans ?_⟩
    exact (FabKept.of_fab (by cases p <;> rfl)).trans (kept_moveToken _ _ _ _)
  · rw [eq, holder_of_token_zero (token_goDark _ _ _), getTs_goDark, sup_goDark]
    refine ⟨nofun, latched_latchCmd h _ latched, (failL_latchCmd _).trans lanes, kept.trans ?_⟩
    exact (kept_latchCmd _).trans (kept_goDark _ _ _)

/-- The state after a good check, before its replay starts. -/
def passedCheck (s : State) : State :=
  { latchCmd s with
    sup := { (latchCmd s).sup with checking := false, prev := none, prevCmd := none, returning := false, passed := true }
    pw := { (latchCmd s).pw with stage := max (latchCmd s).pw.stage 5 } }

theorem checkPass_eq (s : State) : checkPass s = startReplay (passedCheck s) := rfl

theorem replaying_startReplay (s : State) : (startReplay s).ser.replaying = true := by
  have counted (u : State) : (count 0x40 11 u).ser = u.ser := Only.ser (M := [.fab]) (by simp)
  unfold startReplay
  dsimp only
  rw [counted]

theorem checkPass_spec (s : State) : (checkPass s).pw = { s.pw with stage := max s.pw.stage 5 } ∧ token (checkPass s) = token s ∧
    (checkPass s).sup.checking = false ∧ (checkPass s).ser.replaying = true ∧ (checkPass s).sup.failL = s.sup.failL ∧
    FabKept ∅ s (checkPass s) := by
  have latch : (latchCmd s).pw = s.pw := pw_of_only (by simp)
  have replay : Only [.fab, .ser] (passedCheck s) (startReplay (passedCheck s)) := by simp
  have kept : FabKept ∅ s (passedCheck s) := (kept_latchCmd s).trans (.of_fab rfl)
  have sup := replay.sup (by decide)
  rw [checkPass_eq]
  refine ⟨(replay.pw (by decide)).trans ?_, (token_of_sup sup).trans (token_latchCmd s), congrArg Sup.checking sup,
    replaying_startReplay _, (congrArg Sup.failL sup).trans (failL_latchCmd s), kept.trans (.of_told (told_startReplay _))⟩
  show { (latchCmd s).pw with stage := max (latchCmd s).pw.stage 5 } = _
  rw [latch]

/-- The lanes that failed are named as the check is judged. -/
def namedLanes (fails : BitVec 6) (s : State) : State :=
  { s with sup := { s.sup with failL := BitVec.ofNat 6 (fails.toNat &&& checkedLanes s) } }

theorem only_namedLanes (fails : BitVec 6) (s : State) : Only [.sup] s (namedLanes fails s) := (only_mk_sup s s _).2 (.refl _ _)

section
variable {s : State} {h : Trunk} (fails : BitVec 6) (holds : holder s = some h) (checking : s.sup.checking = true)
include holds checking

theorem checkEnd_eq : checkEnd fails s =
    if !evGood s h then roleSync (checkFail h (namedLanes fails s))
    else if s.sup.moving ∨ s.pw.elapsed < s.sup.moveAt then s
    else if fails.toNat &&& checkedLanes s ≠ 0 then roleSync (checkFail h (namedLanes fails s))
    else roleSync (checkPass (namedLanes fails s)) := by
  unfold checkEnd
  rw [holds]
  exact if_neg (by simp [checking])

theorem checkEnd_passes (good : evGood s h = true) (still : s.sup.moving = false) (due : s.sup.moveAt ≤ s.pw.elapsed)
    (clean : fails.toNat &&& checkedLanes s = 0) : checkEnd fails s = roleSync (checkPass (namedLanes fails s)) := by
  rw [checkEnd_eq fails holds checking, if_neg (by simp [good]), if_neg (by simp [still, due]), if_neg (by simp [clean])]

theorem checkEnd_fails (bad : evGood s h = false ∨
      (s.sup.moving = false ∧ s.sup.moveAt ≤ s.pw.elapsed ∧ fails.toNat &&& checkedLanes s ≠ 0)) :
    checkEnd fails s = roleSync (checkFail h (namedLanes fails s)) := by
  rw [checkEnd_eq fails holds checking]
  by_cases good : evGood s h = true
  · obtain ⟨still, due, failed⟩ := bad.resolve_left (by simp [good])
    rw [if_neg (by simp [good]), if_neg (by simp [still, due]), if_pos failed]
  · rw [if_pos (by simp [good])]

end

/-- A power cycle: the trunk repairs with TPWR low (R286). -/
theorem powerCycle_synced (t : Trunk) (s : State) : ∃ r n, getTs (roleSync (powerCycle t s)) t =
    roleSet r n { (getTs s t) with repair := true, tpwr := false, lowAt := s.pw.sup } := by
  obtain ⟨n, eq, -⟩ := getTs_roleSync (powerCycle t s) t
  refine ⟨_, n, eq.trans (congrArg _ ?_)⟩
  unfold powerCycle
  rw [getTs_count, getTs_modTs]

/-- The trunk's record as its repair time ends (R286, R287). -/
def repairOver (now : Nat) (u : TrunkSup) : TrunkSup :=
  { u with repair := false, latched := true, detect := false, latchAt := now, fails := u.fails + 1 }

theorem repairOver_synced (t : Trunk) (s : State) :
    ∃ r, getTs (roleSync (count 0x50 7 (modTs t (repairOver s.pw.sup) s))) t = roleSet r ((getTs s t).fails + 1) (repairOver s.pw.sup (getTs s t)) := by
  have set : getTs (count 0x50 7 (modTs t (repairOver s.pw.sup) s)) t = repairOver s.pw.sup (getTs s t) := by rw [getTs_count, getTs_modTs]
  obtain ⟨r, eq⟩ := fails_roleSync_latched (s := count 0x50 7 (modTs t (repairOver s.pw.sup) s)) (t := t) (by rw [set]; rfl) (by rw [set]; rfl)
  rw [set] at eq
  exact ⟨r, eq⟩

theorem token_counted_modTs (p i : Nat) (t : Trunk) (f : TrunkSup → TrunkSup) (s : State) :
    token (roleSync (count p i (modTs t f s))) = token s :=
  (judged_roleSync _).token.trans ((token_of_sup (sup_count _ _ _)).trans (token_modTs t f s))

/-- Settles O51: the token's moves by `sup_moveToken`, the check's two ends by `checkPass_spec` and `checkFail_spec`, and the repairs as
changes of one trunk's record. -/
theorem movesChecksAndRepairs : Obligations.MovesChecksAndRepairs := by
  unfold Obligations.MovesChecksAndRepairs
  intro s hp
  refine ⟨fun q first none mine other since due => ?_, fun run moving holds canon => ?_, fun h fails holds checking => ⟨?_, ?_⟩,
    fun t low due => ?_, fun t repairing high due => ?_, fun t latched still auto left other due => ?_⟩
  · refine ⟨_, congrArg Host.Outcome.next ((running_eq prefWait hp).trans (prefWait_due first none mine other since due)), by simp, ?_⟩
    exact granted_synced _ 1 0 s
  · obtain ⟨sup, ref⟩ := moveStart_spec run moving holds canon
    refine ⟨moveStart s, congrArg Host.Outcome.next (coreOnly_eq moveStart hp run), sup, ref, ?_⟩
    rw [coreHolder_still (congrArg Sup.moving sup), ← holds]
    unfold holder
    have same : token (moveStart s) = token s := by
      unfold token
      rw [sup]
    rw [same]
  · intro good still due clean
    obtain ⟨pw, token, idle, replay, failL, kept⟩ := checkPass_spec (namedLanes fails s)
    have synced := judged_roleSync (checkPass (namedLanes fails s))
    have step : Only [.fab, .sup] (checkPass (namedLanes fails s)) (roleSync (checkPass (namedLanes fails s))) := by simp
    have only : Only [.pw, .fab, .ser, .sup] (namedLanes fails s) (roleSync (checkPass (namedLanes fails s))) := by simp
    have rest := sup_roleSync_rest (checkPass (namedLanes fails s))
    refine ⟨_, congrArg Host.Outcome.next ((running_eq (checkEnd fails) hp).trans
      (checkEnd_passes fails holds checking good still due clean)), ((only_namedLanes fails s).mono (by decide)).trans only, (step.pw (by decide)).trans pw, ?_, synced.checking.trans idle,
      (congrArg Serai.replaying (step.ser (by decide))).trans replay, ?_, synced.regs.trans kept.regs⟩
    · unfold holder at holds ⊢
      rw [synced.token, token]
      exact holds
    · refine (congrArg Sup.failL rest :).trans (failL.trans ?_)
      simp [namedLanes, clean]
  · intro bad prev
    obtain ⟨lost, latched, failL, kept⟩ := checkFail_spec (h := h) (s := namedLanes fails s) prev
    have synced := judged_roleSync (checkFail h (namedLanes fails s))
    obtain ⟨-, same, -⟩ := synced.trunk h
    have only : Only [.fab, .ser, .frm, .sup] (namedLanes fails s) (roleSync (checkFail h (namedLanes fails s))) := by simp
    have rest := sup_roleSync_rest (checkFail h (namedLanes fails s))
    refine ⟨_, congrArg Host.Outcome.next ((running_eq (checkEnd fails) hp).trans (checkEnd_fails fails holds checking bad)),
      ((only_namedLanes fails s).mono (by decide)).trans only,
      by rwa [synced.holder], same.trans latched, (congrArg Sup.failL rest :).trans failL, synced.regs.trans kept.regs⟩
  · obtain ⟨r, n, own⟩ := getTs_synced t (fun u => { u with tpwr := true, highAt := s.pw.sup }) s
    refine ⟨_, congrArg Host.Outcome.next ((running_eq (pcycleEnd t) hp).trans (if_pos (by simp [low, due]))), only_synced _ _ _, ?_, ?_,
      token_synced _ _ _⟩ <;> rw [own] <;> rfl
  · obtain ⟨r, own⟩ := repairOver_synced t s
    refine ⟨_, congrArg Host.Outcome.next ((running_eq (repairTimeout t) hp).trans (if_pos (by simp [repairing, high, due]))), by simp,
      ?_, ?_, ?_, token_counted_modTs _ _ _ _ _⟩
    · exact congrArg TrunkSup.repair own
    · exact congrArg TrunkSup.latched own
    · exact congrArg TrunkSup.fails own
  · obtain ⟨r, n, own⟩ := powerCycle_synced t s
    refine ⟨_, congrArg Host.Outcome.next ((running_eq (autoRepair t) hp).trans (if_pos (by simp [latched, still, auto, left, other, due]))),
      by simp, ?_, ?_, ?_, token_counted_modTs _ _ _ _ _⟩ <;> rw [own] <;> rfl

end Sys2Proof.Machine
end

section
/-! Scrubbing (R278, R288), and the writes of a CK_SUP page on which nothing waits to be applied (R290, R340). -/

namespace Sys2Proof.Machine

/-! ### The scrubbed words (R288) -/

@[simp] theorem vote_triFix (t : Tri) : vote (triFix t) = vote t := by
  simp [triFix, vote]

/-- A scrubbed store votes as before at every key. -/
theorem vote_ramGet_scrubRam (live : Nat → Bool) (d : Tri) (m : Ram Tri) (a : Nat) :
    vote (ramGet d (scrubRam live m).1 a) = vote (ramGet d m a) := by
  induction m with
  | nil => rfl
  | cons e m ih =>
    obtain ⟨k, v⟩ := e
    have key : (if live k then (k, triFix v) else (k, v)) = (k, if live k then triFix v else v) := by split <;> rfl
    simp only [scrubRam] at ih ⊢
    simp only [List.map_cons, key, ramGet]
    split_ifs <;> simp [ih]

/-- A word unlisted as the reset word reads as before. -/
theorem ramGet_normRegs {m : Ram Tri} {lo : Nat} (h : keysFrom lo m = true) (a : Nat) :
    ramGet (resetAt a) (normRegs m) a = ramGet (resetAt a) m a := by
  induction m generalizing lo with
  | nil => rfl
  | cons e m ih =>
    obtain ⟨k, v⟩ := e
    simp only [keysFrom, Bool.and_eq_true, decide_eq_true_eq] at h
    obtain ⟨-, rest⟩ := h
    have ih := ih rest
    unfold normRegs at ih ⊢
    by_cases same : v = resetAt k
    · rw [List.filter_cons_of_neg (by simp [same]), ih, ramGet]
      split_ifs with below own
      · exact ramGet_below _ rest (Nat.lt_succ_of_lt below)
      · rw [ramGet_below _ rest (by rw [own]; exact Nat.lt_succ_self k), same, own]
      · rfl
    · rw [List.filter_cons_of_pos (by simp [same]), ramGet, ramGet, ih]

/-- The scrubbed words of the pages that `live` admits have three equal copies. -/
theorem copies_scrubRam {live : Nat → Bool} {m : Ram Tri} {e : Nat × Tri} (he : e ∈ (scrubRam live m).1) (on : live e.1 = true) :
    e.2.a = e.2.b ∧ e.2.b = e.2.c := by
  obtain ⟨x, -, rfl⟩ := List.mem_map.1 he
  by_cases hx : live x.1 = true
  · simp [hx, triFix]
  · exact absurd on (by simp [hx])

/-! ### The token (R278) -/

theorem token_lt (s : State) : token s < 4 := BitVec.isLt _

/-- The scrubbed token: the legal vote in all three copies, the empty one for 0b11. -/
theorem scrubToken_spec (s : State) : (scrubToken s).1.sup.tok0 = (scrubToken s).1.sup.tok1 ∧
    (scrubToken s).1.sup.tok1 = (scrubToken s).1.sup.tok2 ∧ token (scrubToken s).1 = token s % 3 := by
  have legal := token_lt s
  unfold scrubToken
  extract_lets v bad
  split
  next three =>
    have empty : token (noHolder s) = 0 := by simp [token, noHolder, setToken, tokenCode]
    exact ⟨rfl, rfl, by rw [three, empty]⟩
  next other =>
    refine ⟨rfl, rfl, ?_⟩
    have copies : token { s with sup := { s.sup with tok0 := v, tok1 := v, tok2 := v } } = v.toNat := by simp [token]
    rw [copies, BitVec.toNat_ofNat]
    omega

/-! ### The pass -/

theorem told_roleStep (t : Trunk) (old : Nat) (s : State) : Told [0x50, 0x7C] s (roleStep t old s) := by
  have set (f : TrunkSup → TrunkSup) (u : State) : Told [0x50, 0x7C] u (modTs t f u) := .of_fab (fab_of_only (by simp))
  unfold roleStep
  extract_lets r s1 s2
  have confirmed : Told [0x50, 0x7C] s s1 := (told_count s (by decide) 4 (by decide)).ite (.refl s)
  have repaired : Told [0x50, 0x7C] s s2 := (confirmed.trans (set _ _)).ite confirmed
  exact (Told.refl s).ite (repaired.trans (told_postNotice _ (by decide) _ _))

theorem told_darkSync (s : State) : Told [0x50, 0x7C] s (darkSync s) := by
  unfold darkSync
  dsimp only
  have noted (b : Bool) (u : State) (h : u.fab = s.fab) : Told [0x50, 0x7C] s (onRise s.sup.wasDark b 0x50 2 0 u) :=
    Told.trans (.of_fab h) (told_onRise u (by decide) _ _ _ _ (by decide))
  exact noted _ _ rfl

/-- The roles' step posts notices and counts, and touches nothing else of the fabric. -/
theorem told_roleSync (s : State) : Told [0x50, 0x7C] s (roleSync s) := by
  have set (t : Trunk) (f : TrunkSup → TrunkSup) (u : State) : Told [0x50, 0x7C] u (modTs t f u) := .of_fab (fab_of_only (by simp))
  unfold roleSync
  extract_lets s1 oa ob ra rb
  exact (told_darkSync s).trans ((set _ _ _).trans ((set _ _ _).trans ((told_roleStep _ _ _).trans (told_roleStep _ _ _))))

theorem told_countN {P : List Nat} (s : State) (h7C : 0x7C ∈ P) {p : Nat} (hp : p ∈ P) (i n : Nat) : Told P s (countN p i n s) := by
  unfold countN
  induction n generalizing s with
  | zero => exact .refl s
  | succ n ih =>
    rw [Function.iterate_succ_apply]
    exact (told_count s h7C i hp).trans (ih _)

/-- The buffered words that are frozen, scrubbed. -/
def frozenScrubbed (live : Nat → Bool) (f : Option (Ram Tri)) : Option (Ram Tri) := f.map (fun m => (scrubRam live m).1)

/-- The state once every word has been scrubbed, before the pass counts its corrections. -/
def scrubbed (s : State) : State :=
  { (scrubToken s).1 with fab := { s.fab with
      regs := normRegs (scrubRam (fun a => pageRuns s (a / 0x1000)) s.fab.regs).1
      buf := (scrubRam (fun a => pageRuns s (a / 0x1000)) s.fab.buf).1
      frozen := frozenScrubbed (fun a => pageRuns s (a / 0x1000)) s.fab.frozen
      upsets := s.fab.upsets.filter (fun u => !pageRuns s u.page)
      passes := (s.fab.passes + 1) % 65536 } }

theorem scrubPass_eq (s : State) : ∃ n, scrubPass s = roleSync (countN 0x50 8 n (scrubbed s)) := by
  unfold scrubPass scrubbed
  extract_lets live r b f t n oldFab s1 s2
  have frozen : f.1 = frozenScrubbed live s.fab.frozen := by
    dsimp only [f]
    cases s.fab.frozen <;> rfl
  refine ⟨n, ?_⟩
  dsimp only [s2]
  rw [frozen]

theorem scrubPass_told (s : State) : ∃ v, scrubPass s = roleSync v ∧ v.sup = (scrubToken s).1.sup ∧ Told [0x50, 0x7C] (scrubbed s) (scrubPass s) := by
  obtain ⟨n, eq⟩ := scrubPass_eq s
  have counted : (countN 0x50 8 n (scrubbed s)).sup = (scrubbed s).sup := Only.sup (M := [.fab]) (by simp)
  refine ⟨_, eq, counted, ?_⟩
  rw [eq]
  exact (told_countN _ (by decide) (by decide) 8 n).trans (told_roleSync _)

/-- Every word in force reads as before the pass. -/
theorem regAt_scrubPass {s : State} (canon : Canonical s) (p o : Nat) : regAt (scrubPass s) p o = regAt s p o := by
  obtain ⟨v, -, -, told⟩ := scrubPass_told s
  have keys : keysFrom 0 (scrubRam (fun a => pageRuns s (a / 0x1000)) s.fab.regs).1 = true :=
    keysFrom_map _ (fun e => by dsimp only; split <;> rfl) canon.regs
  unfold regAt regsGet
  rw [told.regs]
  show (vote (ramGet _ (normRegs _) _)).toNat = _
  rw [ramGet_normRegs keys, vote_ramGet_scrubRam]

theorem token_scrubPass (s : State) : token (scrubPass s) = token s % 3 ∧ (scrubPass s).sup.tok0 = (scrubPass s).sup.tok1 ∧
    (scrubPass s).sup.tok1 = (scrubPass s).sup.tok2 := by
  obtain ⟨v, eq, sup, -⟩ := scrubPass_told s
  obtain ⟨first, second, vote⟩ := scrubToken_spec s
  have rest := sup_roleSync_rest v
  rw [eq, (judged_roleSync v).token, token_of_sup sup, (congrArg Sup.tok0 rest :), (congrArg Sup.tok1 rest :), (congrArg Sup.tok2 rest :), sup]
  exact ⟨vote, first, second⟩

/-- After a pass the copies of every word of a running page agree (R288). -/
theorem copies_scrubPass (s : State) (e : Nat × Tri)
    (he : e ∈ (scrubPass s).fab.regs ∨ e ∈ (scrubPass s).fab.buf ∨ ∃ m, (scrubPass s).fab.frozen = some m ∧ e ∈ m)
    (on : pageRuns s (e.1 / 0x1000) = true) : e.2.a = e.2.b ∧ e.2.b = e.2.c := by
  obtain ⟨v, -, -, told⟩ := scrubPass_told s
  obtain words | buffered | ⟨m, frozen, mem⟩ := he
  · rw [told.regs] at words
    exact copies_scrubRam (live := fun a => pageRuns s (a / 0x1000)) (List.mem_of_mem_filter words) on
  · rw [told.buf] at buffered
    exact copies_scrubRam (live := fun a => pageRuns s (a / 0x1000)) buffered on
  · rw [told.fab] at frozen
    obtain ⟨x, -, rfl⟩ := Option.map_eq_some_iff.1 (frozen : frozenScrubbed _ s.fab.frozen = some m)
    exact copies_scrubRam (live := fun a => pageRuns s (a / 0x1000)) mem on

theorem upsets_scrubPass (s : State) : (scrubPass s).fab.upsets = s.fab.upsets.filter (fun u => !pageRuns s u.page) := by
  obtain ⟨v, -, -, told⟩ := scrubPass_told s
  rw [told.fab]
  rfl

/-- A word on whose page no upset stands has its code in every copy. -/
theorem ctlCopy_of_none {s : State} {p : Nat} (h : ∀ x ∈ s.fab.upsets, x.page ≠ p) (w k : Nat) : ctlCopy s p w k = ctlCode s p w := by
  unfold ctlCopy
  rw [List.find?_eq_none.2 fun x hx => by simp [h x hx]]

theorem ctlCopy_scrubPass {s : State} {p : Nat} (on : pageRuns s p = true) (w k : Nat) :
    ctlCopy (scrubPass s) p w k = ctlCode (scrubPass s) p w := by
  refine ctlCopy_of_none (fun x hx same => ?_) w k
  rw [upsets_scrubPass] at hx
  have off := (List.mem_filter.1 hx).2
  rw [same, on] at off
  exact absurd off (by decide)

/-! ### Writes of a CK_SUP page with nothing to apply (R290, R340) -/

/-- A CK_SUP page applies no word where none is buffered, or where a boundary will (R340). -/
theorem applySup_idle {p a : Nat} {s t : State} (buf : t.fab.buf = s.fab.buf) (run : t.pw.coreRun = s.pw.coreRun) (ha : a / 0x1000 = p)
    (h : NothingToApply s p) : applySup p a t = t := by
  refine if_neg fun both => ?_
  simp only [Bool.and_eq_true, buf, run] at both
  obtain ⟨⟨-, listed⟩, now⟩ := both
  obtain idle | ⟨core, other⟩ := h
  · obtain ⟨e, mem, key⟩ := List.any_eq_true.1 listed
    have pending : s.fab.buf.any (fun e => e.1 / 0x1000 == p) = true :=
      List.any_eq_true.2 ⟨e, mem, by simp [eq_of_beq key, ha]⟩
    simp [updPending, pending] at idle
  · simp [core, other] at now

/-! ### CORE_STOPPED (R359) -/

theorem writeEffect_svStat (m : Master) (v : Nat) (s : State) : writeEffect m 0x50 0x050 v s =
    if v.testBit 5 then { s with pw := { s.pw with coreStopped := false } } else s := by
  rfl

/-- A served write of SV_STAT clears CORE_STOPPED where bit 5 is written, and does nothing else (R359). -/
theorem exec_svStatWrite {s : State} (hp : s.pw.por = false) (canon : Canonical s) {m : Master} (serves : Serves s m 0x50)
    (idle : updPending s 0x50 = false) (v : Word) : ∃ u, Access s u ∧
    exec (.svStatWrite m v) s = .next (if v.toNat.testBit 5 then { u with pw := { u.pw with coreStopped := false } } else u) := by
  obtain ⟨u, access, row⟩ := rowWrite_sup (v := v.toNat) serves canon.pages (by decide) (o := 0x050) (by decide) (by decide) (by decide)
    (by decide) (by decide) (by simp [writeRefusal, rangeOk, pgIn])
  refine ⟨u, access, congrArg Host.Outcome.next ((running_eq _ hp).trans (row.trans ?_))⟩
  have word : (BitVec.ofNat 32 v.toNat).toNat = v.toNat := by simp
  have buf : u.fab.buf = s.fab.buf := by rw [access.rest]
  have run : u.pw.coreRun = s.pw.coreRun := by rw [access.rest]
  rw [writeEffect_svStat, word]
  refine applySup_idle (s := s) ?_ ?_ (addr_page 0x50 0x050 (by decide)) (.inl idle)
  · split <;> exact buf
  · split <;> exact run

/-- Settles O50: the vote of a scrubbed word is the word's own, and no upset of a running page outlives the pass. -/
theorem scrubbingKeepsVotedWords : Obligations.ScrubbingKeepsVotedWords := by
  unfold Obligations.ScrubbingKeepsVotedWords
  intro s hp canon
  refine ⟨ctlVote_eq s, ⟨scrubPass s, congrArg Host.Outcome.next (running_eq scrubPass hp), by simp, regAt_scrubPass canon, ?_,
    (token_scrubPass s).1, (token_scrubPass s).2.1, (token_scrubPass s).2.2, upsets_scrubPass s, copies_scrubPass s, fun p w on => ?_⟩,
    fun m v serves idle => ?_⟩
  · obtain ⟨v, -, -, told⟩ := scrubPass_told s
    rw [told.fab]
    rfl
  · simp only [ctlCopy_scrubPass on, and_self]
  · obtain ⟨u, access, eq⟩ := exec_svStatWrite hp canon serves idle v
    have regs : u.fab.regs = s.fab.regs := by rw [access.rest]
    have pw : u.pw = s.pw := by rw [access.rest]
    have only : Only [.fab] s u := by
      rw [access.rest]
      exact (only_mk_fab s s _).2 (.refl _ _)
    refine ⟨_, eq, ?_⟩
    rw [BitVec.getLsbD]
    by_cases bit : v.toNat.testBit 5 = true
    · rw [if_pos bit, bit]
      have cleared (w : Power) : Only [.pw] u { u with pw := w } := (only_mk_pw u u w).2 (.refl _ _)
      exact ⟨(only.mono (by decide)).trans ((cleared _).mono (by decide)), regs, by simp [pw]⟩
    · rw [if_neg bit]
      exact ⟨only.mono, regs, by simp [pw, bit]⟩

end Sys2Proof.Machine
end

section
/-! The loss of a trunk's supply and of the rails (R422, R432, R433, R440). -/

namespace Sys2Proof.Machine

theorem kept_refLost (t : Trunk) (s : State) : FabKept ∅ s (refLost t s) := by
  have restart : FabKept ∅ s (startLost t s) := by
    unfold startLost
    exact FabKept.ite (.of_fab rfl) (.refl s)
  have skewed (p : Pll) : FabKept ∅ s { s with pll := p } := .of_fab rfl
  unfold refLost
  exact restart.ite ((kept_enterHold s).ite ((skewed _).ite (.refl s)))

/-- The fall of the lock ends a packet on the way and counts; the lanes keep everything but lock and runs. -/
theorem lockFall_frame (t : Trunk) (s : State) : FabKept ∅ s (lockFall t s) ∧
    (getLn (lockFall t s) t).service = (getLn s t).service ∧ (getLn (lockFall t s) t).fwdOk = (getLn s t).fwdOk ∧
    (getLn (lockFall t s) t).bitLock = (getLn s t).bitLock := by
  have told (u : State) : FabKept ∅ u (ctlAbort t u) := .of_told (told_ctlAbort t u)
  have lost : FabKept ∅ s (ctlLost t s) := (FabKept.refl s).ite ((told s).modDl t _)
  have lane : getLn (ctlLost t s) t = getLn s t := getLn_ctlLost t t s
  unfold lockFall
  dsimp only
  cases lock : (getLn s t).dlLock
  · exact ⟨.refl s, rfl, rfl, rfl⟩
  · simp only [if_true]
    refine ⟨FabKept.ite (lost.trans (kept_modLn _ _ _)) ((lost.trans (kept_modLn _ _ _)).trans (kept_countD _ _ _ _)), ?_⟩
    split <;> simp

/-! ### A trunk in OFF loses clock, signal and lock (R422) -/

section
variable {t : Trunk} {s : State} (off : (getLn s t).st = 0)
include off

/-- No training ends in OFF. -/
theorem trainFail_off : trainFail t s = s := if_neg (by simp [off])

/-- Without its clock a trunk in OFF shows no FWD_OK, and the PLL may lose its reference. -/
theorem fwdLoss_off : getLn (fwdLoss t s) t = { (getLn s t) with fwdPres := false, fwdOk := false } ∧
    Only [.fab, .orb, .pll, .lnA, .lnB] s (fwdLoss t s) ∧ FabKept ∅ s (fwdLoss t s) := by
  have bad : clockGood (getLn (modLn t (fun l => { l with fwdPres := false }) s) t) = false := by simp [clockGood]
  have gone : FabKept ∅ s (modLn t (fun l => { l with fwdPres := false }) s) := kept_modLn _ _ _
  unfold fwdLoss
  cases was : (getLn (modLn t (fun l => { l with fwdPres := false }) s) t).fwdOk
  · have same : (getLn s t).fwdOk = false := by simpa using was
    rw [fwdSync_stays t _ (was.trans bad.symm)]
    exact ⟨by simp [← same], by simp, gone⟩
  · rw [fwdSync_falls t _ was bad, trainFail_off (by simp [off])]
    exact ⟨by simp, by simp, gone.trans ((kept_modLn _ _ _).trans ((kept_count _ _ _).trans (kept_refLost _ _)))⟩

/-- Without its signal a trunk in OFF has no lock. -/
theorem signalLost_off : Only [.fab, .lnA, .lnB, .dlA, .dlB] s (signalChange t false s) ∧ FabKept ∅ s (signalChange t false s) ∧
    (getLn (signalChange t false s) t).st = 0 ∧ (getLn (signalChange t false s) t).service = (getLn s t).service ∧
    (getLn (signalChange t false s) t).fwdOk = (getLn s t).fwdOk ∧ (getLn (signalChange t false s) t).dlSignal = false ∧
    (getLn (signalChange t false s) t).bitLock = false ∧ (getLn (signalChange t false s) t).dlLock = false := by
  have clears : signalChange t false s = bitLose t (modLn t (fun l => { l with dlSignal := false }) s) :=
    trainFail_off (by simp [off])
  have cut (u : State) : FabKept ∅ u (bitLose t u) := (kept_modLn _ _ u).trans (lockFall_frame t _).1
  obtain ⟨-, service, fwdOk, bitLock⟩ := lockFall_frame t (modLn t (fun l => { l with bitLock := false })
    (modLn t (fun l => { l with dlSignal := false }) s))
  rw [clears]
  refine ⟨by simp, (kept_modLn _ _ _).trans (cut _), ?_, service.trans (by simp), fwdOk.trans (by simp), ?_, bitLock.trans (by simp), ?_⟩ <;>
    simp [off]

end

/-! ### The loss of a trunk's supply (R433, R440) -/

/-- The trunk's lanes in OFF, unpowered from now on and with any frame on them cut off. -/
def unpowered (t : Trunk) (s : State) : State :=
  modLn t (fun l => { l with st := 0, since := (setVddl t false (if holds s t then unsend s else s)).pw.sup, service := 0, wasIn := 0,
                             good := 0, pulsed := 0 }) (setVddl t false (if holds s t then unsend s else s))

theorem supplyLoss_eq (t : Trunk) (s : State) : supplyLoss t s = roleSync (signalChange t false (fwdLoss t (unpowered t s))) := rfl

theorem pw_unpowered (t : Trunk) (s : State) : (unpowered t s).pw = (setVddl t false s).pw := by
  have cut : (if holds s t then unsend s else s).pw = s.pw := by
    split
    · exact pw_of_only (by simp)
    · rfl
  have set (u : State) (h : u.pw = s.pw) : (setVddl t false u).pw = (setVddl t false s).pw := by cases t <;> simp [setVddl, h]
  have lanes (f : Lanes → Lanes) (u : State) : (modLn t f u).pw = u.pw := pw_of_only (by simp)
  exact (lanes _ _).trans (set _ cut)

theorem kept_unpowered (t : Trunk) (s : State) : FabKept ∅ s (unpowered t s) := by
  have cut : FabKept ∅ s (if holds s t then unsend s else s) := (FabKept.of_told (told_unsend s)).ite (.refl s)
  have set (u : State) : FabKept ∅ u (setVddl t false u) := .of_fab (by cases t <;> rfl)
  exact cut.trans ((set _).trans (kept_modLn _ _ _))

theorem sup_unpowered (t : Trunk) (s : State) : (unpowered t s).sup = s.sup :=
  Only.sup (M := [.pw, .fab, .ser, .frm, .lnA, .lnB]) (by unfold unpowered; split <;> simp)

/-- What the loss of a supply makes of power, lanes, role and registers (R275, R433). -/
theorem supplyLoss_spec (t : Trunk) (s : State) :
    (supplyLoss t s).pw = (setVddl t false s).pw ∧ FabKept ∅ s (supplyLoss t s) ∧
    ((getLn (supplyLoss t s) t).st = 0 ∧ (getLn (supplyLoss t s) t).service = 0 ∧ (getLn (supplyLoss t s) t).fwdOk = false ∧
      (getLn (supplyLoss t s) t).dlSignal = false ∧ (getLn (supplyLoss t s) t).bitLock = false ∧
      (getLn (supplyLoss t s) t).dlLock = false) ∧
    ((getTs s t).repair = false → (getTs (supplyLoss t s) t).role = 0) := by
  have off : (getLn (unpowered t s) t).st = 0 := by simp [unpowered]
  have idle : (getLn (unpowered t s) t).service = 0 := by simp [unpowered]
  obtain ⟨lane, clock, keptClock⟩ := fwdLoss_off off
  obtain ⟨signal, keptSignal, st, service, fwdOk, noSignal, noBits, noLock⟩ := signalLost_off (t := t) (s := fwdLoss t (unpowered t s))
    (by rw [lane]; exact off)
  generalize eq : signalChange t false (fwdLoss t (unpowered t s)) = v at signal keptSignal st service fwdOk noSignal noBits noLock
  have pw : v.pw = (setVddl t false s).pw := (signal.pw (by decide)).trans ((clock.pw (by decide)).trans (pw_unpowered t s))
  have sup : v.sup = s.sup := (signal.sup (by decide)).trans ((clock.sup (by decide)).trans (sup_unpowered t s))
  have step : (roleSync v).pw = v.pw := pw_of_only (by simp)
  rw [supplyLoss_eq, eq, getLn_roleSync, step]
  refine ⟨pw, (kept_unpowered t s).trans (keptClock.trans (keptSignal.trans (kept_roleSync v))),
    ⟨st, service.trans (by rw [lane]; exact idle), fwdOk.trans (by rw [lane]), noSignal, noBits, noLock⟩, fun whole => ?_⟩
  have low : vddlOk v t = false := by
    unfold vddlOk
    rw [pw]
    exact vddlOk_setVddl t s false
  have still : (getTs v t).repair = false := by
    unfold getTs at whole ⊢
    rwa [sup]
  obtain ⟨n, own, -⟩ := getTs_roleSync v t
  rw [own]
  show roleOf v t = 0
  simp [roleOf, still, low]

/-- The other trunk's lanes take no part in the loss. -/
theorem getLn_supplyLoss_peer (t : Trunk) (s : State) : getLn (supplyLoss t s) (peer t) = getLn s (peer t) := by
  have cut : getLn (if holds s t then unsend s else s) (peer t) = getLn s (peer t) :=
    getLn_of_only (M := [.fab, .ser, .frm]) (by split <;> simp) _ (by decide) (by decide)
  obtain ⟨-, -, -, other⟩ := lanes_fwdSync t (modLn t (fun l => { l with fwdPres := false }) (unpowered t s))
  have off : getLn (fwdLoss t (unpowered t s)) (peer t) = getLn (unpowered t s) (peer t) := other.trans (getLn_modLn_peer _ _ _)
  rw [supplyLoss_eq, getLn_roleSync, getLn_signalChange_peer, off]
  unfold unpowered
  rw [getLn_modLn_peer, getLn_setVddl, cut]

/-- The rail that leaves the trunk's limits is the loss of its supply (R440). -/
theorem vddlTo_out (t : Trunk) {mv : Nat} (out : mv < 900 ∨ 1100 < mv) (s : State) : vddlTo t mv s = vddlTo t 0 s := by
  have low : ¬ (930 ≤ mv ∧ mv < 1080) := by omega
  simp [vddlTo, out, low]

theorem vddlTo_between {t : Trunk} {mv : Nat} {s : State} (low : 900 ≤ mv) (high : mv ≤ 1100) (powered : vddlOk s t = true) :
    vddlTo t mv s = s := by
  have inside : ¬ (mv < 900 ∨ 1100 < mv) := by omega
  simp [vddlTo, powered, inside]

/-- A command of the lanes out of the POR: its effect, and what the lanes then send. -/
theorem lanesAfter_eq {s : State} (hp : s.pw.por = false) (f : State → State) : lanesAfter f s = txBoth (f s) :=
  running_eq (fun s => txBoth (f s)) hp

/-! ### VDDA and VDDIO (R432) -/

/-- VDDA's loss with CK_CORE stopped, before outputs, converters and crystal follow. -/
def coreLost (s : State) : State :=
  if s.pw.coreRun then coreStop { s with pw := { s.pw with vdda := false } } else { s with pw := { s.pw with vdda := false } }

theorem pw_coreLost (s : State) : (coreLost s).pw.sup = s.pw.sup ∧ (coreLost s).pw.vdda = false ∧ (coreLost s).pw.coreRun = false ∧
    (s.pw.coreRun = true → (coreLost s).pw.coreStopped = true) := by
  unfold coreLost
  cases run : s.pw.coreRun
  · simp [run]
  · simp [pw_coreStop]

theorem pw_xtalLoss (s : State) : (xtalLoss s).pw.xtal = false ∧ (xtalLoss s).pw.sup = s.pw.sup ∧ (xtalLoss s).pw.vdda = s.pw.vdda ∧
    (xtalLoss s).pw.coreRun = s.pw.coreRun ∧ (xtalLoss s).pw.coreStopped = s.pw.coreStopped := by
  have sent (u : State) : (txBoth (count 0x00 2 u)).pw = u.pw := pw_of_only (by simp)
  have link : (linkLost s).pw = s.pw := (only_linkLost s).pw (by decide)
  cases on : s.pw.xtal
  · rw [show xtalLoss s = s from if_pos (by simp [on])]
    exact ⟨on, rfl, rfl, rfl, rfl⟩
  · have runs : xtalLoss s = txBoth (count 0x00 2 (crystalOff (linkLost s))) := if_neg (by simp [on])
    rw [runs, sent]
    simp [crystalOff, link]

/-- Outputs and converters once VDDA is gone: the outputs hold free values, and no sample is valid (R432; log entry 4). -/
def analogLost (s : State) : State :=
  { (takeFree s).2 with
    fout := mapIdxN (fun o x => { x with high := (takeFree s).1.testBit o }) (takeFree s).2.fout
    conv := (takeFree s).2.conv.map (fun k => { k with ready := false }) }

theorem vddaLoss_eq (s : State) : vddaLoss s = xtalLoss (analogLost (coreLost s)) := rfl

/-- VDDA's loss stops CK_CORE and the crystal, not supervisor time, and leaves no valid sample (R432). -/
theorem vddaLoss_spec (s : State) : (vddaLoss s).pw.vdda = false ∧ (vddaLoss s).pw.coreRun = false ∧ (vddaLoss s).pw.xtal = false ∧
    (vddaLoss s).pw.sup = s.pw.sup ∧ (s.pw.coreRun = true → (vddaLoss s).pw.coreStopped = true) ∧
    ∀ k ∈ (vddaLoss s).conv, k.ready = false := by
  obtain ⟨sup, vdda, stopped, noted⟩ := pw_coreLost s
  obtain ⟨off, sup', vdda', run', noted'⟩ := pw_xtalLoss (analogLost (coreLost s))
  have conv : (xtalLoss (analogLost (coreLost s))).conv = (analogLost (coreLost s)).conv :=
    Only.conv (M := [.pw, .fab, .ser, .frm, .lnA, .lnB, .mg]) (by simp)
  rw [vddaLoss_eq, conv]
  refine ⟨vdda'.trans vdda, run'.trans stopped, off, sup'.trans sup, fun run => noted'.trans (noted run), fun k hk => ?_⟩
  obtain ⟨x, -, rfl⟩ := List.mem_map.1 hk
  rfl

/-- With VDDIO gone the outputs are low: no pin is driven (R432). -/
theorem fout_outsLow {s : State} (off : s.pw.vddio = false) : ∀ f ∈ (outsLow s).fout, f.high = false := by
  intro f hf
  obtain ⟨p, -, rfl⟩ := List.mem_map.1 (show f ∈ (s.fout.zipIdx).map
    (fun p => if outEn s p.2 s.pw.elapsed then p.1 else { p.1 with high := false }) from hf)
  simp [outEn, off]

theorem saveStop_spec (s : State) : (saveStop s).cal.saving = none ∧ (s.cal.saving.isSome → (saveStop s).cal.saveFail = true) := by
  have counted (u : State) : (count 0x70 2 u).cal = u.cal := Only.cal (M := [.fab]) (by simp)
  unfold saveStop
  split
  next idle => exact ⟨idle, fun h => by simp [idle] at h⟩
  · dsimp only
    rw [counted]
    exact ⟨rfl, fun _ => rfl⟩

theorem pins_saveStop (s : State) : (saveStop s).pw.vddio = s.pw.vddio ∧ ∀ x, vddlOk (saveStop s) x = vddlOk s x := by
  have counted (u : State) : (count 0x70 2 u).pw = u.pw := pw_of_only (by simp)
  unfold saveStop
  split
  · exact ⟨rfl, fun _ => rfl⟩
  · dsimp only
    unfold vddlOk
    rw [counted]
    exact ⟨rfl, fun x => by cases x <;> rfl⟩

theorem vddlA_setVddl (v : Bool) (s : State) : (setVddl .b v s).pw.vddlA = s.pw.vddlA := rfl

theorem vddio_setVddl (t : Trunk) (v : Bool) (s : State) : (setVddl t v s).pw.vddio = s.pw.vddio := by cases t <;> rfl

/-- VDDIO's loss as it begins: the pins cease. -/
def pinsLost (s : State) : State := outsLow { s with pw := { s.pw with vddio := false } }

theorem vddioLoss_eq (s : State) : vddioLoss s = saveStop (supplyLoss .b (supplyLoss .a (pinsLost s))) := rfl

theorem vddioLoss_spec (s : State) : (vddioLoss s).pw.vddio = false ∧ (∀ f ∈ (vddioLoss s).fout, f.high = false) ∧
    (∀ x, vddlOk (vddioLoss s) x = false ∧ (getLn (vddioLoss s) x).st = 0 ∧ (getLn (vddioLoss s) x).service = 0) ∧
    (vddioLoss s).cal.saving = none ∧ (s.cal.saving.isSome → (vddioLoss s).cal.saveFail = true) := by
  obtain ⟨pwA, -, ⟨stA, serviceA, -⟩, -⟩ := supplyLoss_spec .a (pinsLost s)
  obtain ⟨pwB, -, ⟨stB, serviceB, -⟩, -⟩ := supplyLoss_spec .b (supplyLoss .a (pinsLost s))
  have lanesA := getLn_supplyLoss_peer .b (supplyLoss .a (pinsLost s))
  have lost : Only [.pw, .fab, .orb, .pll, .ser, .frm, .lnA, .lnB, .dlA, .dlB, .sup] (pinsLost s)
    (supplyLoss .b (supplyLoss .a (pinsLost s))) := by simp
  rw [vddioLoss_eq]
  generalize supplyLoss .b (supplyLoss .a (pinsLost s)) = v at pwB stB serviceB lanesA lost
  have stopped : Only [.pw, .fab, .slow, .cal] v (saveStop v) := by simp
  have lanes (x : Trunk) : getLn (saveStop v) x = getLn v x := getLn_of_only stopped x (by decide) (by decide)
  have power (x : Trunk) : vddlOk v x = false := by
    unfold vddlOk
    rw [pwB]
    cases x
    · rw [vddlA_setVddl, pwA]
      rfl
    · rfl
  have pins : v.pw.vddio = false := by
    rw [pwB, vddio_setVddl, pwA, vddio_setVddl]
    rfl
  have cal : v.cal = s.cal := lost.cal (by decide)
  have outs : (saveStop v).fout = (pinsLost s).fout := (stopped.fout (by decide)).trans (lost.fout (by decide))
  obtain ⟨ends, failed⟩ := saveStop_spec v
  obtain ⟨pinsStay, powerStays⟩ := pins_saveStop v
  refine ⟨pinsStay.trans pins, ?_, fun x => ⟨(powerStays x).trans (power x), ?_⟩, ends, by rwa [cal] at failed⟩
  · rw [outs]
    exact fout_outsLow rfl
  · rw [lanes]
    cases x
    · rw [show getLn v .a = getLn (supplyLoss .a (pinsLost s)) .a from lanesA]
      exact ⟨stA, serviceA⟩
    · exact ⟨stB, serviceB⟩

theorem bitLock_txBoth (s : State) (x : Trunk) : (getLn (txBoth s) x).bitLock = (getLn s x).bitLock := by cases x <;> rfl

/-! ### The rails' levels (R439, R440) -/

theorem vddTo_falls {s : State} {mv : Nat} (up : s.pw.vdd = true) (low : mv < 740) : vddTo mv s = porAssert .vdd s := by
  have cleared : porLevel s.pw.vdd 800 740 mv = false := by simp [porLevel, up, low]
  exact (if_neg (by simp [cleared])).trans (if_pos up)

theorem vddTo_stays {s : State} {mv : Nat} (up : s.pw.vdd = true) (high : 740 ≤ mv) : vddTo mv s = s := by
  have kept : porLevel s.pw.vdd 800 740 mv = true := by simp [porLevel, up, high]
  refine (if_pos kept).trans ?_
  rw [← up]

theorem vddaTo_falls {s : State} (hp : s.pw.por = false) (up : s.pw.vdda = true) : vddaTo false s = vddaLoss s := by
  simp [vddaTo, hp, up]

/-- VDDIO's detector takes the level before its range is judged. -/
def vddioSampled (mv : Nat) (s : State) : State :=
  { s with pw := { s.pw with vddioPor := porLevel s.pw.vddioPor 1550 1450 mv } }

theorem vddioTo_falls {s : State} {mv : Nat} (hp : s.pw.por = false) (up : s.pw.vddio = true) (out : railInRange .vddio mv = false) :
    vddioTo mv s = txBoth (vddioLoss (vddioSampled mv s)) := if_pos (by simp [hp, up, out])

/-- Settles O13: each rail's loss is the branch of its own detector, and a trunk's supply takes lanes, clock, signal and lock with it. -/
theorem railLossOutOfThePor : Obligations.RailLossOutOfThePor := by
  unfold Obligations.RailLossOutOfThePor
  intro s hp
  refine ⟨fun mv up => ⟨fun low => congrArg _ (vddTo_falls up low), fun high => congrArg _ (vddTo_stays up high)⟩,
    fun mv up out => ?_, fun mv up out => ?_, fun mv out => ⟨?_, ?_⟩, fun mv low high => ⟨fun powered => ?_, fun powered => ?_⟩,
    fun mv out => ?_, fun x powered => ?_⟩
  · obtain ⟨vdda, stopped, crystal, sup, noted, samples⟩ := vddaLoss_spec s
    have falls : vddaTo (railInRange .vdda mv) s = vddaLoss s := by rw [out, vddaTo_falls hp up]
    exact ⟨_, congrArg Host.Outcome.next falls, vdda, stopped, crystal, sup, noted, samples, by simp⟩
  · obtain ⟨pins, outs, trunks, saving, failed⟩ := vddioLoss_spec (vddioSampled mv s)
    have sent : Only [.lnA, .lnB] (vddioLoss (vddioSampled mv s)) (txBoth (vddioLoss (vddioSampled mv s))) := by simp
    have sampled : Only [.pw] s (vddioSampled mv s) := (only_mk_pw s s _).2 (.refl _ _)
    have pw := sent.pw (by decide)
    have cal := sent.cal (by decide)
    have lost : Only [.pw, .fab, .orb, .pll, .fout, .ser, .frm, .lnA, .lnB, .dlA, .dlB, .sup, .slow, .cal] (vddioSampled mv s)
      (txBoth (vddioLoss (vddioSampled mv s))) := by simp
    refine ⟨_, congrArg Host.Outcome.next (vddioTo_falls hp up out), by rw [pw, pins], by rw [sent.fout (by decide)]; exact outs,
      fun x => ?_, by rw [cal, saving], by rw [cal]; exact failed, (sampled.mono (by decide)).trans lost⟩
    obtain ⟨low, st, service⟩ := trunks x
    obtain ⟨sameSt, -, -, -, -, -, -, sameService, -⟩ := lanes_txBoth (vddioLoss (vddioSampled mv s)) x
    refine ⟨?_, sameSt.trans st, sameService.trans service⟩
    unfold vddlOk at low ⊢
    rwa [pw]
  · exact congrArg (fun f => Host.Outcome.next (lanesAfter f s)) (funext (vddlTo_out .a out))
  · exact congrArg (fun f => Host.Outcome.next (lanesAfter f s)) (funext (vddlTo_out .b out))
  · refine ⟨txBoth s, congrArg Host.Outcome.next ((lanesAfter_eq hp _).trans (by rw [vddlTo_between low high powered])), pw_of_only (by simp),
      (lanes_txBoth s .a).1, by simp⟩
  · refine ⟨txBoth s, congrArg Host.Outcome.next ((lanesAfter_eq hp _).trans (by rw [vddlTo_between low high powered])), pw_of_only (by simp),
      (lanes_txBoth s .b).1, by simp⟩
  · exact congrArg (fun up => Host.Outcome.next { s with pw := { s.pw with vddp := up } }) out
  · obtain ⟨pw, kept, ⟨st, service, fwdOk, signal, bits, lock⟩, role⟩ := supplyLoss_spec x s
    have sent : Only [.lnA, .lnB] (supplyLoss x s) (txBoth (supplyLoss x s)) := by simp
    have falls : vddlTo x 0 s = supplyLoss x s := by simp [vddlTo, powered]
    have low : vddlOk (supplyLoss x s) x = false := by
      unfold vddlOk
      rw [pw]
      exact vddlOk_setVddl x s false
    obtain ⟨st', -, -, fwdOk', -, signal', lock', service', -⟩ := lanes_txBoth (supplyLoss x s) x
    refine ⟨_, congrArg Host.Outcome.next ((lanesAfter_eq hp _).trans (by rw [falls])), ?_, st'.trans st, service'.trans service,
      fwdOk'.trans fwdOk, signal'.trans signal, (bitLock_txBoth _ x).trans bits, lock'.trans lock, fun whole => ?_, ?_, by simp⟩
    · unfold vddlOk at low ⊢
      rwa [sent.pw (by decide)]
    · have same : getTs (txBoth (supplyLoss x s)) x = getTs (supplyLoss x s) x := by
        unfold getTs
        rw [sent.sup (by decide)]
      rw [same]
      exact role whole
    · exact (congrArg Fabric.regs (sent.fab (by decide))).trans kept.regs

end Sys2Proof.Machine
end

section
/-! Writes of a CK_SUP page (R342, R343), and the flash's operations and saves (R326, R331, R375). -/

namespace Sys2Proof.Machine

/-! ### What an access leaves alone -/

section
variable {s u : State} (access : Access s u)
include access

theorem only_of_access : Only [.fab] s u := by
  rw [access.rest]
  exact (only_mk_fab s s _).2 (.refl _ _)

theorem regs_of_access : u.fab.regs = s.fab.regs := by rw [access.rest]

theorem buf_of_access : u.fab.buf = s.fab.buf := by rw [access.rest]

theorem pw_of_access : u.pw = s.pw := by rw [access.rest]

end

/-! ### A refused write of a CK_SUP page -/

/-- A write that its page refuses posts nothing and has no effect but the cause (R333). -/
theorem rowWrite_sup_refused {m : Master} {p o v c : Nat} {s : State} (h : Serves s m p) (hk : keysFrom 0 s.fab.pages = true)
    (ho : o < 0x1000) (h4 : o % 4 = 0) (hg : isGuarded p o = false) (hc : ¬ (0x800 ≤ o ∧ isGuarded p (o - 0x800) = true))
    (hf : (regForm p o).isSome = true) (hr : writeRefusal s p o v = some c) :
    rowWrite m (addrOf p o) v s = refuseAt m (addrOf p o) c (beginAccess m s) := by
  have page := addr_page p o ho
  have off := addr_off p o ho
  have even : ¬ addrOf p o % 4 ≠ 0 := by rw [addr_aligned p o h4]; decide
  have begun := serves_beginAccess h
  have told : Told [0x7C] (beginAccess m s) (refuse p c (addrOf p o) (beginAccess m s)) := told_refuse _ (by decide) _ _ _
  have idle : (pageSt (refuseAt m (addrOf p o) c (beginAccess m s)) p).posted = none := by
    unfold refuseAt
    rw [page]
    exact (told.posted hk p).trans begun.idle
  unfold rowWrite
  rw [page, fabWrite_serves (by rwa [page]), if_neg even, page, off, servedWrite_refused begun ho hg hc hf hr]
  exact ownPosted_idle idle

/-! ### SPI_CMD (R326) -/

/-- SPI_CMD's fields are in force and three free values are drawn for what the flash may answer (log entry 4). -/
def spiDrawn (v : Nat) (s : State) : State :=
  { spiFields v s with pw := { (spiFields v s).pw with freeCtr := (spiFields v s).pw.freeCtr + 1 + 1 + 1 } }

theorem only_spiDrawn (v : Nat) (s : State) : Only [.pw, .fab] s (spiDrawn v s) := by
  have set : Only [.fab] s (spiFields v s) := (only_mk_fab s s _).2 (.refl _ _)
  have drawn : Only [.pw] (spiFields v s) (spiDrawn v s) := (only_mk_pw _ _ _).2 (.refl _ _)
  exact (set.mono (by decide)).trans (drawn.mono (by decide))

/-- A write with GO is the start of its operation. -/
theorem spiCmdWrite_go {v : Nat} (go : v.testBit 8 = true) (s : State) : ∃ id sr, spiCmdWrite v s = spiGo v id sr (spiDrawn v s) :=
  ⟨_, _, if_pos go⟩

section
variable {s : State} {m : Master} (serves : Serves s m 0x5C) (canon : Canonical s)

theorem writeRefusal_spi (s : State) (v : Nat) : writeRefusal s 0x5C 0x04C v = spiRefusal s v := by
  have range : rangeOk 0x5C 0x04C v = true := rfl
  unfold writeRefusal
  rw [range]
  rfl

include serves canon

theorem rowWrite_spi_refused {w c : Nat} (refused : spiRefusal s w = some c) :
    rowWrite m 0x5C04C w s = refuseAt m 0x5C04C c (beginAccess m s) :=
  rowWrite_sup_refused serves canon.pages (o := 0x04C) (by decide) (by decide) (by decide) (by decide) (by decide)
    ((writeRefusal_spi s w).trans refused)

/-- A write with GO that nothing refuses starts its operation, after the access has been noted. -/
theorem rowWrite_spi {w : Nat} (nothing : NothingToApply s 0x5C) (word : w < 2 ^ 32) (go : w.testBit 8 = true)
    (taken : spiRefusal s w = none) : ∃ u id sr, Access s u ∧ rowWrite m 0x5C04C w s = spiGo w id sr (spiDrawn w u) := by
  obtain ⟨u, access, row⟩ := rowWrite_sup serves canon.pages (by decide) (o := 0x04C) (v := w) (by decide) (by decide) (by decide) (by decide)
    (by decide) ((writeRefusal_spi s w).trans taken)
  obtain ⟨id, sr, started⟩ := spiCmdWrite_go go u
  have same : (BitVec.ofNat 32 w).toNat = w := by simpa using word
  have effect : writeEffect m 0x5C 0x04C w u = spiCmdWrite w u := rfl
  have only : Only [.slow] (spiDrawn w u) (spiGo w id sr (spiDrawn w u)) := by simp
  have buf : (spiGo w id sr (spiDrawn w u)).fab.buf = s.fab.buf := by
    rw [only.fab (by decide)]
    exact (buf_of_access access :)
  have run : (spiGo w id sr (spiDrawn w u)).pw.coreRun = s.pw.coreRun := by
    rw [only.pw (by decide)]
    exact (congrArg Power.coreRun (pw_of_access access) :)
  rw [same, effect, started] at row
  exact ⟨u, id, sr, access, row.trans (applySup_idle buf run (addr_page 0x5C 0x04C (by decide)) nothing)⟩

/-- What a write of SPI_CMD with GO does: it starts its operation on an idle flash, or nothing of the flash port changes. -/
theorem rowWrite_spi_spec {w : Nat} (nothing : NothingToApply s 0x5C) (word : w < 2 ^ 32) (go : w.testBit 8 = true) :
    Only [.pw, .fab, .slow] s (rowWrite m 0x5C04C w s) ∧
    (spiRefusal s w ≠ none → (rowWrite m 0x5C04C w s).slow = s.slow ∧ (rowWrite m 0x5C04C w s).fab.regs = s.fab.regs) ∧
    (s.slow.spiBusy = true → (rowWrite m 0x5C04C w s).slow = s.slow) ∧
    (spiRefusal s w = none → s.slow.spiBusy = false → ∃ x, (rowWrite m 0x5C04C w s).slow = { s.slow with
      spiBusy := true, spiFail := false, spiOp := w % 8, spiAddr := regF s 0x5C 0x048 0 24, spiLen := fld w 16 8 + 1, spiAt := s.pw.sup,
      spiNewId := x }) := by
  cases refusal : spiRefusal s w with
  | some c =>
    have noted := (noted_beginAccess m s).trans (noted_refuseAt m 0x5C04C c _)
    rw [rowWrite_spi_refused serves canon refusal]
    have slow := noted.only.slow (by decide)
    exact ⟨noted.only.mono (by decide), fun _ => ⟨slow, noted.regs⟩, fun _ => slow, fun h => absurd h nofun⟩
  | none =>
    obtain ⟨u, id, sr, access, row⟩ := rowWrite_spi serves canon nothing word go refusal
    have begun := only_of_access access
    have drawn := only_spiDrawn w u
    have started : Only [.slow] (spiDrawn w u) (spiGo w id sr (spiDrawn w u)) := by simp
    have slow : (spiDrawn w u).slow = s.slow := (drawn.slow (by decide)).trans (begun.slow (by decide))
    have regs := regs_of_access access
    have addr : regF (spiDrawn w u) 0x5C 0x048 0 24 = regF s 0x5C 0x048 0 24 := by
      have word : regAt (spiDrawn w u) 0x5C 0x048 = regAt u 0x5C 0x048 :=
        regAt_setReg_ne 0x5C 0x04C (w &&& 0xFF0007) 0x5C 0x048 u (by rw [regs]; exact canon.regs) (by decide)
      unfold regF
      rw [word, regAt, regs]
      rfl
    have cycle : (spiDrawn w u).pw.sup = s.pw.sup := (congrArg Power.sup (pw_of_access access) :)
    rw [row]
    refine ⟨(begun.mono (by decide)).trans ((drawn.mono (by decide)).trans (started.mono (by decide))), fun h => absurd rfl h,
      fun busy => ?_, fun _ idle => ?_⟩
    · rw [show spiGo w id sr (spiDrawn w u) = spiDrawn w u from if_pos (by rw [slow, busy]), slow]
    · refine ⟨id + 2 ^ 24 * sr, ?_⟩
      rw [spiGo, if_neg (by simp [slow, idle])]
      simp only [slow, addr, cycle]

end

section
variable {s : State} {m : Master} (serves : Serves s m 0x5C) (canon : Canonical s) (nothing : NothingToApply s 0x5C)
include serves canon nothing

/-- A command whose row writes SPI_CMD, and leaves the flash nothing to answer, starts its operation. -/
theorem spiStarts_of_row {c : Instr} {w op : Nat} (row : exec c s = .next (rowWrite m 0x5C04C w s)) (word : w < 2 ^ 32)
    (go : w.testBit 8 = true) (hop : w % 8 = op) (few : op < 4) (ans : Nat) : SpiStarts s c w op ans := by
  obtain ⟨only, refused, busy, taken⟩ := rowWrite_spi_spec serves canon nothing word go
  refine ⟨_, row, only, refused, busy, fun free idle => ?_⟩
  obtain ⟨x, slow⟩ := taken free idle
  rw [slow]
  exact ⟨rfl, rfl, hop, rfl, rfl, rfl, rfl, fun many => by omega⟩

/-- A command that also gives the flash's answer starts its operation with it. -/
theorem spiStarts_of_answer {c : Instr} {w op id sr : Nat}
    (row : exec c s = .next (flashAnswer s.slow.spiBusy op id sr (rowWrite m 0x5C04C w s))) (word : w < 2 ^ 32)
    (go : w.testBit 8 = true) (hop : w % 8 = op) : SpiStarts s c w op (id + 2 ^ 24 * sr) := by
  obtain ⟨only, refused, busy, taken⟩ := rowWrite_spi_spec serves canon nothing word go
  have answered : Only [.slow] (rowWrite m 0x5C04C w s) (flashAnswer s.slow.spiBusy op id sr (rowWrite m 0x5C04C w s)) := by simp
  have silent (h : s.slow.spiBusy = true ∨ (rowWrite m 0x5C04C w s).slow.spiBusy = false) :
      flashAnswer s.slow.spiBusy op id sr (rowWrite m 0x5C04C w s) = rowWrite m 0x5C04C w s := if_neg (by rcases h with h | h <;> simp [h])
  refine ⟨_, row, only.trans (answered.mono (by decide)), fun hc => ?_, fun running => ?_, fun free idle => ?_⟩
  · obtain ⟨slow, regs⟩ := refused hc
    rw [silent (by rw [slow]; cases s.slow.spiBusy <;> simp)]
    exact ⟨slow, regs⟩
  · rw [silent (.inl running), busy running]
  · obtain ⟨x, slow⟩ := taken free idle
    have given : flashAnswer s.slow.spiBusy op id sr (rowWrite m 0x5C04C w s) = { rowWrite m 0x5C04C w s with
        slow := { (rowWrite m 0x5C04C w s).slow with spiNewId := id + 2 ^ 24 * sr } } := if_pos (by simp [slow, idle, hop])
    rw [given]
    dsimp only
    rw [slow]
    exact ⟨rfl, rfl, hop, rfl, rfl, rfl, rfl, fun _ => rfl⟩

end

/-! ### The words of the five commands -/

/-- The bits of SPI_CMD that a command's row keeps: its length. -/
theorem keptBits_spi (s : State) : ∃ n, n < 256 ∧ keptBits s 0x5C04C / 8 * 8 = 65536 * n := by
  have kept : keptBits s 0x5C04C = regAt s 0x5C 0x04C &&& 0xFF0007 := by simp [keptBits, regForm, pgIn, formBoot]
  have bound : keptBits s 0x5C04C ≤ 0xFF0007 := kept ▸ Nat.and_le_right
  have low : keptBits s 0x5C04C % 2 ^ 16 ≤ 7 := by
    rw [kept, Nat.and_mod_two_pow]
    exact Nat.and_le_right
  exact ⟨keptBits s 0x5C04C / 65536, by omega, by omega⟩

theorem testBit_eight {w : Nat} (h : w / 256 % 2 = 1) : w.testBit 8 = true := by
  simp [Nat.testBit_eq_decide_div_mod_eq, h]

end Sys2Proof.Machine
end

section
/-! The ends of flash operations and of saves (R326, R331, R371, R375). -/

namespace Sys2Proof.Machine

/-! ### Bytes put into a memory -/

/-- A byte after a block of bytes has been put at `a`. -/
theorem ramGet_ramPutBytes_at (d : Byte) (l : List Byte) {m : Ram Byte} (h : ramWf d m = true) (a k : Nat) :
    ramGet d (ramPutBytes d m a l) k = if a ≤ k ∧ k < a + l.length then l.getD (k - a) d else ramGet d m k := by
  split
  next inside =>
    have place : k = a + (k - a) := by omega
    have short : k - a < l.length := by omega
    rw [place, ramGet_ramPutBytes d l h a (k - a) short, ← place, List.getD_eq_getElem _ _ short]
  next outside => exact ramGet_ramPutBytes_ne d l h a k (by omega)

theorem ramBytes_congr {d : Byte} {m n : Ram Byte} {a k : Nat} (h : ∀ i, i < k → ramGet d n (a + i) = ramGet d m (a + i)) :
    ramBytes d n a k = ramBytes d m a k :=
  List.map_congr_left fun i hi => h i (List.mem_range.1 hi)

/-! ### The end of an operation (R326) -/

/-- What the operation itself does, before the flash is idle. -/
def spiWork (s : State) : State :=
  if s.slow.spiOp = 1 then { s with slow := { s.slow with
    spiBuf := ramPutBytes 0 s.slow.spiBuf 0 (flashBytes s s.slow.spiAddr s.slow.spiLen) } }
  else if s.slow.spiOp = 2 then pollStatus 0 { s with slow := { s.slow with flash := programBytes s } }
  else if s.slow.spiOp = 3 then pollStatus 0 { s with slow := { s.slow with
    flash := ramDrop (fun a => a / 0x1000 == s.slow.spiAddr / 0x1000) s.slow.flash } }
  else if s.slow.spiOp = 4 then { s with slow := { s.slow with spiId := s.slow.spiNewId % 2 ^ 24 } }
  else { s with slow := { s.slow with sr := s.slow.spiNewId / 2 ^ 24 } }

/-- A program or an erase past its time: its span holds what it holds, the last status shows it unfinished, and FAIL is 1 (log
entry 22). -/
def spiLeft (s : State) : State :=
  { pollStatus 1 (spoilFlash (spiSpan s.slow.spiOp s.slow.spiAddr s.slow.spiLen).1
      (spiSpan s.slow.spiOp s.slow.spiAddr s.slow.spiLen).2 s) with
    slow := { (pollStatus 1 (spoilFlash (spiSpan s.slow.spiOp s.slow.spiAddr s.slow.spiLen).1
      (spiSpan s.slow.spiOp s.slow.spiAddr s.slow.spiLen).2 s)).slow with spiFail := true } }

/-- It is counted before the flash is idle. -/
def spiExpired (s : State) : State := count 0x5C 2 (spiLeft s)

theorem spiDone_late {s : State} (busy : s.slow.spiBusy = true) (pins : pinsOk s = true) (late : spiLate s = true) :
    spiDone s = spiTimeout s := by
  simp [spiDone, busy, pins, late]

theorem spiDone_works {s : State} (busy : s.slow.spiBusy = true) (pins : pinsOk s = true) (inTime : spiLate s = false) :
    spiDone s = spiIdle (spiWork s) := by
  unfold spiDone
  rw [if_neg (by simp [busy, pins]), if_neg (by simp [inTime])]
  rfl

theorem spiLimit_eq (s : State) : spiLimit s = supMs (if s.slow.spiOp = 2 then 5 else 500) := by
  unfold spiLimit
  split <;> rfl

theorem spiTimeout_expires {s : State} (busy : s.slow.spiBusy = true) (op : s.slow.spiOp = 2 ∨ s.slow.spiOp = 3)
    (due : s.slow.spiAt + supMs (if s.slow.spiOp = 2 then 5 else 500) ≤ s.pw.sup) : spiTimeout s = spiIdle (spiExpired s) := by
  unfold spiTimeout
  rw [if_neg (by rw [spiLimit_eq, busy]; simp; omega)]
  rfl

/-- The flash is idle. -/
def spiFree (s : State) : State := { s with slow := { s.slow with spiBusy := false } }

theorem spiIdle_eq (s : State) : spiIdle s = if s.slow.softRst then resetNow 0x5C (spiFree s) else spiFree s := rfl

theorem only_spiFree (s : State) : Only [.slow] s (spiFree s) := (only_mk_slow s s _).2 (.refl _ _)

theorem only_spiWork (s : State) : Only [.pw, .slow] s (spiWork s) := by
  have set (x : Slow) : Only [.slow] s { s with slow := x } := (only_mk_slow s s x).2 (.refl _ _)
  have polled (x : Slow) : Only [.pw, .slow] s (pollStatus 0 { s with slow := x }) :=
    (only_pollStatus _ _ _ _ (by decide)).2 ((set x).mono (by decide))
  unfold spiWork
  split_ifs
  · exact (set _).mono (by decide)
  · exact polled _
  · exact polled _
  · exact (set _).mono (by decide)
  · exact (set _).mono (by decide)

/-- A program leaves the AND of old and new in each byte of its span. -/
theorem ramGet_programBytes {s : State} (wf : ramWf 0xFF s.slow.flash = true) (a : Nat) :
    ramGet 0xFF (programBytes s) a = if s.slow.spiAddr ≤ a ∧ a < s.slow.spiAddr + s.slow.spiLen
      then flashAt s a &&& ramGet 0 s.slow.spiBuf (a - s.slow.spiAddr) else flashAt s a := by
  unfold programBytes
  dsimp only
  rw [ramGet_ramPutBytes_at _ _ wf]
  have length : (List.zipWith (· &&& ·) (flashBytes s s.slow.spiAddr s.slow.spiLen) (ramBytes 0 s.slow.spiBuf 0 s.slow.spiLen)).length =
      s.slow.spiLen := by simp [flashBytes, ramBytes]
  rw [length]
  split
  next inside =>
    have short : a - s.slow.spiAddr < s.slow.spiLen := by omega
    have place : s.slow.spiAddr + (a - s.slow.spiAddr) = a := by omega
    simp [List.getD_eq_getElem?_getD, flashBytes, ramBytes, short, place, flashAt]
  · rfl

/-- An erase leaves its sector 0xFF. -/
theorem ramGet_erased {s : State} (wf : ramWf 0xFF s.slow.flash = true) (a : Nat) :
    ramGet 0xFF (ramDrop (fun a => a / 0x1000 == s.slow.spiAddr / 0x1000) s.slow.flash) a =
      if a / 0x1000 = s.slow.spiAddr / 0x1000 then 0xFF else flashAt s a := by
  rw [ramGet_ramDrop _ (ramWf_keys wf)]
  simp only [beq_iff_eq]
  rfl

theorem softRst_spiWork (s : State) : (spiWork s).slow.softRst = s.slow.softRst := by
  unfold spiWork
  split_ifs <;> rfl

theorem spiDone_free {s : State} (busy : s.slow.spiBusy = true) (pins : pinsOk s = true) (inTime : spiLate s = false)
    (soft : s.slow.softRst = false) : spiDone s = spiFree (spiWork s) := by
  rw [spiDone_works busy pins inTime, spiIdle_eq, softRst_spiWork, soft]
  rfl

theorem slow_spiExpired (s : State) : ∃ n l, (spiExpired s).slow = { s.slow with
    spiFail := true, sr := n, flash := ramPutBytes 0xFF s.slow.flash (spiSpan s.slow.spiOp s.slow.spiAddr s.slow.spiLen).1 l } ∧
    l.length = (spiSpan s.slow.spiOp s.slow.spiAddr s.slow.spiLen).2 := by
  have counted : (spiExpired s).slow = (spiLeft s).slow := Only.slow (M := [.fab]) (by simp [spiExpired])
  exact ⟨_, _, counted, by simp⟩

theorem only_spiExpired (s : State) : Only [.pw, .fab, .slow] s (spiExpired s) ∧ (spiExpired s).fab.regs = s.fab.regs := by
  have left : Only [.pw, .slow] s (spiLeft s) := by
    have polled : Only [.pw, .slow] s (pollStatus 1 (spoilFlash (spiSpan s.slow.spiOp s.slow.spiAddr s.slow.spiLen).1
      (spiSpan s.slow.spiOp s.slow.spiAddr s.slow.spiLen).2 s)) := by simp
    have set (u : State) (x : Slow) : Only [.slow] u { u with slow := x } := (only_mk_slow u u x).2 (.refl _ _)
    exact polled.trans ((set _ _).mono (by decide))
  have counted : Only [.fab] (spiLeft s) (spiExpired s) := by simp [spiExpired]
  exact ⟨(left.mono (by decide)).trans (counted.mono (by decide)), (regs_count _ _ _).trans (congrArg Fabric.regs (left.fab (by decide)))⟩

/-! ### A soft reset that has waited (R331) -/

/-- The state with a soft reset of page 0x5C waiting, or not. -/
def softSet (b : Bool) (s : State) : State := { s with slow := { s.slow with softRst := b } }

theorem spiWork_softSet (b : Bool) (s : State) : spiWork (softSet b s) = softSet b (spiWork s) := by
  unfold spiWork softSet
  dsimp only
  split_ifs <;> rfl

theorem apply_ite_softSet (b : Bool) (c : Prop) [Decidable c] (s t : State) :
    softSet b (if c then s else t) = if c then softSet b s else softSet b t := apply_ite _ _ _ _

theorem noticeDrop_softSet (b : Bool) (s : State) : noticeDrop (softSet b s) = softSet b (noticeDrop s) := by
  unfold noticeDrop
  have store : (softSet b s).fab.store = s.fab.store := rfl
  rw [store]
  cases s.fab.store.getLast? <;> rfl

theorem gapNotice_softSet (b : Bool) (p : Nat) (n : Notice) (s : State) : gapNotice p n (softSet b s) = softSet b (gapNotice p n s) := rfl

theorem storeNotice_softSet (b : Bool) (p : Nat) (n : Notice) (s : State) : storeNotice p n (softSet b s) = softSet b (storeNotice p n s) := by
  unfold storeNotice
  rw [apply_ite_softSet, apply_ite_softSet, ← noticeDrop_softSet]
  rfl

theorem modPage_softSet (b : Bool) (p : Nat) (f : PageSt → PageSt) (s : State) : modPage p f (softSet b s) = softSet b (modPage p f s) := rfl

/-- Notices are posted whatever waits on the flash port. -/
theorem postNotice_softSet (b : Bool) (p : Nat) (n : Notice) (s : State) : postNotice p n (softSet b s) = softSet b (postNotice p n s) := by
  have on : noticeOn (softSet b s) p = noticeOn s p := rfl
  have page : pageSt (softSet b s) p = pageSt s p := rfl
  have gap : regF (softSet b s) 0x7C 0x040 0 12 = regF s 0x7C 0x040 0 12 := rfl
  have orb : (softSet b s).orb = s.orb := rfl
  have pw : (softSet b s).pw = s.pw := rfl
  unfold postNotice
  simp only [on, page, gap, orb, pw, apply_ite_softSet, modPage_softSet, gapNotice_softSet, storeNotice_softSet]

theorem count_softSet (b : Bool) (p i : Nat) (s : State) : count p i (softSet b s) = softSet b (count p i s) := by
  unfold count countD
  dsimp only
  rw [apply_ite_softSet, ← postNotice_softSet]
  rfl

theorem spiLeft_softSet (b : Bool) (s : State) : spiLeft (softSet b s) = softSet b (spiLeft s) := rfl

theorem spiExpired_softSet (b : Bool) (s : State) : spiExpired (softSet b s) = softSet b (spiExpired s) := by
  unfold spiExpired
  rw [spiLeft_softSet, count_softSet]

/-! ### Saves (R371, R375) -/

@[simp] theorem length_userRecord (u : Ram Byte) (r : Nat) : (userRecord u r).length = 256 := by
  simp [userRecord, ramBytes, leBytes_length]

@[simp] theorem length_slotHeader (gen : Nat) : (slotHeader gen).length = 256 := by
  unfold slotHeader
  simp only [List.length_append, List.length_cons, List.length_nil, List.length_replicate, leBytes_length]

section
variable (s : State) (img : Ram Byte)

theorem programRecords_succ (n : Nat) : programRecords s img (n + 1) =
    ramPutBytes 0xFF (programRecords s img n) (slotBase s s.cal.target + 0x100 + 0x100 * n) (userRecord img n) := by
  unfold programRecords
  rw [List.range_succ, List.foldl_append, List.foldl_cons, List.foldl_nil]

section
variable {s} (wf : ramWf 0xFF s.slow.flash = true)
include wf

/-- The first `n` records change their own 256 bytes each. -/
theorem ramGet_programRecords_outside {n a : Nat}
    (outside : a < slotBase s s.cal.target + 0x100 ∨ slotBase s s.cal.target + 0x100 + 0x100 * n ≤ a) :
    ramGet 0xFF (programRecords s img n) a = flashAt s a := by
  induction n with
  | zero => rfl
  | succ n ih =>
    rw [programRecords_succ, ramGet_ramPutBytes_ne _ _ (ramWf_programRecords s img n wf) _ _ (by rw [length_userRecord]; omega)]
    exact ih (by omega)

/-- Each of the first `n` records stands in its place. -/
theorem ramBytes_programRecords {n r : Nat} (h : r < n) :
    ramBytes 0xFF (programRecords s img n) (slotBase s s.cal.target + 0x100 + 0x100 * r) 256 = userRecord img r := by
  induction n with
  | zero => omega
  | succ n ih =>
    have wfn := ramWf_programRecords s img n wf
    rw [programRecords_succ]
    by_cases last : r = n
    · subst last
      have back := ramBytes_ramPutBytes 0xFF (userRecord img r) wfn (slotBase s s.cal.target + 0x100 + 0x100 * r)
      rwa [length_userRecord] at back
    · rw [← ih (by omega)]
      refine ramBytes_congr fun i hi => ramGet_ramPutBytes_ne _ _ wfn _ _ (by omega)

end

/-- The flash after a save that has verified: records, then the header with GEN (R375). -/
def slotSaved (gen : Nat) : Ram Byte := ramPutBytes 0xFF (programRecords s img 8) (slotBase s s.cal.target) (slotHeader gen)

/-- GEN of a save: begun anew after the last value. -/
def savedGen : Nat := if s.cal.newGen = 0xFFFFFFFF then 1 else s.cal.newGen

/-- The records stand in the target slot. -/
def recorded : State := setFlash (programRecords s img 8) s

/-- The header stands before them. -/
def headed : State :=
  setFlash (ramPutBytes 0xFF (recorded s img).slow.flash (slotBase (recorded s img) s.cal.target) (slotHeader (savedGen s))) (recorded s img)

/-- With GEN begun anew the other slot is erased as well. -/
def renewed : State :=
  if (headed s img).cal.newGen = 0xFFFFFFFF then setFlash (eraseSlot (headed s img) (1 - s.cal.target)) (headed s img) else headed s img

theorem only_headed : Only [.slow] s (headed s img) := by
  have set (f : Ram Byte) (u : State) : Only [.slow] u (setFlash f u) := by simp
  exact (set _ s).trans (set _ _)

theorem only_renewed : Only [.slow] s (renewed s img) := by
  have set (f : Ram Byte) (u : State) : Only [.slow] u (setFlash f u) := by simp
  unfold renewed
  split
  · exact (only_headed s img).trans (set _ _)
  · exact only_headed s img

theorem flash_setFlash (f : Ram Byte) (s : State) : (setFlash f s).slow.flash = f := rfl

theorem slotBase_setFlash (f : Ram Byte) (s : State) (i : Nat) : slotBase (setFlash f s) i = slotBase s i := rfl

theorem flash_renewed (other : s.cal.newGen ≠ 0xFFFFFFFF) : (renewed s img).slow.flash = slotSaved s img s.cal.newGen := by
  have same : (headed s img).cal = s.cal := (only_headed s img).cal (by decide)
  unfold renewed
  rw [same, if_neg other, headed, savedGen, if_neg other, recorded, flash_setFlash, flash_setFlash, slotBase_setFlash, slotSaved]

theorem saveEnd_done {s : State} {img : Ram Byte} (saving : s.cal.saving = some img) (pins : pinsOk s = true) :
    saveEnd true s = { renewed s img with cal := { (renewed s img).cal with
      saving := none, slotNo := s.cal.target, gen := savedGen s, anyOk := true } } := by
  unfold saveEnd
  rw [saving]
  exact (if_neg (by decide)).trans (if_neg (by simp [pins]))

/-- What a save leaves in the flash: header and records in the slot, every other byte as it was. -/
theorem slotSaved_spec {s : State} (img : Ram Byte) (gen : Nat) (wf : ramWf 0xFF s.slow.flash = true) :
    ramBytes 0xFF (slotSaved s img gen) (slotBase s s.cal.target) 256 = slotHeader gen ∧
    (∀ r, r < 8 → ramBytes 0xFF (slotSaved s img gen) (slotBase s s.cal.target + 0x100 + 0x100 * r) 256 = userRecord img r) ∧
    ∀ a, (a < slotBase s s.cal.target ∨ slotBase s s.cal.target + 0x900 ≤ a) → ramGet 0xFF (slotSaved s img gen) a = flashAt s a := by
  have wf8 := ramWf_programRecords s img 8 wf
  refine ⟨?_, fun r hr => ?_, fun a outside => ?_⟩
  · have back := ramBytes_ramPutBytes 0xFF (slotHeader gen) wf8 (slotBase s s.cal.target)
    rwa [length_slotHeader] at back
  · rw [← ramBytes_programRecords img wf hr]
    exact ramBytes_congr fun i hi => ramGet_ramPutBytes_ne _ _ wf8 _ _ (by rw [length_slotHeader]; omega)
  · have beside := ramGet_ramPutBytes_ne 0xFF (slotHeader gen) wf8 (slotBase s s.cal.target) a (by rw [length_slotHeader]; omega)
    exact beside.trans (ramGet_programRecords_outside img wf (by omega))

end

theorem flashAt_spoilFlash {s : State} {a n k : Nat} (wf : ramWf 0xFF s.slow.flash = true) (outside : k < a ∨ a + n ≤ k) :
    flashAt (spoilFlash a n s) k = flashAt s k :=
  ramGet_ramPutBytes_ne _ _ wf a k (by simpa using outside)

/-- A save that stops is shown, and leaves open only what its slot's two sectors hold (log entry 21). -/
theorem saveStop_saving {s : State} {img : Ram Byte} (saving : s.cal.saving = some img) (wf : ramWf 0xFF s.slow.flash = true) :
    (saveStop s).fab.regs = s.fab.regs ∧ (saveStop s).cal = { s.cal with saving := none, saveFail := true } ∧
    ∀ a, (a < slotBase s s.cal.target ∨ slotBase s s.cal.target + 0x2000 ≤ a) → flashAt (saveStop s) a = flashAt s a := by
  have counted (u : State) : Only [.fab] u (count 0x70 2 u) := by simp
  unfold saveStop
  rw [saving]
  refine ⟨regs_count _ _ _, (counted _).cal (by decide), fun a outside => ?_⟩
  have spoilt := flashAt_spoilFlash (n := 0x2000) wf outside
  unfold flashAt at spoilt ⊢
  rw [(counted _).slow (by decide), ← spoilt]

/-! ### The obligation -/

/-- The words that the five commands write start their operation: GO is 1, and OP is theirs. -/
theorem spiWord_go {n : Nat} (h : n < 256) (op : Nat) (hop : op < 8) :
    65536 * n + 0x100 + op < 2 ^ 32 ∧ (65536 * n + 0x100 + op).testBit 8 = true ∧ (65536 * n + 0x100 + op) % 8 = op :=
  ⟨by omega, testBit_eight (by omega), by omega⟩

section
variable {s : State} {m : Master} (hp : s.pw.por = false) (canon : Canonical s) (serves : Serves s m 0x5C)
  (nothing : NothingToApply s 0x5C)
include hp canon serves nothing

/-- Each of the five commands that write SPI_CMD starts its operation (R326). -/
theorem spiCommands_start :
    (∀ b : Byte, SpiStarts s (.spiRead m b) (0x101 + 0x10000 * b.toNat) 1 0) ∧
    (∀ b : Byte, SpiStarts s (.spiProgram m b) (0x102 + 0x10000 * b.toNat) 2 0) ∧
    SpiStarts s (.spiSectorErase m) (keptBits s 0x5C04C / 8 * 8 + 0x103) 3 0 ∧
    (∀ id : BitVec 24, SpiStarts s (.spiReadId m id) (keptBits s 0x5C04C / 8 * 8 + 0x104) 4 id.toNat) ∧
    (∀ sr : Byte, SpiStarts s (.spiReadStatus m sr) (keptBits s 0x5C04C / 8 * 8 + 0x105) 5 (2 ^ 24 * sr.toNat)) := by
  obtain ⟨n, hn, kept⟩ := keptBits_spi s
  refine ⟨fun b => ?_, fun b => ?_, ?_, fun id => ?_, fun sr => ?_⟩
  · obtain ⟨word, go, op⟩ := spiWord_go b.isLt 1 (by decide)
    have same : 0x101 + 0x10000 * b.toNat = 65536 * b.toNat + 0x100 + 1 := by omega
    exact spiStarts_of_row serves canon nothing (c := .spiRead m b) (congrArg Host.Outcome.next (running_eq _ hp)) (by rw [same]; exact word)
      (by rw [same]; exact go) (by rw [same]; exact op) (by decide) 0
  · obtain ⟨word, go, op⟩ := spiWord_go b.isLt 2 (by decide)
    have same : 0x102 + 0x10000 * b.toNat = 65536 * b.toNat + 0x100 + 2 := by omega
    exact spiStarts_of_row serves canon nothing (c := .spiProgram m b) (congrArg Host.Outcome.next (running_eq _ hp)) (by rw [same]; exact word)
      (by rw [same]; exact go) (by rw [same]; exact op) (by decide) 0
  · obtain ⟨word, go, op⟩ := spiWord_go hn 3 (by decide)
    exact spiStarts_of_row serves canon nothing (c := .spiSectorErase m) (congrArg Host.Outcome.next (running_eq _ hp)) (by rw [kept]; exact word)
      (by rw [kept]; exact go) (by rw [kept]; exact op) (by decide) 0
  · obtain ⟨word, go, op⟩ := spiWord_go hn 4 (by decide)
    have starts := spiStarts_of_answer (id := id.toNat) (sr := 0) serves canon nothing (c := .spiReadId m id)
      (congrArg Host.Outcome.next (running_eq _ hp))
      (w := keptBits s 0x5C04C / 8 * 8 + 0x104) (by rw [kept]; exact word) (by rw [kept]; exact go) (by rw [kept]; exact op)
    rwa [Nat.mul_zero, Nat.add_zero] at starts
  · obtain ⟨word, go, op⟩ := spiWord_go hn 5 (by decide)
    have starts := spiStarts_of_answer (id := 0) (sr := sr.toNat) serves canon nothing (c := .spiReadStatus m sr)
      (congrArg Host.Outcome.next (running_eq _ hp))
      (w := keptBits s 0x5C04C / 8 * 8 + 0x105) (by rw [kept]; exact word) (by rw [kept]; exact go) (by rw [kept]; exact op)
    rwa [Nat.zero_add] at starts

end

section
variable {s : State} (hp : s.pw.por = false)
include hp

theorem exec_spiOpDone : exec .spiOpDone s = .next (spiDone s) := congrArg Host.Outcome.next (running_eq spiDone hp)

theorem exec_spiFail : exec .spiFail s = .next (spiTimeout s) := congrArg Host.Outcome.next (running_eq spiTimeout hp)

/-- An operation in its time ends with its work done on an idle flash (R326). -/
theorem spiOpDone_inTime (canon : Canonical s) (busy : s.slow.spiBusy = true) (soft : s.slow.softRst = false) (pins : pinsOk s = true)
    (inTime : spiLate s = false) :
    ∃ u, exec .spiOpDone s = .next u ∧ Only [.pw, .slow] s u ∧ u.slow.spiBusy = false ∧
      (s.slow.spiOp = 1 → u.slow = { s.slow with
        spiBusy := false, spiBuf := ramPutBytes 0 s.slow.spiBuf 0 (flashBytes s s.slow.spiAddr s.slow.spiLen) }) ∧
      (s.slow.spiOp = 2 → u.slow.spiBuf = s.slow.spiBuf ∧ u.slow.sr % 2 = 0 ∧
        ∀ a, flashAt u a = if s.slow.spiAddr ≤ a ∧ a < s.slow.spiAddr + s.slow.spiLen
          then flashAt s a &&& ramGet 0 s.slow.spiBuf (a - s.slow.spiAddr) else flashAt s a) ∧
      (s.slow.spiOp = 3 → u.slow.spiBuf = s.slow.spiBuf ∧ u.slow.sr % 2 = 0 ∧
        ∀ a, flashAt u a = if a / 0x1000 = s.slow.spiAddr / 0x1000 then 0xFF else flashAt s a) ∧
      (s.slow.spiOp = 4 → u.slow = { s.slow with spiBusy := false, spiId := s.slow.spiNewId % 2 ^ 24 }) ∧
      (s.slow.spiOp = 5 → u.slow = { s.slow with spiBusy := false, sr := s.slow.spiNewId / 2 ^ 24 }) := by
  have done := (exec_spiOpDone hp).trans (congrArg Host.Outcome.next (spiDone_free busy pins inTime soft))
  have even (n : Nat) : (n / 2 * 2 + 0) % 2 = 0 := by omega
  refine ⟨_, done, (only_spiWork s).trans ((only_spiFree _).mono (by decide)), rfl, fun op => ?_, fun op => ?_, fun op => ?_, fun op => ?_,
    fun op => ?_⟩
  · rw [spiWork, if_pos op]
    rfl
  · rw [spiWork, if_neg (by omega), if_pos op]
    exact ⟨rfl, even _, ramGet_programBytes canon.flash⟩
  · rw [spiWork, if_neg (by omega), if_neg (by omega), if_pos op]
    exact ⟨rfl, even _, ramGet_erased canon.flash⟩
  · rw [spiWork, if_neg (by omega), if_neg (by omega), if_neg (by omega), if_pos op]
    rfl
  · rw [spiWork, if_neg (by omega), if_neg (by omega), if_neg (by omega), if_neg (by omega)]
    rfl

/-- A program or erase past its time shows its failure and changes no byte outside its span (R326). -/
theorem spiFail_due (canon : Canonical s) (busy : s.slow.spiBusy = true) (soft : s.slow.softRst = false)
    (op : s.slow.spiOp = 2 ∨ s.slow.spiOp = 3) (due : s.slow.spiAt + supMs (if s.slow.spiOp = 2 then 5 else 500) ≤ s.pw.sup) :
    ∃ u, exec .spiFail s = .next u ∧ Only [.pw, .fab, .slow] s u ∧ u.fab.regs = s.fab.regs ∧ u.slow.spiBusy = false ∧
      u.slow.spiFail = true ∧
      ∀ a, (if s.slow.spiOp = 2 then a < s.slow.spiAddr ∨ s.slow.spiAddr + s.slow.spiLen ≤ a else a / 0x1000 ≠ s.slow.spiAddr / 0x1000) →
        flashAt u a = flashAt s a := by
  obtain ⟨n, l, slow, length⟩ := slow_spiExpired s
  obtain ⟨only, regs⟩ := only_spiExpired s
  have still : (spiExpired s).slow.softRst = false := by rw [slow]; exact soft
  have ends : spiTimeout s = spiFree (spiExpired s) := by
    rw [spiTimeout_expires busy op due, spiIdle_eq, still]
    rfl
  refine ⟨_, (exec_spiFail hp).trans (congrArg Host.Outcome.next ends), only.trans ((only_spiFree _).mono (by decide)), regs, rfl,
    by rw [spiFree, slow], fun a outside => ?_⟩
  show ramGet 0xFF (spiExpired s).slow.flash a = _
  rw [slow]
  refine ramGet_ramPutBytes_ne _ _ canon.flash _ _ ?_
  rw [length, spiSpan]
  rcases op with two | three
  · rw [if_pos two] at outside
    rw [if_neg (by omega)]
    exact outside
  · rw [if_neg (by omega)] at outside
    rw [if_pos three]
    dsimp only
    omega

end

/-- Work that a waiting soft reset does not touch: without it the flash is then idle, with it the reset acts. -/
theorem spiIdle_waited {x y : State} (still : x.slow.softRst = false) (waits : y = softSet true x) :
    spiIdle x = spiFree x ∧ spiIdle y = resetNow 0x5C (softSet true (spiFree x)) := by
  subst waits
  rw [spiIdle_eq, still]
  exact ⟨rfl, rfl⟩

/-- A soft reset that has waited acts after the end of the operation, whichever end that is (R331). -/
theorem softReset_waited {s w : State} (hp : s.pw.por = false) (busy : s.slow.spiBusy = true) (waits : s.slow.softRst = true)
    (hw : w = softSet false s) :
    (pinsOk s = true → ∃ v, exec .spiOpDone w = .next v ∧ exec .spiOpDone s = .next (resetNow 0x5C (softSet true v))) ∧
    ((s.slow.spiOp = 2 ∨ s.slow.spiOp = 3) → s.slow.spiAt + supMs (if s.slow.spiOp = 2 then 5 else 500) ≤ s.pw.sup →
      ∃ v, exec .spiFail w = .next v ∧ exec .spiFail s = .next (resetNow 0x5C (softSet true v))) := by
  have back : s = softSet true w := by
    rw [hw, ← waits]
    rfl
  have busyW : w.slow.spiBusy = true := by rw [hw]; exact busy
  have hpW : w.pw.por = false := by rw [hw]; exact hp
  have stillW : w.slow.softRst = false := by rw [hw]; rfl
  obtain ⟨n, l, slow, -⟩ := slow_spiExpired w
  have expires (op : s.slow.spiOp = 2 ∨ s.slow.spiOp = 3) (due : s.slow.spiAt + supMs (if s.slow.spiOp = 2 then 5 else 500) ≤ s.pw.sup) :
      spiTimeout w = spiFree (spiExpired w) ∧ spiTimeout s = resetNow 0x5C (softSet true (spiFree (spiExpired w))) := by
    rw [spiTimeout_expires busy op due, spiTimeout_expires busyW (by rw [hw]; exact op) (by rw [hw]; exact due)]
    exact spiIdle_waited (by rw [slow]; exact stillW) (by rw [back, spiExpired_softSet])
  refine ⟨fun pins => ?_, fun op due => ?_⟩
  · have pinsW : pinsOk w = true := by rw [hw]; exact pins
    have lateW : spiLate w = spiLate s := by rw [hw]; rfl
    cases late : spiLate s with
    | true =>
      obtain ⟨op, past⟩ : (s.slow.spiOp = 2 ∨ s.slow.spiOp = 3) ∧ s.slow.spiAt + spiLimit s < s.pw.sup := by simpa [spiLate] using late
      obtain ⟨free, reset⟩ := expires op (by rw [← spiLimit_eq]; omega)
      rw [← spiDone_late busyW pinsW (lateW.trans late)] at free
      rw [← spiDone_late busy pins late] at reset
      exact ⟨_, (exec_spiOpDone hpW).trans (congrArg Host.Outcome.next free), (exec_spiOpDone hp).trans (congrArg Host.Outcome.next reset)⟩
    | false =>
      obtain ⟨free, reset⟩ := spiIdle_waited (x := spiWork w) (y := spiWork s) (by rw [softRst_spiWork, stillW])
        (by rw [back, spiWork_softSet])
      rw [← spiDone_works busyW pinsW (lateW.trans late)] at free
      rw [← spiDone_works busy pins late] at reset
      exact ⟨_, (exec_spiOpDone hpW).trans (congrArg Host.Outcome.next free), (exec_spiOpDone hp).trans (congrArg Host.Outcome.next reset)⟩
  · obtain ⟨free, reset⟩ := expires op due
    exact ⟨_, (exec_spiFail hpW).trans (congrArg Host.Outcome.next free), (exec_spiFail hp).trans (congrArg Host.Outcome.next reset)⟩

/-- Settles O55: a row starts by `rowWrite_spi_spec`, an operation ends by its own branch, and a save writes its slot alone. -/
theorem flashOperationsAndSaves : Obligations.FlashOperationsAndSaves := by
  unfold Obligations.FlashOperationsAndSaves
  intro s hp canon
  refine ⟨fun m serves nothing => spiCommands_start hp canon serves nothing, fun busy soft => ⟨fun pins late => ?_,
    fun pins inTime => spiOpDone_inTime hp canon busy soft pins inTime, fun op due => spiFail_due hp canon busy soft op due⟩,
    fun busy waits w hw => softReset_waited hp busy waits hw, fun img saving => ⟨fun pins => ?_, ?_⟩⟩
  · rw [exec_spiOpDone hp, exec_spiFail hp, spiDone_late busy pins late]
  · have done := saveEnd_done saving pins
    have rest := only_renewed s img
    have cal := rest.cal (by decide)
    have named (x : Cal) : Only [.slow, .cal] s { renewed s img with cal := x } :=
      (only_mk_slow_cal s _ (renewed s img).slow x).2 (rest.mono (by decide))
    refine ⟨_, congrArg Host.Outcome.next ((running_eq (saveEnd true) hp).trans done), named _,
      ?_, fun other => ?_⟩
    · dsimp only
      rw [cal]
      rfl
    · have flash := flash_renewed s img other
      obtain ⟨header, records, outside⟩ := slotSaved_spec img s.cal.newGen canon.flash
      unfold flashBytes flashAt at *
      dsimp only
      rw [flash]
      exact ⟨header, records, outside⟩
  · obtain ⟨regs, cal, outside⟩ := saveStop_saving saving canon.flash
    have stops : saveEnd false s = saveStop s := by
      unfold saveEnd
      rw [saving]
      exact if_pos rfl
    exact ⟨_, congrArg Host.Outcome.next ((running_eq (saveEnd false) hp).trans stops), by simp, regs, cal, outside⟩

end Sys2Proof.Machine
end

section
/-! CS_USER_VIEW (R373): the record it reads, and its writes. -/

namespace Sys2Proof.Machine

/-! ### A served write of a CK_SUP page -/

/-- The page's header while a write waits and once it has been taken is as before, where none waited (R343). -/
theorem access_posted (m : Master) (p : Nat) (w : Posted) {s : State} (keys : keysFrom 0 s.fab.pages = true) (idle : (pageSt s p).posted = none) :
    Access s (modPage p (fun x => { x with posted := none }) (modPage p (fun x => { x with posted := some w }) (beginAccess m s))) := by
  have begun : keysFrom 0 (beginAccess m s).fab.pages = true := keys
  refine ⟨rfl, fun q => ?_⟩
  by_cases own : q = p
  · rw [own, pageSt_modPage _ _ _ (keys_modPage _ _ _ begun), pageSt_modPage _ _ _ begun, ← idle]
    rfl
  · rw [pageSt_modPage_ne _ _ _ _ (keys_modPage _ _ _ begun) own, pageSt_modPage_ne _ _ _ _ begun own]
    rfl

/-- A served write of a plain CK_SUP word is posted and takes effect in the same step, on a state whose headers are listed by page. -/
theorem rowWrite_sup_listed {m : Master} {p o v : Nat} {s : State} (h : Serves s m p) (keys : keysFrom 0 s.fab.pages = true)
    (sup : isSup p = true) (ho : o < 0x1000) (h4 : o % 4 = 0) (hg : isGuarded p o = false)
    (hc : ¬ (0x800 ≤ o ∧ isGuarded p (o - 0x800) = true)) (hf : (regForm p o).isSome = true) (hr : writeRefusal s p o v = none) :
    ∃ u, Access s u ∧ keysFrom 0 u.fab.pages = true ∧
      rowWrite m (addrOf p o) v s = applySup p (addrOf p o) (writeEffect m p o (BitVec.ofNat 32 v).toNat u) := by
  have begun := serves_beginAccess h
  have even : ¬ addrOf p o % 4 ≠ 0 := by rw [addr_aligned p o h4]; decide
  have waits := pageSt_modPage p (fun x => { x with posted := some ⟨m, addrOf p o, BitVec.ofNat 32 v⟩ }) (beginAccess m s) keys
  refine ⟨_, access_posted m p ⟨m, addrOf p o, BitVec.ofNat 32 v⟩ keys h.idle, keys_modPage _ _ _ (keys_modPage _ _ _ keys), ?_⟩
  unfold rowWrite
  rw [addr_page p o ho, fabWrite_serves (by rwa [addr_page p o ho]), if_neg even, addr_page p o ho, addr_off p o ho,
    servedWrite_plain begun ho hg hc hf hr]
  simp only [acceptWrite, sup, if_true, ownPosted, Bool.not_true, Bool.false_eq_true, if_false, waits, postedEffect, addr_off p o ho, hg,
    Bool.false_and]

/-! ### A refusal stands in its page's header (R333) -/

/-- Both states show the same refusals in their pages' headers. -/
structure Shown (s t : State) : Prop where
  keys : keysFrom 0 s.fab.pages = true → keysFrom 0 t.fab.pages = true
  same : keysFrom 0 s.fab.pages = true → ∀ q, (pageSt t q).refused = (pageSt s q).refused ∧ (pageSt t q).cause = (pageSt s q).cause

namespace Shown

variable {s t u : State}

theorem refl (s : State) : Shown s s := ⟨id, fun _ _ => ⟨rfl, rfl⟩⟩

theorem trans (h : Shown s t) (k : Shown t u) : Shown s u where
  keys a := k.keys (h.keys a)
  same a q := ⟨(k.same (h.keys a) q).1.trans (h.same a q).1, (k.same (h.keys a) q).2.trans (h.same a q).2⟩

theorem ite {c : Prop} [Decidable c] (h : Shown s t) (k : Shown s u) : Shown s (if c then t else u) := by
  split
  · exact h
  · exact k

end Shown

section
variable (s : State)

theorem shown_store (store : List Notice) (lost : Nat) : Shown s { s with fab := { s.fab with store := store, lost := lost } } where
  keys k := k
  same _ _ := ⟨rfl, rfl⟩

theorem shown_modPage (p : Nat) (f : PageSt → PageSt)
    (hf : ∀ x, (f x).refused = x.refused ∧ (f x).cause = x.cause := by exact fun _ => ⟨rfl, rfl⟩) : Shown s (modPage p f s) where
  keys h := keys_modPage _ _ _ h
  same h q := by
    by_cases e : q = p
    · subst e
      rw [pageSt_modPage _ _ _ h]
      exact hf _
    · rw [pageSt_modPage_ne _ _ _ _ h e]
      exact ⟨rfl, rfl⟩

theorem shown_bump (p i : Nat) : Shown s (bump p i s) := shown_modPage s p _

theorem shown_noticeIn (p : Nat) (n : Notice) : Shown s (noticeIn p n s) := by
  unfold noticeIn
  exact (shown_store _ _ _).trans (shown_modPage _ _ _)

theorem shown_noticeLost (d : Notice) : Shown s (noticeLost d s) := by
  unfold noticeLost 
  exact (shown_store _ _ _).trans ((shown_bump _ _ _).trans (shown_modPage _ _ _))

theorem shown_noticeDrop : Shown s (noticeDrop s) := by
  unfold noticeDrop
  split
  · exact .refl s
  · exact (shown_store _ _ _).trans ((shown_modPage _ _ _).trans (shown_noticeLost _ _))

theorem shown_storeNotice (p : Nat) (n : Notice) : Shown s (storeNotice p n s) :=
  (shown_noticeIn s p n).ite (((shown_noticeIn s p n).trans (shown_noticeDrop _)).ite (shown_noticeLost s _))

theorem shown_gapNotice (p : Nat) (n : Notice) : Shown s (gapNotice p n s) := by
  unfold gapNotice 
  exact (shown_modPage s p _).trans ((shown_bump _ _ _).trans (shown_store _ _ _))

/-- A notice leaves every header's refusal. -/
theorem shown_postNotice (p : Nat) (n : Notice) : Shown s (postNotice p n s) := by
  unfold postNotice
  exact (Shown.refl s).ite ((shown_modPage s p _).ite ((shown_gapNotice s p _).ite (shown_storeNotice s p _)))

/-- A refused access shows REFUSED and its cause on its page (R333). -/
theorem shown_refuseAt (m : Master) (a c : Nat) {s : State} (keys : keysFrom 0 s.fab.pages = true) :
    (pageSt (refuseAt m a c s) (a / 0x1000)).refused = true ∧ (pageSt (refuseAt m a c s) (a / 0x1000)).cause = c := by
  have set : pageSt (modPage (a / 0x1000) (fun x => { x with refused := true, cause := c }) s) (a / 0x1000) =
    { pageSt s (a / 0x1000) with refused := true, cause := c } := pageSt_modPage _ _ _ keys
  have posted := shown_postNotice (modPage (a / 0x1000) (fun x => { x with refused := true, cause := c }) s) (a / 0x1000)
    { kind := 0xA2, page := a / 0x1000, item := c, value := 0, detail := a }
  obtain ⟨refused, cause⟩ := posted.same (keys_modPage _ _ _ keys) (a / 0x1000)
  rw [set] at refused cause
  exact ⟨refused, cause⟩

end

/-! ### The record that is read (R159, R373) -/

theorem crcBitR_lt {c : Nat} (h : c < 2 ^ 32) : crcBitR 0xEDB88320 c < 2 ^ 32 := by
  unfold crcBitR
  split
  · exact Nat.xor_lt_two_pow (by omega) (by decide)
  · omega

theorem iterate_crcBitR_lt (n : Nat) {c : Nat} (h : c < 2 ^ 32) : Nat.iterate (crcBitR 0xEDB88320) n c < 2 ^ 32 := by
  induction n generalizing c with
  | zero => exact h
  | succ n ih => exact ih (crcBitR_lt h)

theorem crc32_lt (l : List Byte) : crc32 l < 2 ^ 32 := by
  have folded (c : Nat) (h : c < 2 ^ 32) : l.foldl (crcByteR 0xEDB88320) c < 2 ^ 32 := by
    induction l generalizing c with
    | nil => exact h
    | cons b l ih =>
      have byte : b.toNat < 2 ^ 32 := lt_trans b.isLt (by decide)
      exact ih _ (iterate_crcBitR_lt 8 (Nat.xor_lt_two_pow h byte))
  exact Nat.xor_lt_two_pow (folded _ (by decide)) (by decide)

/-- Bytes of a block of bytes. -/
theorem ramBytes_slice (d : Byte) (m : Ram Byte) (a : Nat) {n k j : Nat} (h : k + j ≤ n) :
    ((ramBytes d m a n).drop k).take j = ramBytes d m (a + k) j := by
  apply List.ext_getElem
  · simp [ramBytes]
    omega
  · intro i _ _
    simp [ramBytes, Nat.add_assoc]

/-- A word of a user record: its data, and in the last word the CRC-32 of the data. -/
theorem userRecord_word (u : Ram Byte) (r : Nat) (i : Fin 64) : leNat (((userRecord u r).drop (4 * i.val)).take 4) =
    if i.val = 63 then crc32 (ramBytes 0 u (252 * r) 252) else leNat (ramBytes 0 u (252 * r + 4 * i.val) 4) := by
  have length : (ramBytes 0 u (252 * r) 252).length = 252 := by simp [ramBytes]
  unfold userRecord
  dsimp only
  split
  next last =>
    have crc : ((ramBytes 0 u (252 * r) 252 ++ leBytes 4 (crc32 (ramBytes 0 u (252 * r) 252))).drop 252).take 4 =
        leBytes 4 (crc32 (ramBytes 0 u (252 * r) 252)) := by
      rw [List.drop_left' length, List.take_of_length_le (by rw [leBytes_length])]
    rw [last, crc, leNat_leBytes]
    exact Nat.mod_eq_of_lt (crc32_lt _)
  next data =>
    have inside : 4 * i.val + 4 ≤ 252 := by omega
    rw [List.drop_append_of_le_length (by omega), List.take_append_of_le_length (by rw [List.length_drop]; omega),
      ramBytes_slice 0 u (252 * r) inside]

theorem leNat_lt (l : List Byte) : leNat l < 2 ^ (8 * l.length) := by
  induction l with
  | nil => exact Nat.one_pos
  | cons b l ih =>
    have byte := b.isLt
    rw [leNat, List.length_cons, Nat.mul_add, Nat.pow_add]
    omega

theorem regForm_userView (i : Fin 64) : regForm 0x70 (0x180 + 4 * i.val) = some { cmd := 0xFFFFFFFF } := by
  have inside : ¬ (0x180 + 4 * i.val = 0x004) ∧ ¬ (0x180 + 4 * i.val = 0x020) ∧ ¬ (0x180 + 4 * i.val < 0x040) := by omega
  have word : formCs (0x180 + 4 * i.val) = some { cmd := 0xFFFFFFFF } := by
    unfold formCs
    rw [if_neg (by omega), if_neg (by omega), if_neg (by omega), if_neg (by omega), if_pos (by omega)]
  obtain ⟨en, clr, header⟩ := inside
  unfold regForm
  rw [if_neg en, if_neg clr, if_neg header]
  exact word

theorem readPlain_userView (s : State) (i : Fin 64) : readPlain s 0x70 (0x180 + 4 * i.val) = userView s i.val := by
  have live : liveWord s 0x70 (0x180 + 4 * i.val) = userView s i.val := by
    show liveCs s (0x180 + 4 * i.val) = _
    unfold liveCs
    dsimp only
    rw [if_neg (by omega), if_neg (by omega), if_pos (by omega)]
    congr 1
    omega
  have small : userView s i.val < 2 ^ 32 := by
    have word := leNat_lt (((userRecord s.cal.user (csRec s)).drop (4 * i.val)).take 4)
    have short : (((userRecord s.cal.user (csRec s)).drop (4 * i.val)).take 4).length ≤ 4 := List.length_take_le _ _
    unfold userView
    split
    · exact lt_of_lt_of_le word (Nat.pow_le_pow_right (by decide) (by omega))
    · decide
  unfold readPlain
  rw [if_neg (by omega), regForm_userView, live, Nat.mod_eq_of_lt small]
  simp [pgIn]

/-! ### The write of CS_USER_VIEW (R373) -/

/-- The word at byte offset `4 i` of the view is a plain word that its writes act on. -/
theorem userView_plain (i : Fin 64) : 0x180 + 4 * i.val < 0x1000 ∧ (0x180 + 4 * i.val) % 4 = 0 ∧
    isGuarded 0x70 (0x180 + 4 * i.val) = false ∧
    ¬ (0x800 ≤ 0x180 + 4 * i.val ∧ isGuarded 0x70 (0x180 + 4 * i.val - 0x800) = true) ∧ (regForm 0x70 (0x180 + 4 * i.val)).isSome = true := by
  refine ⟨by omega, by omega, ?_, by omega, by rw [regForm_userView]; rfl⟩
  have other : ¬ (0x180 + 4 * i.val = 0x044) := by omega
  simp [isGuarded, other]

theorem writeRefusal_userView (s : State) (i : Fin 64) (v : Nat) : writeRefusal s 0x70 (0x180 + 4 * i.val) v = none := by
  have range : rangeOk 0x70 (0x180 + 4 * i.val) v = true := by simp [rangeOk, pgIn]
  unfold writeRefusal
  rw [range, if_neg (by decide), if_neg (by omega), if_neg (by omega)]

theorem writeEffect_userView (m : Master) (i : Fin 64) (v : Nat) (s : State) :
    writeEffect m 0x70 (0x180 + 4 * i.val) v s = csWrite m i.val (BitVec.ofNat 32 v) s := by
  have own : ownWrite 0x70 (0x180 + 4 * i.val) = false := by simp [ownWrite, pgIn]
  have index : (0x180 + 4 * i.val - 0x180) / 4 = i.val := by omega
  have inside : pgIn (0x180 + 4 * i.val) 0x180 0x27C = true := by
    simp only [pgIn, Bool.and_eq_true, decide_eq_true_eq]
    omega
  have effect : sideEffect m 0x70 (0x180 + 4 * i.val) v s = csWrite m i.val (BitVec.ofNat 32 v) s := by
    unfold sideEffect
    rw [if_neg (by omega), inside, index]
    simp [pgIn]
  unfold writeEffect
  rw [own, regForm_userView]
  exact effect

/-- Some byte that is written holds a set bit in a locked byte (R373). -/
theorem lockedWrite_iff (k : Nat) (w : Nat) : ((leBytes 4 w).zipIdx).any (fun p => p.1 != 0 && lockedByte (k + p.2)) = true ↔
    ∃ j, j < 4 ∧ (leBytes 4 w).getD j 0 ≠ 0 ∧ lockedByte (k + j) = true := by
  have length := leBytes_length 4 w
  rw [List.any_eq_true]
  constructor
  · rintro ⟨⟨b, j⟩, mem, both⟩
    have place := List.mem_zipIdx_iff_getElem?.1 mem
    simp only [Bool.and_eq_true, bne_iff_ne] at both
    have short : j < 4 := by
      have := (List.getElem?_eq_some_iff.1 place).1
      omega
    exact ⟨j, short, by rw [List.getD_eq_getElem?_getD, place]; exact both.1, both.2⟩
  · rintro ⟨j, short, set, locked⟩
    refine ⟨((leBytes 4 w)[j], j), List.mem_zipIdx_iff_getElem?.2 (List.getElem?_eq_getElem (by omega)), ?_⟩
    rw [List.getD_eq_getElem _ _ (by omega)] at set
    exact Bool.and_eq_true_iff.2 ⟨bne_iff_ne.2 set, locked⟩

/-- A write of the view changes no word of the fabric. -/
theorem csWrite_frame (m : Master) (j : Nat) (w : Word) (s : State) : Only [.fab, .cal] s (csWrite m j w s) ∧
    (csWrite m j w s).fab.regs = s.fab.regs ∧ (csWrite m j w s).fab.buf = s.fab.buf := by
  refine ⟨by simp, ?_⟩
  have refused (a c : Nat) := noted_refuseAt m a c s
  unfold csWrite
  dsimp only
  split_ifs
  · exact ⟨(refused _ _).regs, (refused _ _).buf⟩
  · exact ⟨rfl, rfl⟩
  · exact ⟨(refused _ _).regs, (refused _ _).buf⟩
  · exact ⟨rfl, rfl⟩

/-- What a write of the view does to the held image: nothing, or its four bytes are replaced (R373). -/
theorem csWrite_spec (m : Master) (i : Fin 64) (w : Word) (s : State) :
    (s.cal.saving = none → i.val = 63 → csWrite m i.val w s = s) ∧
    (s.cal.saving = none → i.val < 63 →
      (∀ k, k < 4 → (leBytes 4 w.toNat).getD k 0 ≠ 0 → lockedByte (252 * csRec s + 4 * i.val + k) = false) →
      csWrite m i.val w s =
        { s with cal := { s.cal with user := ramPutBytes 0 s.cal.user (252 * csRec s + 4 * i.val) (leBytes 4 w.toNat) } }) ∧
    (s.cal.saving = none → i.val < 63 →
      (∃ k, k < 4 ∧ (leBytes 4 w.toNat).getD k 0 ≠ 0 ∧ lockedByte (252 * csRec s + 4 * i.val + k) = true) →
      csWrite m i.val w s = refuseAt m (0x70180 + 4 * i.val) 0x0D s) ∧
    (s.cal.saving.isSome = true → csWrite m i.val w s = refuseAt m (0x70180 + 4 * i.val) 0x09 s) := by
  have judged := lockedWrite_iff (252 * csRec s + 4 * i.val) w.toNat
  unfold csWrite
  dsimp only
  refine ⟨fun free last => ?_, fun free data clear => ?_, fun free data locked => ?_, fun saving => if_pos saving⟩
  · rw [if_neg (by simp [free]), if_pos (by omega)]
  · rw [if_neg (by simp [free]), if_neg (by omega), if_neg (fun some => ?_)]
    obtain ⟨k, short, set, lock⟩ := judged.1 some
    exact absurd lock (by simp [clear k short set])
  · rw [if_neg (by simp [free]), if_neg (by omega), if_pos (judged.2 locked)]

/-- A served write of the view acts on the held image, after the access has been noted. -/
theorem exec_csUserViewWrite {s : State} (hp : s.pw.por = false) (canon : Canonical s) {m : Master} (serves : Serves s m 0x70)
    (nothing : NothingToApply s 0x70) (i : Fin 64) (w : Word) :
    ∃ u, Access s u ∧ keysFrom 0 u.fab.pages = true ∧ exec (.csUserViewWrite m i w) s = .next (csWrite m i.val w u) := by
  obtain ⟨inPage, aligned, plain, value, listed⟩ := userView_plain i
  obtain ⟨u, access, keys, row⟩ := rowWrite_sup_listed (v := w.toNat) serves canon.pages (by decide) inPage aligned plain value listed
    (writeRefusal_userView s i w.toNat)
  have word : BitVec.ofNat 32 (BitVec.ofNat 32 w.toNat).toNat = w := by simp
  have addr : addrOf 0x70 (0x180 + 4 * i.val) = 0x70180 + 4 * i.val := by unfold addrOf; omega
  obtain ⟨only, -, -⟩ := csWrite_frame m i.val w u
  have buf : (csWrite m i.val w u).fab.buf = s.fab.buf := (csWrite_frame m i.val w u).2.2.trans (buf_of_access access)
  have run : (csWrite m i.val w u).pw.coreRun = s.pw.coreRun := by
    rw [only.pw (by decide), pw_of_access access]
  rw [writeEffect_userView, word, applySup_idle buf run (addr_page _ _ inPage) nothing, addr] at row
  exact ⟨u, access, keys, congrArg Host.Outcome.next ((running_eq _ hp).trans row)⟩

/-- Settles O56: the read is the held record's word, and the write is `csWrite` on the page's state. -/
theorem userViewShowsAndTakesTheHeldRecord : Obligations.UserViewShowsAndTakesTheHeldRecord := by
  unfold Obligations.UserViewShowsAndTakesTheHeldRecord
  intro s i hp canon
  refine ⟨?_, fun m w serves nothing => ?_⟩
  · rw [readPlain_userView, userView]
    cases loaded : s.cal.loaded
    · rfl
    · exact userRecord_word s.cal.user (csRec s) i
  · obtain ⟨u, access, keys, row⟩ := exec_csUserViewWrite hp canon serves nothing i w
    obtain ⟨only, regs, -⟩ := csWrite_frame m i.val w u
    have cal : u.cal = s.cal := (only_of_access access).cal (by decide)
    have record : csRec u = csRec s := by
      unfold csRec regF regAt
      rw [regs_of_access access]
    obtain ⟨last, data, locked, saving⟩ := csWrite_spec m i w u
    have page : (0x70180 + 4 * i.val) / 0x1000 = 0x70 := by omega
    have shown (c : Nat) := shown_refuseAt m (0x70180 + 4 * i.val) c keys
    have held (c : Nat) : (refuseAt m (0x70180 + 4 * i.val) c u).cal = s.cal := ((noted_refuseAt m _ c u).only.cal (by decide)).trans cal
    rw [page] at shown
    simp only [cal, record] at last data locked saving
    refine ⟨_, row, ((only_of_access access).mono (by decide)).trans only, regs.trans (regs_of_access access), fun free at63 => ?_,
      fun free below clear => ?_, fun free below set => ?_, fun running => ?_⟩
    · rw [last free at63]
      exact ⟨cal, access.pages _⟩
    · rw [data free below clear]
      exact ⟨rfl, access.pages _⟩
    · rw [locked free below set]
      exact ⟨held _, shown _⟩
    · rw [saving running]
      exact ⟨held _, shown _⟩

end Sys2Proof.Machine
end

section
/-! The pulser's diagnostics (R398–R400): the schedule's record stays as it was chosen and sensed while sites are pulsed and judged. -/

namespace Sys2Proof.Machine

/-- What the schedule of an oasis holds: that it ran, whether it is done or under way, its row, what it sensed, and the bars. -/
def schedule (s : State) : Bool × Bool × Bool × Option Nat × List Nat × List Nat × Ram Nat × Ram Nat :=
  (s.pls.diagRan, s.pls.diagDone, s.pls.diag, s.pls.diagRow, s.pls.colHit, s.pls.rowHit, s.pls.colClean, s.pls.rowClean)

theorem schedule_of_pls {s t : State} (same : t.pls = s.pls) : schedule t = schedule s := congrArg (fun p : Pls =>
  (p.diagRan, p.diagDone, p.diag, p.diagRow, p.colHit, p.rowHit, p.colClean, p.rowClean)) same

theorem schedule_setSite (i v : Nat) (s : State) : schedule (setSite i v s) = schedule s := by
  unfold schedule
  rw [pls_setSite]

theorem schedule_foldl {α : Type} {g : State → α → State} (keeps : ∀ u x, schedule (g u x) = schedule u) (l : List α) (s : State) :
    schedule (l.foldl g s) = schedule s :=
  List.foldlRecOn (motive := fun u => schedule u = schedule s) l _ rfl fun u h x _ => (keeps u x).trans h

theorem schedule_fireRow (r t f : Nat) (l : List Pulse) (s : State) : schedule (fireRow r t f l s) = schedule s := by
  have judged (u : State) (p : Pulse) : schedule (if p.width < 24 then setSite p.site 3 u else u) = schedule u := by
    split
    · exact schedule_setSite _ _ u
    · rfl
  unfold fireRow
  dsimp only
  rw [schedule_foldl judged]
  rfl

/-- A diagnostic pulse that falls due fires the row that was chosen. -/
theorem schedule_diagDue (s : State) : schedule (diagDue s) = schedule s := by
  unfold diagDue
  split
  · unfold diagPulse
    split
    · rfl
    · rw [schedule_fireRow]
      rfl
  · rfl

theorem kept_diagDue (s : State) : FabKept ∅ s (diagDue s) := (kept_diagPulse s).ite (.refl s)

theorem schedule_count (p i : Nat) (s : State) : schedule (count p i s) = schedule s :=
  schedule_of_pls (Only.pls (M := [.fab]) (by simp) (by decide))

theorem schedule_countBars (tally : Nat) (hits : List Nat) (m : Ram Nat) (s : State) :
    schedule (countBars tally hits m s) = schedule s := schedule_of_pls (Only.pls (M := [.fab]) (by simp) (by decide))

theorem kept_countBars (tally : Nat) (hits : List Nat) (m : Ram Nat) (s : State) : FabKept ∅ s (countBars tally hits m s) :=
  FabKept.foldl (fun v _ => (FabKept.refl v).ite (kept_countD v _ _ _)) _ s

/-- The result bale takes its sequence number and empties the counts of firings, which are no part of the schedule (R402). -/
theorem schedule_plsShip (s : State) : schedule (plsShip s) = schedule s := by
  have written (q : Nat) (l : List Byte) (u : State) : (writeBale q l u).pls = u.pls := Only.pls (M := [.fab, .ser, .frm]) (by simp) (by decide)
  unfold plsShip
  split
  · rfl
  · split
    · exact schedule_count _ _ s
    · rw [schedule_of_pls (written _ _ _)]
      rfl

theorem kept_plsShip (s : State) : FabKept ∅ s (plsShip s) := by
  have taken (a : Acq) (p : Pls) : FabKept ∅ s { s with acq := a, pls := p } := .of_fab rfl
  unfold plsShip
  exact (FabKept.refl s).ite ((kept_count s _ _).ite ((taken _ _).trans (.of_told (told_writeBale _ _ _))))

/-- The schedule with the record done and its bars as the shorts and the clean tests give them (R399). -/
def diagJudged (s : State) : State :=
  { s with
    pls := { s.pls with diagDone := true, colClean := newBars s.pls.colHit s.pls.colClean, rowClean := newBars s.pls.rowHit s.pls.rowClean } }

/-- The record's verdicts and counts leave the bars and the words in force. -/
theorem diagRecord_records {s : State} (run : s.pw.coreRun = true) (ran : s.pls.diagRan = true) (yet : s.pls.diagDone = false)
    (due : s.orb.oasis.start + s.orb.oasis.len ≤ s.pw.elapsed + 9) :
    schedule (diagRecord s) = schedule (diagJudged s) ∧ FabKept ∅ s (diagRecord s) := by
  have acts : ¬ (!s.pw.coreRun ∨ !s.pls.diagRan ∨ s.pls.diagDone ∨ s.pw.elapsed + 9 < s.orb.oasis.start + s.orb.oasis.len) := by
    simp [run, ran, yet, due]
  have judged : FabKept ∅ s (diagJudged s) := .of_fab rfl
  have sites (v : Nat) (l : List Nat) (u : State) : FabKept ∅ u (l.foldl (fun u i => setSite i v u) u) :=
    FabKept.foldl (fun u i => .of_told (told_setSite i v u)) l u
  unfold diagRecord
  rw [if_neg acts]
  refine ⟨?_, ?_⟩
  · refine (schedule_plsShip _).trans ((schedule_countBars _ _ _ _).trans ((schedule_countBars _ _ _ _).trans ?_))
    rw [schedule_foldl fun u i => schedule_setSite i 2 u, schedule_foldl fun u i => schedule_setSite i 1 u]
    rfl
  · refine FabKept.trans ?_ (kept_plsShip _)
    exact ((judged.trans (sites 1 _ _)).trans (sites 2 _ _)).trans ((kept_countBars _ _ _ _).trans (kept_countBars _ _ _ _))

/-- Behind a switch still closed or blanking the schedule of this oasis is skipped (R395, R398). -/
def diagSkipped (s : State) : State := { s with pls := { s.pls with diagRan := true, diagDone := true } }

/-- The schedule as it starts, with the shorts its tests sense and its row (R398). -/
def diagSensed (cols rows : List Nat) (s : State) : State :=
  { s with
    pls := { s.pls with
      diagRan := true, diag := true, diagDone := false, diagFired := false, diagRow := diagRowOf s, diagSites := [],
      diagGood := [], diagOpen := [], colHit := (cols.filter (· < 15)).dedup, rowHit := (rows.filter (· < 7)).dedup } }

/-- The row switch is closed, or blanking runs, at the start of the slot. -/
def diagBlocked (s : State) : Bool := (s.pls.row.isSome && decide (slotStartCc s < s.pls.openAt)) || decide (slotStartCc s < s.pls.blankTo)

theorem diagStart_acts {s : State} (cols rows : List Nat) (run : s.pw.coreRun = true) (running : s.orb.oasis.running = true)
    (yet : s.pls.diagRan = false) (enabled : (regAt s 0x64 0x040).testBit 0 = true) (active : plsActive s = true)
    (due : s.orb.oasis.start + s.orb.oasis.len ≤ s.pw.elapsed + 16) :
    diagStart cols rows s = if diagBlocked s then count 0x64 2 (diagSkipped s) else diagDue (diagSensed cols rows s) :=
  if_neg (by simp [run, running, yet, enabled, active, due])

/-- Settles O24: a schedule that starts fixes its row and its shorts, and its record makes the bars of them. -/
theorem oasisWorkOfThePulser : Obligations.OasisWorkOfThePulser := by
  intro s por run canon
  refine ⟨fun cols rows running yet enabled active due => ?_, fun ran yet due => ?_⟩
  · have skipped : Canonical (diagSkipped s) := canon.of_parts rfl rfl rfl rfl
    have sensed : FabKept ∅ s (diagSensed cols rows s) := .of_fab rfl
    have counted : (count 0x64 2 (diagSkipped s)).pls = (diagSkipped s).pls := Only.pls (M := [.fab]) (by simp) (by decide)
    refine ⟨diagStart cols rows s, congrArg _ (coreOnly_eq _ por run), by simp, ?_⟩
    rw [diagStart_acts cols rows run running yet enabled active due, ← diagBlocked]
    cases diagBlocked s
    · have held := schedule_diagDue (diagSensed cols rows s)
      simp only [schedule, Prod.mk.injEq] at held
      obtain ⟨ran, -, diag, row, col, rows, -⟩ := held
      exact ⟨(sensed.trans (kept_diagDue _)).regs, ran, diag, row, col, rows⟩
    · refine ⟨regs_count _ _ _, congrArg Pls.diagRan counted, counted, ?_⟩
      exact skipped.tallyOf_count 2 (by decide)
  · obtain ⟨record, kept⟩ := diagRecord_records run ran yet due
    simp only [schedule, Prod.mk.injEq] at record
    obtain ⟨-, done, -, -, -, -, cols, rows⟩ := record
    exact ⟨diagRecord s, congrArg _ (coreOnly_eq _ por run), by simp, kept.regs, done, cols, rows⟩

end Sys2Proof.Machine
end

section
/-! NOTICE_WRITE (R350, R472) in a state where its own write raises WM_HIGH: that notice enters before a stored one of the same cycle. -/

namespace Sys2Proof.Machine

/-- The oldest stored notice, of an earlier core cycle. -/
def olderNotice : Notice := { kind := 0xA1, page := 0x03, item := 0, value := 1, detail := 0 }

/-- A stored notice of page 0x50 from the present core cycle, which reports one lost notice. -/
def laterNotice : Notice := { kind := 0xA1, page := 0x50, item := 0, value := 1, detail := 0, cc := 100, lost := 1 }

/-- Q13 is free, and its first cell reaches the threshold of its WM_HIGH. -/
def twoNotices : State :=
  { State.reset with
    pw := { State.reset.pw with por := false, coreRun := true, cc := 100 }
    fab := { State.reset.fab with regs := [(0x405A8, triOf 1)], store := [olderNotice, laterNotice] } }

theorem shaped_twoNotices : Shaped twoNotices where
  conv := List.length_replicate
  chan := List.length_replicate
  flint := List.length_replicate
  fout := rfl
  seams := rfl
  queues := rfl
  masters := rfl

theorem canonical_twoNotices : Canonical twoNotices where
  regs := rfl
  pages := rfl
  tallies := by rintro e ⟨⟩
  live := rfl
  shadow := rfl
  ring := rfl
  flash := rfl

theorem takesWhole_twoNotices : TakesWhole twoNotices 13 1 := by
  refine ⟨rfl, rfl, rfl, rfl, rfl, fun k hk => ?_⟩
  obtain rfl : k = 0 := by omega
  decide +kernel

/-- WM_HIGH's notice of page 0x40 enters before the one of page 0x50, and takes over the lost notice that this one reported. -/
theorem written_twoNotices : (coreOnly noticeOut twoNotices).fab.store.map (fun n => (n.page, n.lost)) = [(0x40, 1), (0x50, 0)] := by
  decide +kernel

/-- Refutes O59: its clause on NOTICE_WRITE asks that the notices left in the store stay as they are when notices of the write join them.
Here the write raises WM_HIGH of Q13, whose notice enters before the stored one of page 0x50 of the same core cycle (R472), and reports
the lost notice in its place. The store then holds no notice of page 0x50 that reports one. -/
theorem not_strobesTalliesAndNotices : ¬ Obligations.StrobesTalliesAndNotices := by
  intro holds
  obtain ⟨-, -, written, -⟩ := holds twoNotices rfl shaped_twoNotices canonical_twoNotices
  obtain ⟨u, acts, -, -, -, stays, -⟩ := written olderNotice [laterNotice] rfl rfl takesWhole_twoNotices
  obtain rfl : coreOnly noticeOut twoNotices = u := Host.Outcome.next.inj acts
  have shown := stays.map fun n => (n.page, n.lost)
  rw [written_twoNotices] at shown
  exact absurd shown (by decide)

end Sys2Proof.Machine
end

section
/-! TRIM_APPLY_EFFECT (R376): the new effective values take effect together, or none does. -/

namespace Sys2Proof.Machine

/-- The waiting apply has been taken. -/
def applyTaken (s : State) : State := { s with cal := { s.cal with apply := none } }

/-- The image `img` is in effect, and its values have reached channels and registers. -/
def imageLoaded (img : Ram Byte) (s : State) : State :=
  loadCorr (loadTrims { s with cal := { s.cal with apply := none, eff := img } })

/-- The codes that the image `img` gives the channels lie in range. -/
def trimCodesOk (s : State) (img : Ram Byte) : Bool := codesOk s s.fab.regs (trimUnder s img) (fun c => (getChan s c).track)

section
variable {s : State} {img : Ram Byte} (waits : s.cal.apply = some img)
include waits

/-- An image whose sums or codes leave their ranges is refused; any other is loaded. -/
theorem applyEffect_eq : applyEffect s =
    if !sumsOk s img then count 0x70 1 (refuse 0x70 0x02 (grpOf s 0x70) (applyTaken s))
    else if !trimCodesOk s img then count 0x70 1 (refuse 0x70 0x0C (grpOf s 0x70) (applyTaken s))
    else if (imageLoaded img s).chan.map (·.trim) = s.chan.map (·.trim) then imageLoaded img s
    else setUncomp (imageLoaded img s) := by
  unfold applyEffect
  rw [waits]
  rfl

theorem applyEffect_refuses (bad : sumsOk s img = false ∨ trimCodesOk s img = false) :
    ∃ c, applyEffect s = count 0x70 1 (refuse 0x70 c (grpOf s 0x70) (applyTaken s)) := by
  rw [applyEffect_eq waits]
  cases sums : sumsOk s img
  · exact ⟨_, if_pos rfl⟩
  · have codes : trimCodesOk s img = false := bad.resolve_left (by simp [sums])
    exact ⟨_, (if_neg (by simp)).trans (if_pos (by simp [codes]))⟩

theorem applyEffect_applies (sums : sumsOk s img = true) (codes : trimCodesOk s img = true) :
    applyEffect s = if (imageLoaded img s).chan.map (·.trim) = s.chan.map (·.trim) then imageLoaded img s else setUncomp (imageLoaded img s) := by
  rw [applyEffect_eq waits, if_neg (by simp [sums]), if_neg (by simp [codes])]

end

theorem trim_setOffs (e : Nat) (trim track : Int) (x : Chan) : (setOffs e trim track x).trim = trim := by
  unfold setOffs
  split <;> rfl

/-- Each channel takes the trim that the image gives it. -/
theorem trim_imageLoaded {s : State} (shaped : s.chan.length = 384) (img : Ram Byte) {c : Nat} (hc : c < 384) :
    (getChan (imageLoaded img s) c).trim = effOf s img (qTrim c) := by
  have inside : c < s.chan.length := by omega
  have chan : (imageLoaded img s).chan = (loadTrims { s with cal := { s.cal with apply := none, eff := img } }).chan := rfl
  unfold getChan
  rw [chan]
  unfold loadTrims
  rw [getD_mapIdxN _ _ _ inside, trim_setOffs, List.getD_eq_getElem _ _ (by simpa using hc), List.getElem_map, List.getElem_range]
  rfl

theorem chan_setUncomp (s : State) : (setUncomp s).chan = s.chan := Only.chan (M := [.orb, .pll]) (by simp) (by decide)
theorem cal_setUncomp (s : State) : (setUncomp s).cal = s.cal := Only.cal (M := [.orb, .pll]) (by simp) (by decide)

theorem uncomp_setUncomp (s : State) : (setUncomp s).pll.uncomp = true := by
  unfold setUncomp setPhase markPhase
  dsimp only
  split_ifs <;> rfl

/-- A trim that changes leaves the phase compensation void (R88, R376). -/
theorem applyEffect_spec {s : State} {img : Ram Byte} (waits : s.cal.apply = some img) (shaped : s.chan.length = 384)
    (sums : sumsOk s img = true) (codes : trimCodesOk s img = true) :
    (applyEffect s).cal = { s.cal with apply := none, eff := img } ∧
    (∀ c, c < 384 → (getChan (applyEffect s) c).trim = effOf s img (qTrim c)) ∧
    ((∃ c, c < 384 ∧ (getChan s c).trim ≠ effOf s img (qTrim c)) → (applyEffect s).pll.uncomp = true) := by
  have trims := fun c (hc : c < 384) => trim_imageLoaded shaped img hc
  rw [applyEffect_applies waits sums codes]
  split
  case isTrue same =>
    refine ⟨rfl, trims, fun ⟨c, hc, changed⟩ => absurd ?_ changed⟩
    have here := congrArg (fun l : List Int => l.getD c 0) same
    rw [← trims c hc]
    have read (u : State) : (u.chan.map (·.trim)).getD c 0 = (getChan u c).trim := List.getD_map u.chan {} Chan.trim
    exact ((read s).symm.trans here.symm).trans (read _)
  case isFalse changed =>
    refine ⟨cal_setUncomp _, fun c hc => ?_, fun _ => uncomp_setUncomp _⟩
    rw [getChan, chan_setUncomp]
    exact trims c hc

/-- What the service of an apply in IDLE does (R376). -/
theorem trimApply_spec {s : State} (run : s.pw.coreRun = true) (idle : s.orb.st = .idle) {img : Ram Byte}
    (waits : s.cal.apply = some img) (shaped : s.chan.length = 384) :
    ((sumsOk s img = false ∨ trimCodesOk s img = false) → (trimApply s).cal = { s.cal with apply := none } ∧
      (trimApply s).chan = s.chan ∧ (trimApply s).fab.regs = s.fab.regs ∧ (trimApply s).pll = s.pll) ∧
    (sumsOk s img = true → trimCodesOk s img = true → (trimApply s).cal = { s.cal with apply := none, eff := img } ∧
      (∀ c, c < 384 → (getChan (trimApply s) c).trim = effOf s img (qTrim c)) ∧
      ((∃ c, c < 384 ∧ (getChan s c).trim ≠ effOf s img (qTrim c)) → (trimApply s).pll.uncomp = true)) := by
  have acts : trimApply s = flintJudge (applyEffect s) := if_pos (by simp [run, idle])
  have judged (u : State) : Only [.orb, .flint, .fout] u (flintJudge u) := by simp
  have chan (u : State) : (flintJudge u).chan = u.chan := (judged u).chan (by decide)
  have cal (u : State) : (flintJudge u).cal = u.cal := (judged u).cal (by decide)
  have pll (u : State) : (flintJudge u).pll = u.pll := (judged u).pll (by decide)
  have fab (u : State) : (flintJudge u).fab = u.fab := (judged u).fab (by decide)
  rw [acts, chan, cal, pll, fab]
  refine ⟨fun bad => ?_, fun sums codes => ?_⟩
  · obtain ⟨c, refused⟩ := applyEffect_refuses waits bad
    have only : Only [.fab] (applyTaken s) (applyEffect s) := by simp [refused]
    have regs : (applyEffect s).fab.regs = (applyTaken s).fab.regs := by
      rw [refused, regs_count]
      exact (kept_refuse (C := ∅) _ _ _ _).regs
    exact ⟨only.cal (by decide), only.chan (by decide), regs, only.pll (by decide)⟩
  · obtain ⟨inEffect, trims, uncomp⟩ := applyEffect_spec waits shaped sums codes
    refine ⟨inEffect, fun c hc => ?_, uncomp⟩
    rw [getChan, chan]
    exact trims c hc

end Sys2Proof.Machine
end

section
/-! The monitor (R382–R389): what MON_CMD and MON_CFG make of its run, and what each result leaves. -/

namespace Sys2Proof.Machine

/-! ### MON_CMD and MON_CFG (R385, R386) -/

/-- The run as it starts or restarts, with its filter empty; `old` is the run that it ends, where a result of that may still come. -/
def monStarted (x : Mon) (now : Nat) (old : Option (Nat × Nat × Nat)) : Mon :=
  { x with running := true, settling := true, ready := false, startAt := now, nres := 0, old := old }

def monStopped (x : Mon) : Mon := { x with running := false, settling := false }

theorem mon_count (p i : Nat) (s : State) : (count p i s).mon = s.mon := Only.mon (M := [.fab]) (by simp) (by decide)

theorem told_monCommand (start stop : Bool) (s : State) : Told [0x60, 0x7C] s (monCommand start stop s) := by
  have counted (i : Nat) (u : State) : Told [0x60, 0x7C] u (count 0x60 i u) := told_count u (by decide) i (by decide)
  have begun : Told [0x60, 0x7C] s (monBegin s) := .of_fab rfl
  have halted : Told [0x60, 0x7C] s (monHalt s) := .of_fab rfl
  unfold monCommand
  exact ((counted 1 s).ite (.refl s)).ite (halted.ite ((((begun.trans (counted 0 _)).ite begun)).ite (.refl s)))

theorem mon_start_active {s : State} (active : (pageSt s 0x60).active = true) :
    (monCommand true false s).mon = monStarted s.mon s.pw.sup none := by
  unfold monCommand
  simp only [active, Bool.not_true, Bool.false_eq_true, if_false, if_true]
  split
  · rw [mon_count]
    rfl
  · rfl

theorem mon_start_inactive {s : State} (inactive : (pageSt s 0x60).active = false) : (monCommand true false s).mon = s.mon := by
  unfold monCommand
  simp only [inactive, Bool.not_false, if_true, mon_count]

theorem mon_stop_active {s : State} (active : (pageSt s 0x60).active = true) : (monCommand false true s).mon = monStopped s.mon := by
  simp [monCommand, active, monHalt, monStopped]

theorem mon_stop_inactive {s : State} (inactive : (pageSt s 0x60).active = false) : (monCommand false true s).mon = s.mon := by
  simp [monCommand, inactive]

/-- The word of MON_CFG that a write of `v` leaves. -/
def monWord (v : Nat) : Nat := v % 2 ^ 18 &&& 0x3F31F

/-- The run with its new configuration, and the one that it ends. -/
def monRestarted (v : Nat) (s : State) : State :=
  { setReg 0x60 0x040 (monWord v) s with mon := monStarted s.mon s.pw.sup (some (regAt s 0x60 0x040, s.mon.startAt, s.mon.nres)) }

theorem monConfig_eq (v : Nat) (s : State) : monConfig v s =
    if s.mon.running then count 0x60 0 (monRestarted v s) else setReg 0x60 0x040 (monWord v) s := rfl

theorem buf_monConfig (v : Nat) (s : State) : (monConfig v s).fab.buf = s.fab.buf := by
  have told : Told [0x60, 0x7C] (monRestarted v s) (count 0x60 0 (monRestarted v s)) := told_count _ (by decide) 0 (by decide)
  rw [monConfig_eq]
  split
  · rw [told.fab]
    rfl
  · rfl

/-- The word is held, and a run that is in progress restarts. -/
theorem monConfig_spec {s : State} (keys : keysFrom 0 s.fab.regs = true) (v : Nat) :
    regAt (monConfig v s) 0x60 0x040 = monWord v ∧
    (s.mon.running = true →
      (monConfig v s).mon = monStarted s.mon s.pw.sup (some (regAt s 0x60 0x040, s.mon.startAt, s.mon.nres))) ∧
    (s.mon.running = false → (monConfig v s).mon = s.mon) := by
  have small : monWord v < 2 ^ 32 := lt_of_le_of_lt Nat.and_le_right (by decide)
  have held : regAt (setReg 0x60 0x040 (monWord v) s) 0x60 0x040 = monWord v :=
    (regAt_setReg _ _ _ _ keys).trans (Nat.mod_eq_of_lt small)
  rw [monConfig_eq]
  cases runs : s.mon.running
  · exact ⟨held, nofun, fun _ => rfl⟩
  · refine ⟨?_, fun _ => mon_count _ _ _, nofun⟩
    rw [if_pos rfl, regAt, regs_count]
    exact held

section
variable {s : State} {m : Master} (hp : s.pw.por = false) (canon : Canonical s) (serves : Serves s m 0x60) (nothing : NothingToApply s 0x60)
include hp canon serves nothing

/-- A served word of page 0x60 acts on a state that differs in the master's record and in page headers as they were. -/
theorem rowWrite_monitor {o v : Nat} (ho : o < 0x1000) (aligned : o % 4 = 0) (plain : isGuarded 0x60 o = false)
    (value : ¬ (0x800 ≤ o ∧ isGuarded 0x60 (o - 0x800) = true)) (listed : (regForm 0x60 o).isSome = true)
    (allowed : writeRefusal s 0x60 o v = none)
    (keeps : ∀ w u : State, w = writeEffect m 0x60 o (BitVec.ofNat 32 v).toNat u → w.fab.buf = u.fab.buf ∧ w.pw = u.pw) :
    ∃ u, Access s u ∧ running (rowWrite m (addrOf 0x60 o) v) s = writeEffect m 0x60 o (BitVec.ofNat 32 v).toNat u := by
  obtain ⟨u, access, row⟩ := rowWrite_sup serves canon.pages (by decide) ho aligned plain value listed allowed
  obtain ⟨buf, pw⟩ := keeps _ u rfl
  refine ⟨u, access, (running_eq _ hp).trans (row.trans ?_)⟩
  exact applySup_idle (buf.trans (buf_of_access access)) (by rw [pw, pw_of_access access]) (addr_page _ _ ho) nothing

theorem exec_monCommand (v : Nat) (small : v < 4) : ∃ u, Access s u ∧
    running (rowWrite m 0x60044 v) s = monCommand (v.testBit 0) (v.testBit 1) u := by
  have word : (BitVec.ofNat 32 v).toNat = v := by simp only [BitVec.toNat_ofNat]; omega
  have effect (u : State) : writeEffect m 0x60 0x044 v u = monCommand (v.testBit 0) (v.testBit 1) u := by
    simp [writeEffect, sideEffect, ownWrite, pgIn, regForm, formMon]
  obtain ⟨u, access, row⟩ := rowWrite_monitor hp canon serves nothing (o := 0x044) (v := v) (by decide) (by decide) (by decide) (by decide)
    (by decide) (by simp [writeRefusal, rangeOk, pgIn]) (fun w u hw => by
      rw [word, effect] at hw
      subst hw
      exact ⟨by rw [(told_monCommand _ _ u).fab], Only.pw (M := [.fab, .mon]) (by simp) (by decide)⟩)
  rw [word, effect] at row
  exact ⟨u, access, row⟩

theorem exec_monConfig (v : Word) (range : fld v.toNat 12 4 ≤ 9) : ∃ u, Access s u ∧
    running (rowWrite m 0x60040 v.toNat) s = monConfig v.toNat u := by
  have word : (BitVec.ofNat 32 v.toNat).toNat = v.toNat := by simp
  have effect (u : State) : writeEffect m 0x60 0x040 v.toNat u = monConfig v.toNat u := by
    simp [writeEffect, ownEffect, ownWrite, pgIn]
  obtain ⟨u, access, row⟩ := rowWrite_monitor hp canon serves nothing (o := 0x040) (v := v.toNat) (by decide) (by decide) (by decide)
    (by decide) (by decide) (by simp [writeRefusal, rangeOk, pgIn, range]) (fun w u hw => by
      rw [word, effect] at hw
      subst hw
      exact ⟨buf_monConfig _ u, Only.pw (M := [.fab, .mon]) (by simp) (by decide)⟩)
  rw [word, effect] at row
  exact ⟨u, access, row⟩

end

/-! ### Results (R388, R432) -/

/-- Code and OVR of a result: calibrated with VDDP, without it not defined. -/
def monFigure (s : State) (cfg : Nat) (level : Int) : Nat × Bool :=
  if s.pw.vddp then monValue s (cfg % 32) (monRaw (cfg % 32) level) else ((takeFree s).1 % 65536, (takeFree s).1.testBit 16)

theorem monFigure_lt (s : State) (cfg : Nat) (level : Int) : (monFigure s cfg level).1 < 65536 := by
  unfold monFigure
  split
  · unfold monValue clampI
    dsimp only
    split_ifs <;> omega
  · exact Nat.mod_lt _ (by decide)

/-- The result as the page shows it. -/
def monShown (x : Mon) (insel : Nat) (r : Nat × Bool) : Mon :=
  { x with
    ovr := r.2, code := r.1, input := insel, rovr := r.2, rseq := (x.seq + 1) % 2 ^ 32 % 256, seq := (x.seq + 1) % 2 ^ 32,
    lasts := ramPut 0 x.lasts insel (r.1 + 0x10000 * b2n r.2 + 0x20000) }

/-- The state that shows the result; an undefined one has taken a free value. -/
def monResulted (cfg : Nat) (level : Int) (s : State) : State :=
  { (if s.pw.vddp then s else (takeFree s).2) with mon := monShown s.mon (cfg % 32) (monFigure s cfg level) }

/-- What a result counts and ships touches neither the monitor nor a word in force. -/
def MonKept (s t : State) : Prop := t.mon = s.mon ∧ FabKept ∅ s t ∧ OnlyAndUnfit [.pw, .fab, .acq, .ser, .mon] s t

theorem MonKept.trans {s t u : State} (h : MonKept s t) (k : MonKept t u) : MonKept s u :=
  ⟨k.1.trans h.1, h.2.1.trans k.2.1, h.2.2.trans k.2.2⟩

theorem monKept_count (p i : Nat) (s : State) : MonKept s (count p i s) :=
  ⟨mon_count p i s, kept_count s p i, .of_only (by simp)⟩

theorem monKept_monShip (cfg code insel : Nat) (ovr first : Bool) (s : State) : MonKept s (monShip cfg code insel ovr first s) := by
  have numbered (a : Acq) : MonKept s { s with acq := a } := ⟨rfl, .of_fab rfl, .of_only ((only_mk_acq s s a).2 (.refl _ _)).mono⟩
  have written (l : List Byte) (u : State) : MonKept u (writeBale 14 l u) :=
    ⟨Only.mon (M := [.fab, .ser, .frm]) (by simp) (by decide), .of_told (told_writeBale _ _ _), (unfit_writeBale 14 l u).mono⟩
  unfold monShip
  split
  · exact ⟨rfl, .refl s, .of_only (.refl _ _)⟩
  · split
    · exact monKept_count _ _ s
    · exact (numbered _).trans (written _ _)

/-- A result that comes to lie out of range counts. -/
def monCounted (edge : Bool) (s : State) : State := if edge then count 0x60 2 s else s

theorem monReport_eq (cfg n : Nat) (level : Int) (s : State) : monReport cfg n level s =
    monShip cfg (monFigure s cfg level).1 (cfg % 32) (monFigure s cfg level).2 (decide (n = 0))
      (monCounted ((monFigure s cfg level).2 && (decide (n = 0) || !s.mon.ovr)) (monResulted cfg level s)) := by
  have mon : (takeFree s).2.mon = s.mon := rfl
  unfold monReport monResulted monFigure monShown monCounted
  cases s.pw.vddp
  · simp only [Bool.false_eq_true, if_false, mon]
  · rfl

theorem monReport_spec (cfg n : Nat) (level : Int) (s : State) : MonKept (monResulted cfg level s) (monReport cfg n level s) := by
  have counted (edge : Bool) (u : State) : MonKept u (monCounted edge u) := by
    cases edge
    · exact ⟨rfl, .refl u, .of_only (.refl _ _)⟩
    · exact monKept_count 0x60 2 u
  rw [monReport_eq]
  exact (counted _ _).trans (monKept_monShip _ _ _ _ _ _)

/-- A result of the run whose records are `x`: the page shows it, and nothing else of the run has changed. -/
theorem monReport_shows (cfg n : Nat) (level : Int) (x : Mon) (s : State) :
    OnlyAndUnfit [.pw, .fab, .acq, .ser, .mon] s (monReport cfg n level { s with mon := x }) ∧
    (monReport cfg n level { s with mon := x }).fab.regs = s.fab.regs ∧
    (monReport cfg n level { s with mon := x }).mon = monShown x (cfg % 32) (monFigure s cfg level) := by
  obtain ⟨mon, kept, only⟩ := monReport_spec cfg n level { s with mon := x }
  have shown (u : State) (y : Mon) : Only [.pw, .mon] u { u with mon := y } := ((only_mk_mon u u y).2 (.refl _ _)).mono
  have free (u : State) : Only [.pw, .mon] u (takeFree u).2 := by simp
  have resulted : Only [.pw, .mon] s (monResulted cfg level { s with mon := x }) ∧
      FabKept ∅ s (monResulted cfg level { s with mon := x }) := by
    unfold monResulted
    split
    · exact ⟨shown s _, .of_fab rfl⟩
    · exact ⟨((shown s x).trans (free _)).trans (shown _ _), .of_fab rfl⟩
  exact ⟨(OnlyAndUnfit.of_only resulted.1.mono).trans only, (resulted.2.trans kept).regs, mon⟩

end Sys2Proof.Machine
end

section
/-! The monitor's results, the pulser's firings and verdicts, and the heritage formatter (R388, R394–R400, R409). -/

namespace Sys2Proof.Machine

/-! ### MONITOR_RESULT (R382, R386, R388) -/

theorem monFigure_vddp {s : State} (present : s.pw.vddp = true) (cfg : Nat) (level : Int) :
    monFigure s cfg level = monValue s (cfg % 32) (monRaw (cfg % 32) level) := if_pos present

section
variable {s : State} (runs : s.mon.running = true)
include runs

/-- In the CK_SUP cycle of the write that ended it, the run before delivers what is due (R386). -/
theorem monResult_ended {cfg start n : Nat} (level : Int) (old : s.mon.old = some (cfg, start, n)) (now : s.mon.startAt = s.pw.sup)
    (due : monDue cfg start n ≤ s.pw.sup) : monResult level s = monReport cfg n level { s with mon := { s.mon with old := none } } := by
  unfold monResult
  simp only [runs, old, now, Bool.not_true, Bool.false_eq_true, if_false, ne_eq, not_true_eq_false, Nat.not_lt.2 due]

/-- The run's records once a result of it is due. -/
def monAdvanced (x : Mon) (continuous : Bool) : Mon :=
  { x with running := continuous, settling := false, ready := true, nres := x.nres + 1 }

theorem monResult_running (level : Int) (own : s.mon.old = none ∨ s.mon.startAt ≠ s.pw.sup)
    (due : monDue (monCfg s) s.mon.startAt s.mon.nres ≤ s.pw.sup) :
    monResult level s = monReport (monCfg s) s.mon.nres level { s with mon := monAdvanced s.mon ((monCfg s).testBit 16) } := by
  have delivers : monRun level s = monReport (monCfg s) s.mon.nres level { s with mon := monAdvanced s.mon ((monCfg s).testBit 16) } :=
    if_neg (Nat.not_lt.2 due)
  rw [← delivers]
  unfold monResult
  rw [if_neg (by simp [runs])]
  rcases old : s.mon.old with _ | ⟨cfg, start, n⟩
  · rfl
  · have other : s.mon.startAt ≠ s.pw.sup := own.resolve_left (by simp [old])
    exact if_pos other

end

/-! ### PULSER_FIRING (R394, R395) -/

/-- The row that is closed, the last one fired, the counts and the slot judged. -/
def firings (s : State) : Option Nat × Nat × Nat × Nat × Nat := (s.pls.row, s.pls.last, s.pls.firings, s.pls.skips, s.pls.fired)

theorem firings_fireRow (r t f : Nat) (l : List Pulse) (s : State) :
    firings (fireRow r t f l s) = (some r, r, min 0xFFFF (s.pls.firings + 1), s.pls.skips, s.pls.fired) := by
  unfold fireRow
  dsimp only
  refine List.foldlRecOn (motive := fun u => firings u = (some r, r, min 0xFFFF (s.pls.firings + 1), s.pls.skips, s.pls.fired)) l _ rfl
    fun u fired p _ => ?_
  split
  · unfold firings
    rw [pls_setSite]
    exact fired
  · exact fired

theorem pls_countSkip (i : Nat) (s : State) : (countSkip i s).pls = { s.pls with skips := min 0xFFFF (s.pls.skips + 1) } :=
  Only.pls (s := { s with pls := { s.pls with skips := min 0xFFFF (s.pls.skips + 1) } }) (M := [.fab]) (by simp [countSkip]) (by decide)

/-- The slot's firing has been judged. -/
def slotJudged (s : State) : State := { s with pls := { s.pls with fired := s.pw.elapsed + 1 } }

section
variable {s : State} {r : Nat} (run : s.pw.coreRun = true) (fires : firingSlot s = true) (yet : s.pls.fired ≠ s.pw.elapsed + 1)
  (hr : r = fld (liveEntry s s.orb.slot) 3 3)
include run fires yet hr

theorem slotFiring_eq : slotFiring s = if rowBarred s r || !firingClear s r (slotStartCc s) then countSkip 0 (slotJudged s)
    else fireRow r (slotStartCc s) (regF s 0x64 0x040 8 3) (rowPulses s r) (slotJudged s) := by
  subst hr
  exact if_neg (by simp [run, fires, yet])

theorem slotFiring_spec : (slotFiring s).fab.regs = s.fab.regs ∧ (slotFiring s).pls.fired = s.pw.elapsed + 1 ∧
    (rowBarred s r = true ∨ firingClear s r (slotStartCc s) = false → (slotFiring s).pls.row = s.pls.row ∧
      (slotFiring s).pls.skips = min 0xFFFF (s.pls.skips + 1) ∧ (slotFiring s).pls.firings = s.pls.firings) ∧
    (rowBarred s r = false → firingClear s r (slotStartCc s) = true → (slotFiring s).pls.row = some r ∧ (slotFiring s).pls.last = r ∧
      (slotFiring s).pls.skips = s.pls.skips ∧ (slotFiring s).pls.firings = min 0xFFFF (s.pls.firings + 1)) := by
  rw [slotFiring_eq run fires yet hr]
  cases barred : rowBarred s r || !firingClear s r (slotStartCc s)
  · have held := firings_fireRow r (slotStartCc s) (regF s 0x64 0x040 8 3) (rowPulses s r) (slotJudged s)
    simp only [firings, Prod.mk.injEq] at held
    obtain ⟨row, last, counted, skips, fired⟩ := held
    simp only [Bool.or_eq_false_iff, Bool.not_eq_false'] at barred
    refine ⟨(told_fireRow _ _ _ _ _).regs, fired, fun skipped => ?_, fun _ _ => ⟨row, last, skips, counted⟩⟩
    simp [barred] at skipped
  · have judged := pls_countSkip 0 (slotJudged s)
    simp only [Bool.or_eq_true, Bool.not_eq_true'] at barred
    rw [if_pos rfl, judged]
    refine ⟨(told_countSkip _ _).regs, rfl, fun _ => ⟨rfl, rfl, rfl⟩, fun free clear => ?_⟩
    simp [free, clear] at barred

end

/-! ### SITE_VERDICT (R400) -/

theorem siteState_setSite {s : State} (keys : keysFrom 0 s.pls.states = true) (i v j : Nat) :
    siteState (setSite i v s) j = if j = i then v else siteState s j := by
  unfold siteState
  rw [pls_setSite]
  split
  case isTrue same => rw [same, ramGet_ramPut _ keys]
  case isFalse other => exact ramGet_ramPut_ne _ _ keys _ _ _ other

/-- The verdict of site `i` has been taken. -/
def verdictTaken (i : Nat) (s : State) : State := { s with pls := { s.pls with sites := s.pls.sites.filter (fun p => p.1 != i) } }

theorem verdict_eq {s : State} {k i t : Nat} (waits : s.pls.sites.find? (fun p => p.1 % 16 == k) = some (i, t)) (due : t ≤ s.pw.cc)
    (slot : s.pls.diagFired = false) (good : Bool) :
    verdict k good s = setSite i (if good && s.pw.vddp then 1 else 2) (verdictTaken i s) := by
  unfold verdict
  rw [waits]
  exact (if_neg (Nat.not_lt.2 due)).trans (if_neg (by simp [slot]))

/-! ### HERITAGE_FORMAT_START (R409–R414) -/

/-- The formatter with the bale of entry `e`, of which it has presented nothing. -/
def herStarted (e : Entry) (s : State) : State :=
  { modEntry e.seq (fun x => { x with hrep := { x.hrep with phase := herHold s e && !(herLost e 0 || herLost e 1), ecc := herEcc s e } })
      (modRep e.seq 1 (fun r => { r with engAt := some s.pw.cc }) (modRep e.seq 0 (fun r => { r with engAt := some s.pw.cc }) s)) with
    her := { s.her with
      fmt := true, lastErr := herLost e 0 || herLost e 1, seq := e.seq, sent := 0, formed := false
      bale := mkBale 7 7 true e.seq (e.slot % 4096 + 0x1000 * b2n (herHold s e) + 0x2000 * b2n (herEcc s e)) e.orbit
        (herPayload s e (herLost e 0 || herLost e 1) (herHold s e) (herEcc s e) ((s.her.cnt + 1) % 0x40000000)) } }

theorem herFormat_eq {s : State} {e : Entry} (run : s.pw.coreRun = true) (next : nextHer s = some e) (free : s.her.fmt = false)
    (lift0 : herLifted s e 0 = true) (lift1 : herLifted s e 1 = true) :
    herFormat s = if herLost e 0 || herLost e 1 then count 0x68 0 (herStarted e s) else herStarted e s := by
  unfold herFormat
  rw [next]
  exact if_neg (by simp [run, free, lift0, lift1])

theorem herFormat_spec {s : State} {e : Entry} (run : s.pw.coreRun = true) (next : nextHer s = some e) (free : s.her.fmt = false)
    (lift0 : herLifted s e 0 = true) (lift1 : herLifted s e 1 = true) :
    (herFormat s).fab.regs = s.fab.regs ∧ (herFormat s).her = (herStarted e s).her := by
  rw [herFormat_eq run next free lift0 lift1]
  split
  · exact ⟨regs_count _ _ _, Only.her (M := [.fab]) (by simp) (by decide)⟩
  · exact ⟨rfl, rfl⟩

end Sys2Proof.Machine
end

section
/-! The board services together: trims, monitor, pulser and heritage readout (R376–R414). -/

namespace Sys2Proof.Machine

theorem monWord_eq (v : Nat) : monWord v = v &&& 0x3F31F := by
  rw [monWord, ← Nat.and_two_pow_sub_one_eq_mod, Nat.and_assoc]
  rfl

section
variable {s : State} {m : Master} (hp : s.pw.por = false) (canon : Canonical s) (serves : Serves s m 0x60) (nothing : NothingToApply s 0x60)
include hp canon serves nothing

/-- MON_CMD acts on the run of the state that serves it, as its page is active or not. -/
theorem monCommand_served (v : Nat) (small : v < 4) : ∃ u w, running (rowWrite m 0x60044 v) s = w ∧ Only [.fab, .mon] s w ∧
    w.fab.regs = s.fab.regs ∧ w.mon = (monCommand (v.testBit 0) (v.testBit 1) u).mon ∧ u.mon = s.mon ∧ u.pw = s.pw ∧
    pageSt u 0x60 = pageSt s 0x60 := by
  obtain ⟨u, access, row⟩ := exec_monCommand hp canon serves nothing v small
  have only := only_of_access access
  exact ⟨u, _, row, (only.mono (by decide)).trans (by simp), (told_monCommand _ _ u).regs.trans (regs_of_access access), rfl,
    only.mon (by decide), pw_of_access access, access.pages _⟩

theorem monStart_served : ∃ u, exec (.monStart m) s = .next u ∧ Only [.fab, .mon] s u ∧ u.fab.regs = s.fab.regs ∧
    ((pageSt s 0x60).active = true → u.mon = monStarted s.mon s.pw.sup none) ∧ ((pageSt s 0x60).active = false → u.mon = s.mon) := by
  obtain ⟨u, w, row, only, regs, acted, mon, pw, page⟩ := monCommand_served hp canon serves nothing 1 (by decide)
  refine ⟨w, congrArg Host.Outcome.next row, only, regs, fun active => ?_, fun inactive => ?_⟩
  · rw [acted, ← mon, ← pw]
    exact mon_start_active (by rw [page, active])
  · rw [acted, ← mon]
    exact mon_start_inactive (by rw [page, inactive])

theorem monStop_served : ∃ u, exec (.monStop m) s = .next u ∧ Only [.fab, .mon] s u ∧ u.fab.regs = s.fab.regs ∧
    ((pageSt s 0x60).active = true → u.mon = monStopped s.mon) ∧ ((pageSt s 0x60).active = false → u.mon = s.mon) := by
  obtain ⟨u, w, row, only, regs, acted, mon, pw, page⟩ := monCommand_served hp canon serves nothing 2 (by decide)
  refine ⟨w, congrArg Host.Outcome.next row, only, regs, fun active => ?_, fun inactive => ?_⟩
  · rw [acted, ← mon]
    exact mon_stop_active (by rw [page, active])
  · rw [acted, ← mon]
    exact mon_stop_inactive (by rw [page, inactive])

theorem monCfg_served (v : Word) (range : fld v.toNat 12 4 ≤ 9) : ∃ u, exec (.monCfgWrite m v) s = .next u ∧ Only [.fab, .mon] s u ∧
    regAt u 0x60 0x040 = v.toNat &&& 0x3F31F ∧
    (s.mon.running = true → u.mon = monStarted s.mon s.pw.sup (some (regAt s 0x60 0x040, s.mon.startAt, s.mon.nres))) ∧
    (s.mon.running = false → u.mon = s.mon) := by
  obtain ⟨u, access, row⟩ := exec_monConfig hp canon serves nothing v range
  have only := only_of_access access
  have keys : keysFrom 0 u.fab.regs = true := by rw [regs_of_access access, canon.regs]
  have configured : Only [.fab, .mon] u (monConfig v.toNat u) := by simp
  obtain ⟨held, restarts, stays⟩ := monConfig_spec keys v.toNat
  have before : regAt u 0x60 0x040 = regAt s 0x60 0x040 := congrArg (regsGet · 0x60 0x040) (regs_of_access access)
  rw [only.mon (by decide), before, pw_of_access access] at restarts
  rw [only.mon (by decide)] at stays
  exact ⟨_, congrArg Host.Outcome.next row, (only.mono (by decide)).trans configured, held.trans (monWord_eq _), restarts, stays⟩

end

section
variable {s : State} (hp : s.pw.por = false) (runs : s.mon.running = true)
include hp runs

theorem monitorResult_ended {cfg start n : Nat} (level : Int) (old : s.mon.old = some (cfg, start, n)) (now : s.mon.startAt = s.pw.sup)
    (due : monDue cfg start n ≤ s.pw.sup) : ∃ u, exec (.monitorResult level) s = .next u ∧
    OnlyAndUnfit [.pw, .fab, .acq, .ser, .mon] s u ∧ u.fab.regs = s.fab.regs ∧
    u.mon = monShown { s.mon with old := none } (cfg % 32) (monFigure s cfg level) := by
  obtain ⟨only, regs, mon⟩ := monReport_shows cfg n level { s.mon with old := none } s
  exact ⟨_, congrArg Host.Outcome.next ((running_eq _ hp).trans (monResult_ended runs level old now due)), only, regs, mon⟩

theorem monitorResult_running (level : Int) (own : s.mon.old = none ∨ s.mon.startAt ≠ s.pw.sup)
    (due : monDue (monCfg s) s.mon.startAt s.mon.nres ≤ s.pw.sup) : ∃ u, exec (.monitorResult level) s = .next u ∧
    OnlyAndUnfit [.pw, .fab, .acq, .ser, .mon] s u ∧ u.fab.regs = s.fab.regs ∧
    u.mon = monShown (monAdvanced s.mon ((monCfg s).testBit 16)) (monCfg s % 32) (monFigure s (monCfg s) level) := by
  obtain ⟨only, regs, mon⟩ := monReport_shows (monCfg s) s.mon.nres level (monAdvanced s.mon ((monCfg s).testBit 16)) s
  exact ⟨_, congrArg Host.Outcome.next ((running_eq _ hp).trans (monResult_running runs level own due)), only, regs, mon⟩

end

/-- Settles O60: each command acts on the records of its own service, and what it counts, shows or ships beside them writes no word. -/
theorem boardServices : Obligations.BoardServices := by
  intro s hp
  refine ⟨fun img run idle waits shaped => ?_, fun m canon serves nothing => ⟨monStart_served hp canon serves nothing,
    monStop_served hp canon serves nothing, monCfg_served hp canon serves nothing⟩,
    fun level cfg start n runs old now due => ?_, fun level cfg hcfg runs own due => ?_,
    fun run => ⟨fun r fires yet hr => ?_, fun r closed due => ?_, fun blanking due => ?_, fun k good i t waits due slot keys => ?_,
      fun e err hold ecc next free lift0 lift1 herr hhold hecc => ?_⟩⟩
  · obtain ⟨refused, applied⟩ := trimApply_spec run idle waits shaped.chan
    exact ⟨trimApply s, congrArg _ (coreOnly_eq _ hp run), by simp, refused, applied⟩
  · obtain ⟨u, acts, only, regs, mon⟩ := monitorResult_ended hp runs level old now due
    refine ⟨u, acts, only, regs, ?_⟩
    rw [mon]
    exact ⟨runs, rfl, rfl, rfl, rfl, rfl, fun present => congrArg Prod.fst (monFigure_vddp present cfg level)⟩
  · subst hcfg
    obtain ⟨u, acts, only, regs, mon⟩ := monitorResult_running hp runs level own due
    refine ⟨u, acts, only, regs, ?_⟩
    rw [mon]
    refine ⟨rfl, rfl, rfl, rfl, rfl, monFigure_lt _ _ _, fun present => ?_⟩
    have figure := monFigure_vddp present (monCfg s) level
    exact ⟨congrArg Prod.fst figure, congrArg Prod.snd figure⟩
  · exact ⟨slotFiring s, congrArg _ (coreOnly_eq _ hp run), by simp, slotFiring_spec run fires yet hr⟩
  · exact congrArg _ ((coreOnly_eq _ hp run).trans (if_pos ⟨by simp [closed], due⟩))
  · exact congrArg _ ((coreOnly_eq _ hp run).trans (if_pos ⟨blanking, due⟩))
  · have acts := (coreOnly_eq (verdict k.val good) hp run).trans (verdict_eq waits due slot good)
    have taken : Only [.fab, .pls] s (verdictTaken i s) := ((only_mk_pls s s _).2 (.refl _ _)).mono
    refine ⟨_, congrArg Host.Outcome.next acts, taken.trans (by simp), (told_setSite _ _ _).regs, ?_,
      siteState_setSite (s := verdictTaken i s) keys i _⟩
    rw [pls_setSite]
    rfl
  · subst herr hhold hecc
    obtain ⟨regs, her⟩ := herFormat_spec run next free lift0 lift1
    exact ⟨herFormat s, congrArg _ (coreOnly_eq _ hp run), by simp, regs, her⟩

end Sys2Proof.Machine
end
